-- ==== Sys2Proof/Word.lean ====
section
/-! DEFINITION. The plain words of the part: bytes, half-words, words and register words. -/

namespace Sys2Proof

/-- A byte of any memory of the part. -/
abbrev Byte := BitVec 8

/-- A 32-bit value: an FP32 bit pattern, a generator state, a token ID. -/
abbrev W32 := BitVec 32

/-- A 64-bit value: a register (R14), one word of a step, descriptor or record. -/
abbrev W64 := BitVec 64

end Sys2Proof
end

