-- ==== Sys2Proof/Machine/Bits.lean ====
section
/-! DEFINITION. Bit fields, byte order (R13) and the sparse maps in which State holds registers, memories and units. -/

namespace Sys2Proof.Machine

/-- The value of `width` bits of `w` from bit `lo` upward (R12). -/
def bitsOf (w lo width : Nat) : Nat := (w >>> lo) % 2 ^ width

/-- Bit `i` of a number. -/
def bitAt (w i : Nat) : Bool := w.testBit i

/-- A Boolean as a bit. -/
def b2n (b : Bool) : Nat := if b then 1 else 0

/-- A bit field of a 64-bit word: its lowest bit and its width (R12). -/
structure Fld where
  lo : Nat
  width : Nat
  deriving DecidableEq, Repr

/-- The bits that a field covers. -/
def fldMask (f : Fld) : W64 := BitVec.ofNat 64 ((2 ^ f.width - 1) <<< f.lo)

/-- The value of a field. -/
def fldGet (w : W64) (f : Fld) : Nat := bitsOf w.toNat f.lo f.width

/-- The word with one field replaced; the value is taken modulo the field's width. -/
def fldSet (w : W64) (f : Fld) (v : Nat) : W64 :=
  (w &&& ~~~(fldMask f)) ||| BitVec.ofNat 64 ((v % 2 ^ f.width) <<< f.lo)

/-- Addition that saturates at the largest value of a field. -/
def satAdd (width a b : Nat) : Nat := min (a + b) (2 ^ width - 1)

/-- Two's-complement reading of `width` bits. -/
def asSigned (width v : Nat) : Int :=
  if 2 * (v % 2 ^ width) < 2 ^ width then Int.ofNat (v % 2 ^ width) else Int.ofNat (v % 2 ^ width) - 2 ^ width

/-- Two's-complement bits of an integer. -/
def ofSigned (width : Nat) (i : Int) : Nat := (i % (2 ^ width : Int)).toNat

/-- The bytes of a number, least significant first (R13). -/
def leBytes : Nat → Nat → List Byte
  | 0, _ => []
  | n + 1, v => BitVec.ofNat 8 v :: leBytes n (v / 256)

/-- The number that bytes spell, least significant first (R13). -/
def leNat : List Byte → Nat
  | [] => 0
  | b :: r => b.toNat + 256 * leNat r

/-- The bytes of a number, most significant first. -/
def beBytes (n v : Nat) : List Byte := (leBytes n v).reverse

/-- The number that bytes spell, most significant first. -/
def beNat (bs : List Byte) : Nat := bs.foldl (fun a b => a * 256 + b.toNat) 0

/-- The 64-bit little-endian words of a record (R13). -/
def leWords : Nat → List Byte → List Nat
  | 0, _ => []
  | n + 1, bs => leNat (bs.take 8) :: leWords n (bs.drop 8)

/-- Word `i` of a list of words, 0 beyond its end. -/
def wordAt (ws : List Nat) (i : Nat) : Nat := (ws[i]?).getD 0

/-- A list with position `i` replaced; unchanged where it has no such position. -/
def listSet {α : Type} (l : List α) (i : Nat) (v : α) : List α := l.set i v

/-- The first `n` numbers from `lo` upward. -/
def rangeFrom (lo n : Nat) : List Nat := (List.range n).map (lo + ·)

/-- Number of ones in the low `n` bits. -/
def popcount (n v : Nat) : Nat := ((List.range n).filter (fun i => v.testBit i)).length

/-- Position of the `k`-th set bit of the low `n` bits, counting from bit 0 (R422). -/
def nthSetBit (n v k : Nat) : Option Nat := ((List.range n).filter (fun i => v.testBit i))[k]?

/-- Ceiling division. -/
def ceilDiv (a b : Nat) : Nat := (a + b - 1) / b

/-- Round up to a multiple. -/
def roundUp (a b : Nat) : Nat := ceilDiv a b * b

/-- A sparse map from numbers: pairs with strictly rising keys; an absent key reads as the map's default. -/
abbrev SMap (α : Type) := List (Nat × α)

/-- The entry of a key, where the map lists one. -/
def smFind {α : Type} : SMap α → Nat → Option α
  | [], _ => none
  | (k, v) :: r, i => if i = k then some v else if i < k then none else smFind r i

/-- The value of a key. -/
def smGet {α : Type} (d : α) (m : SMap α) (i : Nat) : α := (smFind m i).getD d

/-- The map with one key set. -/
def smPut {α : Type} : SMap α → Nat → α → SMap α
  | [], i, v => [(i, v)]
  | (k, w) :: r, i, v =>
    if i = k then (i, v) :: r else if i < k then (i, v) :: (k, w) :: r else (k, w) :: smPut r i v

/-- The map with one key unlisted. -/
def smDel {α : Type} : SMap α → Nat → SMap α
  | [], _ => []
  | (k, w) :: r, i => if i = k then r else if i < k then (k, w) :: r else (k, w) :: smDel r i

/-- Set a key and keep the canonical form: a key set to the default is unlisted. -/
def smSet {α : Type} [DecidableEq α] (d : α) (m : SMap α) (i : Nat) (v : α) : SMap α :=
  if v = d then smDel m i else smPut m i v

/-- Change the value of a key. -/
def smMod {α : Type} [DecidableEq α] (d : α) (m : SMap α) (i : Nat) (f : α → α) : SMap α :=
  smSet d m i (f (smGet d m i))

/-- Every listed key lies above `lo`, and keys rise strictly. -/
def smSorted {α : Type} : Option Nat → SMap α → Bool
  | _, [] => true
  | none, (k, _) :: r => smSorted (some k) r
  | some lo, (k, _) :: r => decide (lo < k) && smSorted (some k) r

/-- Canonical form: keys rise strictly and no entry equals the default of its key. -/
def smWf {α : Type} [DecidableEq α] (d : Nat → α) (m : SMap α) : Bool :=
  smSorted none m && m.all (fun e => decide (e.2 ≠ d e.1))

/-- Unlist every key from `lo` up to but not including `hi`. -/
def smClear {α : Type} (m : SMap α) (lo hi : Nat) : SMap α :=
  m.filter (fun e => decide (e.1 < lo) || decide (hi ≤ e.1))

/-- A byte memory: a sparse map of bytes whose unlisted cells read 0. -/
abbrev Mem := List (Nat × Byte)

/-- One byte of a memory. -/
def memByte (m : Mem) (a : Nat) : Byte := smGet 0#8 m a

/-- Write one byte, keeping the canonical form. -/
def memPut (m : Mem) (a : Nat) (b : Byte) : Mem := smSet 0#8 m a b

/-- Read `n` bytes upward from `a`. -/
def memRead (m : Mem) (a n : Nat) : List Byte := (rangeFrom a n).map (memByte m)

/-- Write bytes upward from `a`. -/
def memWrite : Mem → Nat → List Byte → Mem
  | m, _, [] => m
  | m, a, b :: r => memWrite (memPut m a b) (a + 1) r

/-- The canonical form of a byte memory. -/
def memWf (m : Mem) : Bool := smWf (fun _ => 0#8) m

end Sys2Proof.Machine
end

