-- ==== Sys2Proof/Machine/Topology.lean ====
section
/-! DEFINITION. What is fixed at assembly: variants, dies, sites, edges, crossings, arbiters and the routes between them
(R2, R25 to R31, R318 to R330, R337, R358, R371, R384). -/

namespace Sys2Proof.Machine

/-- The assembly variants (R2). -/
inductive Variant
  | S | M | N
  deriving DecidableEq, Repr

/-- `TOP_ID.VARIANT` (R8). -/
def variantCode : Variant → Nat
  | .S => 1 | .M => 2 | .N => 3

/-- Number of cores (R2). -/
def coreCount : Nat := 256

/-- I/O dies of a variant (R28). -/
def ioDies : Variant → Nat
  | .N => 4 | _ => 2

/-- Populated far sites of one compute stack (R26). -/
def sitesPerStack : Variant → Nat
  | .M => 3 | _ => 2

/-- A far site from 0 to 11 carries a far stack (R26). -/
def farPresent (v : Variant) (f : Nat) : Bool := decide (f < 12) && decide (f % 3 < sitesPerStack v)

/-- The populated far sites (R26). -/
def farSites (v : Variant) : List Nat := (List.range 12).filter (farPresent v)

/-- Bytes of one far stack (R2): 128 GiB. -/
def farStackBytes : Nat := 2 ^ 37

/-- Bytes of far memory of a variant (R2, R26): a stack on each of 8 sites, or of 12 on M. -/
def farBytes : Variant → Nat
  | .S => 8 * farStackBytes | .M => 12 * farStackBytes | .N => 8 * farStackBytes

/-- Bytes of one of the 128 sets (R199): 8 GiB, or 12 GiB on M. -/
def setBytes (v : Variant) : Nat := farBytes v / 128

/-- The default, which is also the greatest, package power limit in watts (R2, R3). -/
def powerDefault : Variant → Nat
  | .S => 2200 | _ => 2400

/-- A die number, 0 to 3 for logic dies and 4 to 7 for I/O dies, names a die of the variant (R28, R496). -/
def diePresent (v : Variant) (d : Nat) : Bool := decide (d < 4) || (decide (4 ≤ d) && decide (d < 4 + ioDies v))

/-- The logic die of a core (R23). -/
def coreStack (c : Nat) : Nat := c / 64
/-- The row of a core in its grid (R23). -/
def coreRow (c : Nat) : Nat := c / 8 % 8
/-- The column of a core in its grid (R23). -/
def coreCol (c : Nat) : Nat := c % 8

/-- The cores of a logic die (R23). -/
def dieCores (d : Nat) : List Nat := rangeFrom (64 * d) 64

/-- Compute stacks attached to an I/O die, the lower-numbered first (R28). -/
def ioStacks : Nat → Nat × Nat
  | 0 => (0, 1) | 1 => (2, 3) | 2 => (0, 2) | _ => (1, 3)

/-- The horizontal neighbour of a compute stack (R25, R29). -/
def horizNeighbour (s : Nat) : Nat := s ^^^ 1
/-- The vertical neighbour of a compute stack (R25, R29). -/
def vertNeighbour (s : Nat) : Nat := s ^^^ 2

/-- The die at the far end of edge `e` of die `d`: on a logic die the edges of stop IDs 35 to 38 (R327), on an I/O die the
edge to the lower-numbered compute stack and the other one (R371). -/
def edgePeer (v : Variant) (d e : Nat) : Option Nat :=
  if d < 4 then
    match e with
    | 0 => some (horizNeighbour d)
    | 1 => some (vertNeighbour d)
    | 2 => some (if d < 2 then 4 else 5)
    | 3 => if v = .N then some (if d % 2 = 0 then 6 else 7) else none
    | _ => none
  else if diePresent v d then
    match e with
    | 0 => some (ioStacks (d - 4)).1
    | 1 => some (ioStacks (d - 4)).2
    | _ => none
  else none

/-- Modules of an edge (R29): 24 between compute stacks, 12 to an I/O die. -/
def edgeModules (v : Variant) (d e : Nat) : Nat :=
  match edgePeer v d e with
  | none => 0
  | some p => if d < 4 && p < 4 then 24 else 12

/-- The edges of a die that exist. -/
def dieEdges (v : Variant) (d : Nat) : List Nat := (List.range 4).filter (fun e => (edgePeer v d e).isSome)

/-- The edge index of die `d` toward die `p`. -/
def edgeTo (v : Variant) (d p : Nat) : Option Nat := (List.range 4).find? (fun e => edgePeer v d e == some p)

/-- The sides of a logic die (R323). -/
inductive Side
  | north | east | south | west
  deriving DecidableEq, Repr

/-- A core's home gateway: its side, and the column or row of the gateway (R324). -/
def homeGateway (row col : Nat) : Side × Nat :=
  let a := if row < 4 then row else 7 - row
  let b := if col < 4 then col else 7 - col
  let hside := if row < 4 then Side.north else Side.south
  let vside := if col < 4 then Side.west else Side.east
  if a ≤ 1 then (hside, col)
  else if b ≤ 1 then (vside, row)
  else (vside, if row < 4 then row - 2 else row + 2)

/-- The stop ID of a gateway (R326). -/
def gatewayStop : Side × Nat → Nat
  | (.north, c) => c
  | (.east, r) => 8 + r
  | (.south, c) => 16 + c
  | (.west, r) => 24 + r

/-- The grid position (row, column) of the router of a gateway (R323). -/
def gatewayRouter : Nat → Nat × Nat
  | g => if g < 8 then (0, g) else if g < 16 then (g - 8, 7) else if g < 24 then (7, g - 16) else (g - 24, 0)

/-- The ring position of a stop on compute stack 0 (R326, R327). -/
def stopPosition0 (stop : Nat) : Option Nat :=
  if stop < 8 then some (if stop < 4 then 1 + stop else 3 + stop)
  else if stop < 16 then some (if stop < 12 then 13 + (stop - 8) else 15 + (stop - 8))
  else if stop < 24 then some (if 20 ≤ stop then 25 + (23 - stop) else 31 + (19 - stop))
  else if stop < 32 then some (if 28 ≤ stop then 37 + (31 - stop) else 43 + (27 - stop))
  else match stop with
    | 32 => some 47 | 33 => some 42 | 34 => some 41 | 35 => some 17 | 36 => some 30 | 37 => some 6
    | 38 => some 36 | 39 => some 29 | 40 => some 0 | _ => none

/-- The moves of a unit stop's position for stacks 1, 2 and 3 (R327). -/
def mirrorH (p : Nat) : Nat := if p < 12 then 11 - p else 59 - p
/-- The second move of R327. -/
def mirrorV (p : Nat) : Nat := if p < 36 then 35 - p else 83 - p

/-- The ring position of a stop on a logic die; gateways lie alike on every die (R326, R327). -/
def stopPosition (d stop : Nat) : Option Nat :=
  (stopPosition0 stop).map fun p =>
    if stop < 32 then p
    else match d with
      | 0 => p
      | 1 => mirrorH p
      | 2 => mirrorV p
      | _ => mirrorV (mirrorH p)

/-- The stop exists on the die: stop 38 only on DTX-B44-N (R327). -/
def stopPresent (v : Variant) (stop : Nat) : Bool := decide (stop < 41) && (decide (stop ≠ 38) || decide (v = .N))

/-- The ring direction of a packet, clockwise when both ways are equally long (R328). -/
def ringClockwise (src dst : Nat) : Bool := decide (2 * ((dst + 48 - src) % 48) ≤ 48)

/-- XOR of the ten 4-bit groups of bits [39:0] (R328). -/
def fold4 (g : Nat) : Nat := (List.range 10).foldl (fun a i => a ^^^ bitsOf g (4 * i) 4) 0

/-- Packet classes of the mesh and ring (R321). -/
inductive PacketClass
  | request | reply
  deriving DecidableEq, Repr

/-- The ring lane of a packet; `far` is the far address it names, if any (R328). -/
def ringLane (cls : PacketClass) (far : Option Nat) (srcStop dstStop : Nat) : Nat :=
  match far, cls with
  | some a, .request => fold4 (a / 256)
  | some a, .reply => (fold4 (a / 256) + dstStop) % 16
  | none, _ => (srcStop + dstStop) % 16

/-- The flow key of a packet that crosses an edge (R384). -/
def flowKey (cls : PacketClass) (lane srcStop : Nat) : Nat :=
  (if cls = .reply then 48 else 0) + lane * 3 + srcStop % 3

/-- The next router of a packet inside a die: along its row, then along its column (R322). -/
def meshNext (row col drow dcol : Nat) : Nat × Nat :=
  if col < dcol then (row, col + 1) else if dcol < col then (row, col - 1)
  else if row < drow then (row + 1, col) else if drow < row then (row - 1, col) else (row, col)

/-- The three kinds of crossing (R358); the code is that of `XING_STATUS.KIND` (R374). -/
inductive XingKind
  | single | sample | queue
  deriving DecidableEq, Repr

/-- Single-signal, agreed-sample and queue crossings of an island type (R358). -/
def xingCounts : Nat → Nat × Nat × Nat
  | 0 => (4, 4, 2) | 1 => (2, 2, 2) | 2 => (2, 2, 4) | 3 => (2, 3, 2) | 4 => (2, 1, 2) | 5 => (2, 2, 2) | _ => (0, 0, 0)

/-- An island of a type and index lies on a die (R358, R371). -/
def islandPresent (v : Variant) (d ty idx : Nat) : Bool :=
  match ty with
  | 0 => decide (d = 4) && decide (idx = 0)
  | 1 => decide (d = 4) && decide (idx = 0)
  | 2 => decide (d < 4) && farPresent v (3 * d + idx) && decide (idx < 3)
  | 3 => decide (d < 4) && decide (idx < 64)
  | 4 => decide (idx % 32 < edgeModules v d (idx / 32))
  | 5 => decide (4 ≤ d) && diePresent v d && decide (idx < 6)
  | _ => false

/-- The kind of the crossing that a selection names: type in bits [3:0], index in [15:8], crossing in [19:16] (R372). -/
def xingKind (v : Variant) (d sel : Nat) : Option XingKind :=
  let ty := bitsOf sel 0 4
  let x := bitsOf sel 16 4
  let (a, b, c) := xingCounts ty
  if !islandPresent v d ty (bitsOf sel 8 8) ∨ bitsOf sel 4 4 ≠ 0 ∨ 2 ^ 20 ≤ sel then none
  else if x < a then some .single
  else if x < a + b then some .sample
  else if x < a + b + c then some .queue
  else none

/-- The code of a kind; 3 where there is no such crossing (R374). -/
def xingKindCode : Option XingKind → Nat
  | some .single => 0 | some .sample => 1 | some .queue => 2 | none => 3

/-- Instances per die and requesters of an arbiter type (R337). -/
def arbShape : Nat → Nat × Nat
  | 0 => (4096, 11) | 1 => (64, 4) | 2 => (48, 4) | 3 => (192, 4) | 4 => (82, 2) | 5 => (3, 5) | _ => (0, 0)

/-- Default weights of an arbiter type, requester i at bits [4i+3:4i] (R337, R354). -/
def arbWeights : Nat → Nat
  | 0 => 0x11111111111 | 1 => 0x1111 | 2 => 0x1211 | 3 => 0x1111 | 4 => 0x13 | 5 => 0x11111 | _ => 0

/-- The arbiter instance that a selection names exists (R348): type in bits [3:0], index in bits [19:8] (R352). -/
def arbPresent (sel : Nat) : Bool :=
  decide (bitsOf sel 4 4 = 0) && decide (sel < 2 ^ 20) && decide (bitsOf sel 8 12 < (arbShape (bitsOf sel 0 4)).1)

/-- An instance on a far port whose site is unpopulated makes no grants (R337). -/
def arbGrants (v : Variant) (d sel : Nat) : Bool :=
  match bitsOf sel 0 4 with
  | 3 => farPresent v (3 * d + bitsOf sel 8 12 / 64)
  | 5 => farPresent v (3 * d + bitsOf sel 8 12)
  | _ => true

/-- Die domains of bring-up: 0 to 3 the stacks, 4 to 7 the I/O dies (R674); the state 5 marks an absent one. -/
def domainPresent (v : Variant) (d : Nat) : Bool := diePresent v d

end Sys2Proof.Machine
end

