-- ==== Sys2Proof/Machine/AddrMap.lean ====
section
/-! DEFINITION. Device addresses (R19 to R22), the location of a slice grain (R173), the separator (R204 to R206), the home
slice of a line (R212) and mirror copies (R624). -/

namespace Sys2Proof.Machine

/-- Base of the slice region (R19). -/
def sliceBase : Nat := 0xC00000000000
/-- Base of the own-slice alias (R22, R129). -/
def sliceAlias : Nat := 0xC80000000000
/-- Base of the desk region (R19). -/
def deskBase : Nat := 0xD00000000000
/-- Base of the own-desk alias (R22, R129). -/
def deskAlias : Nat := 0xD10000000000
/-- Base of the host-memory window (R19). -/
def windowBase : Nat := 0xE00000000000
/-- Base of the register space (R19). -/
def registerBase : Nat := 0xF00000000000
/-- Backed bytes of a slice (R19): 384 MiB. -/
def sliceBytes : Nat := 0x18000000
/-- Backed bytes of a desk (R19): 8 MiB. -/
def deskBytes : Nat := 0x800000

/-- The address spaces of R22. -/
inductive Space
  | far (a : Nat)
  | slice (core off : Nat)
  | sliceAlias (off : Nat)
  | desk (core off : Nat)
  | deskAlias (off : Nat)
  | window (x : Nat)
  | register (off : Nat)
  | unbacked
  deriving DecidableEq, Repr

/-- The space of a 64-bit address before any translation; far addresses are checked by the translation (R20 to R22). -/
def spaceOf (a : Nat) : Space :=
  if a < sliceBase then .far a
  else if a < 0xC02000000000 then
    if (a - sliceBase) % 0x20000000 < sliceBytes then .slice ((a - sliceBase) / 0x20000000) ((a - sliceBase) % 0x20000000) else .unbacked
  else if a < sliceAlias then .unbacked
  else if a < sliceAlias + sliceBytes then .sliceAlias (a - sliceAlias)
  else if a < deskBase then .unbacked
  else if a < 0xD00100000000 then
    if (a - deskBase) % 0x1000000 < deskBytes then .desk ((a - deskBase) / 0x1000000) ((a - deskBase) % 0x1000000) else .unbacked
  else if a < deskAlias then .unbacked
  else if a < deskAlias + deskBytes then .deskAlias (a - deskAlias)
  else if a < windowBase then .unbacked
  else if a < registerBase then .window (a - windowBase)
  else if a < registerBase + 0x4000000 then .register (a - registerBase)
  else .unbacked

/-- Replace a local alias by the full address of the core's own slice or desk (R129). -/
def resolveAlias (core : Nat) : Space → Space
  | .sliceAlias o => .slice core o
  | .deskAlias o => .desk core o
  | x => x

/-- A location in a slice (R173). -/
structure SliceLoc where
  channel : Nat
  bank : Nat
  column : Nat
  row : Nat
  byte : Nat
  deriving DecidableEq, Repr

/-- The location of a slice offset (R173). -/
def sliceLoc (o : Nat) : SliceLoc :=
  let g := o / 256
  ⟨g % 16, ((g / 16) ^^^ (g / 2048)) % 16, (g / 256) % 8, g / 2048, o % 256⟩

/-- A location in far memory: far site and grain of the far stack (R206). -/
structure FarLoc where
  site : Nat
  l : Nat
  deriving DecidableEq, Repr

/-- XOR of the eleven 2-bit groups (R206). -/
def fold2 (h : Nat) : Nat := (List.range 11).foldl (fun x i => x ^^^ (h / 4 ^ i) % 4) 0

/-- The set of a far address (R204). -/
def setOf (v : Variant) (a : Nat) : Nat := a / setBytes v

/-- The separator (R206); `wide` is the scope of the address's set (R205). -/
def separator (v : Variant) (wide : Bool) (a : Nat) : FarLoc :=
  let w := sitesPerStack v
  let s := a / setBytes v
  let o := a % setBytes v
  if wide then
    let g := o / 256
    let h := g / (4 * w)
    let r := g % (4 * w)
    let cs := (r % 4) ^^^ fold2 h
    ⟨3 * cs + (r / 4 + h) % w, s * 2 ^ 22 + h⟩
  else
    let cs := o / (w * 2 ^ 30)
    let g := (o % (w * 2 ^ 30)) / 256
    let h := g / w
    ⟨3 * cs + (g % w + h) % w, s * 2 ^ 22 + h⟩

/-- The fields that the separator takes from the grain number of a far stack (R206). -/
structure FarFields where
  col : Nat
  bg : Nat
  bank : Nat
  sid : Nat
  row : Nat
  pc : Nat
  deriving DecidableEq, Repr

/-- Column, bank group, bank, stack ID, row and pseudo-channel of a far-stack grain (R206). -/
def farFields (l : Nat) : FarFields :=
  ⟨(l / 2 ^ 6) % 4, ((l / 2 ^ 8) ^^^ (l / 2 ^ 14)) % 4, ((l / 2 ^ 10) ^^^ (l / 2 ^ 16)) % 4,
   ((l / 2 ^ 12) ^^^ (l / 2 ^ 18)) % 4, l / 2 ^ 14, (l ^^^ (l / 2 ^ 14) ^^^ (l / 2 ^ 20) ^^^ (l / 2 ^ 26)) % 64⟩

/-- The inverse of the separator (R207, R249): the far address of a location. -/
def unseparate (v : Variant) (wide : Bool) (loc : FarLoc) : Nat :=
  let w := sitesPerStack v
  let s := loc.l / 2 ^ 22
  let h := loc.l % 2 ^ 22
  let cs := loc.site / 3
  let site := loc.site % 3
  let d := (site + 2 * w * (h + 1) - h) % w
  if wide then s * setBytes v + (h * (4 * w) + (d * 4 + (cs ^^^ fold2 h))) * 256
  else s * setBytes v + cs * (w * 2 ^ 30) + (h * w + d) * 256

/-- The shared-cache slice that is home to a location, numbered 3 × logic die + slice (R212). -/
def homeSlice (v : Variant) (loc : FarLoc) : Nat :=
  let cs := loc.site / 3
  match v with
  | .M => loc.site
  | _ => 3 * cs + (loc.l + loc.site % 3) % 3

/-- The location of the mirror copy of a grain, in mirror set `m` (R624). -/
def mirrorLoc (v : Variant) (m : Nat) (loc : FarLoc) : FarLoc :=
  ⟨3 * (loc.site / 3) + (loc.site % 3 + 1) % sitesPerStack v, m * 2 ^ 22 + loc.l % 2 ^ 22⟩

/-- The byte key of a location in the store of far memory. -/
def farKey (loc : FarLoc) : Nat := loc.site * 2 ^ 37 + loc.l * 256

/-- The byte key of a core's slice offset. -/
def sliceKey (core off : Nat) : Nat := core * 2 ^ 29 + off

/-- The byte key of a core's desk offset. -/
def deskKey (core off : Nat) : Nat := core * 2 ^ 24 + off

end Sys2Proof.Machine
end

