-- ==== Sys2Proof/Machine/Formats.lean ====
section
/-! DEFINITION. Number formats and arithmetic (R81 to R120): decoding, exact products and sums, rounding, conversion. -/

namespace Sys2Proof.Machine

/-- A decoded number: NaN, an infinity (`true` for the negative one), or `(-1)^neg * mant * 2^exp`. -/
inductive Num
  | nan
  | inf (neg : Bool)
  | fin (neg : Bool) (mant : Nat) (exp : Int)
  deriving DecidableEq, Repr

/-- Positive zero. -/
def Num.zero : Num := .fin false 0 0

/-- A number is zero. -/
def Num.isZero : Num → Bool
  | .fin _ m _ => decide (m = 0)
  | _ => false

/-- A number is finite. -/
def Num.isFinite : Num → Bool
  | .fin _ _ _ => true
  | _ => false

/-- An exact sum: `mant * 2^exp`. -/
structure Dyadic where
  mant : Int
  exp : Int
  deriving DecidableEq, Repr

/-- The exact sum of two dyadic numbers. -/
def dyAdd (a b : Dyadic) : Dyadic :=
  let e := min a.exp b.exp
  ⟨a.mant * 2 ^ (a.exp - e).toNat + b.mant * 2 ^ (b.exp - e).toNat, e⟩

/-- Format codes (R81). -/
inductive Fmt
  | int8 | e4m3 | e5m2 | mxint8 | mxE4m3 | mxE5m2 | mxE3m2 | mxE2m3 | fp4 | mxfp4 | split | bf16 | fp16 | fp32
  deriving DecidableEq, Repr

/-- The format of a code; 0xE and 0xF name none (R81). -/
def fmtOf : Nat → Option Fmt
  | 0x0 => some .int8 | 0x1 => some .e4m3 | 0x2 => some .e5m2 | 0x3 => some .mxint8 | 0x4 => some .mxE4m3
  | 0x5 => some .mxE5m2 | 0x6 => some .mxE3m2 | 0x7 => some .mxE2m3 | 0x8 => some .fp4 | 0x9 => some .mxfp4
  | 0xA => some .split | 0xB => some .bf16 | 0xC => some .fp16 | 0xD => some .fp32 | _ => none

/-- The format carries E8M0 block scales (R81). -/
def isMx : Fmt → Bool
  | .mxint8 | .mxE4m3 | .mxE5m2 | .mxE3m2 | .mxE2m3 | .mxfp4 | .split => true
  | _ => false

/-- A stream, gather or skim output may have this format (R81). -/
def isStreamOut : Fmt → Bool
  | .e4m3 | .e5m2 | .bf16 | .fp16 | .fp32 => true
  | _ => false

/-- A convert output may have this format (R81). -/
def isConvertOut (f : Fmt) : Bool := decide (f ≠ .split)

/-- An initialiser may have this format (R82). -/
def isInit : Fmt → Bool
  | .bf16 | .fp16 | .fp32 => true
  | _ => false

/-- Bits of one packed element (R86). -/
def fmtBits : Fmt → Nat
  | .fp4 | .mxfp4 | .split => 4
  | .mxE3m2 | .mxE2m3 => 6
  | .bf16 | .fp16 => 16
  | .fp32 => 32
  | _ => 8

/-- Binary floating-point element shapes (R83): significand bits, exponent of the smallest subnormal, mantissa field and
exponent field widths, and which all-ones codes are special. -/
structure FloatFmt where
  ebits : Nat
  mbits : Nat
  emin : Int
  hasInf : Bool
  hasNan : Bool
  maxBits : Nat
  canonNan : Nat
  deriving DecidableEq, Repr

/-- The shape of a floating-point format (R83, R108). -/
def floatFmt : Fmt → Option FloatFmt
  | .e4m3 | .mxE4m3 => some ⟨4, 3, -9, false, true, 0x7E, 0x7F⟩
  | .e5m2 | .mxE5m2 => some ⟨5, 2, -16, true, true, 0x7B, 0x7F⟩
  | .mxE3m2 => some ⟨3, 2, -4, false, false, 0x1F, 0⟩
  | .mxE2m3 => some ⟨2, 3, -3, false, false, 0x1F, 0⟩
  | .fp4 | .mxfp4 | .split => some ⟨2, 1, -1, false, false, 0x7, 0⟩
  | .bf16 => some ⟨8, 7, -133, true, true, 0x7F7F, 0x7FC0⟩
  | .fp16 => some ⟨5, 10, -24, true, true, 0x7BFF, 0x7E00⟩
  | .fp32 => some ⟨8, 23, -149, true, true, 0x7F7FFFFF, 0x7FC00000⟩
  | .int8 | .mxint8 => none

/-- Decode a floating-point element; subnormals are honoured (R83). -/
def decFloat (f : FloatFmt) (bits : Nat) : Num :=
  let neg := bitAt bits (f.ebits + f.mbits)
  let mag := bits % 2 ^ (f.ebits + f.mbits)
  let e := mag / 2 ^ f.mbits
  let m := mag % 2 ^ f.mbits
  if f.maxBits < mag ∧ (f.hasInf ∨ f.hasNan) then
    if f.hasInf ∧ m = 0 then .inf neg else .nan
  else if e = 0 then .fin neg m f.emin
  else .fin neg (2 ^ f.mbits + m) (f.emin + Int.ofNat (e - 1))

/-- Decode one element of a format, without its block scale (R83). -/
def decElem (f : Fmt) (bits : Nat) : Num :=
  match floatFmt f with
  | some ff => decFloat ff bits
  | none =>
    let v := asSigned 8 bits
    .fin (decide (v < 0)) v.natAbs (if f = .mxint8 then -6 else 0)

/-- An element with the scale byte of its block applied; 0xFF is NaN (R84). -/
def applyScale (s : Nat) (x : Num) : Num :=
  if s = 0xFF then .nan
  else match x with
    | .fin n m e => .fin n m (e + (Int.ofNat s - 127))
    | y => y

/-- The exact product of two numbers (R90, R94). -/
def numMul : Num → Num → Num
  | .nan, _ => .nan
  | _, .nan => .nan
  | .inf a, .inf b => .inf (a ^^ b)
  | .inf a, .fin b m _ => if m = 0 then .nan else .inf (a ^^ b)
  | .fin a m _, .inf b => if m = 0 then .nan else .inf (a ^^ b)
  | .fin a m e, .fin b n f => .fin (a ^^ b) (m * n) (e + f)

/-- The state of an exact group sum (R91, R94): NaN seen, infinities of each sign seen, and the finite sum. -/
structure GroupSum where
  nan : Bool
  pinf : Bool
  ninf : Bool
  sum : Dyadic
  deriving DecidableEq, Repr

/-- The empty group. -/
def GroupSum.empty : GroupSum := ⟨false, false, false, ⟨0, 0⟩⟩

/-- One product enters a group (R94). -/
def groupAdd (g : GroupSum) : Num → GroupSum
  | .nan => { g with nan := true }
  | .inf true => { g with ninf := true }
  | .inf false => { g with pinf := true }
  | .fin neg m e =>
    if m = 0 then g else { g with sum := dyAdd g.sum ⟨if neg then - Int.ofNat m else Int.ofNat m, e⟩ }

/-- The exact value of a group: NaN, an infinity or the exact finite sum (R94). -/
def groupNum (g : GroupSum) : Num :=
  if g.nan ∨ (g.pinf ∧ g.ninf) then .nan
  else if g.pinf then .inf false
  else if g.ninf then .inf true
  else .fin (decide (g.sum.mant < 0)) g.sum.mant.natAbs g.sum.exp

/-- How a value is rounded: to nearest even, or stochastically with a 16-bit draw (R105, R112). -/
inductive Rnd
  | nearest
  | stoch (draw : Nat)
  deriving DecidableEq, Repr

/-- Floor of the base-2 logarithm of a positive number. -/
def log2Floor (m : Nat) : Nat := m.log2

/-- The magnitude `m * 2^e` in units of `2^q`, rounded (R91, R112). -/
def roundUnits (r : Rnd) (m : Nat) (e q : Int) : Nat :=
  if q ≤ e then m * 2 ^ (e - q).toNat
  else
    let u := 2 ^ (q - e).toNat
    let k := m / u
    let rem := m % u
    match r with
    | .nearest => if 2 * rem > u ∨ (2 * rem = u ∧ k % 2 = 1) then k + 1 else k
    | .stoch d => if 2 ^ 16 ≤ rem * 2 ^ 16 / u + d then k + 1 else k

/-- The magnitude bits of a positive or zero dyadic in a format of `p` significand bits and smallest subnormal `2^emin`,
as if the exponent range had no upper end (R107). -/
def encodeMag (r : Rnd) (p : Nat) (emin : Int) (m : Nat) (e : Int) : Nat :=
  if m = 0 then 0
  else
    let q := max (Int.ofNat (log2Floor m) + e - Int.ofNat (p - 1)) emin
    (q - emin).toNat * 2 ^ (p - 1) + roundUnits r m e q

/-- The sign bit of a format above its magnitude bits. -/
def signed (f : FloatFmt) (neg : Bool) (mag : Nat) : Nat := mag + b2n neg * 2 ^ (f.ebits + f.mbits)

/-- Encode into FP32, BF16 or FP16: beyond the range an infinity of its sign (R94, R106), NaN canonical (R108). -/
def encodeIeee (f : FloatFmt) (r : Rnd) : Num → Nat
  | .nan => f.canonNan
  | .inf neg => signed f neg (f.maxBits + 1)
  | .fin neg m e => signed f neg (min (encodeMag r (f.mbits + 1) f.emin m e) (f.maxBits + 1))

/-- The FP32 shape. -/
def fp32Fmt : FloatFmt := ⟨8, 23, -149, true, true, 0x7F7FFFFF, 0x7FC00000⟩
/-- The BF16 shape. -/
def bf16Fmt : FloatFmt := ⟨8, 7, -133, true, true, 0x7F7F, 0x7FC0⟩
/-- The FP16 shape. -/
def fp16Fmt : FloatFmt := ⟨5, 10, -24, true, true, 0x7BFF, 0x7E00⟩

/-- Round to FP32 bits by nearest even (R91). An exact zero sum of a group is +0. -/
def rneFp32 (x : Num) : Nat := encodeIeee fp32Fmt .nearest x

/-- The number of FP32 bits. -/
def fp32Num (b : Nat) : Num := decFloat fp32Fmt b

/-- FP32 addition rounded to nearest even (R92, R94). -/
def fp32Add (a b : Nat) : Nat :=
  match fp32Num a, fp32Num b with
  | .nan, _ => fp32Fmt.canonNan
  | _, .nan => fp32Fmt.canonNan
  | .inf x, .inf y => if x = y then encodeIeee fp32Fmt .nearest (.inf x) else fp32Fmt.canonNan
  | .inf x, _ => encodeIeee fp32Fmt .nearest (.inf x)
  | _, .inf y => encodeIeee fp32Fmt .nearest (.inf y)
  | .fin x m e, .fin y n f =>
    if m = 0 ∧ n = 0 then signed fp32Fmt (x && y) 0
    else
      let d := dyAdd ⟨if x then - Int.ofNat m else Int.ofNat m, e⟩ ⟨if y then - Int.ofNat n else Int.ofNat n, f⟩
      rneFp32 (.fin (decide (d.mant < 0)) d.mant.natAbs d.exp)

/-- The rounded FP32 sum of a group of products (R91). -/
def groupFp32 (ps : List Num) : Nat := rneFp32 (groupNum (ps.foldl groupAdd .empty))

/-- Widen an initialiser to FP32 exactly (R82). -/
def widenInit (f : Fmt) (bits : Nat) : Nat := rneFp32 (decElem f bits)

/-- Convert an FP32 value to a stream output format; `satInf` is SAT = 1 (R105 to R108). -/
def convertOut (f : Fmt) (r : Rnd) (satInf : Bool) (acc : Nat) : Nat :=
  let x := fp32Num acc
  match f with
  | .fp32 => if x = .nan then fp32Fmt.canonNan else acc
  | .bf16 => encodeIeee bf16Fmt r x
  | .fp16 => encodeIeee fp16Fmt r x
  | .e4m3 =>
    let ff : FloatFmt := ⟨4, 3, -9, false, true, 0x7E, 0x7F⟩
    match x with
    | .nan => 0x7F
    | .inf neg => if satInf then 0x7F else signed ff neg 0x7E
    | .fin neg m e =>
      let k := encodeMag r 4 (-9) m e
      if k ≤ 0x7E then signed ff neg k else if satInf then 0x7F else signed ff neg 0x7E
  | .e5m2 =>
    let ff : FloatFmt := ⟨5, 2, -16, true, true, 0x7B, 0x7F⟩
    match x with
    | .nan => 0x7F
    | .inf neg => signed ff neg (if satInf then 0x7C else 0x7B)
    | .fin neg m e =>
      let k := encodeMag r 3 (-16) m e
      if k ≤ 0x7B then signed ff neg k else signed ff neg (if satInf then 0x7C else 0x7B)
  | _ => 0

/-- Round an FP32 value to INT8, saturating at the format's limits; NaN gives 0 (R106, R110). -/
def convertInt8 (r : Rnd) (acc : Nat) : Nat :=
  match fp32Num acc with
  | .nan => 0
  | .inf neg => if neg then 0x80 else 0x7F
  | .fin neg m e =>
    let k := roundUnits r m e 0
    if neg then ofSigned 8 (- Int.ofNat (min k 128)) else min k 127

/-- Round an FP32 value to FP4, saturating; NaN gives +0 (R110). -/
def convertFp4 (r : Rnd) (acc : Nat) : Nat :=
  match fp32Num acc with
  | .nan => 0
  | .inf neg => 7 + b2n neg * 8
  | .fin neg m e => min (encodeMag r 2 (-1) m e) 7 + b2n neg * 8

/-- `emax` of R111, step 3. -/
def mxEmax : Fmt → Int
  | .mxE4m3 => 8 | .mxE5m2 => 15 | .mxE3m2 => 4 | .mxE2m3 => 2 | .mxfp4 => 2 | _ => 0

/-- Floor of the base-2 logarithm of a non-zero magnitude. -/
def numLog2 : Num → Option Int
  | .fin _ m e => if m = 0 then none else some (Int.ofNat (log2Floor m) + e)
  | _ => none

/-- The scale byte of an MX block (R111, steps 1 to 3). -/
def mxScale (f : Fmt) (xs : List Num) : Nat :=
  if xs.any (fun x => match x with | .fin _ _ _ => false | _ => true) then 0xFF
  else match (xs.filterMap numLog2) with
    | [] => 0x00
    | l :: ls =>
      let e := max (-127) (min 127 (ls.foldl max l - mxEmax f))
      (e + 127).toNat

/-- Every value of the block is zero (R111, step 2). -/
def mxAllZero (xs : List Num) : Bool := xs.all Num.isZero

/-- One element of an MX block under its scale byte (R111, steps 1, 2 and 4). -/
def mxElem (f : Fmt) (zeroBlock : Bool) (scale : Nat) (r : Rnd) (x : Num) : Nat :=
  match x with
  | .fin neg m e0 =>
    if scale = 0xFF ∨ zeroBlock then 0
    else
      let e := e0 - (Int.ofNat scale - 127)
      match floatFmt f with
      | some ff => signed ff neg (min (encodeMag r (ff.mbits + 1) ff.emin m e) ff.maxBits)
      | none =>
        let k := min (roundUnits r m e (-6)) 127
        if neg then ofSigned 8 (- Int.ofNat k) else k
  | _ => 0

/-- Format classes (R36). -/
inductive FmtClass
  | bit4 | bit8 | bit16 | multi
  deriving DecidableEq, Repr

/-- The families of the pairing table (R89). -/
def pairFamily : Fmt → Nat
  | .int8 | .mxint8 => 0
  | .fp4 | .mxfp4 => 1
  | .split => 2
  | .e4m3 | .e5m2 | .mxE4m3 | .mxE5m2 | .mxE3m2 | .mxE2m3 => 3
  | .bf16 | .fp16 => 4
  | .fp32 => 5

/-- The class of a weight and activation pair; none where R89 permits no such pair. -/
def pairClass (w a : Fmt) : Option FmtClass :=
  match pairFamily w, pairFamily a with
  | 0, 0 => some .bit8
  | 1, 1 => some .bit4
  | 2, 1 => some .bit4
  | 1, 3 => some .bit8
  | 2, 3 => some .bit8
  | 3, 1 => some .bit8
  | 3, 3 => some .bit8
  | 1, 4 => some .bit16
  | 2, 4 => some .bit16
  | 3, 4 => some .bit16
  | 4, 1 => some .bit16
  | 4, 3 => some .bit16
  | 4, 4 => some .bit16
  | 5, 5 => some .multi
  | _, _ => none

/-- The K extent of a slate tile (R36); the N extent is 128. -/
def tileK : FmtClass → Nat
  | .bit4 => 128 | .bit8 => 64 | .bit16 => 32 | .multi => 32

/-- The group length of R91: the tile's K extent in normal reading, 128 in transposed reading. -/
def groupLen (c : FmtClass) (transposed : Bool) : Nat := if transposed then 128 else tileK c

/-- The class code of a loaded slate tile (R144): the wider class of the weight alone is not kept; the pair fixes it. -/
def classCode : FmtClass → Nat
  | .bit4 => 0 | .bit8 => 1 | .bit16 => 2 | .multi => 3

/-- Element `i` of a packed array of bytes (R86). -/
def packedElem (f : Fmt) (bs : List Byte) (i : Nat) : Nat :=
  let w := fmtBits f
  bitsOf (leNat ((bs.drop (i * w / 8)).take (w / 8 + 2))) (i * w % 8) w

/-- Bytes that `n` packed elements take (R86). -/
def packedBytes (f : Fmt) (n : Nat) : Nat := ceilDiv (n * fmtBits f) 8

/-- Pack elements into bytes (R86). -/
def packElems (f : Fmt) (xs : List Nat) : List Byte :=
  leBytes (packedBytes f xs.length) ((xs.zipIdx).foldl (fun a e => a + (e.1 % 2 ^ fmtBits f) * 2 ^ (e.2 * fmtBits f)) 0)

/-- One split-weight record (R96): two positions and two BF16 values. -/
structure SplitRecord where
  pos0 : Nat
  val0 : Nat
  pos1 : Nat
  val1 : Nat
  deriving DecidableEq, Repr

/-- The record of 46 bits (R96). -/
def splitRecord (w : Nat) : SplitRecord := ⟨bitsOf w 0 7, bitsOf w 7 16, bitsOf w 23 7, bitsOf w 30 16⟩

/-- Index of the record of group `g` in column `n` (R97). -/
def splitIndex (n g kLen : Nat) : Nat := n * (kLen / 128) + g

/-- The record of an index from the side table's bytes (R97). -/
def splitAt (bs : List Byte) (idx : Nat) : SplitRecord :=
  splitRecord (bitsOf (leNat ((bs.drop (46 * idx / 8)).take 7)) (46 * idx % 8) 46)

/-- The outlier values that a record gives position `p` (R95, R98): null entries add nothing. -/
def splitValues (r : SplitRecord) (p : Nat) : List Num :=
  let one := fun (pos v : Nat) => if pos = p ∧ v % 2 ^ 15 ≠ 0 then [decFloat bf16Fmt v] else []
  one r.pos0 r.val0 ++ one r.pos1 r.val1

/-- Truncate a number to a BF16 piece: 8 significant bits, nothing below 2^-133 (R101). -/
def bf16Trunc : Num → Num
  | .fin neg m e =>
    if m = 0 then .fin neg 0 0
    else
      let q := max (Int.ofNat (log2Floor m) + e - 7) (-133)
      if q ≤ e then .fin neg m e else .fin neg (m / 2 ^ (q - e).toNat) q
  | y => y

/-- The exact difference of two finite numbers. -/
def numSub : Num → Num → Num
  | .fin a m e, .fin b n f =>
    let d := dyAdd ⟨if a then - Int.ofNat m else Int.ofNat m, e⟩ ⟨if b then Int.ofNat n else - Int.ofNat n, f⟩
    .fin (decide (d.mant < 0)) d.mant.natAbs d.exp
  | x, _ => x

/-- The pieces of an FP32 input (R101, R103). -/
structure Pieces where
  hi : Num
  mid : Num
  lo : Num
  deriving DecidableEq, Repr

/-- Split an FP32 input into its three BF16 pieces (R101, R103). -/
def splitFp32 (x : Num) : Pieces :=
  match x with
  | .fin _ _ _ =>
    let hi := bf16Trunc x
    let r1 := numSub x hi
    let mid := bf16Trunc r1
    ⟨hi, mid, bf16Trunc (numSub r1 mid)⟩
  | y => ⟨y, .zero, .zero⟩

/-- The eight passes of R102: activation piece and weight piece. -/
def fp32Passes : List ((Pieces → Num) × (Pieces → Num)) :=
  [(Pieces.mid, Pieces.lo), (Pieces.hi, Pieces.lo), (Pieces.lo, Pieces.mid), (Pieces.mid, Pieces.mid),
   (Pieces.hi, Pieces.mid), (Pieces.lo, Pieces.hi), (Pieces.mid, Pieces.hi), (Pieces.hi, Pieces.hi)]

/-- A product of passes 1 to 7: a zero piece with a non-finite piece counts as zero (R103). -/
def passMul (last : Bool) (a w : Num) : Num :=
  if !last && ((a.isZero && !w.isFinite) || (w.isZero && !a.isFinite)) then .zero else numMul a w

/-- The group sums of one FP32 reduction tile, in pass order (R102). -/
def fp32TileSums (pairs : List (Num × Num)) : List Nat :=
  let ps := pairs.map (fun p => (splitFp32 p.1, splitFp32 p.2))
  (fp32Passes.zipIdx).map fun pass =>
    groupFp32 (ps.map fun p => passMul (decide (pass.2 = 7)) (pass.1.1 p.1) (pass.1.2 p.2))

/-- One shift of a generator (R113). -/
def lfsrShift (s : Nat) : Nat := if s % 2 = 1 then (s / 2) ^^^ 0x80200003 else s / 2

/-- A generator after a draw: 16 shifts (R113). -/
def lfsrNext (s : Nat) : Nat := Nat.repeat lfsrShift 16 s

/-- The state of generator `j` of a set loaded from a seed (R114). -/
def lfsrLoad (seed j : Nat) : Nat :=
  let s := (seed % 2 ^ 32) ^^^ (j * 0x9E3779B9 % 2 ^ 32)
  if s = 0 then 1 else s

end Sys2Proof.Machine
end

