-- ==== Sys2Proof/Machine/Registers.lean ====
section
/-! DEFINITION. Every register of the part (R718, R719): its name, its fields with access codes and reset values as
the field tables of the spec give them, and the BAR0 offset at which it lies. -/

namespace Sys2Proof.Machine

/-- Register access codes (R16); a bit in no field is RSV. -/
inductive Acc
  | ro | rw | w1c | wo | rwl
  deriving DecidableEq, Repr

/-- One field row of a register table. A reset value "per assembly", "per fuse" or "per strap" is written 0 here and
given by `Reg.resetWord` (R18). -/
structure FieldRow where
  fld : Fld
  acc : Acc
  rst : Nat
  deriving DecidableEq, Repr

/-- The registers, by name. Arguments: `c` core, `a` array, `f` far site (for HOST_FUNC a function), `d` die, `i` index of
a register of a group or the instance a selector names, `m` master copy of a selector (R723: 0 host, 1 office, 2 registrar),
`e` edge, `p` local port, `n` ring, `h` homeroom. -/
inductive Reg
  /-- `TOP_ID` (R7). -/
  | topId
  /-- `CORE_STATUS` (R76). -/
  | coreStatus (c : Nat)
  /-- `CORE_FENCE_CTL` (R77). -/
  | coreFenceCtl (c : Nat)
  /-- `CORE_RATE` (R78). -/
  | coreRate (c : Nat)
  /-- `ARR_CTL` (R79). -/
  | arrCtl (c a : Nat)
  /-- `ARR_STAT` (R80). -/
  | arrStat (c a : Nat)
  /-- `ARR_SRND_SEED` (R117). -/
  | arrSrndSeed (c a : Nat)
  /-- `CORE_SKIM_SEED` (R118). -/
  | coreSkimSeed (c : Nat)
  /-- `LSN_CTL` (R171). -/
  | lsnCtl (c : Nat)
  /-- `LSN_STATUS` (R171). -/
  | lsnStatus (c : Nat)
  /-- `LSN_EVT` (R171). -/
  | lsnEvt (c i : Nat)
  /-- `NEAR_CTL` (R194). -/
  | nearCtl (c : Nat)
  /-- `NEAR_STATUS` (R195). -/
  | nearStatus (c : Nat)
  /-- `NEAR_LAYER_OFFSET` (R196). -/
  | nearLayerOffset (c : Nat)
  /-- `NEAR_TEMP` (R197). -/
  | nearTemp (c : Nat)
  /-- `NEAR_ERR` (R198). -/
  | nearErr (c : Nat)
  /-- `SEP_SCOPE` (R231). -/
  | sepScope (i : Nat)
  /-- `SEP_NARROW` (R232). -/
  | sepNarrow (i : Nat)
  /-- `SEP_STATUS` (R233). -/
  | sepStatus
  /-- `FAR_STATUS` (R234). -/
  | farStatus (f : Nat)
  /-- `FAR_MODE` (R235). -/
  | farMode (f : Nat)
  /-- `FAR_SHARE` (R236). -/
  | farShare (f i : Nat)
  /-- `FAR_USE` (R237). -/
  | farUse (f i : Nat)
  /-- `SC_CTL` (R238). -/
  | scCtl (f : Nat)
  /-- `SC_STAT` (R239). -/
  | scStat (f : Nat)
  /-- `LDL_CTL` (R261). -/
  | ldlCtl (f : Nat)
  /-- `LDL_STATUS` (R262). -/
  | ldlStatus (f : Nat)
  /-- `LDL_STAT` (R263). -/
  | ldlStat (f : Nat)
  /-- `LDL_ERR` (R264). -/
  | ldlErr (f : Nat)
  /-- `PAIL_CTL` (R314). -/
  | pailCtl (d : Nat)
  /-- `PAIL_STATUS` (R315). -/
  | pailStatus (d : Nat)
  /-- `PAIL_STAT0` (R316). -/
  | pailStat0 (d : Nat)
  /-- `PAIL_STAT1` (R316). -/
  | pailStat1 (d : Nat)
  /-- `PAIL_ERR` (R317). -/
  | pailErr (d : Nat)
  /-- `MESH_CTL` (R349). -/
  | meshCtl (d : Nat)
  /-- `MESH_STATUS` (R350). -/
  | meshStatus (d : Nat)
  /-- `MESH_STAT` (R351). -/
  | meshStat (d : Nat)
  /-- `ARB_SEL` (R352). -/
  | arbSel (d m : Nat)
  /-- `ARB_CTL` (R353). -/
  | arbCtl (d i : Nat)
  /-- `ARB_WEIGHT` (R354). -/
  | arbWeight (d i : Nat)
  /-- `ARB_STARVE` (R355). -/
  | arbStarve (d i : Nat)
  /-- `ARB_STAT` (R356). -/
  | arbStat (d i : Nat)
  /-- `ARB_SUM0` (R357). -/
  | arbSum0 (d : Nat)
  /-- `ARB_SUM1` (R357). -/
  | arbSum1 (d : Nat)
  /-- `XING_SEL` (R372). -/
  | xingSel (d m : Nat)
  /-- `XING_CTL` (R373). -/
  | xingCtl (d : Nat)
  /-- `XING_STATUS` (R374). -/
  | xingStatus (d i : Nat)
  /-- `XING_SUM` (R375). -/
  | xingSum (d : Nat)
  /-- `D2D_SEL` (R402). -/
  | d2dSel (d m : Nat)
  /-- `D2D_CTL` (R403). -/
  | d2dCtl (d : Nat)
  /-- `D2D_EDGE_STATUS` (R404). -/
  | d2dEdgeStatus (d e : Nat)
  /-- `D2D_MODULE` (R405). -/
  | d2dModule (d e i : Nat)
  /-- `D2D_STAT` (R406). -/
  | d2dStat (d : Nat)
  /-- `LINK_ID` (R442). -/
  | linkId (d : Nat)
  /-- `LINK_CTL` (R443). -/
  | linkCtl (d : Nat)
  /-- `LINK_ROUTE_IDX` (R444). -/
  | linkRouteIdx (d m : Nat)
  /-- `LINK_ROUTE_DATA` (R445). -/
  | linkRouteData (d i : Nat)
  /-- `LINK_STAT` (R446). -/
  | linkStat (d : Nat)
  /-- `LINK_PORT_CTL` (R447). -/
  | linkPortCtl (d p : Nat)
  /-- `LINK_PORT_STATUS` (R448). -/
  | linkPortStatus (d p : Nat)
  /-- `LINK_PORT_STAT` (R449). -/
  | linkPortStat (d p : Nat)
  /-- `LINK_PORT_PEER` (R450). -/
  | linkPortPeer (d p : Nat)
  /-- `HOST_STATUS` (R503). -/
  | hostStatus
  /-- `HOST_ERR` (R504). -/
  | hostErr
  /-- `HOST_FUNC` (R505). -/
  | hostFunc (f : Nat)
  /-- `RING_SQ_BASE` (R506). -/
  | ringSqBase (n : Nat)
  /-- `RING_CQ_BASE` (R506). -/
  | ringCqBase (n : Nat)
  /-- `RING_CFG` (R507). -/
  | ringCfg (n : Nat)
  /-- `RING_CTL` (R508). -/
  | ringCtl (n : Nat)
  /-- `RING_STATUS` (R509). -/
  | ringStatus (n : Nat)
  /-- `RING_SEQ` (R510). -/
  | ringSeq (n : Nat)
  /-- `RING_ADMIT` (R511). -/
  | ringAdmit
  /-- `RING_ADMIT_STAT` (R512). -/
  | ringAdmitStat
  /-- `RING_EVQ_BASE` (R513). -/
  | ringEvqBase
  /-- `RING_EVQ_CFG` (R513). -/
  | ringEvqCfg
  /-- `RING_EVQ_HEAD` (R513). -/
  | ringEvqHead
  /-- `RING_EVQ_STATUS` (R513). -/
  | ringEvqStatus
  /-- `OFFICE_STATUS` (R533). -/
  | officeStatus
  /-- `OFFICE_CTL` (R534). -/
  | officeCtl
  /-- `OFFICE_EVQ` (R535). -/
  | officeEvq
  /-- `OFFICE_COOLANT` (R536). -/
  | officeCoolant
  /-- `PWR_LIMIT` (R565). -/
  | pwrLimit
  /-- `PWR_STATUS` (R566). -/
  | pwrStatus
  /-- `PWR_CTL` (R567). -/
  | pwrCtl
  /-- `PWR_PKG` (R568). -/
  | pwrPkg
  /-- `PWR_STACK` (R568). -/
  | pwrStack (i : Nat)
  /-- `PWR_DSEL` (R569). -/
  | pwrDsel (m : Nat)
  /-- `PWR_DOMAIN` (R569). -/
  | pwrDomain (i : Nat)
  /-- `THM_CTL` (R570). -/
  | thmCtl
  /-- `THM_STATUS` (R571). -/
  | thmStatus
  /-- `THM_SSEL` (R572). -/
  | thmSsel (m : Nat)
  /-- `THM_SENSOR` (R572). -/
  | thmSensor (i : Nat)
  /-- `SEC_STATUS` (R608). -/
  | secStatus
  /-- `SEC_HR_SEL` (R609). -/
  | secHrSel (m : Nat)
  /-- `SEC_HR_CTL` (R610). -/
  | secHrCtl (h : Nat)
  /-- `SEC_HR_CORES` (R611). -/
  | secHrCores (h i : Nat)
  /-- `SEC_HR_MAP` (R612). -/
  | secHrMap (h i : Nat)
  /-- `SEC_HR_WIN_HOST` (R613). -/
  | secHrWinHost (h i : Nat)
  /-- `SEC_HR_WIN_MAP` (R613). -/
  | secHrWinMap (h i : Nat)
  /-- `SEC_MBOX_ADDR` (R614). -/
  | secMboxAddr
  /-- `SEC_MBOX_CTL` (R614). -/
  | secMboxCtl
  /-- `SEC_DEBUG` (R615). -/
  | secDebug
  /-- `FUSE_STATUS` (R616). -/
  | fuseStatus
  /-- `FUSE_SEL` (R617). -/
  | fuseSel (m : Nat)
  /-- `FUSE_DATA` (R617). -/
  | fuseData (i : Nat)
  /-- `REL_CTL` (R648). -/
  | relCtl
  /-- `REL_STATUS` (R649). -/
  | relStatus
  /-- `REL_LOG_IDX` (R650). -/
  | relLogIdx (m : Nat)
  /-- `REL_LOG0` (R651). -/
  | relLog0 (i : Nat)
  /-- `REL_LOG1` (R652). -/
  | relLog1 (i : Nat)
  /-- `REL_FLIP_SEL` (R653). -/
  | relFlipSel
  /-- `REL_FLIP_ADDR` (R654). -/
  | relFlipAddr
  /-- `REL_FLIP_MASK0` (R654). -/
  | relFlipMask0
  /-- `REL_FLIP_MASK1` (R654). -/
  | relFlipMask1
  /-- `REL_FLIP_MASK2` (R654). -/
  | relFlipMask2
  /-- `REL_MIRROR` (R655). -/
  | relMirror (i : Nat)
  /-- `BOOT_CTL` (R682). -/
  | bootCtl
  /-- `BOOT_STATUS` (R683). -/
  | bootStatus
  /-- `BOOT_IMG_LEN` (R684). -/
  | bootImgLen
  /-- `BOOT_REC_BASE` (R685). -/
  | bootRecBase
  /-- `BOOT_REC_LEN` (R685). -/
  | bootRecLen
  /-- `BOOT_DOMAIN` (R686). -/
  | bootDomain (m : Nat)
  /-- `BOOT_DOMSUM` (R686). -/
  | bootDomsum
  /-- `BOOT_ROLL` (R687). -/
  | bootRoll
  /-- `TOP_STRAPS` (R716). -/
  | topStraps
  /-- `TOP_SUPPLY` (R717). -/
  | topSupply
  /-- `BOOT_EXPORT_BASE` (R685). -/
  | bootExportBase
  deriving DecidableEq, Repr

/-- `TOP_ID.STEPPING`, RO (R7). -/
def TOP_ID_STEPPING : Fld := ⟨0, 8⟩
/-- `TOP_ID.VARIANT`, RO (R7). -/
def TOP_ID_VARIANT : Fld := ⟨8, 4⟩
/-- `TOP_ID.PART`, RO (R7). -/
def TOP_ID_PART : Fld := ⟨16, 16⟩
/-- `CORE_STATUS.STATE`, RO (R76). -/
def CORE_STATUS_STATE : Fld := ⟨0, 2⟩
/-- `CORE_STATUS.ENABLE_PENDING`, RO (R76). -/
def CORE_STATUS_ENABLE_PENDING : Fld := ⟨2, 1⟩
/-- `CORE_STATUS.DEFECT`, RO (R76). -/
def CORE_STATUS_DEFECT : Fld := ⟨3, 1⟩
/-- `CORE_STATUS.CAUSE`, RO (R76). -/
def CORE_STATUS_CAUSE : Fld := ⟨8, 8⟩
/-- `CORE_STATUS.CORE_ID`, RO (R76). -/
def CORE_STATUS_CORE_ID : Fld := ⟨16, 8⟩
/-- `CORE_STATUS.LATE_DROPS`, RO (R76). -/
def CORE_STATUS_LATE_DROPS : Fld := ⟨32, 16⟩
/-- `CORE_FENCE_CTL.FENCE`, WO (R77). -/
def CORE_FENCE_CTL_FENCE : Fld := ⟨0, 1⟩
/-- `CORE_FENCE_CTL.UNFENCE`, WO (R77). -/
def CORE_FENCE_CTL_UNFENCE : Fld := ⟨1, 1⟩
/-- `CORE_RATE.STEPS_A`, RO (R78). -/
def CORE_RATE_STEPS_A : Fld := ⟨0, 32⟩
/-- `CORE_RATE.STEPS_B`, RO (R78). -/
def CORE_RATE_STEPS_B : Fld := ⟨32, 32⟩
/-- `ARR_CTL.WDOG_LIMIT`, RW (R79). -/
def ARR_CTL_WDOG_LIMIT : Fld := ⟨0, 24⟩
/-- `ARR_CTL.CLEAR`, WO (R79). -/
def ARR_CTL_CLEAR : Fld := ⟨63, 1⟩
/-- `ARR_STAT.FREEZES`, RO (R80). -/
def ARR_STAT_FREEZES : Fld := ⟨0, 32⟩
/-- `ARR_STAT.SKID_FULLS`, RO (R80). -/
def ARR_STAT_SKID_FULLS : Fld := ⟨32, 16⟩
/-- `ARR_STAT.HANGS`, RO (R80). -/
def ARR_STAT_HANGS : Fld := ⟨48, 2⟩
/-- `ARR_SRND_SEED.SEED`, RW (R117). -/
def ARR_SRND_SEED_SEED : Fld := ⟨0, 32⟩
/-- `CORE_SKIM_SEED.SEED`, RW (R118). -/
def CORE_SKIM_SEED_SEED : Fld := ⟨0, 32⟩
/-- `LSN_CTL.WAIT_LIMIT`, RW (R171). -/
def LSN_CTL_WAIT_LIMIT : Fld := ⟨0, 32⟩
/-- `LSN_STATUS.STATE`, RO (R171). -/
def LSN_STATUS_STATE : Fld := ⟨0, 2⟩
/-- `LSN_STATUS.LAST_STATUS`, RO (R171). -/
def LSN_STATUS_LAST_STATUS : Fld := ⟨8, 8⟩
/-- `LSN_STATUS.STEP_INDEX`, RO (R171). -/
def LSN_STATUS_STEP_INDEX : Fld := ⟨32, 18⟩
/-- `LSN_EVT.EVT_A`, RO (R171). -/
def LSN_EVT_EVT_A : Fld := ⟨0, 16⟩
/-- `LSN_EVT.EVT_B`, RO (R171). -/
def LSN_EVT_EVT_B : Fld := ⟨16, 16⟩
/-- `LSN_EVT.EVT_C`, RO (R171). -/
def LSN_EVT_EVT_C : Fld := ⟨32, 16⟩
/-- `LSN_EVT.EVT_D`, RO (R171). -/
def LSN_EVT_EVT_D : Fld := ⟨48, 16⟩
/-- `NEAR_CTL.IDLE_LIMIT`, RW (R194). -/
def NEAR_CTL_IDLE_LIMIT : Fld := ⟨0, 16⟩
/-- `NEAR_STATUS.STATE`, RO (R195). -/
def NEAR_STATUS_STATE : Fld := ⟨0, 3⟩
/-- `NEAR_STATUS.FALLBACK`, RO (R195). -/
def NEAR_STATUS_FALLBACK : Fld := ⟨3, 1⟩
/-- `NEAR_STATUS.XCHK`, W1C (R195). -/
def NEAR_STATUS_XCHK : Fld := ⟨4, 1⟩
/-- `NEAR_STATUS.REFRESH`, RO (R195). -/
def NEAR_STATUS_REFRESH : Fld := ⟨8, 8⟩
/-- `NEAR_STATUS.THROTTLE`, RO (R195). -/
def NEAR_STATUS_THROTTLE : Fld := ⟨16, 8⟩
/-- `NEAR_LAYER_OFFSET.OFS0`, RWL (R196). -/
def NEAR_LAYER_OFFSET_OFS0 : Fld := ⟨0, 4⟩
/-- `NEAR_LAYER_OFFSET.OFS1`, RWL (R196). -/
def NEAR_LAYER_OFFSET_OFS1 : Fld := ⟨4, 4⟩
/-- `NEAR_LAYER_OFFSET.OFS2`, RWL (R196). -/
def NEAR_LAYER_OFFSET_OFS2 : Fld := ⟨8, 4⟩
/-- `NEAR_LAYER_OFFSET.OFS3`, RWL (R196). -/
def NEAR_LAYER_OFFSET_OFS3 : Fld := ⟨12, 4⟩
/-- `NEAR_TEMP.TEMP0`, RO (R197). -/
def NEAR_TEMP_TEMP0 : Fld := ⟨0, 16⟩
/-- `NEAR_TEMP.TEMP1`, RO (R197). -/
def NEAR_TEMP_TEMP1 : Fld := ⟨16, 16⟩
/-- `NEAR_TEMP.TEMP2`, RO (R197). -/
def NEAR_TEMP_TEMP2 : Fld := ⟨32, 16⟩
/-- `NEAR_TEMP.TEMP3`, RO (R197). -/
def NEAR_TEMP_TEMP3 : Fld := ⟨48, 16⟩
/-- `NEAR_ERR.OFFSET`, RO (R198). -/
def NEAR_ERR_OFFSET : Fld := ⟨0, 29⟩
/-- `NEAR_ERR.VALID`, W1C (R198). -/
def NEAR_ERR_VALID : Fld := ⟨31, 1⟩
/-- `NEAR_ERR.RETRIED`, RO (R198). -/
def NEAR_ERR_RETRIED : Fld := ⟨32, 16⟩
/-- `NEAR_ERR.FAILED`, RO (R198). -/
def NEAR_ERR_FAILED : Fld := ⟨48, 16⟩
/-- `SEP_SCOPE.SCOPE`, RW (R231). -/
def SEP_SCOPE_SCOPE : Fld := ⟨0, 64⟩
/-- `SEP_NARROW.NARROW`, RW (R232). -/
def SEP_NARROW_NARROW : Fld := ⟨0, 64⟩
/-- `SEP_STATUS.BUSY`, RO (R233). -/
def SEP_STATUS_BUSY : Fld := ⟨0, 1⟩
/-- `SEP_STATUS.REFUSED`, W1C (R233). -/
def SEP_STATUS_REFUSED : Fld := ⟨1, 1⟩
/-- `SEP_STATUS.SITES`, RO (R233). -/
def SEP_STATUS_SITES : Fld := ⟨2, 2⟩
/-- `SEP_STATUS.SET_GIB`, RO (R233). -/
def SEP_STATUS_SET_GIB : Fld := ⟨16, 8⟩
/-- `FAR_STATUS.PRESENT`, RO (R234). -/
def FAR_STATUS_PRESENT : Fld := ⟨0, 1⟩
/-- `FAR_STATUS.TRAINED`, RO (R234). -/
def FAR_STATUS_TRAINED : Fld := ⟨1, 1⟩
/-- `FAR_STATUS.LOST`, RO (R234). -/
def FAR_STATUS_LOST : Fld := ⟨2, 1⟩
/-- `FAR_STATUS.TEMP`, RO (R234). -/
def FAR_STATUS_TEMP : Fld := ⟨8, 8⟩
/-- `FAR_MODE.MODE`, RW (R235). -/
def FAR_MODE_MODE : Fld := ⟨0, 1⟩
/-- `FAR_MODE.SPARE`, RW (R235). -/
def FAR_MODE_SPARE : Fld := ⟨1, 1⟩
/-- `FAR_MODE.PRIO_SHARE`, RW (R235). -/
def FAR_MODE_PRIO_SHARE : Fld := ⟨8, 7⟩
/-- `FAR_MODE.WINDOW`, RW (R235). -/
def FAR_MODE_WINDOW : Fld := ⟨16, 16⟩
/-- `FAR_SHARE.SHARE_A`, RW (R236). -/
def FAR_SHARE_SHARE_A : Fld := ⟨0, 16⟩
/-- `FAR_SHARE.SHARE_B`, RW (R236). -/
def FAR_SHARE_SHARE_B : Fld := ⟨16, 16⟩
/-- `FAR_SHARE.SHARE_C`, RW (R236). -/
def FAR_SHARE_SHARE_C : Fld := ⟨32, 16⟩
/-- `FAR_SHARE.SHARE_D`, RW (R236). -/
def FAR_SHARE_SHARE_D : Fld := ⟨48, 16⟩
/-- `FAR_USE.USE_A`, RO (R237). -/
def FAR_USE_USE_A : Fld := ⟨0, 16⟩
/-- `FAR_USE.USE_B`, RO (R237). -/
def FAR_USE_USE_B : Fld := ⟨16, 16⟩
/-- `FAR_USE.USE_C`, RO (R237). -/
def FAR_USE_USE_C : Fld := ⟨32, 16⟩
/-- `FAR_USE.USE_D`, RO (R237). -/
def FAR_USE_USE_D : Fld := ⟨48, 16⟩
/-- `SC_CTL.PURGE`, RW (R238). -/
def SC_CTL_PURGE : Fld := ⟨0, 1⟩
/-- `SC_CTL.PURGE_HR`, RW (R238). -/
def SC_CTL_PURGE_HR : Fld := ⟨8, 4⟩
/-- `SC_STAT.MERGES`, RO (R239). -/
def SC_STAT_MERGES : Fld := ⟨0, 32⟩
/-- `SC_STAT.ATOMICS`, RO (R239). -/
def SC_STAT_ATOMICS : Fld := ⟨32, 24⟩
/-- `SC_STAT.CLEAR`, WO (R239). -/
def SC_STAT_CLEAR : Fld := ⟨63, 1⟩
/-- `LDL_CTL.DRAIN`, RW (R261). -/
def LDL_CTL_DRAIN : Fld := ⟨0, 1⟩
/-- `LDL_STATUS.QUEUED`, RO (R262). -/
def LDL_STATUS_QUEUED : Fld := ⟨0, 5⟩
/-- `LDL_STATUS.ACTIVE`, RO (R262). -/
def LDL_STATUS_ACTIVE : Fld := ⟨8, 7⟩
/-- `LDL_STATUS.IDLE`, RO (R262). -/
def LDL_STATUS_IDLE : Fld := ⟨15, 1⟩
/-- `LDL_STAT.ROW_STEPS`, RO (R263). -/
def LDL_STAT_ROW_STEPS : Fld := ⟨0, 32⟩
/-- `LDL_STAT.REFRESH_INSERTS`, RO (R263). -/
def LDL_STAT_REFRESH_INSERTS : Fld := ⟨32, 16⟩
/-- `LDL_STAT.FAILS`, RO (R263). -/
def LDL_STAT_FAILS : Fld := ⟨48, 8⟩
/-- `LDL_STAT.LATE_DROPS`, RO (R263). -/
def LDL_STAT_LATE_DROPS : Fld := ⟨56, 7⟩
/-- `LDL_STAT.CLEAR`, WO (R263). -/
def LDL_STAT_CLEAR : Fld := ⟨63, 1⟩
/-- `LDL_ERR.ADDR`, RO (R264). -/
def LDL_ERR_ADDR : Fld := ⟨0, 48⟩
/-- `LDL_ERR.STATUS`, RO (R264). -/
def LDL_ERR_STATUS : Fld := ⟨48, 8⟩
/-- `LDL_ERR.VALID`, W1C (R264). -/
def LDL_ERR_VALID : Fld := ⟨63, 1⟩
/-- `PAIL_CTL.POLL`, RW (R314). -/
def PAIL_CTL_POLL : Fld := ⟨0, 16⟩
/-- `PAIL_CTL.DRAIN`, RW (R314). -/
def PAIL_CTL_DRAIN : Fld := ⟨16, 1⟩
/-- `PAIL_STATUS.TREES`, RO (R315). -/
def PAIL_STATUS_TREES : Fld := ⟨0, 16⟩
/-- `PAIL_STATUS.SEQS`, RO (R315). -/
def PAIL_STATUS_SEQS : Fld := ⟨16, 13⟩
/-- `PAIL_STATUS.RINGS`, RO (R315). -/
def PAIL_STATUS_RINGS : Fld := ⟨29, 3⟩
/-- `PAIL_STATUS.IDLE`, RO (R315). -/
def PAIL_STATUS_IDLE : Fld := ⟨32, 1⟩
/-- `PAIL_STAT0.HITS`, RO (R316). -/
def PAIL_STAT0_HITS : Fld := ⟨0, 32⟩
/-- `PAIL_STAT0.MISSES`, RO (R316). -/
def PAIL_STAT0_MISSES : Fld := ⟨32, 32⟩
/-- `PAIL_STAT1.COPIES`, RO (R316). -/
def PAIL_STAT1_COPIES : Fld := ⟨0, 32⟩
/-- `PAIL_STAT1.INSERTS`, RO (R316). -/
def PAIL_STAT1_INSERTS : Fld := ⟨32, 16⟩
/-- `PAIL_STAT1.LATE_DROPS`, RO (R316). -/
def PAIL_STAT1_LATE_DROPS : Fld := ⟨48, 15⟩
/-- `PAIL_STAT1.CLEAR`, WO (R316). -/
def PAIL_STAT1_CLEAR : Fld := ⟨63, 1⟩
/-- `PAIL_ERR.YOKE`, RO (R317). -/
def PAIL_ERR_YOKE : Fld := ⟨0, 24⟩
/-- `PAIL_ERR.TREE`, RO (R317). -/
def PAIL_ERR_TREE : Fld := ⟨24, 4⟩
/-- `PAIL_ERR.STATUS`, RO (R317). -/
def PAIL_ERR_STATUS : Fld := ⟨32, 8⟩
/-- `PAIL_ERR.VALID`, W1C (R317). -/
def PAIL_ERR_VALID : Fld := ⟨63, 1⟩
/-- `MESH_CTL.HB_TICKS`, RW (R349). -/
def MESH_CTL_HB_TICKS : Fld := ⟨0, 16⟩
/-- `MESH_STATUS.FAILED`, RO (R350). -/
def MESH_STATUS_FAILED : Fld := ⟨0, 1⟩
/-- `MESH_STATUS.NODE`, RO (R350). -/
def MESH_STATUS_NODE : Fld := ⟨8, 7⟩
/-- `MESH_STAT.EJECT_HOLDS`, RO (R351). -/
def MESH_STAT_EJECT_HOLDS : Fld := ⟨0, 32⟩
/-- `MESH_STAT.CLEAR`, WO (R351). -/
def MESH_STAT_CLEAR : Fld := ⟨63, 1⟩
/-- `ARB_SEL.TYPE`, RW (R352). -/
def ARB_SEL_TYPE : Fld := ⟨0, 4⟩
/-- `ARB_SEL.INDEX`, RW (R352). -/
def ARB_SEL_INDEX : Fld := ⟨8, 12⟩
/-- `ARB_CTL.FREEZE`, RW (R353). -/
def ARB_CTL_FREEZE : Fld := ⟨0, 1⟩
/-- `ARB_CTL.BUSY`, RO (R353). -/
def ARB_CTL_BUSY : Fld := ⟨1, 1⟩
/-- `ARB_CTL.INT_EN`, RW (R353). -/
def ARB_CTL_INT_EN : Fld := ⟨2, 1⟩
/-- `ARB_CTL.LIMIT`, RW (R353). -/
def ARB_CTL_LIMIT : Fld := ⟨16, 16⟩
/-- `ARB_WEIGHT.WEIGHT`, RW (R354). -/
def ARB_WEIGHT_WEIGHT : Fld := ⟨0, 64⟩
/-- `ARB_STARVE.FLAGS`, W1C (R355). -/
def ARB_STARVE_FLAGS : Fld := ⟨0, 16⟩
/-- `ARB_STARVE.PENDING`, RO (R355). -/
def ARB_STARVE_PENDING : Fld := ⟨16, 16⟩
/-- `ARB_STAT.GRANTS`, RO (R356). -/
def ARB_STAT_GRANTS : Fld := ⟨0, 32⟩
/-- `ARB_STAT.MAX_LOSSES`, RO (R356). -/
def ARB_STAT_MAX_LOSSES : Fld := ⟨32, 16⟩
/-- `ARB_STAT.CLEAR`, WO (R356). -/
def ARB_STAT_CLEAR : Fld := ⟨63, 1⟩
/-- `ARB_SUM0.TYPE0`, RO (R357). -/
def ARB_SUM0_TYPE0 : Fld := ⟨0, 16⟩
/-- `ARB_SUM0.TYPE1`, RO (R357). -/
def ARB_SUM0_TYPE1 : Fld := ⟨16, 16⟩
/-- `ARB_SUM0.TYPE2`, RO (R357). -/
def ARB_SUM0_TYPE2 : Fld := ⟨32, 16⟩
/-- `ARB_SUM0.TYPE3`, RO (R357). -/
def ARB_SUM0_TYPE3 : Fld := ⟨48, 16⟩
/-- `ARB_SUM1.TYPE4`, RO (R357). -/
def ARB_SUM1_TYPE4 : Fld := ⟨0, 16⟩
/-- `ARB_SUM1.TYPE5`, RO (R357). -/
def ARB_SUM1_TYPE5 : Fld := ⟨16, 16⟩
/-- `XING_SEL.TYPE`, RW (R372). -/
def XING_SEL_TYPE : Fld := ⟨0, 4⟩
/-- `XING_SEL.INDEX`, RW (R372). -/
def XING_SEL_INDEX : Fld := ⟨8, 8⟩
/-- `XING_SEL.CROSSING`, RW (R372). -/
def XING_SEL_CROSSING : Fld := ⟨16, 4⟩
/-- `XING_CTL.STALL_LIMIT`, RW (R373). -/
def XING_CTL_STALL_LIMIT : Fld := ⟨0, 24⟩
/-- `XING_CTL.INT_EN`, RW (R373). -/
def XING_CTL_INT_EN : Fld := ⟨24, 1⟩
/-- `XING_CTL.FORCE`, WO (R373). -/
def XING_CTL_FORCE : Fld := ⟨25, 1⟩
/-- `XING_STATUS.KIND`, RO (R374). -/
def XING_STATUS_KIND : Fld := ⟨0, 2⟩
/-- `XING_STATUS.FALLBACK`, RO (R374). -/
def XING_STATUS_FALLBACK : Fld := ⟨2, 1⟩
/-- `XING_STATUS.FORCED`, RO (R374). -/
def XING_STATUS_FORCED : Fld := ⟨3, 1⟩
/-- `XING_STATUS.STALLED`, W1C (R374). -/
def XING_STATUS_STALLED : Fld := ⟨4, 1⟩
/-- `XING_STATUS.RUN`, RO (R374). -/
def XING_STATUS_RUN : Fld := ⟨8, 4⟩
/-- `XING_STATUS.DISAGREE`, RO (R374). -/
def XING_STATUS_DISAGREE : Fld := ⟨16, 16⟩
/-- `XING_STATUS.LAT_MAX`, RO (R374). -/
def XING_STATUS_LAT_MAX : Fld := ⟨32, 16⟩
/-- `XING_SUM.FALLBACK_ANY`, RO (R375). -/
def XING_SUM_FALLBACK_ANY : Fld := ⟨0, 6⟩
/-- `XING_SUM.STALL_ANY`, RO (R375). -/
def XING_SUM_STALL_ANY : Fld := ⟨8, 6⟩
/-- `D2D_SEL.EDGE`, RW (R402). -/
def D2D_SEL_EDGE : Fld := ⟨0, 2⟩
/-- `D2D_SEL.MODULE`, RW (R402). -/
def D2D_SEL_MODULE : Fld := ⟨8, 5⟩
/-- `D2D_CTL.WDOG`, RW (R403). -/
def D2D_CTL_WDOG : Fld := ⟨0, 16⟩
/-- `D2D_CTL.LANE_LIMIT`, RW (R403). -/
def D2D_CTL_LANE_LIMIT : Fld := ⟨16, 8⟩
/-- `D2D_CTL.INT_EN`, RW (R403). -/
def D2D_CTL_INT_EN : Fld := ⟨24, 1⟩
/-- `D2D_EDGE_STATUS.STATE`, RO (R404). -/
def D2D_EDGE_STATUS_STATE : Fld := ⟨0, 3⟩
/-- `D2D_EDGE_STATUS.FULL`, RO (R404). -/
def D2D_EDGE_STATUS_FULL : Fld := ⟨8, 5⟩
/-- `D2D_EDGE_STATUS.HALF`, RO (R404). -/
def D2D_EDGE_STATUS_HALF : Fld := ⟨16, 5⟩
/-- `D2D_EDGE_STATUS.RETIRED`, RO (R404). -/
def D2D_EDGE_STATUS_RETIRED : Fld := ⟨24, 5⟩
/-- `D2D_MODULE.WIDTH`, RO (R405). -/
def D2D_MODULE_WIDTH : Fld := ⟨0, 2⟩
/-- `D2D_MODULE.FAILED`, RO (R405). -/
def D2D_MODULE_FAILED : Fld := ⟨4, 18⟩
/-- `D2D_MODULE.REPAIRS`, RO (R405). -/
def D2D_MODULE_REPAIRS : Fld := ⟨24, 8⟩
/-- `D2D_MODULE.RESENDS`, RO (R405). -/
def D2D_MODULE_RESENDS : Fld := ⟨32, 16⟩
/-- `D2D_STAT.LATE_DROPS`, RO (R406). -/
def D2D_STAT_LATE_DROPS : Fld := ⟨0, 32⟩
/-- `D2D_STAT.DIES_LOST`, RO (R406). -/
def D2D_STAT_DIES_LOST : Fld := ⟨32, 8⟩
/-- `D2D_STAT.CLEAR`, WO (R406). -/
def D2D_STAT_CLEAR : Fld := ⟨63, 1⟩
/-- `LINK_ID.DEVICE_ID`, RWL (R442). -/
def LINK_ID_DEVICE_ID : Fld := ⟨0, 12⟩
/-- `LINK_ID.DOMAIN`, RWL (R442). -/
def LINK_ID_DOMAIN : Fld := ⟨16, 16⟩
/-- `LINK_ID.TWIN_DOMAIN`, RWL (R442). -/
def LINK_ID_TWIN_DOMAIN : Fld := ⟨32, 16⟩
/-- `LINK_CTL.E2E_LIMIT`, RW (R443). -/
def LINK_CTL_E2E_LIMIT : Fld := ⟨0, 24⟩
/-- `LINK_CTL.WDOG`, RW (R443). -/
def LINK_CTL_WDOG : Fld := ⟨24, 16⟩
/-- `LINK_CTL.MAX_HOPS`, RW (R443). -/
def LINK_CTL_MAX_HOPS : Fld := ⟨40, 6⟩
/-- `LINK_CTL.INT_EN`, RW (R443). -/
def LINK_CTL_INT_EN : Fld := ⟨46, 1⟩
/-- `LINK_ROUTE_IDX.DST`, RW (R444). -/
def LINK_ROUTE_IDX_DST : Fld := ⟨0, 12⟩
/-- `LINK_ROUTE_DATA.PORTS`, RW (R445). -/
def LINK_ROUTE_DATA_PORTS : Fld := ⟨0, 6⟩
/-- `LINK_ROUTE_DATA.VC_UP`, RW (R445). -/
def LINK_ROUTE_DATA_VC_UP : Fld := ⟨6, 1⟩
/-- `LINK_ROUTE_DATA.ORIGIN`, RW (R445). -/
def LINK_ROUTE_DATA_ORIGIN : Fld := ⟨7, 1⟩
/-- `LINK_STAT.LATE_DROPS`, RO (R446). -/
def LINK_STAT_LATE_DROPS : Fld := ⟨0, 32⟩
/-- `LINK_STAT.HOP_EXPIRED`, RO (R446). -/
def LINK_STAT_HOP_EXPIRED : Fld := ⟨32, 16⟩
/-- `LINK_STAT.MALFORMED`, RO (R446). -/
def LINK_STAT_MALFORMED : Fld := ⟨48, 15⟩
/-- `LINK_STAT.CLEAR`, WO (R446). -/
def LINK_STAT_CLEAR : Fld := ⟨63, 1⟩
/-- `LINK_PORT_CTL.ENABLE`, RW (R447). -/
def LINK_PORT_CTL_ENABLE : Fld := ⟨0, 1⟩
/-- `LINK_PORT_CTL.TWIN`, RW (R447). -/
def LINK_PORT_CTL_TWIN : Fld := ⟨1, 1⟩
/-- `LINK_PORT_CTL.RETRAIN`, WO (R447). -/
def LINK_PORT_CTL_RETRAIN : Fld := ⟨2, 1⟩
/-- `LINK_PORT_CTL.LANE_OFF`, RW (R447). -/
def LINK_PORT_CTL_LANE_OFF : Fld := ⟨8, 8⟩
/-- `LINK_PORT_CTL.LANE_LIMIT`, RW (R447). -/
def LINK_PORT_CTL_LANE_LIMIT : Fld := ⟨16, 16⟩
/-- `LINK_PORT_STATUS.STATE`, RO (R448). -/
def LINK_PORT_STATUS_STATE : Fld := ⟨0, 4⟩
/-- `LINK_PORT_STATUS.WIDTH`, RO (R448). -/
def LINK_PORT_STATUS_WIDTH : Fld := ⟨4, 4⟩
/-- `LINK_PORT_STATUS.REVERSED`, RO (R448). -/
def LINK_PORT_STATUS_REVERSED : Fld := ⟨8, 1⟩
/-- `LINK_PORT_STATUS.POL_FIX`, RO (R448). -/
def LINK_PORT_STATUS_POL_FIX : Fld := ⟨16, 8⟩
/-- `LINK_PORT_STATUS.LANE_FAULT`, RO (R448). -/
def LINK_PORT_STATUS_LANE_FAULT : Fld := ⟨24, 24⟩
/-- `LINK_PORT_STAT.CORRECTED`, RO (R449). -/
def LINK_PORT_STAT_CORRECTED : Fld := ⟨0, 32⟩
/-- `LINK_PORT_STAT.UNCORRECTED`, RO (R449). -/
def LINK_PORT_STAT_UNCORRECTED : Fld := ⟨32, 16⟩
/-- `LINK_PORT_STAT.REPLAYS`, RO (R449). -/
def LINK_PORT_STAT_REPLAYS : Fld := ⟨48, 15⟩
/-- `LINK_PORT_STAT.CLEAR`, WO (R449). -/
def LINK_PORT_STAT_CLEAR : Fld := ⟨63, 1⟩
/-- `LINK_PORT_PEER.PEER_ID`, RO (R450). -/
def LINK_PORT_PEER_PEER_ID : Fld := ⟨0, 12⟩
/-- `LINK_PORT_PEER.PEER_PORT`, RO (R450). -/
def LINK_PORT_PEER_PEER_PORT : Fld := ⟨16, 5⟩
/-- `LINK_PORT_PEER.PEER_DOMAIN`, RO (R450). -/
def LINK_PORT_PEER_PEER_DOMAIN : Fld := ⟨32, 16⟩
/-- `HOST_STATUS.RATE`, RO (R503). -/
def HOST_STATUS_RATE : Fld := ⟨0, 4⟩
/-- `HOST_STATUS.WIDTH`, RO (R503). -/
def HOST_STATUS_WIDTH : Fld := ⟨4, 5⟩
/-- `HOST_STATUS.FLIT`, RO (R503). -/
def HOST_STATUS_FLIT : Fld := ⟨9, 1⟩
/-- `HOST_STATUS.REG_STATE`, RO (R503). -/
def HOST_STATUS_REG_STATE : Fld := ⟨10, 2⟩
/-- `HOST_STATUS.VFS`, RO (R503). -/
def HOST_STATUS_VFS : Fld := ⟨12, 5⟩
/-- `HOST_ERR.ADDR`, RO (R504). -/
def HOST_ERR_ADDR : Fld := ⟨0, 48⟩
/-- `HOST_ERR.FUNC`, RO (R504). -/
def HOST_ERR_FUNC : Fld := ⟨48, 5⟩
/-- `HOST_ERR.CAUSE`, RO (R504). -/
def HOST_ERR_CAUSE : Fld := ⟨53, 3⟩
/-- `HOST_ERR.DROPPED_DB`, RO (R504). -/
def HOST_ERR_DROPPED_DB : Fld := ⟨56, 7⟩
/-- `HOST_ERR.VALID`, W1C (R504). -/
def HOST_ERR_VALID : Fld := ⟨63, 1⟩
/-- `HOST_FUNC.HOMEROOM`, RO (R505). -/
def HOST_FUNC_HOMEROOM : Fld := ⟨0, 4⟩
/-- `HOST_FUNC.OFFSET`, RW (R505). -/
def HOST_FUNC_OFFSET : Fld := ⟨30, 18⟩
/-- `RING_SQ_BASE.BASE`, RW (R506). -/
def RING_SQ_BASE_BASE : Fld := ⟨12, 52⟩
/-- `RING_CFG.LOG2SIZE`, RW (R507). -/
def RING_CFG_LOG2SIZE : Fld := ⟨0, 5⟩
/-- `RING_CFG.FUNC`, RW (R507). -/
def RING_CFG_FUNC : Fld := ⟨8, 5⟩
/-- `RING_CFG.PRIO`, RW (R507). -/
def RING_CFG_PRIO : Fld := ⟨16, 2⟩
/-- `RING_CFG.VECTOR`, RW (R507). -/
def RING_CFG_VECTOR : Fld := ⟨20, 9⟩
/-- `RING_CFG.CONF`, RO (R507). -/
def RING_CFG_CONF : Fld := ⟨32, 1⟩
/-- `RING_CTL.ENABLE`, RW (R508). -/
def RING_CTL_ENABLE : Fld := ⟨0, 1⟩
/-- `RING_STATUS.STATE`, RO (R509). -/
def RING_STATUS_STATE : Fld := ⟨0, 3⟩
/-- `RING_STATUS.CAUSE`, RO (R509). -/
def RING_STATUS_CAUSE : Fld := ⟨8, 8⟩
/-- `RING_STATUS.SQ_HEAD`, RO (R509). -/
def RING_STATUS_SQ_HEAD : Fld := ⟨16, 16⟩
/-- `RING_STATUS.CQ_TAIL`, RO (R509). -/
def RING_STATUS_CQ_TAIL : Fld := ⟨32, 16⟩
/-- `RING_STATUS.HELD`, RO (R509). -/
def RING_STATUS_HELD : Fld := ⟨48, 5⟩
/-- `RING_SEQ.NEXT`, RO (R510). -/
def RING_SEQ_NEXT : Fld := ⟨0, 32⟩
/-- `RING_SEQ.DONE_BELOW`, RO (R510). -/
def RING_SEQ_DONE_BELOW : Fld := ⟨32, 32⟩
/-- `RING_ADMIT.DEFER_LIMIT`, RW (R511). -/
def RING_ADMIT_DEFER_LIMIT : Fld := ⟨0, 16⟩
/-- `RING_ADMIT.LOOKAHEAD`, RW (R511). -/
def RING_ADMIT_LOOKAHEAD : Fld := ⟨16, 5⟩
/-- `RING_ADMIT.STICKY`, RW (R511). -/
def RING_ADMIT_STICKY : Fld := ⟨24, 4⟩
/-- `RING_ADMIT.STALE`, RW (R511). -/
def RING_ADMIT_STALE : Fld := ⟨32, 24⟩
/-- `RING_ADMIT_STAT.DEFERRALS`, RO (R512). -/
def RING_ADMIT_STAT_DEFERRALS : Fld := ⟨0, 32⟩
/-- `RING_ADMIT_STAT.ROTATIONS`, RO (R512). -/
def RING_ADMIT_STAT_ROTATIONS : Fld := ⟨32, 16⟩
/-- `RING_ADMIT_STAT.HELD_FIRST`, RO (R512). -/
def RING_ADMIT_STAT_HELD_FIRST : Fld := ⟨48, 8⟩
/-- `RING_ADMIT_STAT.STALE`, RO (R512). -/
def RING_ADMIT_STAT_STALE : Fld := ⟨62, 1⟩
/-- `RING_ADMIT_STAT.CLEAR`, WO (R512). -/
def RING_ADMIT_STAT_CLEAR : Fld := ⟨63, 1⟩
/-- `RING_EVQ_BASE.BASE`, RW (R513). -/
def RING_EVQ_BASE_BASE : Fld := ⟨12, 52⟩
/-- `RING_EVQ_CFG.ENABLE`, RW (R513). -/
def RING_EVQ_CFG_ENABLE : Fld := ⟨0, 1⟩
/-- `RING_EVQ_CFG.LOG2SIZE`, RW (R513). -/
def RING_EVQ_CFG_LOG2SIZE : Fld := ⟨4, 4⟩
/-- `RING_EVQ_CFG.VECTOR`, RW (R513). -/
def RING_EVQ_CFG_VECTOR : Fld := ⟨16, 9⟩
/-- `RING_EVQ_HEAD.HEAD`, RW (R513). -/
def RING_EVQ_HEAD_HEAD : Fld := ⟨0, 12⟩
/-- `RING_EVQ_STATUS.TAIL`, RO (R513). -/
def RING_EVQ_STATUS_TAIL : Fld := ⟨0, 12⟩
/-- `RING_EVQ_STATUS.LOST`, RO (R513). -/
def RING_EVQ_STATUS_LOST : Fld := ⟨16, 16⟩
/-- `RING_EVQ_STATUS.OVERFLOW`, W1C (R513). -/
def RING_EVQ_STATUS_OVERFLOW : Fld := ⟨32, 1⟩
/-- `OFFICE_STATUS.MODE`, RO (R533). -/
def OFFICE_STATUS_MODE : Fld := ⟨0, 1⟩
/-- `OFFICE_STATUS.DYN_ADDR`, RO (R533). -/
def OFFICE_STATUS_DYN_ADDR : Fld := ⟨1, 7⟩
/-- `OFFICE_STATUS.EID`, RO (R533). -/
def OFFICE_STATUS_EID : Fld := ⟨8, 8⟩
/-- `OFFICE_STATUS.SESSIONS`, RO (R533). -/
def OFFICE_STATUS_SESSIONS : Fld := ⟨16, 2⟩
/-- `OFFICE_STATUS.MAIN`, RO (R533). -/
def OFFICE_STATUS_MAIN : Fld := ⟨18, 2⟩
/-- `OFFICE_STATUS.RECORDS`, RO (R533). -/
def OFFICE_STATUS_RECORDS : Fld := ⟨20, 4⟩
/-- `OFFICE_CTL.HOST_BLOCK`, RW (R534). -/
def OFFICE_CTL_HOST_BLOCK : Fld := ⟨0, 24⟩
/-- `OFFICE_CTL.BLOCKED`, RO (R534). -/
def OFFICE_CTL_BLOCKED : Fld := ⟨32, 16⟩
/-- `OFFICE_EVQ.COUNT`, RO (R535). -/
def OFFICE_EVQ_COUNT : Fld := ⟨0, 7⟩
/-- `OFFICE_EVQ.LOST`, RO (R535). -/
def OFFICE_EVQ_LOST : Fld := ⟨16, 16⟩
/-- `OFFICE_EVQ.OVERFLOW`, W1C (R535). -/
def OFFICE_EVQ_OVERFLOW : Fld := ⟨32, 1⟩
/-- `OFFICE_COOLANT.INLET`, RO (R536). -/
def OFFICE_COOLANT_INLET : Fld := ⟨0, 16⟩
/-- `OFFICE_COOLANT.FLOW`, RO (R536). -/
def OFFICE_COOLANT_FLOW : Fld := ⟨16, 16⟩
/-- `OFFICE_COOLANT.AGE_INLET`, RO (R536). -/
def OFFICE_COOLANT_AGE_INLET : Fld := ⟨32, 12⟩
/-- `OFFICE_COOLANT.AGE_FLOW`, RO (R536). -/
def OFFICE_COOLANT_AGE_FLOW : Fld := ⟨44, 12⟩
/-- `OFFICE_COOLANT.WORST`, RO (R536). -/
def OFFICE_COOLANT_WORST : Fld := ⟨56, 1⟩
/-- `PWR_LIMIT.WATTS`, RW (R565). -/
def PWR_LIMIT_WATTS : Fld := ⟨0, 12⟩
/-- `PWR_STATUS.REFUSED`, W1C (R566). -/
def PWR_STATUS_REFUSED : Fld := ⟨0, 1⟩
/-- `PWR_STATUS.BACKSTOP_HIT`, W1C (R566). -/
def PWR_STATUS_BACKSTOP_HIT : Fld := ⟨1, 1⟩
/-- `PWR_STATUS.BACKSTOP`, RO (R566). -/
def PWR_STATUS_BACKSTOP : Fld := ⟨2, 3⟩
/-- `PWR_STATUS.REG_FAULT`, W1C (R566). -/
def PWR_STATUS_REG_FAULT : Fld := ⟨5, 1⟩
/-- `PWR_STATUS.FAULT_DOMAIN`, RO (R566). -/
def PWR_STATUS_FAULT_DOMAIN : Fld := ⟨8, 9⟩
/-- `PWR_CTL.GUARD`, RW (R567). -/
def PWR_CTL_GUARD : Fld := ⟨0, 8⟩
/-- `PWR_CTL.INT_EN`, RW (R567). -/
def PWR_CTL_INT_EN : Fld := ⟨8, 1⟩
/-- `PWR_PKG.MEAS_W`, RO (R568). -/
def PWR_PKG_MEAS_W : Fld := ⟨0, 16⟩
/-- `PWR_PKG.BASE_W`, RO (R568). -/
def PWR_PKG_BASE_W : Fld := ⟨16, 16⟩
/-- `PWR_PKG.ALLOW_W`, RO (R568). -/
def PWR_PKG_ALLOW_W : Fld := ⟨32, 16⟩
/-- `PWR_DSEL.DOMAIN`, RW (R569). -/
def PWR_DSEL_DOMAIN : Fld := ⟨0, 9⟩
/-- `PWR_DOMAIN.VSET`, RW (R569). -/
def PWR_DOMAIN_VSET : Fld := ⟨0, 8⟩
/-- `PWR_DOMAIN.VNOW`, RO (R569). -/
def PWR_DOMAIN_VNOW : Fld := ⟨8, 8⟩
/-- `PWR_DOMAIN.RECESS`, RO (R569). -/
def PWR_DOMAIN_RECESS : Fld := ⟨16, 3⟩
/-- `PWR_DOMAIN.OFF`, RO (R569). -/
def PWR_DOMAIN_OFF : Fld := ⟨19, 1⟩
/-- `PWR_DOMAIN.POWER`, RO (R569). -/
def PWR_DOMAIN_POWER : Fld := ⟨20, 16⟩
/-- `THM_CTL.MARGIN`, RW (R570). -/
def THM_CTL_MARGIN : Fld := ⟨0, 4⟩
/-- `THM_CTL.FLOW_MIN`, RW (R570). -/
def THM_CTL_FLOW_MIN : Fld := ⟨4, 16⟩
/-- `THM_CTL.INLET_MAX`, RW (R570). -/
def THM_CTL_INLET_MAX : Fld := ⟨20, 16⟩
/-- `THM_CTL.WORST_INLET`, RW (R570). -/
def THM_CTL_WORST_INLET : Fld := ⟨36, 16⟩
/-- `THM_CTL.INT_EN`, RW (R570). -/
def THM_CTL_INT_EN : Fld := ⟨52, 1⟩
/-- `THM_STATUS.FAULT`, RO (R571). -/
def THM_STATUS_FAULT : Fld := ⟨0, 1⟩
/-- `THM_STATUS.WARN`, W1C (R571). -/
def THM_STATUS_WARN : Fld := ⟨1, 1⟩
/-- `THM_STATUS.THROTTLE`, W1C (R571). -/
def THM_STATUS_THROTTLE : Fld := ⟨2, 1⟩
/-- `THM_STATUS.SUSPECT`, W1C (R571). -/
def THM_STATUS_SUSPECT : Fld := ⟨3, 1⟩
/-- `THM_STATUS.SUSPECTS`, RO (R571). -/
def THM_STATUS_SUSPECTS : Fld := ⟨4, 8⟩
/-- `THM_STATUS.HEADROOM`, RO (R571). -/
def THM_STATUS_HEADROOM : Fld := ⟨16, 16⟩
/-- `THM_SSEL.CLASS`, RW (R572). -/
def THM_SSEL_CLASS : Fld := ⟨0, 3⟩
/-- `THM_SSEL.UNIT`, RW (R572). -/
def THM_SSEL_UNIT : Fld := ⟨4, 4⟩
/-- `THM_SSEL.INDEX`, RW (R572). -/
def THM_SSEL_INDEX : Fld := ⟨8, 8⟩
/-- `THM_SENSOR.TEMP`, RO (R572). -/
def THM_SENSOR_TEMP : Fld := ⟨0, 16⟩
/-- `THM_SENSOR.NOWCAST`, RO (R572). -/
def THM_SENSOR_NOWCAST : Fld := ⟨16, 16⟩
/-- `THM_SENSOR.FORECAST`, RO (R572). -/
def THM_SENSOR_FORECAST : Fld := ⟨32, 16⟩
/-- `THM_SENSOR.SUSPECT`, RO (R572). -/
def THM_SENSOR_SUSPECT : Fld := ⟨48, 1⟩
/-- `THM_SENSOR.LEVEL`, RO (R572). -/
def THM_SENSOR_LEVEL : Fld := ⟨49, 2⟩
/-- `SEC_STATUS.BOOT`, RO (R608). -/
def SEC_STATUS_BOOT : Fld := ⟨0, 2⟩
/-- `SEC_STATUS.BOOT_CAUSE`, RO (R608). -/
def SEC_STATUS_BOOT_CAUSE : Fld := ⟨8, 8⟩
/-- `SEC_STATUS.DEBUG_ON`, RO (R608). -/
def SEC_STATUS_DEBUG_ON : Fld := ⟨16, 1⟩
/-- `SEC_STATUS.RNG_FAIL`, RO (R608). -/
def SEC_STATUS_RNG_FAIL : Fld := ⟨17, 1⟩
/-- `SEC_STATUS.REFUSED`, W1C (R608). -/
def SEC_STATUS_REFUSED : Fld := ⟨18, 1⟩
/-- `SEC_STATUS.ROLLBACK`, RO (R608). -/
def SEC_STATUS_ROLLBACK : Fld := ⟨24, 9⟩
/-- `SEC_STATUS.ACTIVE`, RO (R608). -/
def SEC_STATUS_ACTIVE : Fld := ⟨33, 5⟩
/-- `SEC_HR_SEL.HR`, RW (R609). -/
def SEC_HR_SEL_HR : Fld := ⟨0, 4⟩
/-- `SEC_HR_SEL.WIN`, RW (R609). -/
def SEC_HR_SEL_WIN : Fld := ⟨4, 3⟩
/-- `SEC_HR_CTL.STATE`, RO (R610). -/
def SEC_HR_CTL_STATE : Fld := ⟨0, 2⟩
/-- `SEC_HR_CTL.PENDING`, RO (R610). -/
def SEC_HR_CTL_PENDING : Fld := ⟨2, 1⟩
/-- `SEC_HR_CTL.OPEN`, WO (R610). -/
def SEC_HR_CTL_OPEN : Fld := ⟨3, 1⟩
/-- `SEC_HR_CTL.TEARDOWN`, WO (R610). -/
def SEC_HR_CTL_TEARDOWN : Fld := ⟨4, 1⟩
/-- `SEC_HR_CTL.FUNCS`, RW (R610). -/
def SEC_HR_CTL_FUNCS : Fld := ⟨8, 17⟩
/-- `SEC_HR_CTL.SETS`, RO (R610). -/
def SEC_HR_CTL_SETS : Fld := ⟨32, 8⟩
/-- `SEC_HR_CTL.KEYED`, RO (R610). -/
def SEC_HR_CTL_KEYED : Fld := ⟨40, 1⟩
/-- `SEC_HR_CTL.CMDKEY`, RO (R610). -/
def SEC_HR_CTL_CMDKEY : Fld := ⟨41, 1⟩
/-- `SEC_HR_CORES.CORES`, RW (R611). -/
def SEC_HR_CORES_CORES : Fld := ⟨0, 64⟩
/-- `SEC_HR_MAP.MAP`, RW (R612). -/
def SEC_HR_MAP_MAP : Fld := ⟨0, 64⟩
/-- `SEC_HR_WIN_HOST.VALID`, RW (R613). -/
def SEC_HR_WIN_HOST_VALID : Fld := ⟨0, 1⟩
/-- `SEC_HR_WIN_HOST.PROTECT`, RW (R613). -/
def SEC_HR_WIN_HOST_PROTECT : Fld := ⟨1, 1⟩
/-- `SEC_HR_WIN_HOST.HBASE`, RW (R613). -/
def SEC_HR_WIN_HOST_HBASE : Fld := ⟨12, 52⟩
/-- `SEC_HR_WIN_MAP.WOFF`, RW (R613). -/
def SEC_HR_WIN_MAP_WOFF : Fld := ⟨0, 36⟩
/-- `SEC_HR_WIN_MAP.PAGES`, RW (R613). -/
def SEC_HR_WIN_MAP_PAGES : Fld := ⟨36, 28⟩
/-- `SEC_MBOX_ADDR.BASE`, RW (R614). -/
def SEC_MBOX_ADDR_BASE : Fld := ⟨12, 52⟩
/-- `SEC_MBOX_CTL.HR`, RW (R614). -/
def SEC_MBOX_CTL_HR : Fld := ⟨0, 4⟩
/-- `SEC_MBOX_CTL.KIND`, RW (R614). -/
def SEC_MBOX_CTL_KIND : Fld := ⟨4, 1⟩
/-- `SEC_MBOX_CTL.GO`, WO (R614). -/
def SEC_MBOX_CTL_GO : Fld := ⟨5, 1⟩
/-- `SEC_MBOX_CTL.BUSY`, RO (R614). -/
def SEC_MBOX_CTL_BUSY : Fld := ⟨6, 1⟩
/-- `SEC_MBOX_CTL.DONE`, W1C (R614). -/
def SEC_MBOX_CTL_DONE : Fld := ⟨7, 1⟩
/-- `SEC_MBOX_CTL.REQ_LEN`, RW (R614). -/
def SEC_MBOX_CTL_REQ_LEN : Fld := ⟨8, 13⟩
/-- `SEC_MBOX_CTL.RESP_LEN`, RO (R614). -/
def SEC_MBOX_CTL_RESP_LEN : Fld := ⟨21, 13⟩
/-- `SEC_MBOX_CTL.RESULT`, RO (R614). -/
def SEC_MBOX_CTL_RESULT : Fld := ⟨34, 3⟩
/-- `SEC_DEBUG.UNLOCK`, WO (R615). -/
def SEC_DEBUG_UNLOCK : Fld := ⟨0, 1⟩
/-- `FUSE_STATUS.DEBUG`, RO (R616). -/
def FUSE_STATUS_DEBUG : Fld := ⟨0, 4⟩
/-- `FUSE_STATUS.HR_MAX`, RO (R616). -/
def FUSE_STATUS_HR_MAX : Fld := ⟨4, 5⟩
/-- `FUSE_STATUS.TWIN_SALT`, RO (R616). -/
def FUSE_STATUS_TWIN_SALT : Fld := ⟨9, 1⟩
/-- `FUSE_STATUS.PROG_CLOSED`, RO (R616). -/
def FUSE_STATUS_PROG_CLOSED : Fld := ⟨10, 1⟩
/-- `FUSE_STATUS.REVOKE`, RO (R616). -/
def FUSE_STATUS_REVOKE : Fld := ⟨11, 3⟩
/-- `FUSE_STATUS.ROLLBACK`, RO (R616). -/
def FUSE_STATUS_ROLLBACK : Fld := ⟨14, 9⟩
/-- `FUSE_SEL.WORD`, RW (R617). -/
def FUSE_SEL_WORD : Fld := ⟨0, 7⟩
/-- `FUSE_DATA.DATA`, RO (R617). -/
def FUSE_DATA_DATA : Fld := ⟨0, 64⟩
/-- `REL_CTL.CORE_LIMIT`, RW (R648). -/
def REL_CTL_CORE_LIMIT : Fld := ⟨0, 16⟩
/-- `REL_CTL.REPAIR_EV`, RW (R648). -/
def REL_CTL_REPAIR_EV : Fld := ⟨16, 1⟩
/-- `REL_CTL.INT_EN`, RW (R648). -/
def REL_CTL_INT_EN : Fld := ⟨17, 1⟩
/-- `REL_STATUS.BUSY`, RO (R649). -/
def REL_STATUS_BUSY : Fld := ⟨0, 1⟩
/-- `REL_STATUS.REFUSED`, W1C (R649). -/
def REL_STATUS_REFUSED : Fld := ⟨1, 1⟩
/-- `REL_STATUS.UNRECOVERED`, W1C (R649). -/
def REL_STATUS_UNRECOVERED : Fld := ⟨2, 1⟩
/-- `REL_STATUS.SINGLE`, W1C (R649). -/
def REL_STATUS_SINGLE : Fld := ⟨3, 1⟩
/-- `REL_STATUS.SELFTEST_FAIL`, RO (R649). -/
def REL_STATUS_SELFTEST_FAIL : Fld := ⟨4, 1⟩
/-- `REL_STATUS.FRAMES_FULL`, W1C (R649). -/
def REL_STATUS_FRAMES_FULL : Fld := ⟨5, 1⟩
/-- `REL_STATUS.UNREC_COUNT`, RO (R649). -/
def REL_STATUS_UNREC_COUNT : Fld := ⟨16, 16⟩
/-- `REL_STATUS.REPAIRS`, RO (R649). -/
def REL_STATUS_REPAIRS : Fld := ⟨32, 16⟩
/-- `REL_STATUS.RETRIES`, RO (R649). -/
def REL_STATUS_RETRIES : Fld := ⟨48, 16⟩
/-- `REL_LOG_IDX.ENTRY`, RW (R650). -/
def REL_LOG_IDX_ENTRY : Fld := ⟨0, 5⟩
/-- `REL_LOG0.ADDR`, RO (R651). -/
def REL_LOG0_ADDR : Fld := ⟨0, 48⟩
/-- `REL_LOG0.MEM`, RO (R651). -/
def REL_LOG0_MEM : Fld := ⟨48, 4⟩
/-- `REL_LOG0.CLASS`, RO (R651). -/
def REL_LOG0_CLASS : Fld := ⟨52, 4⟩
/-- `REL_LOG0.OUTCOME`, RO (R651). -/
def REL_LOG0_OUTCOME : Fld := ⟨56, 4⟩
/-- `REL_LOG1.UNIT`, RO (R652). -/
def REL_LOG1_UNIT : Fld := ⟨0, 8⟩
/-- `REL_LOG1.REQUESTER`, RO (R652). -/
def REL_LOG1_REQUESTER : Fld := ⟨8, 3⟩
/-- `REL_LOG1.YOKE`, RO (R652). -/
def REL_LOG1_YOKE : Fld := ⟨16, 24⟩
/-- `REL_LOG1.TREE`, RO (R652). -/
def REL_LOG1_TREE : Fld := ⟨40, 4⟩
/-- `REL_LOG1.DIE`, RO (R652). -/
def REL_LOG1_DIE : Fld := ⟨44, 2⟩
/-- `REL_LOG1.YOKE_VALID`, RO (R652). -/
def REL_LOG1_YOKE_VALID : Fld := ⟨46, 1⟩
/-- `REL_FLIP_SEL.MEM`, RW (R653). -/
def REL_FLIP_SEL_MEM : Fld := ⟨0, 2⟩
/-- `REL_FLIP_SEL.UNIT`, RW (R653). -/
def REL_FLIP_SEL_UNIT : Fld := ⟨8, 8⟩
/-- `REL_FLIP_SEL.ARM`, RW (R653). -/
def REL_FLIP_SEL_ARM : Fld := ⟨16, 1⟩
/-- `REL_FLIP_SEL.MATCH`, RW (R653). -/
def REL_FLIP_SEL_MATCH : Fld := ⟨17, 1⟩
/-- `REL_FLIP_SEL.REFUSED`, W1C (R653). -/
def REL_FLIP_SEL_REFUSED : Fld := ⟨18, 1⟩
/-- `REL_FLIP_ADDR.GRANULE`, RW (R654). -/
def REL_FLIP_ADDR_GRANULE : Fld := ⟨4, 44⟩
/-- `REL_FLIP_MASK0.DATA_LO`, RW (R654). -/
def REL_FLIP_MASK0_DATA_LO : Fld := ⟨0, 64⟩
/-- `REL_FLIP_MASK1.DATA_HI`, RW (R654). -/
def REL_FLIP_MASK1_DATA_HI : Fld := ⟨0, 64⟩
/-- `REL_FLIP_MASK2.CHECK`, RW (R654). -/
def REL_FLIP_MASK2_CHECK : Fld := ⟨0, 16⟩
/-- `REL_MIRROR.MIRROR`, RW (R655). -/
def REL_MIRROR_MIRROR : Fld := ⟨0, 64⟩
/-- `BOOT_CTL.STEP`, WO (R682). -/
def BOOT_CTL_STEP : Fld := ⟨0, 4⟩
/-- `BOOT_CTL.EXPORT`, WO (R682). -/
def BOOT_CTL_EXPORT : Fld := ⟨4, 1⟩
/-- `BOOT_CTL.COLD`, WO (R682). -/
def BOOT_CTL_COLD : Fld := ⟨5, 1⟩
/-- `BOOT_CTL.KEY`, WO (R682). -/
def BOOT_CTL_KEY : Fld := ⟨8, 8⟩
/-- `BOOT_STATUS.PHASE`, RO (R683). -/
def BOOT_STATUS_PHASE : Fld := ⟨0, 3⟩
/-- `BOOT_STATUS.BUSY`, RO (R683). -/
def BOOT_STATUS_BUSY : Fld := ⟨3, 1⟩
/-- `BOOT_STATUS.RESULT`, RO (R683). -/
def BOOT_STATUS_RESULT : Fld := ⟨4, 4⟩
/-- `BOOT_STATUS.ENABLED`, RO (R683). -/
def BOOT_STATUS_ENABLED : Fld := ⟨8, 9⟩
/-- `BOOT_STATUS.GRADE`, RO (R683). -/
def BOOT_STATUS_GRADE : Fld := ⟨17, 1⟩
/-- `BOOT_STATUS.GRADE_VALID`, RO (R683). -/
def BOOT_STATUS_GRADE_VALID : Fld := ⟨18, 1⟩
/-- `BOOT_STATUS.REC_RESULT`, RO (R683). -/
def BOOT_STATUS_REC_RESULT : Fld := ⟨19, 3⟩
/-- `BOOT_STATUS.LIST_FULL`, RO (R683). -/
def BOOT_STATUS_LIST_FULL : Fld := ⟨22, 1⟩
/-- `BOOT_STATUS.ENTRIES`, RO (R683). -/
def BOOT_STATUS_ENTRIES : Fld := ⟨32, 10⟩
/-- `BOOT_IMG_LEN.BYTES`, RW (R684). -/
def BOOT_IMG_LEN_BYTES : Fld := ⟨0, 24⟩
/-- `BOOT_REC_BASE.BASE`, RW (R685). -/
def BOOT_REC_BASE_BASE : Fld := ⟨12, 52⟩
/-- `BOOT_REC_LEN.BYTES`, RW (R685). -/
def BOOT_REC_LEN_BYTES : Fld := ⟨0, 13⟩
/-- `BOOT_DOMAIN.SEL`, RW (R686). -/
def BOOT_DOMAIN_SEL : Fld := ⟨0, 3⟩
/-- `BOOT_DOMAIN.ACTION`, WO (R686). -/
def BOOT_DOMAIN_ACTION : Fld := ⟨4, 2⟩
/-- `BOOT_DOMAIN.STATE`, RO (R686). -/
def BOOT_DOMAIN_STATE : Fld := ⟨8, 3⟩
/-- `BOOT_DOMSUM.STATES`, RO (R686). -/
def BOOT_DOMSUM_STATES : Fld := ⟨0, 32⟩
/-- `BOOT_ROLL.FUSE_CORES`, RO (R687). -/
def BOOT_ROLL_FUSE_CORES : Fld := ⟨0, 9⟩
/-- `BOOT_ROLL.ROLL_CORES`, RO (R687). -/
def BOOT_ROLL_ROLL_CORES : Fld := ⟨16, 9⟩
/-- `BOOT_ROLL.CARRIED_CORES`, RO (R687). -/
def BOOT_ROLL_CARRIED_CORES : Fld := ⟨32, 9⟩
/-- `TOP_STRAPS.OFFICE_ADDR`, RO (R716). -/
def TOP_STRAPS_OFFICE_ADDR : Fld := ⟨0, 2⟩
/-- `TOP_STRAPS.PCIE_SRIS`, RO (R716). -/
def TOP_STRAPS_PCIE_SRIS : Fld := ⟨2, 1⟩
/-- `TOP_STRAPS.TEST_EN`, RO (R716). -/
def TOP_STRAPS_TEST_EN : Fld := ⟨3, 1⟩
/-- `TOP_STRAPS.TEST_ACTIVE`, RO (R716). -/
def TOP_STRAPS_TEST_ACTIVE : Fld := ⟨4, 1⟩
/-- `TOP_SUPPLY.VIN_CORE`, RO (R717). -/
def TOP_SUPPLY_VIN_CORE : Fld := ⟨0, 1⟩
/-- `TOP_SUPPLY.VIO_CORE`, RO (R717). -/
def TOP_SUPPLY_VIO_CORE : Fld := ⟨1, 4⟩
/-- `TOP_SUPPLY.VSD_0V9`, RO (R717). -/
def TOP_SUPPLY_VSD_0V9 : Fld := ⟨5, 4⟩
/-- `TOP_SUPPLY.VSD_1V2`, RO (R717). -/
def TOP_SUPPLY_VSD_1V2 : Fld := ⟨9, 4⟩
/-- `TOP_SUPPLY.ARMED`, RO (R717). -/
def TOP_SUPPLY_ARMED : Fld := ⟨13, 1⟩

/-- The field rows of a register. -/
def Reg.rows : Reg → List FieldRow
  | .topId => [⟨TOP_ID_STEPPING, .ro, 0xb0⟩, ⟨TOP_ID_VARIANT, .ro, 0⟩, ⟨TOP_ID_PART, .ro, 0xb44⟩]
  | .coreStatus _ => [⟨CORE_STATUS_STATE, .ro, 0⟩, ⟨CORE_STATUS_ENABLE_PENDING, .ro, 0⟩, ⟨CORE_STATUS_DEFECT, .ro, 0⟩, ⟨CORE_STATUS_CAUSE, .ro, 0⟩, ⟨CORE_STATUS_CORE_ID, .ro, 0⟩, ⟨CORE_STATUS_LATE_DROPS, .ro, 0⟩]
  | .coreFenceCtl _ => [⟨CORE_FENCE_CTL_FENCE, .wo, 0⟩, ⟨CORE_FENCE_CTL_UNFENCE, .wo, 0⟩]
  | .coreRate _ => [⟨CORE_RATE_STEPS_A, .ro, 0⟩, ⟨CORE_RATE_STEPS_B, .ro, 0⟩]
  | .arrCtl _ _ => [⟨ARR_CTL_WDOG_LIMIT, .rw, 0x10000⟩, ⟨ARR_CTL_CLEAR, .wo, 0⟩]
  | .arrStat _ _ => [⟨ARR_STAT_FREEZES, .ro, 0⟩, ⟨ARR_STAT_SKID_FULLS, .ro, 0⟩, ⟨ARR_STAT_HANGS, .ro, 0⟩]
  | .arrSrndSeed _ _ => [⟨ARR_SRND_SEED_SEED, .rw, 1⟩]
  | .coreSkimSeed _ => [⟨CORE_SKIM_SEED_SEED, .rw, 1⟩]
  | .lsnCtl _ => [⟨LSN_CTL_WAIT_LIMIT, .rw, 0x1000000⟩]
  | .lsnStatus _ => [⟨LSN_STATUS_STATE, .ro, 0⟩, ⟨LSN_STATUS_LAST_STATUS, .ro, 0⟩, ⟨LSN_STATUS_STEP_INDEX, .ro, 0⟩]
  | .lsnEvt _ _ => [⟨LSN_EVT_EVT_A, .ro, 0⟩, ⟨LSN_EVT_EVT_B, .ro, 0⟩, ⟨LSN_EVT_EVT_C, .ro, 0⟩, ⟨LSN_EVT_EVT_D, .ro, 0⟩]
  | .nearCtl _ => [⟨NEAR_CTL_IDLE_LIMIT, .rw, 0x100⟩]
  | .nearStatus _ => [⟨NEAR_STATUS_STATE, .ro, 1⟩, ⟨NEAR_STATUS_FALLBACK, .ro, 0⟩, ⟨NEAR_STATUS_XCHK, .w1c, 0⟩, ⟨NEAR_STATUS_REFRESH, .ro, 0⟩, ⟨NEAR_STATUS_THROTTLE, .ro, 0⟩]
  | .nearLayerOffset _ => [⟨NEAR_LAYER_OFFSET_OFS0, .rwl, 0⟩, ⟨NEAR_LAYER_OFFSET_OFS1, .rwl, 0⟩, ⟨NEAR_LAYER_OFFSET_OFS2, .rwl, 0⟩, ⟨NEAR_LAYER_OFFSET_OFS3, .rwl, 0⟩]
  | .nearTemp _ => [⟨NEAR_TEMP_TEMP0, .ro, 0⟩, ⟨NEAR_TEMP_TEMP1, .ro, 0⟩, ⟨NEAR_TEMP_TEMP2, .ro, 0⟩, ⟨NEAR_TEMP_TEMP3, .ro, 0⟩]
  | .nearErr _ => [⟨NEAR_ERR_OFFSET, .ro, 0⟩, ⟨NEAR_ERR_VALID, .w1c, 0⟩, ⟨NEAR_ERR_RETRIED, .ro, 0⟩, ⟨NEAR_ERR_FAILED, .ro, 0⟩]
  | .sepScope _ => [⟨SEP_SCOPE_SCOPE, .rw, 0⟩]
  | .sepNarrow _ => [⟨SEP_NARROW_NARROW, .rw, 0⟩]
  | .sepStatus => [⟨SEP_STATUS_BUSY, .ro, 0⟩, ⟨SEP_STATUS_REFUSED, .w1c, 0⟩, ⟨SEP_STATUS_SITES, .ro, 0⟩, ⟨SEP_STATUS_SET_GIB, .ro, 0⟩]
  | .farStatus _ => [⟨FAR_STATUS_PRESENT, .ro, 0⟩, ⟨FAR_STATUS_TRAINED, .ro, 0⟩, ⟨FAR_STATUS_LOST, .ro, 0⟩, ⟨FAR_STATUS_TEMP, .ro, 0⟩]
  | .farMode _ => [⟨FAR_MODE_MODE, .rw, 0⟩, ⟨FAR_MODE_SPARE, .rw, 1⟩, ⟨FAR_MODE_PRIO_SHARE, .rw, 0x10⟩, ⟨FAR_MODE_WINDOW, .rw, 0x1000⟩]
  | .farShare _ _ => [⟨FAR_SHARE_SHARE_A, .rw, 0x400⟩, ⟨FAR_SHARE_SHARE_B, .rw, 0x400⟩, ⟨FAR_SHARE_SHARE_C, .rw, 0x400⟩, ⟨FAR_SHARE_SHARE_D, .rw, 0x400⟩]
  | .farUse _ _ => [⟨FAR_USE_USE_A, .ro, 0⟩, ⟨FAR_USE_USE_B, .ro, 0⟩, ⟨FAR_USE_USE_C, .ro, 0⟩, ⟨FAR_USE_USE_D, .ro, 0⟩]
  | .scCtl _ => [⟨SC_CTL_PURGE, .rw, 0⟩, ⟨SC_CTL_PURGE_HR, .rw, 0⟩]
  | .scStat _ => [⟨SC_STAT_MERGES, .ro, 0⟩, ⟨SC_STAT_ATOMICS, .ro, 0⟩, ⟨SC_STAT_CLEAR, .wo, 0⟩]
  | .ldlCtl _ => [⟨LDL_CTL_DRAIN, .rw, 0⟩]
  | .ldlStatus _ => [⟨LDL_STATUS_QUEUED, .ro, 0⟩, ⟨LDL_STATUS_ACTIVE, .ro, 0⟩, ⟨LDL_STATUS_IDLE, .ro, 1⟩]
  | .ldlStat _ => [⟨LDL_STAT_ROW_STEPS, .ro, 0⟩, ⟨LDL_STAT_REFRESH_INSERTS, .ro, 0⟩, ⟨LDL_STAT_FAILS, .ro, 0⟩, ⟨LDL_STAT_LATE_DROPS, .ro, 0⟩, ⟨LDL_STAT_CLEAR, .wo, 0⟩]
  | .ldlErr _ => [⟨LDL_ERR_ADDR, .ro, 0⟩, ⟨LDL_ERR_STATUS, .ro, 0⟩, ⟨LDL_ERR_VALID, .w1c, 0⟩]
  | .pailCtl _ => [⟨PAIL_CTL_POLL, .rw, 0x64⟩, ⟨PAIL_CTL_DRAIN, .rw, 0⟩]
  | .pailStatus _ => [⟨PAIL_STATUS_TREES, .ro, 0⟩, ⟨PAIL_STATUS_SEQS, .ro, 0⟩, ⟨PAIL_STATUS_RINGS, .ro, 0⟩, ⟨PAIL_STATUS_IDLE, .ro, 1⟩]
  | .pailStat0 _ => [⟨PAIL_STAT0_HITS, .ro, 0⟩, ⟨PAIL_STAT0_MISSES, .ro, 0⟩]
  | .pailStat1 _ => [⟨PAIL_STAT1_COPIES, .ro, 0⟩, ⟨PAIL_STAT1_INSERTS, .ro, 0⟩, ⟨PAIL_STAT1_LATE_DROPS, .ro, 0⟩, ⟨PAIL_STAT1_CLEAR, .wo, 0⟩]
  | .pailErr _ => [⟨PAIL_ERR_YOKE, .ro, 0⟩, ⟨PAIL_ERR_TREE, .ro, 0⟩, ⟨PAIL_ERR_STATUS, .ro, 0⟩, ⟨PAIL_ERR_VALID, .w1c, 0⟩]
  | .meshCtl _ => [⟨MESH_CTL_HB_TICKS, .rw, 0x400⟩]
  | .meshStatus _ => [⟨MESH_STATUS_FAILED, .ro, 0⟩, ⟨MESH_STATUS_NODE, .ro, 0⟩]
  | .meshStat _ => [⟨MESH_STAT_EJECT_HOLDS, .ro, 0⟩, ⟨MESH_STAT_CLEAR, .wo, 0⟩]
  | .arbSel _ _ => [⟨ARB_SEL_TYPE, .rw, 0⟩, ⟨ARB_SEL_INDEX, .rw, 0⟩]
  | .arbCtl _ _ => [⟨ARB_CTL_FREEZE, .rw, 0⟩, ⟨ARB_CTL_BUSY, .ro, 0⟩, ⟨ARB_CTL_INT_EN, .rw, 1⟩, ⟨ARB_CTL_LIMIT, .rw, 0x1000⟩]
  | .arbWeight _ _ => [⟨ARB_WEIGHT_WEIGHT, .rw, 0⟩]
  | .arbStarve _ _ => [⟨ARB_STARVE_FLAGS, .w1c, 0⟩, ⟨ARB_STARVE_PENDING, .ro, 0⟩]
  | .arbStat _ _ => [⟨ARB_STAT_GRANTS, .ro, 0⟩, ⟨ARB_STAT_MAX_LOSSES, .ro, 0⟩, ⟨ARB_STAT_CLEAR, .wo, 0⟩]
  | .arbSum0 _ => [⟨ARB_SUM0_TYPE0, .ro, 0⟩, ⟨ARB_SUM0_TYPE1, .ro, 0⟩, ⟨ARB_SUM0_TYPE2, .ro, 0⟩, ⟨ARB_SUM0_TYPE3, .ro, 0⟩]
  | .arbSum1 _ => [⟨ARB_SUM1_TYPE4, .ro, 0⟩, ⟨ARB_SUM1_TYPE5, .ro, 0⟩]
  | .xingSel _ _ => [⟨XING_SEL_TYPE, .rw, 0⟩, ⟨XING_SEL_INDEX, .rw, 0⟩, ⟨XING_SEL_CROSSING, .rw, 0⟩]
  | .xingCtl _ => [⟨XING_CTL_STALL_LIMIT, .rw, 0x4000⟩, ⟨XING_CTL_INT_EN, .rw, 1⟩, ⟨XING_CTL_FORCE, .wo, 0⟩]
  | .xingStatus _ _ => [⟨XING_STATUS_KIND, .ro, 0⟩, ⟨XING_STATUS_FALLBACK, .ro, 0⟩, ⟨XING_STATUS_FORCED, .ro, 0⟩, ⟨XING_STATUS_STALLED, .w1c, 0⟩, ⟨XING_STATUS_RUN, .ro, 0⟩, ⟨XING_STATUS_DISAGREE, .ro, 0⟩, ⟨XING_STATUS_LAT_MAX, .ro, 0⟩]
  | .xingSum _ => [⟨XING_SUM_FALLBACK_ANY, .ro, 0⟩, ⟨XING_SUM_STALL_ANY, .ro, 0⟩]
  | .d2dSel _ _ => [⟨D2D_SEL_EDGE, .rw, 0⟩, ⟨D2D_SEL_MODULE, .rw, 0⟩]
  | .d2dCtl _ => [⟨D2D_CTL_WDOG, .rw, 0x32⟩, ⟨D2D_CTL_LANE_LIMIT, .rw, 4⟩, ⟨D2D_CTL_INT_EN, .rw, 1⟩]
  | .d2dEdgeStatus _ _ => [⟨D2D_EDGE_STATUS_STATE, .ro, 0⟩, ⟨D2D_EDGE_STATUS_FULL, .ro, 0⟩, ⟨D2D_EDGE_STATUS_HALF, .ro, 0⟩, ⟨D2D_EDGE_STATUS_RETIRED, .ro, 0⟩]
  | .d2dModule _ _ _ => [⟨D2D_MODULE_WIDTH, .ro, 0⟩, ⟨D2D_MODULE_FAILED, .ro, 0⟩, ⟨D2D_MODULE_REPAIRS, .ro, 0⟩, ⟨D2D_MODULE_RESENDS, .ro, 0⟩]
  | .d2dStat _ => [⟨D2D_STAT_LATE_DROPS, .ro, 0⟩, ⟨D2D_STAT_DIES_LOST, .ro, 0⟩, ⟨D2D_STAT_CLEAR, .wo, 0⟩]
  | .linkId _ => [⟨LINK_ID_DEVICE_ID, .rwl, 0⟩, ⟨LINK_ID_DOMAIN, .rwl, 0⟩, ⟨LINK_ID_TWIN_DOMAIN, .rwl, 0⟩]
  | .linkCtl _ => [⟨LINK_CTL_E2E_LIMIT, .rw, 0xf4240⟩, ⟨LINK_CTL_WDOG, .rw, 0x64⟩, ⟨LINK_CTL_MAX_HOPS, .rw, 0x3f⟩, ⟨LINK_CTL_INT_EN, .rw, 1⟩]
  | .linkRouteIdx _ _ => [⟨LINK_ROUTE_IDX_DST, .rw, 0⟩]
  | .linkRouteData _ _ => [⟨LINK_ROUTE_DATA_PORTS, .rw, 0⟩, ⟨LINK_ROUTE_DATA_VC_UP, .rw, 0⟩, ⟨LINK_ROUTE_DATA_ORIGIN, .rw, 0⟩]
  | .linkStat _ => [⟨LINK_STAT_LATE_DROPS, .ro, 0⟩, ⟨LINK_STAT_HOP_EXPIRED, .ro, 0⟩, ⟨LINK_STAT_MALFORMED, .ro, 0⟩, ⟨LINK_STAT_CLEAR, .wo, 0⟩]
  | .linkPortCtl _ _ => [⟨LINK_PORT_CTL_ENABLE, .rw, 0⟩, ⟨LINK_PORT_CTL_TWIN, .rw, 0⟩, ⟨LINK_PORT_CTL_RETRAIN, .wo, 0⟩, ⟨LINK_PORT_CTL_LANE_OFF, .rw, 0⟩, ⟨LINK_PORT_CTL_LANE_LIMIT, .rw, 0x400⟩]
  | .linkPortStatus _ _ => [⟨LINK_PORT_STATUS_STATE, .ro, 0⟩, ⟨LINK_PORT_STATUS_WIDTH, .ro, 0⟩, ⟨LINK_PORT_STATUS_REVERSED, .ro, 0⟩, ⟨LINK_PORT_STATUS_POL_FIX, .ro, 0⟩, ⟨LINK_PORT_STATUS_LANE_FAULT, .ro, 0⟩]
  | .linkPortStat _ _ => [⟨LINK_PORT_STAT_CORRECTED, .ro, 0⟩, ⟨LINK_PORT_STAT_UNCORRECTED, .ro, 0⟩, ⟨LINK_PORT_STAT_REPLAYS, .ro, 0⟩, ⟨LINK_PORT_STAT_CLEAR, .wo, 0⟩]
  | .linkPortPeer _ _ => [⟨LINK_PORT_PEER_PEER_ID, .ro, 0⟩, ⟨LINK_PORT_PEER_PEER_PORT, .ro, 0⟩, ⟨LINK_PORT_PEER_PEER_DOMAIN, .ro, 0⟩]
  | .hostStatus => [⟨HOST_STATUS_RATE, .ro, 0⟩, ⟨HOST_STATUS_WIDTH, .ro, 0⟩, ⟨HOST_STATUS_FLIT, .ro, 0⟩, ⟨HOST_STATUS_REG_STATE, .ro, 0⟩, ⟨HOST_STATUS_VFS, .ro, 0⟩]
  | .hostErr => [⟨HOST_ERR_ADDR, .ro, 0⟩, ⟨HOST_ERR_FUNC, .ro, 0⟩, ⟨HOST_ERR_CAUSE, .ro, 0⟩, ⟨HOST_ERR_DROPPED_DB, .ro, 0⟩, ⟨HOST_ERR_VALID, .w1c, 0⟩]
  | .hostFunc _ => [⟨HOST_FUNC_HOMEROOM, .ro, 0⟩, ⟨HOST_FUNC_OFFSET, .rw, 0⟩]
  | .ringSqBase _ => [⟨RING_SQ_BASE_BASE, .rw, 0⟩]
  | .ringCqBase _ => [⟨RING_SQ_BASE_BASE, .rw, 0⟩]
  | .ringCfg _ => [⟨RING_CFG_LOG2SIZE, .rw, 4⟩, ⟨RING_CFG_FUNC, .rw, 0⟩, ⟨RING_CFG_PRIO, .rw, 0⟩, ⟨RING_CFG_VECTOR, .rw, 0⟩, ⟨RING_CFG_CONF, .ro, 0⟩]
  | .ringCtl _ => [⟨RING_CTL_ENABLE, .rw, 0⟩]
  | .ringStatus _ => [⟨RING_STATUS_STATE, .ro, 0⟩, ⟨RING_STATUS_CAUSE, .ro, 0⟩, ⟨RING_STATUS_SQ_HEAD, .ro, 0⟩, ⟨RING_STATUS_CQ_TAIL, .ro, 0⟩, ⟨RING_STATUS_HELD, .ro, 0⟩]
  | .ringSeq _ => [⟨RING_SEQ_NEXT, .ro, 0⟩, ⟨RING_SEQ_DONE_BELOW, .ro, 0⟩]
  | .ringAdmit => [⟨RING_ADMIT_DEFER_LIMIT, .rw, 0x40⟩, ⟨RING_ADMIT_LOOKAHEAD, .rw, 0x10⟩, ⟨RING_ADMIT_STICKY, .rw, 2⟩, ⟨RING_ADMIT_STALE, .rw, 0x186a0⟩]
  | .ringAdmitStat => [⟨RING_ADMIT_STAT_DEFERRALS, .ro, 0⟩, ⟨RING_ADMIT_STAT_ROTATIONS, .ro, 0⟩, ⟨RING_ADMIT_STAT_HELD_FIRST, .ro, 0⟩, ⟨RING_ADMIT_STAT_STALE, .ro, 0⟩, ⟨RING_ADMIT_STAT_CLEAR, .wo, 0⟩]
  | .ringEvqBase => [⟨RING_EVQ_BASE_BASE, .rw, 0⟩]
  | .ringEvqCfg => [⟨RING_EVQ_CFG_ENABLE, .rw, 0⟩, ⟨RING_EVQ_CFG_LOG2SIZE, .rw, 6⟩, ⟨RING_EVQ_CFG_VECTOR, .rw, 0⟩]
  | .ringEvqHead => [⟨RING_EVQ_HEAD_HEAD, .rw, 0⟩]
  | .ringEvqStatus => [⟨RING_EVQ_STATUS_TAIL, .ro, 0⟩, ⟨RING_EVQ_STATUS_LOST, .ro, 0⟩, ⟨RING_EVQ_STATUS_OVERFLOW, .w1c, 0⟩]
  | .officeStatus => [⟨OFFICE_STATUS_MODE, .ro, 0⟩, ⟨OFFICE_STATUS_DYN_ADDR, .ro, 0⟩, ⟨OFFICE_STATUS_EID, .ro, 0⟩, ⟨OFFICE_STATUS_SESSIONS, .ro, 0⟩, ⟨OFFICE_STATUS_MAIN, .ro, 0⟩, ⟨OFFICE_STATUS_RECORDS, .ro, 0⟩]
  | .officeCtl => [⟨OFFICE_CTL_HOST_BLOCK, .rw, 0⟩, ⟨OFFICE_CTL_BLOCKED, .ro, 0⟩]
  | .officeEvq => [⟨OFFICE_EVQ_COUNT, .ro, 0⟩, ⟨OFFICE_EVQ_LOST, .ro, 0⟩, ⟨OFFICE_EVQ_OVERFLOW, .w1c, 0⟩]
  | .officeCoolant => [⟨OFFICE_COOLANT_INLET, .ro, 0⟩, ⟨OFFICE_COOLANT_FLOW, .ro, 0⟩, ⟨OFFICE_COOLANT_AGE_INLET, .ro, 0xfff⟩, ⟨OFFICE_COOLANT_AGE_FLOW, .ro, 0xfff⟩, ⟨OFFICE_COOLANT_WORST, .ro, 1⟩]
  | .pwrLimit => [⟨PWR_LIMIT_WATTS, .rw, 0⟩]
  | .pwrStatus => [⟨PWR_STATUS_REFUSED, .w1c, 0⟩, ⟨PWR_STATUS_BACKSTOP_HIT, .w1c, 0⟩, ⟨PWR_STATUS_BACKSTOP, .ro, 0⟩, ⟨PWR_STATUS_REG_FAULT, .w1c, 0⟩, ⟨PWR_STATUS_FAULT_DOMAIN, .ro, 0⟩]
  | .pwrCtl => [⟨PWR_CTL_GUARD, .rw, 0x3c⟩, ⟨PWR_CTL_INT_EN, .rw, 1⟩]
  | .pwrPkg => [⟨PWR_PKG_MEAS_W, .ro, 0⟩, ⟨PWR_PKG_BASE_W, .ro, 0⟩, ⟨PWR_PKG_ALLOW_W, .ro, 0⟩]
  | .pwrStack _ => [⟨PWR_PKG_MEAS_W, .ro, 0⟩, ⟨PWR_PKG_BASE_W, .ro, 0⟩, ⟨PWR_PKG_ALLOW_W, .ro, 0⟩]
  | .pwrDsel _ => [⟨PWR_DSEL_DOMAIN, .rw, 0⟩]
  | .pwrDomain _ => [⟨PWR_DOMAIN_VSET, .rw, 0x28⟩, ⟨PWR_DOMAIN_VNOW, .ro, 0x28⟩, ⟨PWR_DOMAIN_RECESS, .ro, 0⟩, ⟨PWR_DOMAIN_OFF, .ro, 0⟩, ⟨PWR_DOMAIN_POWER, .ro, 0⟩]
  | .thmCtl => [⟨THM_CTL_MARGIN, .rw, 3⟩, ⟨THM_CTL_FLOW_MIN, .rw, 0x64⟩, ⟨THM_CTL_INLET_MAX, .rw, 0x190⟩, ⟨THM_CTL_WORST_INLET, .rw, 0x168⟩, ⟨THM_CTL_INT_EN, .rw, 1⟩]
  | .thmStatus => [⟨THM_STATUS_FAULT, .ro, 0⟩, ⟨THM_STATUS_WARN, .w1c, 0⟩, ⟨THM_STATUS_THROTTLE, .w1c, 0⟩, ⟨THM_STATUS_SUSPECT, .w1c, 0⟩, ⟨THM_STATUS_SUSPECTS, .ro, 0⟩, ⟨THM_STATUS_HEADROOM, .ro, 0⟩]
  | .thmSsel _ => [⟨THM_SSEL_CLASS, .rw, 0⟩, ⟨THM_SSEL_UNIT, .rw, 0⟩, ⟨THM_SSEL_INDEX, .rw, 0⟩]
  | .thmSensor _ => [⟨THM_SENSOR_TEMP, .ro, 0⟩, ⟨THM_SENSOR_NOWCAST, .ro, 0⟩, ⟨THM_SENSOR_FORECAST, .ro, 0⟩, ⟨THM_SENSOR_SUSPECT, .ro, 0⟩, ⟨THM_SENSOR_LEVEL, .ro, 0⟩]
  | .secStatus => [⟨SEC_STATUS_BOOT, .ro, 0⟩, ⟨SEC_STATUS_BOOT_CAUSE, .ro, 0⟩, ⟨SEC_STATUS_DEBUG_ON, .ro, 0⟩, ⟨SEC_STATUS_RNG_FAIL, .ro, 0⟩, ⟨SEC_STATUS_REFUSED, .w1c, 0⟩, ⟨SEC_STATUS_ROLLBACK, .ro, 0⟩, ⟨SEC_STATUS_ACTIVE, .ro, 1⟩]
  | .secHrSel _ => [⟨SEC_HR_SEL_HR, .rw, 0⟩, ⟨SEC_HR_SEL_WIN, .rw, 0⟩]
  | .secHrCtl _ => [⟨SEC_HR_CTL_STATE, .ro, 0⟩, ⟨SEC_HR_CTL_PENDING, .ro, 0⟩, ⟨SEC_HR_CTL_OPEN, .wo, 0⟩, ⟨SEC_HR_CTL_TEARDOWN, .wo, 0⟩, ⟨SEC_HR_CTL_FUNCS, .rw, 0⟩, ⟨SEC_HR_CTL_SETS, .ro, 0⟩, ⟨SEC_HR_CTL_KEYED, .ro, 0⟩, ⟨SEC_HR_CTL_CMDKEY, .ro, 0⟩]
  | .secHrCores _ _ => [⟨SEC_HR_CORES_CORES, .rw, 0⟩]
  | .secHrMap _ _ => [⟨SEC_HR_MAP_MAP, .rw, 0⟩]
  | .secHrWinHost _ _ => [⟨SEC_HR_WIN_HOST_VALID, .rw, 0⟩, ⟨SEC_HR_WIN_HOST_PROTECT, .rw, 0⟩, ⟨SEC_HR_WIN_HOST_HBASE, .rw, 0⟩]
  | .secHrWinMap _ _ => [⟨SEC_HR_WIN_MAP_WOFF, .rw, 0⟩, ⟨SEC_HR_WIN_MAP_PAGES, .rw, 0⟩]
  | .secMboxAddr => [⟨SEC_MBOX_ADDR_BASE, .rw, 0⟩]
  | .secMboxCtl => [⟨SEC_MBOX_CTL_HR, .rw, 0⟩, ⟨SEC_MBOX_CTL_KIND, .rw, 0⟩, ⟨SEC_MBOX_CTL_GO, .wo, 0⟩, ⟨SEC_MBOX_CTL_BUSY, .ro, 0⟩, ⟨SEC_MBOX_CTL_DONE, .w1c, 0⟩, ⟨SEC_MBOX_CTL_REQ_LEN, .rw, 0⟩, ⟨SEC_MBOX_CTL_RESP_LEN, .ro, 0⟩, ⟨SEC_MBOX_CTL_RESULT, .ro, 0⟩]
  | .secDebug => [⟨SEC_DEBUG_UNLOCK, .wo, 0⟩]
  | .fuseStatus => [⟨FUSE_STATUS_DEBUG, .ro, 0⟩, ⟨FUSE_STATUS_HR_MAX, .ro, 0⟩, ⟨FUSE_STATUS_TWIN_SALT, .ro, 0⟩, ⟨FUSE_STATUS_PROG_CLOSED, .ro, 0⟩, ⟨FUSE_STATUS_REVOKE, .ro, 0⟩, ⟨FUSE_STATUS_ROLLBACK, .ro, 0⟩]
  | .fuseSel _ => [⟨FUSE_SEL_WORD, .rw, 0⟩]
  | .fuseData _ => [⟨FUSE_DATA_DATA, .ro, 0⟩]
  | .relCtl => [⟨REL_CTL_CORE_LIMIT, .rw, 0x10⟩, ⟨REL_CTL_REPAIR_EV, .rw, 0⟩, ⟨REL_CTL_INT_EN, .rw, 1⟩]
  | .relStatus => [⟨REL_STATUS_BUSY, .ro, 0⟩, ⟨REL_STATUS_REFUSED, .w1c, 0⟩, ⟨REL_STATUS_UNRECOVERED, .w1c, 0⟩, ⟨REL_STATUS_SINGLE, .w1c, 0⟩, ⟨REL_STATUS_SELFTEST_FAIL, .ro, 0⟩, ⟨REL_STATUS_FRAMES_FULL, .w1c, 0⟩, ⟨REL_STATUS_UNREC_COUNT, .ro, 0⟩, ⟨REL_STATUS_REPAIRS, .ro, 0⟩, ⟨REL_STATUS_RETRIES, .ro, 0⟩]
  | .relLogIdx _ => [⟨REL_LOG_IDX_ENTRY, .rw, 0⟩]
  | .relLog0 _ => [⟨REL_LOG0_ADDR, .ro, 0⟩, ⟨REL_LOG0_MEM, .ro, 0⟩, ⟨REL_LOG0_CLASS, .ro, 0⟩, ⟨REL_LOG0_OUTCOME, .ro, 0⟩]
  | .relLog1 _ => [⟨REL_LOG1_UNIT, .ro, 0⟩, ⟨REL_LOG1_REQUESTER, .ro, 0⟩, ⟨REL_LOG1_YOKE, .ro, 0⟩, ⟨REL_LOG1_TREE, .ro, 0⟩, ⟨REL_LOG1_DIE, .ro, 0⟩, ⟨REL_LOG1_YOKE_VALID, .ro, 0⟩]
  | .relFlipSel => [⟨REL_FLIP_SEL_MEM, .rw, 0⟩, ⟨REL_FLIP_SEL_UNIT, .rw, 0⟩, ⟨REL_FLIP_SEL_ARM, .rw, 0⟩, ⟨REL_FLIP_SEL_MATCH, .rw, 0⟩, ⟨REL_FLIP_SEL_REFUSED, .w1c, 0⟩]
  | .relFlipAddr => [⟨REL_FLIP_ADDR_GRANULE, .rw, 0⟩]
  | .relFlipMask0 => [⟨REL_FLIP_MASK0_DATA_LO, .rw, 0⟩]
  | .relFlipMask1 => [⟨REL_FLIP_MASK1_DATA_HI, .rw, 0⟩]
  | .relFlipMask2 => [⟨REL_FLIP_MASK2_CHECK, .rw, 0⟩]
  | .relMirror _ => [⟨REL_MIRROR_MIRROR, .rw, 0⟩]
  | .bootCtl => [⟨BOOT_CTL_STEP, .wo, 0⟩, ⟨BOOT_CTL_EXPORT, .wo, 0⟩, ⟨BOOT_CTL_COLD, .wo, 0⟩, ⟨BOOT_CTL_KEY, .wo, 0⟩]
  | .bootStatus => [⟨BOOT_STATUS_PHASE, .ro, 0⟩, ⟨BOOT_STATUS_BUSY, .ro, 0⟩, ⟨BOOT_STATUS_RESULT, .ro, 0⟩, ⟨BOOT_STATUS_ENABLED, .ro, 0⟩, ⟨BOOT_STATUS_GRADE, .ro, 0⟩, ⟨BOOT_STATUS_GRADE_VALID, .ro, 0⟩, ⟨BOOT_STATUS_REC_RESULT, .ro, 0⟩, ⟨BOOT_STATUS_LIST_FULL, .ro, 0⟩, ⟨BOOT_STATUS_ENTRIES, .ro, 0⟩]
  | .bootImgLen => [⟨BOOT_IMG_LEN_BYTES, .rw, 0⟩]
  | .bootRecBase => [⟨BOOT_REC_BASE_BASE, .rw, 0⟩]
  | .bootRecLen => [⟨BOOT_REC_LEN_BYTES, .rw, 0⟩]
  | .bootDomain _ => [⟨BOOT_DOMAIN_SEL, .rw, 0⟩, ⟨BOOT_DOMAIN_ACTION, .wo, 0⟩, ⟨BOOT_DOMAIN_STATE, .ro, 0⟩]
  | .bootDomsum => [⟨BOOT_DOMSUM_STATES, .ro, 0⟩]
  | .bootRoll => [⟨BOOT_ROLL_FUSE_CORES, .ro, 0⟩, ⟨BOOT_ROLL_ROLL_CORES, .ro, 0⟩, ⟨BOOT_ROLL_CARRIED_CORES, .ro, 0⟩]
  | .topStraps => [⟨TOP_STRAPS_OFFICE_ADDR, .ro, 0⟩, ⟨TOP_STRAPS_PCIE_SRIS, .ro, 0⟩, ⟨TOP_STRAPS_TEST_EN, .ro, 0⟩, ⟨TOP_STRAPS_TEST_ACTIVE, .ro, 0⟩]
  | .topSupply => [⟨TOP_SUPPLY_VIN_CORE, .ro, 1⟩, ⟨TOP_SUPPLY_VIO_CORE, .ro, 0⟩, ⟨TOP_SUPPLY_VSD_0V9, .ro, 0⟩, ⟨TOP_SUPPLY_VSD_1V2, .ro, 0⟩, ⟨TOP_SUPPLY_ARMED, .ro, 1⟩]
  | .bootExportBase => [⟨BOOT_REC_BASE_BASE, .rw, 0⟩]

/-- The word that a list of field rows holds at reset. -/
def rowsReset (rows : List FieldRow) : W64 := rows.foldl (fun w r => fldSet w r.fld r.rst) 0#64

/-- The bits of a register that carry an access code. -/
def rowsMask (rows : List FieldRow) (p : Acc → Bool) : W64 :=
  rows.foldl (fun w r => if p r.acc then w ||| fldMask r.fld else w) 0#64

/-- The value of a register at release from cold-start reset (R18): its table's values, with those "per assembly",
"per type" and per homeroom filled in; a value "per fuse" or "per strap" is that of unblown fuses and low straps. -/
def resetWord (v : Variant) (r : Reg) : W64 :=
  let b := rowsReset r.rows
  match r with
  | .topId => fldSet b TOP_ID_VARIANT (variantCode v)
  | .topSupply =>
    let m := 2 ^ ioDies v - 1
    fldSet (fldSet (fldSet b TOP_SUPPLY_VIO_CORE m) TOP_SUPPLY_VSD_0V9 m) TOP_SUPPLY_VSD_1V2 m
  | .coreStatus c => fldSet b CORE_STATUS_CORE_ID c
  | .sepStatus => fldSet (fldSet b SEP_STATUS_SITES (sitesPerStack v)) SEP_STATUS_SET_GIB (4 * sitesPerStack v)
  | .farStatus f => fldSet b FAR_STATUS_PRESENT (b2n (farPresent v f))
  | .arbWeight _ i => fldSet b ARB_WEIGHT_WEIGHT (if arbPresent i then arbWeights (bitsOf i 0 4) else 0)
  | .arbCtl _ i => if arbPresent i then b else 0#64
  | .xingStatus d i => fldSet b XING_STATUS_KIND (xingKindCode (xingKind v d i))
  | .d2dEdgeStatus d e => fldSet b D2D_EDGE_STATUS_STATE (if (edgePeer v d e).isSome then 0 else 5)
  | .d2dModule d e i => fldSet b D2D_MODULE_WIDTH (if i < edgeModules v d e then 0 else 3)
  | .pwrLimit => fldSet b PWR_LIMIT_WATTS (powerDefault v)
  | .secHrCtl h => fldSet b SEC_HR_CTL_FUNCS (if h = 0 then 0x1FFFF else 0)
  | .secHrCores h _ => if h = 0 then BitVec.allOnes 64 else 0#64
  | .bootDomsum =>
    fldSet b BOOT_DOMSUM_STATES ((List.range 8).foldl (fun a d => a + (if domainPresent v d then 0 else 5) * 16 ^ d) 0)
  | _ => b

/-- The register of a list of registers eight bytes apart. -/
def regLine (l : List Reg) (o : Nat) : Option Reg := l[o / 8]?

/-- The CORE, ARR, LSN and NEAR blocks of a core (R718). -/
def coreRegAt (c o : Nat) : Option Reg :=
  let x := o % 0x1000
  match o / 0x1000 with
  | 0 => regLine [.coreStatus c, .coreFenceCtl c, .coreRate c, .coreSkimSeed c] x
  | 1 => regLine ([0, 1].flatMap fun a => [.arrCtl c a, .arrStat c a, .arrSrndSeed c a]) (if x < 0x18 then x else if x < 0x40 then 0x1000 else x - 0x28)
  | 2 => regLine [.lsnCtl c, .lsnStatus c, .lsnEvt c 0, .lsnEvt c 1, .lsnEvt c 2, .lsnEvt c 3] x
  | _ => regLine [.nearCtl c, .nearStatus c, .nearLayerOffset c, .nearTemp c, .nearErr c] x

/-- What each selector copy of a master names (R723): the selector word of a selector register. -/
abbrev RegRead := Reg → W64

/-- The XING block of a die (R718, R370); `rd` reads selectors, `m` is the master's copy. -/
def xingRegAt (rd : RegRead) (m d x : Nat) : Option Reg :=
  regLine [.xingSel d m, .xingCtl d, .xingStatus d (bitsOf (rd (.xingSel d m)).toNat 0 20), .xingSum d] x

/-- The D2D block of a die (R718, R401). -/
def d2dRegAt (rd : RegRead) (m d x : Nat) : Option Reg :=
  let w := rd (.d2dSel d m)
  let e := fldGet w D2D_SEL_EDGE
  regLine [.d2dSel d m, .d2dCtl d, .d2dEdgeStatus d e, .d2dModule d e (fldGet w D2D_SEL_MODULE), .d2dStat d] x

/-- The per-die blocks of a logic die (R718). -/
def dieRegAt (rd : RegRead) (m d o : Nat) : Option Reg :=
  let x := o % 0x1000
  let sel := bitsOf (rd (.arbSel d m)).toNat 0 20
  let f := fun b => 3 * d + (o / 0x1000 - b)
  match o / 0x1000 with
  | 0x00 => regLine [.meshCtl d, .meshStatus d, .meshStat d] x
  | 0x01 => regLine [.arbSel d m, .arbCtl d sel, .arbWeight d sel, .arbStarve d sel, .arbStat d sel, .arbSum0 d, .arbSum1 d] x
  | 0x02 => regLine [.pailCtl d, .pailStatus d, .pailStat0 d, .pailStat1 d, .pailErr d] x
  | 0x03 => xingRegAt rd m d x
  | 0x04 => d2dRegAt rd m d x
  | 0x10 | 0x11 | 0x12 =>
    regLine ([.farStatus (f 0x10), .farMode (f 0x10)] ++ (List.range 4).map (Reg.farShare (f 0x10)) ++ (List.range 4).map (Reg.farUse (f 0x10))) x
  | 0x14 | 0x15 | 0x16 => regLine [.scCtl (f 0x14), .scStat (f 0x14)] x
  | 0x18 | 0x19 | 0x1A => regLine [.ldlCtl (f 0x18), .ldlStatus (f 0x18), .ldlStat (f 0x18), .ldlErr (f 0x18)] x
  | _ => none

/-- The blocks of an I/O die (R718); `d` is the die's number from 4. -/
def ioRegAt (rd : RegRead) (m d o : Nat) : Option Reg :=
  let x := o % 0x1000
  match o / 0x1000 with
  | 0 => xingRegAt rd m d x
  | 1 => d2dRegAt rd m d x
  | 2 =>
    if x < 0x100 then
      regLine [.linkId (d - 4), .linkCtl (d - 4), .linkRouteIdx (d - 4) m,
        .linkRouteData (d - 4) (bitsOf (rd (.linkRouteIdx (d - 4) m)).toNat 0 12), .linkStat (d - 4)] x
    else
      let p := (x - 0x100) / 0x40
      if p < 6 then regLine [.linkPortCtl (d - 4) p, .linkPortStatus (d - 4) p, .linkPortStat (d - 4) p, .linkPortPeer (d - 4) p] ((x - 0x100) % 0x40)
      else none
  | _ => none

/-- The RING block (R718), which is also BAR0 of a virtual function (R721). -/
def ringRegAt (x : Nat) : Option Reg :=
  if x < 0x4000 then
    regLine [.ringSqBase (x / 0x100), .ringCqBase (x / 0x100), .ringCfg (x / 0x100), .ringCtl (x / 0x100),
      .ringStatus (x / 0x100), .ringSeq (x / 0x100)] (x % 0x100)
  else regLine [.ringAdmit, .ringAdmitStat, .ringEvqBase, .ringEvqCfg, .ringEvqHead, .ringEvqStatus] (x - 0x4000)

/-- The SEC block (R718), offsets 0x010 to 0x0C8 steered by `SEC_HR_SEL` (R723). -/
def secRegAt (rd : RegRead) (m x : Nat) : Option Reg :=
  let w := rd (.secHrSel m)
  let h := fldGet w SEC_HR_SEL_HR
  if x = 0x000 then some .secStatus
  else if x = 0x008 then some (.secHrSel m)
  else if x = 0x010 then some (.secHrCtl h)
  else if 0x020 ≤ x ∧ x < 0x040 then some (.secHrCores h ((x - 0x020) / 8))
  else if 0x040 ≤ x ∧ x < 0x0C0 then some (.secHrMap h ((x - 0x040) / 8))
  else if x = 0x0C0 then some (.secHrWinHost h (fldGet w SEC_HR_SEL_WIN))
  else if x = 0x0C8 then some (.secHrWinMap h (fldGet w SEC_HR_SEL_WIN))
  else if x = 0x0D0 then some .secMboxAddr
  else if x = 0x0D8 then some .secMboxCtl
  else if x = 0x0E0 then some .secDebug
  else none

/-- The office-held blocks (R718). -/
def officeRegAt (rd : RegRead) (m o : Nat) : Option Reg :=
  let x := o % 0x1000
  match o / 0x1000 with
  | 0 => regLine [.officeStatus, .officeCtl, .officeEvq, .officeCoolant] x
  | 1 => secRegAt rd m x
  | 2 => regLine [.fuseStatus, .fuseSel m, .fuseData (bitsOf (rd (.fuseSel m)).toNat 0 7)] x
  | 3 => regLine ([.pwrLimit, .pwrStatus, .pwrCtl, .pwrPkg] ++ (List.range 4).map Reg.pwrStack ++
      [.pwrDsel m, .pwrDomain (bitsOf (rd (.pwrDsel m)).toNat 0 9)]) x
  | 4 => regLine [.thmCtl, .thmStatus, .thmSsel m, .thmSensor (rd (.thmSsel m)).toNat] x
  | 5 => regLine [.sepScope 0, .sepScope 1, .sepNarrow 0, .sepNarrow 1, .sepStatus] x
  | 6 =>
    let n := bitsOf (rd (.relLogIdx m)).toNat 0 5
    if x < 0x80 then
      regLine [.relCtl, .relStatus, .relLogIdx m, .relLog0 n, .relLog1 n, .relFlipSel, .relFlipAddr, .relFlipMask0, .relFlipMask1, .relFlipMask2] x
    else if x < 0x100 then some (.relMirror ((x - 0x80) / 8)) else none
  | _ => none

/-- The BOOT block (R718). -/
def bootRegAt (m x : Nat) : Option Reg :=
  regLine [.bootCtl, .bootStatus, .bootImgLen, .bootRecBase, .bootRecLen, .bootExportBase, .bootDomain m, .bootDomsum, .bootRoll] x

/-- The register at an 8-byte aligned offset of the physical function's BAR0 (R718, R719), with the instance that the
issuer's own selector copy `m` names (R723, R724); none where no register is defined. -/
def regAt (rd : RegRead) (m off : Nat) : Option Reg :=
  if off < 0x1000 then regLine [.topId, .topStraps, .topSupply] off
  else if off < 0x2000 then
    let x := off - 0x1000
    if x = 0 then some .hostStatus else if x = 8 then some .hostErr
    else if 0x100 ≤ x ∧ x < 0x188 then some (.hostFunc ((x - 0x100) / 8)) else none
  else if off < 0x10000 then none
  else if off < 0x20000 then ringRegAt (off - 0x10000)
  else if off < 0x27000 then officeRegAt rd m (off - 0x20000)
  else if off < 0x100000 then none
  else if off < 0x180000 then dieRegAt rd m ((off - 0x100000) / 0x20000) ((off - 0x100000) % 0x20000)
  else if off < 0x1C0000 then ioRegAt rd m (4 + (off - 0x180000) / 0x10000) ((off - 0x180000) % 0x10000)
  else if off < 0x400000 then none
  else if off < 0x800000 then coreRegAt ((off - 0x400000) / 0x4000) ((off - 0x400000) % 0x4000)
  else if off < 0x3000000 then none
  else if off < 0x3001000 then bootRegAt m (off - 0x3000000)
  else none

/-- The image window of the BOOT block (R527, R718). -/
def inImageWindow (off : Nat) : Bool := decide (0x3800000 ≤ off) && decide (off < 0x4000000)

/-- Register blocks with their SOURCE codes (R495, R718). -/
inductive Block
  | top | host | ring | office | sec | fuse | pwr | thm | core | arr | lsn | near | far | sep | sc | ldl | pail | mesh
  | arb | xing | d2d | link | rel | boot
  deriving DecidableEq, Repr

/-- The SOURCE code of a block (R495, R718). -/
def blockCode : Block → Nat
  | .top => 0x00 | .host => 0x01 | .ring => 0x02 | .office => 0x03 | .sec => 0x04 | .fuse => 0x05 | .pwr => 0x06
  | .thm => 0x07 | .core => 0x08 | .arr => 0x09 | .lsn => 0x0A | .near => 0x0B | .far => 0x0C | .sep => 0x0D
  | .sc => 0x0E | .ldl => 0x0F | .pail => 0x10 | .mesh => 0x11 | .arb => 0x12 | .xing => 0x13 | .d2d => 0x14
  | .link => 0x15 | .rel => 0x16 | .boot => 0x17

/-- The block of an offset of BAR0 and the die that holds it, 8 standing for the office (R718, R725). -/
def blockAt (off : Nat) : Option (Block × Nat) :=
  let sub := fun (l : List Block) (b o : Nat) (d : Nat) => (l[(o - b) / 0x1000]?).map (·, d)
  if off < 0x1000 then some (.top, 4)
  else if off < 0x2000 then some (.host, 4)
  else if off < 0x10000 then none
  else if off < 0x20000 then some (.ring, 4)
  else if off < 0x27000 then sub [.office, .sec, .fuse, .pwr, .thm, .sep, .rel] 0x20000 off 8
  else if off < 0x100000 then none
  else if off < 0x180000 then
    let d := (off - 0x100000) / 0x20000
    match (off - 0x100000) % 0x20000 / 0x1000 with
    | 0 => some (.mesh, d) | 1 => some (.arb, d) | 2 => some (.pail, d) | 3 => some (.xing, d) | 4 => some (.d2d, d)
    | 0x10 | 0x11 | 0x12 => some (.far, d)
    | 0x14 | 0x15 | 0x16 => some (.sc, d)
    | 0x18 | 0x19 | 0x1A => some (.ldl, d)
    | _ => none
  else if off < 0x1C0000 then
    let d := 4 + (off - 0x180000) / 0x10000
    match (off - 0x180000) % 0x10000 / 0x1000 with
    | 0 => some (.xing, d) | 1 => some (.d2d, d) | 2 => some (.link, d) | _ => none
  else if off < 0x400000 then none
  else if off < 0x800000 then
    let c := (off - 0x400000) / 0x4000
    match (off - 0x400000) % 0x4000 / 0x1000 with
    | 0 => some (.core, c / 64) | 1 => some (.arr, c / 64) | 2 => some (.lsn, c / 64) | _ => some (.near, c / 64)
  else if off < 0x3000000 then none
  else if off < 0x4000000 then some (.boot, 8)
  else none

end Sys2Proof.Machine
end

