-- ==== Sys2Proof/Machine/Units.lean ====
section
/-! DEFINITION. The plain-data records of the part's units that State is made of. -/

namespace Sys2Proof.Machine

/-- Who issues a register access (R524, R722, R454). -/
inductive Master
  | pf
  | vf (n : Nat)
  | office
  | registrar
  deriving DecidableEq, Repr

/-- The selector copy of a master (R723): host, office, registrar. -/
def Master.copy : Master → Nat
  | .pf => 0 | .vf _ => 0 | .office => 1 | .registrar => 2

/-- Which half of a register an access covers (R730). -/
inductive Half
  | full | lo | hi
  deriving DecidableEq, Repr

/-- A write access to a register: who writes, which half, and the value (of the half, where it is one). -/
structure RegWrite where
  master : Master
  half : Half
  value : Nat
  deriving DecidableEq, Repr

/-- Who made a memory access (R634, R652). -/
inductive Requester
  | core (c : Nat)
  | tutor (c : Nat)
  | host (f : Nat)
  | registrar
  | pail (d : Nat)
  | ladle (f : Nat)
  | fabric (d : Nat)
  | scrub
  | writeback
  deriving DecidableEq, Repr

/-- The REQUESTER code of `REL_LOG1` (R652). -/
def requesterCode : Requester → Nat
  | .core _ => 0 | .tutor _ => 0 | .host _ => 1 | .registrar => 2 | .pail _ => 3 | .ladle _ => 4 | .fabric _ => 5
  | .scrub => 6 | .writeback => 7

/-- What a piece of work waits for (R66, R211, R298, R342): a core's desk or slice, a line of far memory, or a pail manager. -/
inductive WaitsOn
  | near (c : Nat)
  | far (grain : Nat)
  | pail (d : Nat)
  deriving DecidableEq, Repr

/-- Why a memory access failed (R21, R588, R598, R599, R600, R629, R33). -/
inductive AccErr
  /-- The access is held (R210, R254, R255) and nothing has been done. -/
  | held (on : WaitsOn)
  | unbacked
  | misaligned
  | translation
  | window
  | check
  | hostFail
  | outside
  | encrypted
  /-- The request was outstanding to a fenced core's memory, or to a die that announced its end (R66, R397). -/
  | fenced
  /-- The request was outstanding to a lost die, or no path leads to its die (R33, R393, R397). -/
  | dieLost
  deriving DecidableEq, Repr

/-- A 16-byte entry of an event queue (R494), without its PHASE. -/
structure Event where
  source : Nat
  inst : Nat
  reg : Nat
  detail : Nat
  deriving DecidableEq, Repr

/-- What the part sends outside, newest last. -/
inductive Output
  /-- The value a register read returns to a master. -/
  | regValue (m : Master) (value : Nat)
  /-- A host request completes with Completer Abort (R15, R455, R456). -/
  | completerAbort (f : Nat)
  /-- A host request completes with, or is reported as, Unsupported Request (R731). -/
  | unsupportedRequest (f : Nat)
  /-- A host read completes with data (R455, R460). -/
  | hostData (f : Nat) (bytes : List Byte)
  /-- An MSI-X write of a vector of a function (R457). -/
  | msix (f vector : Nat)
  /-- A message that the office sends on its bus, or forms for the mailbox, and the MCTP message type that carries it (R516, R520, R584). -/
  | office (ty : Nat) (bytes : List Byte)
  /-- Data returned to a requester inside the part. -/
  | reply (rq : Requester) (bytes : List Byte)
  /-- A failed reply to a requester inside the part. -/
  | replyError (rq : Requester) (err : AccErr)
  /-- A packet leaves on edge `e` of die `d`, module `m` (R384). -/
  | die (d e m : Nat) (bytes : List Byte)
  /-- A codeword's message leaves on fabric port `p` of I/O die `d` (R409, R410). -/
  | fabric (d p : Nat) (bytes : List Byte)
  /-- A node of a logic die's mesh and ring, numbered as in R350, hands over what has arrived for its unit. -/
  | deliver (d node : Nat) (bytes : List Byte)
  /-- A crossing delivers a value or an event (R360 to R365): die, selection, value. -/
  | crossing (d sel value : Nat)
  /-- A pin changes (R514, R556). -/
  | pin (name : String) (level : Bool)
  /-- A hint given to an arbiter's loser (R340). -/
  | hallPass (d sel rqr hint : Nat)
  /-- A message between units, by name and words. -/
  | message (name : String) (words : List Nat)
  deriving DecidableEq, Repr

/-- Package power and reset state (R697 to R703, R556, R708): VAUX_1V8 within tolerance, PERST_N asserted, the monitors armed, the main
side on, a shutdown latched, VAUX_1V8 cycled since the latch, the main side held for test, the host's reference clock lost since the
last start (R706), and the count BOOTS. -/
structure PowerState where
  vaux : Bool
  perst : Bool
  armed : Bool
  mainOn : Bool
  latched : Bool
  vauxCycled : Bool
  testHold : Bool
  pcieLost : Bool
  boots : Nat
  deriving DecidableEq, Repr

/-- One cached line (R211, R202, R620): 256 bytes of plaintext, the difference of each granule's check bits from the valid
ones, valid and dirty sectors, the homeroom that brought it in (R222), and its age for replacement. -/
structure Line where
  data : List Byte
  chk : List Nat
  valid : Nat
  dirty : Nat
  hr : Nat
  age : Nat
  /-- Cache slice, 3 × logic die + slice, and way within its associativity set (R211). -/
  slice : Nat
  way : Nat
  deriving DecidableEq, Repr

/-- A purge under way in a shared-cache slice (R222, R238). -/
structure Purge where
  slice : Nat
  hr : Nat
  deriving DecidableEq, Repr

/-- A slate tile (R37, R144, R145): its class, weight format, elements at class width, block scales and side entries. -/
structure Tile where
  cls : FmtClass
  fmt : Fmt
  data : List Byte
  scales : List Byte
  side : List Nat
  deriving DecidableEq, Repr

/-- Array state (R37 to R51, R64, R75, R113). -/
structure ArrayState where
  active : Option Tile
  pendingTile : Option Tile
  loading : Option Tile
  frozen : Bool
  /-- The stagger rows whose data is late, with the partial sums that wait in the skid buffer of each (R49, R50). -/
  lateRows : SMap Nat
  /-- The columns that refuse results, with the results that wait in the skid buffer of each (R49, R51). -/
  heldCols : SMap Nat
  /-- The running lesson has run an array step on this array (R75). -/
  used : Bool
  /-- Array steps of the open rate window (R64). -/
  steps : Nat
  /-- Seed loaded into the 128 generators and the states of those drawn from since (R113, R114). -/
  seed : Nat
  gens : SMap Nat
  /-- A seed write waits to be loaded (R116). -/
  reload : Bool
  /-- The two accumulator banks: the FP32 rows of the last chunk each has taken (R34). -/
  bank0 : List (List Nat)
  bank1 : List (List Nat)
  deriving DecidableEq, Repr

/-- An array with nothing loaded, generators seeded with 1 (R117). -/
def ArrayState.init : ArrayState :=
  ⟨none, none, none, false, [], [], false, 0, 1, [], false, [], []⟩

/-- A 32-byte step (R126) with the stream it came from, its lesson-stream index and its issue order. -/
structure StepRec where
  w0 : Nat
  w1 : Nat
  w2 : Nat
  w3 : Nat
  /-- The step came from the post stream. -/
  post : Bool
  index : Nat
  order : Nat
  /-- The fetch of this step met a failing desk granule (R634). -/
  bad : Bool
  deriving DecidableEq, Repr

/-- Lesson status codes (R160). -/
inductive LStatus
  | ok | badOpcode | badFormat | badShape | badOperand | busError | arrayHung | tutorFault | tutorAbort | syncTimeout
  | stepLimit | fenced | dieLost
  deriving DecidableEq, Repr

/-- The code of a lesson status (R160). -/
def lstatusCode : LStatus → Nat
  | .ok => 0x00 | .badOpcode => 0x01 | .badFormat => 0x02 | .badShape => 0x03 | .badOperand => 0x04 | .busError => 0x05
  | .arrayHung => 0x06 | .tutorFault => 0x07 | .tutorAbort => 0x08 | .syncTimeout => 0x09 | .stepLimit => 0x0A
  | .fenced => 0x0B | .dieLost => 0x0C

/-- A step that an engine has started: whether its operation has been performed, and its status so far. -/
structure Running where
  step : StepRec
  performed : Bool
  status : LStatus
  deriving DecidableEq, Repr

/-- A step held at the issue point of its stream, and whether it has begun to wait (R121, R154, R155). -/
structure PointStep where
  step : StepRec
  waiting : Bool
  deriving DecidableEq, Repr

/-- The five engines of a core (R121). -/
inductive Engine
  | arrayA | arrayB | skim | mover | tutor
  deriving DecidableEq, Repr

/-- Queue depth of an engine (R121). -/
def Engine.depth : Engine → Nat
  | .tutor => 2 | _ => 4

/-- The engine's place in a list of five. -/
def Engine.idx : Engine → Nat
  | .arrayA => 0 | .arrayB => 1 | .skim => 2 | .mover => 3 | .tutor => 4

/-- A launch message (R163). -/
structure Launch where
  offset : Nat
  stepLimit : Nat
  preloadSrc : Nat
  preloadBytes : Nat
  homeroom : Nat
  tag : Nat
  deriving DecidableEq, Repr

/-- Why a lesson ends (R161, R162): the failing step's order, status, stream and index, and the two words of a tutor's end. -/
structure LessonFail where
  order : Nat
  status : LStatus
  post : Bool
  index : Nat
  word1 : Nat
  deriving DecidableEq, Repr

/-- Tutor state (R157, R165). -/
structure Tutor where
  pc : Nat
  x : List Nat
  f : List Nat
  v : List Nat
  csr : SMap Nat
  /-- LR reservation on a desk address (R165). -/
  resv : Option Nat
  /-- Executing a routine. -/
  running : Bool
  /-- Waiting in `twait` (R155). -/
  waiting : Bool
  /-- Instruction parcels held by the instruction cache since its last invalidation (R165). -/
  icache : SMap Nat
  time : Nat
  cycles : Nat
  instret : Nat
  deriving DecidableEq, Repr

/-- A tutor at launch: every register zero (R157). -/
def Tutor.init : Tutor :=
  ⟨0, List.replicate 32 0, List.replicate 32 0, List.replicate 32 0, [], none, false, false, [], 0, 0, 0⟩

/-- The kinds of core fence stage (R66, R680). -/
inductive FenceStage
  | none | fencing | recovering
  deriving DecidableEq, Repr

/-- Everything a core holds beside its registers (R34, R121 to R164). -/
structure CoreSt where
  arrA : ArrayState
  arrB : ArrayState
  skimSeed : Nat
  skimGens : SMap Nat
  skimReload : Bool
  tutor : Tutor
  lesson : Option Launch
  /-- A launch that waits for the slice's clear to complete (R192). -/
  waitingLaunch : Option Launch
  preloading : Bool
  /-- The lesson stream has met END (R158). -/
  ended : Bool
  /-- The lesson is ending on a failure (R161). -/
  fail : Option LessonFail
  /-- The running lesson was ended by a function-level reset and its record is discarded (R500). -/
  discard : Bool
  fetched : List StepRec
  fetchIndex : Nat
  issued : Nat
  order : Nat
  postQ : List StepRec
  pointLesson : Option PointStep
  pointPost : Option PointStep
  queues : List (List StepRec)
  running : List (List Running)
  kEmpty : Bool
  nanCleared : Bool
  /-- An unfence queued behind a fence, and its writer (R73). -/
  unfenceBy : Option Master
  /-- Granules of desk and slice that failed without recovery since the last fill (R643). -/
  failCount : Nat
  /-- The router is supplied by the die domain (R540). -/
  routerOnDie : Bool
  /-- The core is moving to this homeroom, once its lesson has ended (R587). -/
  movingTo : Option Nat
  /-- The step at work has LAT_CRIT set: its far reads carry the latency-critical tag (R126). -/
  tag : Bool
  /-- What steps, by their order + 1, and a preload, as 0, wait for: an access of theirs is held (R33, R66). -/
  stuck : SMap WaitsOn
  deriving DecidableEq, Repr

/-- A core after reset. -/
def CoreSt.init : CoreSt :=
  { arrA := .init, arrB := .init, skimSeed := 1, skimGens := [], skimReload := false, tutor := .init, lesson := none,
    waitingLaunch := none, preloading := false, ended := false, fail := none, discard := false, fetched := [],
    fetchIndex := 0, issued := 0, order := 0, postQ := [], pointLesson := none, pointPost := none,
    queues := List.replicate 5 [], running := List.replicate 5 [], kEmpty := false, nanCleared := false,
    unfenceBy := none, failCount := 0, routerOnDie := false, movingTo := none, tag := false, stuck := [] }

/-- Who asks the slice controller (R174): a requester of the own core's vertical port, the controller's own engines, or anyone else. -/
inductive SliceSource
  | fillA | fillB | skim | mover | engine
  | other (rq : Requester)
  deriving DecidableEq, Repr

/-- An access to one grain of a slice (R175 to R177, R188): offset and length or bytes within the grain, and for a read the
granules whose first read fails although they are stored well. -/
inductive SliceAccess
  | read (off len transient : Nat)
  | write (off : Nat) (bytes : List Byte)
  deriving DecidableEq, Repr

/-- A grain request at a slice controller (R175). -/
structure SliceReq where
  grain : Nat
  src : SliceSource
  acc : SliceAccess
  deriving DecidableEq, Repr

/-- A slice controller beside its registers (R175, R180, R181, R186, R193). -/
structure SliceSt where
  /-- Grain requests accepted and not completed, in the order of acceptance (R175, R176). -/
  outstanding : List SliceReq
  /-- Refreshes owed per bank, keyed channel × 16 + bank (R180). -/
  owed : SMap Nat
  /-- Row pointer per bank (R181). -/
  rowPtr : SMap Nat
  /-- Channels in power-down (R193). -/
  poweredDown : Nat
  /-- Consecutive cross-check failures per layer (R186). -/
  xchkRun : List Nat
  /-- A fill or clear is for a reassignment and waits for the lesson to end (R190). -/
  clearPending : Bool
  deriving DecidableEq, Repr

/-- A slice controller after reset. -/
def SliceSt.init : SliceSt := ⟨[], [], [], 0, [0, 0, 0, 0], false⟩

/-- A request waiting at a far port (R224, R225, R228). -/
structure FarReq where
  pc : Nat
  hr : Nat
  /-- A fill; a write-back is none. -/
  read : Bool
  /-- The requester of the arbiter of the queue: the shared-cache slice of the die (R337). -/
  from' : Nat
  tagged : Bool
  id : Nat
  /-- Grants that the request still needs: one, or one for each sector of a narrow set (R202, R224). -/
  left : Nat
  deriving DecidableEq, Repr

/-- A far port's regulator and queues (R223 to R228, R252). -/
structure FarPort where
  tokens : List Nat
  charged : List Nat
  /-- Mode and shares in force since the last window close (R223, R236). -/
  mode : Nat
  shares : List Nat
  /-- Requests in the command queues of the pseudo-channels, of 32 entries each, and those that wait to enter one (R337). -/
  waiting : List FarReq
  outside : List FarReq
  /-- Of the last 64 grants of a pseudo-channel, which went to tagged reads out of age order, newest first (R228). -/
  recent : SMap (List Bool)
  /-- Refreshes owed per bank, keyed pseudo-channel × 64 + bank (R252). -/
  owed : SMap Nat
  /-- Refreshes issued, per bank. -/
  refreshes : SMap Nat
  deriving DecidableEq, Repr

/-- A far port after reset: shares at the reset value of R236, no tokens. -/
def FarPort.init : FarPort :=
  ⟨List.replicate 16 0, List.replicate 16 0, 0, List.replicate 16 0x400, [], [], [], [], []⟩

/-- Atomic operations of the shared cache (R217). -/
inductive AtomOp
  | add | smin | smax | umin | umax | and | or | xor | swap | cas | fp32Add | bf16Add
  deriving DecidableEq, Repr

/-- What a request to the shared cache does (R213, R217). -/
inductive ScKind
  | read (len : Nat)
  | write (bytes : List Byte)
  /-- Operation, width in bytes, operand, expected value of a compare-swap. -/
  | atomic (op : AtomOp) (width v expected : Nat)
  deriving DecidableEq, Repr

/-- A request to far memory at its home slice: requester, homeroom, physical address, what it does, and the latency-critical tag
(R126, R228). -/
structure ScReq where
  rq : Requester
  hr : Nat
  pa : Nat
  kind : ScKind
  tagged : Bool
  deriving DecidableEq, Repr

/-- A pending fill of a shared-cache slice (R214): line, home slice, homeroom charged, sectors fetched, the requests to the line in
arrival order, how many reads joined it, the granules whose second read is awaited (R629), and the units whose step or instruction
waits for it (R214). -/
structure Fill where
  grain : Nat
  slice : Nat
  hr : Nat
  sectors : Nat
  queue : List ScReq
  joins : Nat
  reread : Nat
  steps : List Requester
  deriving DecidableEq, Repr

/-- A ladle command (R243) with its issuer, and what became of its homeroom. -/
structure LadleCmd where
  op : Nat
  fence : Bool
  hr : Nat
  rows : Nat
  tag : Nat
  dst : Nat
  w2 : Nat
  w3 : Nat
  issuer : Requester
  /-- Its homeroom was torn down while it waited (R247). -/
  cut : Bool
  deriving DecidableEq, Repr

/-- A row of a far stack (R206, R245). -/
structure RowId where
  site : Nat
  pc : Nat
  sid : Nat
  bg : Nat
  bank : Nat
  row : Nat
  deriving DecidableEq, Repr

/-- A sequence at a ladle port (R242, R250 to R252, R259, R628): its command, whether it runs on the mirror rows, its
pseudo-channel, whether its flush is done, the rows done, the steps of the next row already done, its row buffers, and the requests of
the gap before its next step. A CLEAR_SET has 64. -/
structure LadleSeq where
  cmd : LadleCmd
  mirror : Bool
  pc : Nat
  flushed : Bool
  row : Nat
  phase : Nat
  /-- The row buffers of its ladle: source rows read for the next row (R240, R250, R252). -/
  bufs : List (List Byte)
  /-- The far requests that reached the pseudo-channel before the last row step ended and are served before the next (R253). -/
  gap : List Nat
  deriving DecidableEq, Repr

/-- What a sequence of a mirrored pair ended with, kept until the other ends (R628): command, copy, status, rows done. -/
structure LadleHalf where
  cmd : LadleCmd
  mirror : Bool
  status : Nat
  rows : Nat
  deriving DecidableEq, Repr

/-- A ladle command port (R240). -/
structure LadlePort where
  queue : List LadleCmd
  seqs : List LadleSeq
  halves : List LadleHalf
  /-- Commands that wait for the port's arbiter, in the order of asking (R241). -/
  asking : List LadleCmd
  deriving DecidableEq, Repr

/-- A ladle port after reset. -/
def LadlePort.init : LadlePort := ⟨[], [], [], []⟩

/-- One entry of the REL log (R645, R651, R652). -/
structure RelEntry where
  addr : Nat
  mem : Nat
  cls : Nat
  outcome : Nat
  unit : Nat
  requester : Nat
  yoke : Option (Nat × Nat × Nat)
  deriving DecidableEq, Repr

/-- A key of a homeroom (R593): data and tweak key of a set index, or a 16-byte key. -/
structure HrKeys where
  /-- Region keys by homeroom set index v: data key then tweak key, 32 bytes. -/
  region : SMap (List Byte)
  command : Option (List Byte)
  transport : Option (List Byte)
  fabric : Option (List Byte)
  deriving DecidableEq, Repr

/-- No key installed. -/
def HrKeys.none : HrKeys := ⟨[], Option.none, Option.none, Option.none⟩

/-- A homeroom beside its registers (R585 to R605). -/
structure Homeroom where
  keys : HrKeys
  salt : Option (List Byte)
  /-- Admitted fabric sources: device ID and X (R602); none before the first FABRIC_SET. -/
  fabricSet : List (Nat × Bool)
  fabricSeen : Bool
  protect : Bool
  /-- Egress counters of the protected ranges (R599). -/
  egress : List Nat
  deriving DecidableEq, Repr

/-- A free homeroom. -/
def Homeroom.init : Homeroom := ⟨HrKeys.none, none, [], false, false, List.replicate 8 (2 ^ 63)⟩

/-- The unit that a completion record comes from. -/
inductive UnitId
  | core (c : Nat)
  | ladle (f : Nat)
  | pail (d : Nat)
  deriving DecidableEq, Repr

/-- A completion record on its way to the registrar (R162, R246, R285): the unit, the TAG, and the record's two words. -/
structure UnitRecord where
  unit : UnitId
  tag : Nat
  w0 : Nat
  w1 : Nat
  deriving DecidableEq, Repr

/-- An open tree of a pail manager (R269, R270, R275, R282): its record's fields, its yoke count, the lowest yoke never used, the
entries on its free stack, its eviction cursor and its match counter. -/
structure Tree where
  hr : Nat
  layers : Nat
  heads : Nat
  hdim : Nat
  fmt : Nat
  indexBase : Nat
  indexLog2 : Nat
  countBase : Nat
  freeBase : Nat
  pool : List Nat
  root : List Byte
  shadow : Bool
  twinDev : Nat
  twinTree : Nat
  twinDie : Nat
  twinPorts : Nat
  yokes : Nat
  next : Nat
  freeTop : Nat
  cursor : Nat
  clock : Nat
  deriving DecidableEq, Repr

/-- An open sequence (R273, R309, R310): the keys of its published blocks; a shadow sequence is one that the twin keeps; `changed`
lists the blocks whose entries changed since the last sync, and `synced` is the shadowed length. -/
structure Seq where
  tree : Nat
  base : Nat
  blocks : Nat
  len : Nat
  keys : List (List Byte)
  shadow : Bool
  synced : Nat
  changed : List Nat
  deriving DecidableEq, Repr

/-- A churn run in progress (R303, R304): its command's TAG, layer and RIDER, the start value of RELEASE, and the steps for which
DATA has been sent, the block is held, RIDER has been sent, the rider is held, a DATA_ACK has come, a CREDIT has come; the steps
released; and the credits sent. -/
structure ChurnRun where
  tag : Nat
  layer : Nat
  rider : Bool
  release0 : Nat
  sent : Nat
  held : Nat
  riderSent : Nat
  riderHeld : Nat
  acked : Nat
  credit : Nat
  released : Nat
  credited : Nat
  /-- The highest step for which READY has been raised and DATA_ACK sent. -/
  raised : Nat
  deriving DecidableEq, Repr

/-- An open churn ring (R301), kept under its own sequence: a HELLO that a neighbour has refused is sent again (R417); a credit
may come before the run that it is for. -/
structure ChurnRing where
  id : Nat
  tree : Nat
  r : Nat
  pos : Nat
  nextDev : Nat
  prevDev : Nat
  buf0 : Nat
  buf1 : Nat
  c : Nat
  ready : Nat
  release : Nat
  count : Nat
  riderOwn : Nat
  riderBuf : Nat
  riderBytes : Nat
  helloNext : Bool
  helloPrev : Bool
  refusedNext : Bool
  refusedPrev : Bool
  lost : Bool
  /-- Runs completed, which is the number of the next run. -/
  runs : Nat
  early : Nat
  active : Option ChurnRun
  deriving DecidableEq, Repr

/-- A freed yoke that waits for gathers to complete (R275): tree, yoke, and the cores and arrays it waits for. -/
structure PushWait where
  tree : Nat
  yoke : Nat
  waits : List (Nat × Bool)
  deriving DecidableEq, Repr

/-- A pail-list gather in force (R298): the core, the array, the tree, the sequence, the first token and the count fetched for, and the
table words of their blocks, as they were. -/
structure PailGather where
  core : Nat
  arrayB : Bool
  tree : Nat
  seq : Nat
  first : Nat
  count : Nat
  words : List Nat
  deriving DecidableEq, Repr

/-- A node of a shadowed tree that has reached the twin before the sync that brings its block (R311). -/
structure ShadowNode where
  tree : Nat
  seq : Nat
  block : Nat
  key : List Byte
  deriving DecidableEq, Repr

/-- A pail manager message as it is delivered (R302, R310, R417): the sender's device ID, whether it came over a twin port, the
fields of R417, the two numbers of a HELLO, and the grains in order. -/
structure PailMsg where
  dev : Nat
  twin : Bool
  ringId : Nat
  pos : Nat
  step : Nat
  run : Nat
  tree : Nat
  r : Nat
  c : Nat
  data : List Byte
  deriving DecidableEq, Repr

/-- A SHADOW_SYNC whose grains have been sent and not all acknowledged (R310). -/
structure ShadowSync where
  seq : Nat
  tree : Nat
  tag : Nat
  sent : Nat
  acked : Nat
  deriving DecidableEq, Repr

/-- A pail command (R283, R284) without its OP, which the row gives: its homeroom, and bits [31:24] of word 0. -/
structure PailCmd where
  hr : Nat
  tree : Nat
  seq : Nat
  rsv : Nat
  tag : Nat
  w1 : Nat
  w2 : Nat
  w3 : Nat
  deriving DecidableEq, Repr

/-- A Nirsavor packet (R413): the two header words and LEN data bytes. -/
structure Packet where
  w0 : Nat
  w1 : Nat
  data : List Byte
  deriving DecidableEq, Repr

/-- A fabric port (R410 to R412, R418, R438): the number of the next flit to send, the flits sent and not acknowledged and the packets
that end in each, the number of the next flit expected, whether a NAK for it is in force, the bytes of a packet received in part, the
credits of request VCs 0 to 3 and reply VCs 0 to 3, the packets that wait for a credit, the corrected symbols counted against each
logical lane, and the running count of codewords (R409). -/
structure FabPort where
  next : Nat
  unacked : List (Nat × List Byte)
  sent : List (Nat × Packet)
  expected : Nat
  naking : Bool
  part : List Byte
  credits : List Nat
  queue : List Packet
  laneCounts : List Nat
  codewords : Nat
  deriving DecidableEq, Repr

/-- A port with an empty replay buffer and full credits (R418, R432). -/
def FabPort.init : FabPort := ⟨0, [], [], 0, false, [], List.replicate 8 1024, [], List.replicate 8 0, 0⟩

/-- Who issued a fabric request (R416): a descriptor of a ring, or a pail manager for a ring or a sequence. -/
inductive FabIssuer
  | descriptor (ring seq : Nat)
  /-- A message of kind `msg` of the manager on die `d`, for the churn ring (own sequence) or the shadowed sequence `key`. -/
  | pail (d msg key : Nat)
  deriving DecidableEq, Repr

/-- An outstanding fabric request (R428): its tag, its packet, its issuer, its place in its transfer, the package port that it left by, if
any, and an answer, status and data, whose write here is held. -/
structure FabReq where
  tag : Nat
  pkt : Packet
  issuer : FabIssuer
  index : Nat
  via : Option Nat
  answer : Option (Nat × List Byte)
  deriving DecidableEq, Repr

/-- A fabric request whose access here is held (R210, R254, R255): the I/O die, the port whose buffer keeps it, if any, and the packet. -/
structure FabWait where
  d : Nat
  port : Option Nat
  pkt : Packet
  deriving DecidableEq, Repr

/-- Grains of a message of several packets that have arrived (R417). -/
structure PailPart where
  dev : Nat
  addr : Nat
  data : List Byte
  deriving DecidableEq, Repr

/-- A pail manager (R265 to R313): `waiting` holds accepted commands that wait, with their OP, `outside` those that came while DRAIN was 1,
and `inbox` messages, with their MSG, whose effect waits for an access that is held (R314; log 21). -/
structure PailMgr where
  trees : SMap Tree
  seqs : SMap Seq
  rings : SMap ChurnRing
  pushes : List PushWait
  gathers : List PailGather
  syncs : List ShadowSync
  waiting : List (Nat × PailCmd)
  outside : List (Nat × PailCmd)
  inbox : List (Nat × PailMsg)
  nodes : List ShadowNode
  parts : List PailPart
  deriving DecidableEq, Repr

/-- A pail manager with nothing open. -/
def PailMgr.init : PailMgr := ⟨[], [], [], [], [], [], [], [], [], [], []⟩

/-- An output of a mesh router (R318): a side, where a perimeter router's outward side is its gateway, or the core. -/
inductive RouterOut
  | side (s : Side)
  | core
  deriving DecidableEq, Repr

/-- A packet of the mesh and the ring (R320, R321, R328): class, source and destination nodes numbered as in R350, the far address
that it names, its flits, the flits of the reply that its sender expects, and its bytes. -/
structure MeshPkt where
  cls : PacketClass
  src : Nat
  dst : Nat
  far : Option Nat
  flits : Nat
  reply : Nat
  bytes : List Byte
  deriving DecidableEq, Repr

/-- A mesh router (R318, R321, R322): the packets in its input buffers, port by port (north, east, south, west, core), request class
then reply class, the round-robin pointer of each output, and the flits of replies for which its core holds space. -/
structure RouterSt where
  inputs : List (List MeshPkt)
  ptrs : List Nat
  owed : Nat
  deriving DecidableEq, Repr

/-- An empty router. -/
def RouterSt.init : RouterSt := ⟨List.replicate 10 [], List.replicate 5 0, 0⟩

/-- A packet at a stop on a lane of the ring (R329), and whether it is held there for its destination's buffer. -/
structure RingSlot where
  pkt : MeshPkt
  held : Bool
  deriving DecidableEq, Repr

/-- A ring stop (R321, R329): packets that wait to enter the ring, its input buffers by class, and the flits of replies for which its unit
holds space. -/
structure StopSt where
  waiting : List MeshPkt
  req : List MeshPkt
  rep : List MeshPkt
  owed : Nat
  deriving DecidableEq, Repr

/-- An empty stop. -/
def StopSt.init : StopSt := ⟨[], [], [], 0⟩

/-- A common arbiter (R338, R345): the pointer, the grants it has given the requester it is at, the weights in force, the requests
pending and the loss counter of each requester. -/
structure ArbSt where
  ptr : Nat
  used : Nat
  weights : Nat
  counts : List Nat
  losses : List Nat
  deriving DecidableEq, Repr

/-- A crossing (R360 to R365): a round trip in progress, the events pending, producers held at 15; a value whose attempts have failed;
the values of its queue, and those whose writers wait. -/
structure XingSt where
  trip : Bool
  events : Nat
  producers : Nat
  failing : Option Nat
  queue : List Nat
  waiting : List Nat
  deriving DecidableEq, Repr

/-- A crossing in its initial state (R368). -/
def XingSt.init : XingSt := ⟨false, 0, 0, none, [], []⟩

/-- A packet on a die link (R384): its number on the edge, its class, its flow key, 96 for a link control packet (R382), the die that it is
for, and its bytes (R378). -/
structure LinkPkt where
  id : Nat
  cls : PacketClass
  key : Nat
  dst : Nat
  bytes : List Byte
  deriving DecidableEq, Repr

/-- A flit in a module's replay buffer (R378, R380): its SEQ, its content, and the packets that end in it. -/
structure LinkFlitRec where
  seq : Nat
  content : List Byte
  pkts : List LinkPkt
  deriving DecidableEq, Repr

/-- One end of a die-to-die module (R378, R380 to R383, R389, R394): next SEQ, replay buffer, SEQ expected, a NAK in force, the first
flit that failed with its SEQ, the bytes of a packet received in part, the lanes of the receiving direction that are marked failed and
the errors of each, a repair in progress, credits by class, and packets waiting. -/
structure ModuleSt where
  next : Nat
  unacked : List LinkFlitRec
  expected : Nat
  naking : Bool
  bad : Option (Nat × List Byte)
  part : List Byte
  failed : Nat
  laneErrs : List Nat
  repairing : Bool
  credReq : Nat
  credRep : Nat
  queue : List LinkPkt
  deriving DecidableEq, Repr

/-- A module end with nothing sent and 32 credits of each class (R383). -/
def ModuleSt.init : ModuleSt := ⟨0, [], 0, false, none, [], 0, List.replicate 18 0, false, 32, 32, []⟩

/-- One end of an edge (R384, R386): the modules that carry each flow key outward and inward, packets held until a ROUTE arrives, and
the number of the next packet. -/
structure EdgeSt where
  mapTx : List Nat
  mapRx : List Nat
  held : List LinkPkt
  nextId : Nat
  deriving DecidableEq, Repr

/-- An edge of n modules as trained (R384). -/
def EdgeSt.init (n : Nat) : EdgeSt := ⟨(List.range 96).map (· % n), (List.range 96).map (· % n), [], 0⟩

/-- A fetched descriptor that has not completed (R465 to R486): its sequence number and clear words; whether it has started, on which
core, with what power reserved (half watts) and under which tag; whether it has been deferred, passed how often, and held first;
whether its entry is discarded (R500); for FABRIC the next request of the transfer, the bytes acknowledged, the first bad reply
and the requests outstanding; and what an access of the registrar for it waits for. -/
structure Desc where
  seq : Nat
  words : List Nat
  started : Bool
  core : Option Nat
  power : Nat
  tag : Nat
  deferred : Bool
  passes : Nat
  first : Bool
  discard : Bool
  next : Nat
  good : Nat
  failed : Option (Nat × Nat)
  waiting : Nat
  stuck : Option WaitsOn
  deriving DecidableEq, Repr

/-- A descriptor as fetched. -/
def Desc.init (seq : Nat) (words : List Nat) : Desc := ⟨seq, words, false, none, 0, 0, false, 0, false, false, 0, 0, none, 0, none⟩

/-- A completion on its way to its entry (R488): word 1, TAG, RESULT0, RESULT1, CLEAR, and whether its vector is raised. -/
structure CqEntry where
  seq : Nat
  w1 : Nat
  tag : Nat
  r0 : Nat
  r1 : Nat
  clear : Bool
  irq : Bool
  deriving DecidableEq, Repr

/-- A ring (R459 to R499): SQ_TAIL, CQ_HEAD, PHASE, EPOCH, descriptors in sequence order, completions held, a drain in progress. -/
structure RingSt where
  tail : Nat
  cqHead : Nat
  phase : Bool
  epoch : Nat
  descs : List Desc
  held : List CqEntry
  draining : Bool
  deriving DecidableEq, Repr

/-- A ring after reset. -/
def RingSt.init : RingSt := ⟨0, 0, true, 0, [], [], false⟩

/-- The registrar's part of admission (R483 to R487, R559): allowances and reservations in half watts, warm cores, forecast
temperatures, whether a forecast has arrived and is fresh, the round-robin pointer of each priority, and its last tag. -/
structure Registrar where
  allowPkg : Nat
  allowStack : List Nat
  resPkg : Nat
  resStack : List Nat
  warm : Nat
  fc : List Int
  fresh : Bool
  rr : List Nat
  tag : Nat
  deriving DecidableEq, Repr

/-- A registrar with no forecast. -/
def Registrar.init : Registrar := ⟨0, [0, 0, 0, 0], 0, [0, 0, 0, 0], 0, [], false, [0, 0, 0, 0], 0⟩

/-- A domain action under way and the one queued behind it (R675 to R677): 1 down, 2 up. -/
structure DomainAct where
  running : Nat
  queued : Nat
  deriving DecidableEq, Repr

/-- An entry of the defect list (R670): kind, unit, detail, origin (1 fuse, 2 roll call, 3 field). -/
structure Defect where
  kind : Nat
  unit : Nat
  detail : Nat
  origin : Nat
  deriving DecidableEq, Repr

/-- An SPDM session of a responder (R519, R584): the homeroom, 0 for the office's own responder; its number; whether FINISH has
established it; whether the security policy authorises its requester (R521). -/
structure SpdmSession where
  owner : Nat
  id : Nat
  established : Bool
  authorised : Bool
  deriving DecidableEq, Repr

/-- The image buffer (R527, R528): which path holds it (true for the host), the bytes, the bytes delivered on the PLDM path, and the
block size in which the office asks for data. -/
structure ImageBuf where
  holder : Option Bool
  data : Mem
  delivered : Nat
  block : Nat
  deriving DecidableEq, Repr

/-- An empty image buffer. -/
def ImageBuf.init : ImageBuf := ⟨none, [], 0, 0⟩

/-- The running image (R576, R578): its digest, SVN, FLOOR, signing slot, slots to revoke, and length of the office firmware. -/
structure ImageInfo where
  digest : List Byte
  svn : Nat
  floor : Nat
  slot : Nat
  revoke : Nat
  officeBytes : Nat
  deriving DecidableEq, Repr

/-- Bring-up beside its registers (R656 to R671): the step that runs (0 for none) and what it found, the phase that it leads to and its
RESULT; the running image; what training has found; measurement 6; and whether domain 4 awaits its image (R676). -/
structure BootSt where
  step : Nat
  next : Nat
  result : Nat
  image : Option ImageInfo
  found : List Defect
  measure6 : List Byte
  awaiting : Bool
  deriving DecidableEq, Repr

/-- Bring-up at a cold start. -/
def BootSt.init : BootSt := ⟨0, 0, 0, none, [], [], false⟩

/-- The throttle steps of a unit (R552, R553): its recess level or clock-division step, the samples that a core domain has held level 7,
and the steps by which its thermal cap is lowered. -/
structure ThrottleUnit where
  level : Nat
  held : Nat
  cap : Nat
  deriving DecidableEq, Repr

/-- Heat and power beside their registers (R542 to R562): runs of samples that doubt each sensor; the level, the nowcast, the forecast and
the last five errors (newest first) of each hot spot; throttle steps by unit and by hot spot × 4096 + unit; the coolant-fault floor and
the good updates in a row; updates so far; package power samples, newest first, with the samples below 98 % in a row; and the sums of
the samples of this update period. Power is in units of 0.01 W, temperature in units of 0.125 °C. -/
structure Thermal where
  runs : SMap Nat
  levels : SMap Nat
  now : SMap Int
  fore : SMap Int
  errs : SMap (List Int)
  units : SMap ThrottleUnit
  taken : SMap Nat
  floor : Nat
  good : Nat
  update : Nat
  history : List Nat
  below : Nat
  sumPkg : Nat
  sumStacks : List Nat
  samples : Nat
  /-- The package limit in force, where it is not the default (R543). -/
  limit : Option Nat
  /-- An INLET and a FLOW have been received (R529, R560). -/
  inletHeld : Bool
  flowHeld : Bool
  deriving DecidableEq, Repr

/-- Heat and power at a cold start. -/
def Thermal.init : Thermal := ⟨[], [], [], [], [], [], [], 0, 0, 0, [], 0, 0, [0, 0, 0, 0], 0, none, false, false⟩

end Sys2Proof.Machine
end

