-- ==== Sys2Proof/Machine/Commands.lean ====
section
/-! DEFINITION. The operands that commands carry (log 9): plain data beside the numbers of units, registers and addresses. -/

namespace Sys2Proof.Machine

/-- A register access: a read, or a write of a value (R14, R15). -/
inductive RegAccess
  | read
  | write (value : Nat)
  deriving DecidableEq, Repr

/-- What waits under the limit of R155: a SYNC of mode 0 in either stream, or a `twait`. -/
inductive Waiter
  | lessonSync | postSync | tutor
  deriving DecidableEq, Repr

/-- A set of generators (R114). -/
inductive GenSet
  | arrayA | arrayB | skim
  deriving DecidableEq, Repr

/-- A BAR4 access (R455, R456). -/
inductive HostAccess
  | read (len : Nat)
  | write (bytes : List Byte) (poisoned : Bool)
  deriving DecidableEq, Repr

/-- A BAR4 access that is held (R210, R254, R255): function, offset, access. -/
structure HostWait where
  f : Nat
  off : Nat
  acc : HostAccess
  deriving DecidableEq, Repr

/-- A received codeword (R409, R412): whether the FEC could correct it, the corrected symbols per logical lane, and the
640-byte flit. -/
structure LinkFlit where
  correctable : Bool
  corrected : List Nat
  bytes : List Byte
  deriving DecidableEq, Repr

/-- What training finds on one lane of a port (R433, R437): a shorted transmitter, a signal, a lock, another driver on the pins,
and the marker's lane, polarity, device ID, package port and tags. -/
structure LaneFinding where
  shorted : Bool
  signal : Bool
  locked : Bool
  driven : Bool
  lane : Nat
  inverted : Bool
  dev : Nat
  port : Nat
  domain : Nat
  twinDomain : Nat
  deriving DecidableEq, Repr

/-- What a training of a port finds (R433): its eight lanes, and the peer's mask of good receive lanes. -/
structure Training where
  lanes : List LaneFinding
  peerGood : Nat
  deriving DecidableEq, Repr

/-- A finding of training or of roll call, in the terms of a defect entry (R670); `selfTest` says that a checker gave a wrong result
(R640). -/
structure Finding where
  kind : Nat
  unit : Nat
  detail : Nat
  selfTest : Bool
  deriving DecidableEq, Repr

/-- What the roll call of a recovering core finds (R640, R680): it passes, it fails, or one of its checkers fails its self-test. -/
inductive RollResult
  | pass
  | fail
  | selfTest
  deriving DecidableEq, Repr

/-- What the outside gives to a register write that starts something (R584, R662, R664): the findings of a training or a roll call, and
the response of the responder that a mailbox exchange asks. -/
structure WriteEnv where
  findings : List Finding
  resp : List Byte
  deriving DecidableEq, Repr

/-- An SPDM responder of the office (R519, R584). -/
inductive Responder
  | office
  | homeroom (hr : Nat)
  deriving DecidableEq, Repr

/-- What the header of an office command carries beside its code (R520): FLAGS and TAG. -/
structure OfficeHead where
  flags : Nat
  tag : Nat
  deriving DecidableEq, Repr

/-- What the mesh header sideband says of a packet's data (R378): where it begins, and the check bits of its whole granules. -/
structure Sideband where
  off : Nat
  chk : List Nat
  deriving DecidableEq, Repr

/-- A numeric sensor of the PDR repository (R518). Dies: 0 to 3 logic dies, 4 to 7 I/O dies, 8 to 11 base dies, then DRAM layers as
12 + 4 × stack + layer. -/
inductive PldmSensor
  | packagePower
  | dieHottest (die : Nat)
  | farReadout (f : Nat)
  | coolantInlet
  | coolantFlow
  deriving DecidableEq, Repr

/-- What a mailbox exchange of KIND 0 answers (R584): the response the responder forms. -/
structure MailboxReply where
  bytes : List Byte
  deriving DecidableEq, Repr

/-- A forecast message (R558): its allowances, powers and the temperature class of every core. -/
structure Forecast where
  allowPkg : Nat
  basePkg : Nat
  allowStack : List Nat
  baseStack : List Nat
  /-- Bit c: core c is warm. -/
  warm : Nat
  fc : List Int
  deriving DecidableEq, Repr

end Sys2Proof.Machine
end

