-- ==== Sys2Proof/Syntax.lean ====
section
/-! DEFINITION. The commands of the part: one constructor per row of the command table. -/

namespace Sys2Proof

open Sys2Proof.Machine

/-- A command (log 9 for the operands). -/
inductive Instr
  /-- REGISTER_WRITE (R16). A write to a register that has no row of its own sets its fields under their access codes, after the size, alignment and master checks. -/
  | registerWrite (m : Master) (off size : Nat) (acc : RegAccess) (env : WriteEnv)
  /-- UNCLAIMED_REQUEST (R731). A memory request that falls within no BAR of its function completes with Unsupported Request, or is dropped and reported. -/
  | unclaimedRequest (f bar off : Nat) (write : Bool)
  /-- LESSON_LAUNCH (R164). A launch message reaches a core, which checks it, clears its events and tutor state, and starts the preload or fetches step 0; on a core not in service it completes at once with FENCED. -/
  | lessonLaunch (c : Nat) (l : Launch)
  /-- PRELOAD_COMPLETE (R164). The mover finishes copying the lesson preload, and the first step is fetched within 1 us. -/
  | preloadComplete (c : Nat)
  /-- STEP_ISSUE (R122). The issue point issues the next ready step of the post or lesson stream into its engine queue, the post stream first. -/
  | stepIssue (c : Nat)
  /-- STEP_START (R123). An engine starts the step at the head of its queue once its start condition holds. -/
  | stepStart (c : Nat) (e : Engine)
  /-- STEP_COMPLETE (R124). A step completes when its reads are done and writes accepted, and it signals its DONE_EVT counter. -/
  | stepComplete (c : Nat) (e : Engine) (order : Nat)
  /-- LESSON_COMPLETE (R158). Once every issued step has completed and the tutor is idle after END or a failure, the lesson sends its completion record to the registrar. -/
  | lessonComplete (c : Nat)
  /-- NOP (R127). The NOP step does nothing at the issue point. -/
  | nopStep (c : Nat) (post : Bool)
  /-- END (R158). The END step stops the lesson stream from issuing. -/
  | endStep (c : Nat)
  /-- SYNC_WAIT_LOCAL (R154). A SYNC of mode 0 holds its stream until event counter EVT satisfies VALUE. -/
  | syncWaitLocal (c : Nat) (post : Bool)
  /-- SYNC_SIGNAL_LOCAL (R154). A SYNC of mode 1 adds VALUE to event counter EVT. -/
  | syncSignalLocal (c : Nat) (post : Bool)
  /-- SYNC_SIGNAL_REMOTE (R154). A SYNC of mode 2 completes an implicit FENCE and then performs a shared-cache 64-bit add of VALUE at ADDR. -/
  | syncSignalRemote (c : Nat) (post : Bool)
  /-- SYNC_WAIT_REMOTE (R154). A SYNC of mode 3 holds its stream until the far word at ADDR satisfies VALUE, re-reading it every POLL ticks. -/
  | syncWaitRemote (c : Nat) (post : Bool)
  /-- SYNC_POLL (R154). The poll interval of a waiting mode-3 SYNC expires and the far word is re-read through the shared cache. -/
  | syncPoll (c : Nat) (post : Bool)
  /-- SYNC_TIMEOUT (R154). The TIMEOUT of a mode-3 SYNC passes first and the lesson ends with SYNC_TIMEOUT. -/
  | syncTimeout (c : Nat) (post : Bool)
  /-- WAIT_LIMIT_EXPIRY (R155). A local wait of SYNC mode 0 or twait exceeds LSN_CTL.WAIT_LIMIT and the lesson ends with SYNC_TIMEOUT. -/
  | waitLimitExpiry (c : Nat) (who : Waiter)
  /-- FENCE (R156). The FENCE step holds its stream until earlier steps complete and their writes are visible, and with HOST until host-window writes are sent. -/
  | fenceStep (c : Nat) (post : Bool)
  /-- LOAD_SLATE (R142). LOAD_SLATE checks its fields and loads a weight tile into the shadow slate half through the fill port. -/
  | loadSlate (c : Nat) (arrayB : Bool)
  /-- SLATE_LOAD_COMPLETE (R39). A slate load completes, so a waiting stream or gather step may make the tile active. -/
  | slateLoadComplete (c : Nat) (arrayB : Bool)
  /-- STREAM (R133). A STREAM step checks formats and shape and runs a dense matrix product on the arrays, or on the skim path under R59. -/
  | stream (c : Nat) (e : Engine) (ready : Bool)
  /-- GATHER (R140). A GATHER step runs a matrix product whose gathered lines come from an address, index or pail list. -/
  | gather (c : Nat) (arrayB : Bool) (ready : Bool) (late held : List (Nat × Nat))
  /-- FREEZE_RELEASE (R48). A frozen array finds its activation vector complete, its tile active and accumulator space free, and the next vector enters. -/
  | freezeRelease (c : Nat) (arrayB : Bool)
  /-- GATHER_ROW_DATA (R50). Late data for a gather-class row arrives, and the row fires for the waiting vector and its skid buffer drains. -/
  | gatherRowData (c : Nat) (arrayB : Bool) (row : Nat)
  /-- ARRAY_HUNG (R75). An array freeze outlasts WDOG_LIMIT, the lesson ends with ARRAY_HUNG, and at three hangs the core is fenced with cause 0x05. -/
  | arrayHung (c : Nat) (arrayB : Bool)
  /-- SKIM (R139). A SKIM step streams a matrix through the skim path against one to four vectors. -/
  | skim (c : Nat)
  /-- CONVERT (R147). A CONVERT step converts lines from a source format to a destination format on the skim engine. -/
  | convert (c : Nat)
  /-- LOAD (R149). A LOAD step copies a two-dimensional region into the own desk. -/
  | loadStep (c : Nat)
  /-- STORE (R149). A STORE step copies a two-dimensional region from the own desk to another space. -/
  | storeStep (c : Nat)
  /-- MOVE (R149). A MOVE step copies a two-dimensional region between the own slice, far memory and the host window. -/
  | moveStep (c : Nat)
  /-- REDUCE (R151). A REDUCE step combines a desk vector element by element into far memory through the shared cache. -/
  | reduce (c : Nat)
  /-- HANDOFF (R157). A HANDOFF step starts a tutor routine at ENTRY with a0 and a1 loaded. -/
  | handoff (c : Nat)
  /-- TUTOR_INSTRUCTION (R165). The tutor executes one instruction of its RV64 profile. -/
  | tutorInstruction (c : Nat)
  /-- TPOST (R169). tpost orders earlier tutor accesses and copies a 32-byte step into the post queue, waiting while it is full. -/
  | tpost (c : Nat)
  /-- TWAIT (R168). twait waits until an event counter satisfies a target and returns the counter. -/
  | twait (c : Nat)
  /-- TEVT (R168). tevt returns an event counter without waiting. -/
  | tevt (c : Nat)
  /-- TSIG (R168). tsig adds a value to an event counter. -/
  | tsig (c : Nat)
  /-- TDONE (R168). tdone ends the tutor routine, with OK or with TUTOR_ABORT carrying its code. -/
  | tdone (c : Nat)
  /-- RATE_WINDOW (R64). A window of 16,384 local-reference ticks closes and CORE_RATE takes the array step counts. -/
  | rateWindow (c : Nat)
  /-- CORE_FENCE (R66). A fence cause arrives, latches CAUSE under R732, stops issue, and completes outstanding requests and commands with FENCED. -/
  | coreFence (c cause : Nat)
  /-- CORE_FENCE_REQUEST (R77). A write of CORE_FENCE_CTL.FENCE fences the core with cause 0x03, or 0x04 from the office. -/
  | coreFenceRequest (c : Nat) (w : RegWrite)
  /-- UNFENCE (R73). A write of CORE_FENCE_CTL.UNFENCE is judged against the latched cause and starts or queues warm recovery. -/
  | unfence (c : Nat) (w : RegWrite)
  /-- FENCE_COMPLETE (R66). A fence completes, STATE becomes fenced, and a queued unfence is judged again. -/
  | fenceComplete (c : Nat)
  /-- LATE_REPLY (R68). A reply to a request made before a fence arrives at the core and is dropped and counted. -/
  | lateReply (c : Nat)
  /-- WARM_RECOVERY_COMPLETE (R680). Warm recovery of a core finishes its stages and the core returns to service with a recomputed grade. -/
  | warmRecoveryComplete (c : Nat) (found : RollResult)
  /-- SEED_WRITE (R116). A write of ARR_SRND_SEED or CORE_SKIM_SEED schedules the reload of its generator set. -/
  | seedWrite (c : Nat) (gen : GenSet) (w : RegWrite)
  /-- SEED_LOAD (R116). A generator set is reloaded from its seed between the conversions of two steps. -/
  | seedLoad (c : Nat) (gen : GenSet)
  /-- ARR_STAT_CLEAR (R79). A write of ARR_CTL.CLEAR clears FREEZES and SKID_FULLS of the array. -/
  | arrStatClear (c : Nat) (arrayB : Bool) (w : RegWrite)
  /-- SLICE_REQUEST (R176). The slice controller performs a grain read or write, merging partial granules and checking each read. -/
  | sliceRequest (c grain : Nat) (src : SliceSource) (acc : SliceAccess)
  /-- SLICE_REFRESH (R180). A bank's refresh interval expires and a refresh command is issued or postponed up to 8 owed. -/
  | sliceRefresh (c bank : Nat) (busy : Bool)
  /-- CHANNEL_POWER_DOWN (R193). A slice channel idle for IDLE_LIMIT command clocks enters power-down. -/
  | channelPowerDown (c channel : Nat)
  /-- SLICE_FILL_COMPLETE (R191). A slice fill or clear completes and NEAR_STATUS.STATE reads ready, so a waiting launch may start. -/
  | sliceFillComplete (c : Nat)
  /-- SLICE_CLEAR (R190). Once a reassigned core has no lesson running, its slice is cleared. -/
  | sliceClear (c : Nat)
  /-- LAYER_OFFSET_WRITE (R187). A write of NEAR_LAYER_OFFSET accepts only offsets at or below their fused values until the end of bring-up. -/
  | layerOffsetWrite (c : Nat) (w : RegWrite)
  /-- SC_READ (R215). A read reaches its home shared-cache slice and is served from the line, joins a pending fill, or starts a fill. -/
  | scRead (rq : Requester) (hr pa len : Nat) (tagged : Bool)
  /-- SC_WRITE (R213). A write reaches its home slice, allocating or filling and merging the line. -/
  | scWrite (rq : Requester) (hr pa : Nat) (bytes : List Byte)
  /-- SC_ATOMIC (R217). The home slice performs an atomic operation or reduction element indivisibly on its line. -/
  | scAtomic (rq : Requester) (hr pa : Nat) (op : AtomOp) (width v expected : Nat)
  /-- SC_FILL_COMPLETE (R214). Fill data arrives from the far stack, is checked, allocates the line and answers the joined reads. -/
  | scFillComplete (grain transient : Nat)
  /-- GRANULE_REREAD (R629). The second read or the mirror copy of a failing far granule arrives and is delivered, repaired from, or declared unrecoverable. -/
  | granuleReread (grain transient : Nat)
  /-- FAR_GRANT (R224). A far port's pseudo-channel grants a waiting request and charges 256 bytes to its homeroom. -/
  | farGrant (f id : Nat)
  /-- FAR_WINDOW_CLOSE (R225). A regulator window closes, tokens are refilled up to twice the share, and FAR_USE and pending settings are updated. -/
  | farWindowClose (f : Nat)
  /-- FAR_REFRESH (R199). A far-stack bank is due a per-bank refresh at the rate its devices require. -/
  | farRefresh (f bank : Nat) (postpone : Bool)
  /-- FAR_TEMP_READOUT (R199). The far stack's temperature readout is read every 100 us and passed to the thermal model. -/
  | farTempReadout (f : Nat) (temp : Int)
  /-- FAR_STACK_LOSS (R627). A far stack is lost, its commands complete with DIE_LOST, and a mirrored set continues on its surviving copy. -/
  | farStackLoss (f : Nat)
  /-- SEP_SCOPE_WRITE (R209). A write of SEP_SCOPE0 or SEP_SCOPE1 changes set scopes outside active homerooms and starts their write-back and invalidation. -/
  | sepScopeWrite (k : Nat) (w : RegWrite)
  /-- SEP_NARROW_WRITE (R210). A write of SEP_NARROW0 or SEP_NARROW1 changes NARROW bits outside active homerooms and starts their write-back and invalidation. -/
  | sepNarrowWrite (k : Nat) (w : RegWrite)
  /-- SEP_CHANGE_COMPLETE (R210). A set's scope or NARROW change completes, BUSY clears, and held accesses proceed under the new mapping. -/
  | sepChangeComplete (set : Nat)
  /-- FAR_MODE_WRITE (R223). A write of FAR_MODE.MODE takes effect at the next window close with tokens reset to shares. -/
  | farModeWrite (f : Nat) (w : RegWrite)
  /-- SC_PURGE (R222). A write of SC_CTL.PURGE starts invalidating, without write-back, every line of homeroom PURGE_HR. -/
  | scPurge (slice : Nat) (w : RegWrite)
  /-- SC_PURGE_COMPLETE (R222). A purge completes and SC_CTL.PURGE reads 0. -/
  | scPurgeComplete (slice : Nat)
  /-- SC_STAT_CLEAR (R239). A write of SC_STAT.CLEAR clears MERGES and ATOMICS. -/
  | scStatClear (slice : Nat) (w : RegWrite)
  /-- COPY (R244). A ladle COPY command copies source rows into destination rows. -/
  | ladleCopy (port : Nat) (words : List Nat) (issuer : Requester)
  /-- FILL (R244). A ladle FILL command writes a 16-byte pattern into every granule of the destination rows. -/
  | ladleFill (port : Nat) (words : List Nat) (issuer : Requester)
  /-- NOT (R244). A ladle NOT command writes the complement of the source rows. -/
  | ladleNot (port : Nat) (words : List Nat) (issuer : Requester)
  /-- AND (R244). A ladle AND command writes source 1 AND source 2. -/
  | ladleAnd (port : Nat) (words : List Nat) (issuer : Requester)
  /-- OR (R244). A ladle OR command writes source 1 OR source 2. -/
  | ladleOr (port : Nat) (words : List Nat) (issuer : Requester)
  /-- XOR (R244). A ladle XOR command writes source 1 XOR source 2. -/
  | ladleXor (port : Nat) (words : List Nat) (issuer : Requester)
  /-- CLEAR_SET (R259). A ladle CLEAR_SET from the registrar clears a whole set on one far stack to zero bytes with valid checks. -/
  | ladleClearSet (port : Nat) (words : List Nat) (issuer : Requester)
  /-- LADLE_SEQUENCE_START (R242). A queued ladle command starts in acceptance order once its pseudo-channel is free, flushing the lines of its runs. -/
  | ladleSequenceStart (port : Nat)
  /-- LADLE_FLUSH_COMPLETE (R251). The write-back and invalidation of a ladle command's lines completes and its first row step may begin. -/
  | ladleFlushComplete (port pc : Nat)
  /-- ROW_STEP (R250). A ladle row step completes and the next begins after serving waiting requests and owed refreshes. -/
  | rowStep (port pc : Nat)
  /-- LDL_DRAIN_WRITE (R261). A write of LDL_CTL.DRAIN stops or resumes the starting of new ladle sequences. -/
  | ldlDrainWrite (port : Nat) (w : RegWrite)
  /-- LDL_STAT_CLEAR (R263). A write of LDL_STAT.CLEAR clears the ladle counters. -/
  | ldlStatClear (port : Nat) (w : RegWrite)
  /-- TREE_OPEN (R271). TREE_OPEN reads a tree record, checks it and opens the tree with empty counts and free stack. -/
  | treeOpen (d : Nat) (cmd : PailCmd)
  /-- TREE_CLOSE (R272). TREE_CLOSE discards a tree's state unless a sequence, ring or shadow transfer is open. -/
  | treeClose (d : Nat) (cmd : PailCmd)
  /-- EVICT (R282). EVICT frees up to MAX idle prefix nodes, scanning from the tree's cursor. -/
  | evict (d : Nat) (cmd : PailCmd)
  /-- SEQ_OPEN (R273). SEQ_OPEN opens a sequence with its pail table at PT_BASE, taking every entry as invalid. -/
  | seqOpen (d : Nat) (cmd : PailCmd)
  /-- SEQ_CLOSE (R295). SEQ_CLOSE truncates a sequence to 0 and closes it. -/
  | seqClose (d : Nat) (cmd : PailCmd)
  /-- MATCH (R280). MATCH looks up the blocks of a token buffer in the prefix tree and shares each hit into the empty sequence. -/
  | matchBlocks (d : Nat) (cmd : PailCmd)
  /-- APPEND (R290). APPEND extends a sequence, allocating or copying yokes, and writes a slot list. -/
  | append (d : Nat) (cmd : PailCmd)
  /-- RESOLVE (R289). RESOLVE writes a slot list for a token range, preparing blocks for writing when WRITE is set. -/
  | resolve (d : Nat) (cmd : PailCmd)
  /-- PUBLISH (R281). PUBLISH inserts prefix nodes for a sequence's unpublished whole blocks. -/
  | publish (d : Nat) (cmd : PailCmd)
  /-- FORK (R294). FORK makes an empty sequence share every block of SRC_SEQ. -/
  | fork (d : Nat) (cmd : PailCmd)
  /-- TRUNCATE (R295). TRUNCATE shortens a sequence and releases the yokes of blocks beyond the new length. -/
  | truncate (d : Nat) (cmd : PailCmd)
  /-- MARK_LOST (R313). MARK_LOST marks a block lost and invalidates the nodes that name its yoke. -/
  | markLost (d : Nat) (cmd : PailCmd)
  /-- SHADOW_SYNC (R310). SHADOW_SYNC sends the twin every grain and table entry written since the last sync. -/
  | shadowSync (d : Nat) (cmd : PailCmd)
  /-- ADOPT (R312). ADOPT makes a shadow sequence on the twin an ordinary sequence. -/
  | adopt (d : Nat) (cmd : PailCmd)
  /-- CHURN_OPEN (R301). CHURN_OPEN reads a ring record, allocates the buffer yokes and sends HELLO to both neighbours. -/
  | churnOpen (d : Nat) (cmd : PailCmd)
  /-- CHURN_RUN (R303). CHURN_RUN starts one layer's circulation of chunks round the ring. -/
  | churnRun (d : Nat) (cmd : PailCmd)
  /-- CHURN_CLOSE (R305). CHURN_CLOSE sends CLOSE, frees the buffer yokes and closes the ring. -/
  | churnClose (d : Nat) (cmd : PailCmd)
  /-- YOKE_PUSH (R275). A freed yoke is pushed on the free stack once the pail-list gathers that fetched it have completed. -/
  | yokePush (d tree yoke : Nat)
  /-- PAIL_LIST_FETCH (R298). The pail manager answers a lesson engine's request for the pail-table entries of a gather range. -/
  | pailListFetch (d c : Nat) (arrayB : Bool) (seq tree first count : Nat)
  /-- HELLO (R301). A churn HELLO arrives from a neighbour, and the ring is ready once both have arrived. -/
  | hello (d : Nat) (msg : PailMsg)
  /-- HELLO_RESEND (R417). A refused HELLO is sent again every PAIL_CTL.POLL ticks until the ring closes. -/
  | helloResend (d ring : Nat)
  /-- CHURN_CREDIT (R303). A churn CREDIT for a step arrives, allowing DATA for that step to be sent. -/
  | churnCredit (d : Nat) (msg : PailMsg)
  /-- CHURN_DATA (R303). Churn DATA for a step arrives and is written into its receive buffer, after which READY is raised and DATA_ACK sent. -/
  | churnData (d : Nat) (msg : PailMsg)
  /-- RIDER (R304). A churn RIDER arrives and is written into the rider buffer or the RIDER_OWN area. -/
  | rider (d : Nat) (msg : PailMsg)
  /-- DATA_ACK (R303). A churn DATA_ACK arrives, which may free a buffer and send the next CREDIT or complete the run. -/
  | dataAck (d : Nat) (msg : PailMsg)
  /-- CLOSE (R305). A churn CLOSE arrives from a neighbour. -/
  | closeMessage (d : Nat) (msg : PailMsg)
  /-- RELEASE_POLL (R303). The pail manager re-reads RELEASE every POLL ticks and releases churn steps whose count is reached. -/
  | releasePoll (d ring : Nat)
  /-- SHADOW_DATA (R310). Shadow grains arrive at the twin, which writes them into its own yokes. -/
  | shadowData (d : Nat) (msg : PailMsg)
  /-- SHADOW_ACK (R310). The twin's acknowledgement of shadow grains arrives at the sender. -/
  | shadowAck (d : Nat) (msg : PailMsg)
  /-- SHADOW_NODE (R311). A published node arrives at the twin, which inserts it. -/
  | shadowNode (d : Nat) (msg : PailMsg)
  /-- PAIL_DRAIN_WRITE (R314). A write of PAIL_CTL.DRAIN holds or releases new pail commands. -/
  | pailDrainWrite (d : Nat) (w : RegWrite)
  /-- PAIL_STAT_CLEAR (R316). A write of PAIL_STAT1.CLEAR clears both pail statistics registers. -/
  | pailStatClear (d : Nat) (w : RegWrite)
  /-- ROUTER_PACKET (R322). A mesh router grants an output to a whole packet in round-robin order and forwards it along row then column. -/
  | routerPacket (d node : Nat) (out : RouterOut) (inject : List MeshPkt)
  /-- RING_STOP_PACKET (R329). A ring stop decides between a through packet and a local packet on a lane, or ejects a packet at its destination. -/
  | ringStopPacket (d stop lane : Nat) (clockwise busy : Bool) (inject : List MeshPkt)
  /-- HEARTBEAT (R335). A heartbeat period of a router or ring stop elapses and missed answers are counted. -/
  | heartbeat (d node : Nat) (missed : Bool)
  /-- ARB_GRANT (R338). A common arbiter instance grants a pending requester in weighted round-robin order. -/
  | arbGrant (d sel : Nat) (arrivals : List Nat)
  /-- ARB_FREEZE (R342). A write of ARB_CTL.FREEZE stops or resumes new grants of the selected instance. -/
  | arbFreeze (d sel : Nat) (w : RegWrite)
  /-- ARB_DRAIN_COMPLETE (R342). Granted work of a frozen instance completes and BUSY reads 0. -/
  | arbDrainComplete (d sel : Nat)
  /-- ARB_STAT_CLEAR (R356). A write of ARB_STAT.CLEAR clears GRANTS and MAX_LOSSES. -/
  | arbStatClear (d sel : Nat) (w : RegWrite)
  /-- MESH_STAT_CLEAR (R351). A write of MESH_STAT.CLEAR clears EJECT_HOLDS. -/
  | meshStatClear (d : Nat) (w : RegWrite)
  /-- SIGNAL_RAISE (R361). An event raised at a single-signal source adds to its pending count, holding the producer at 15. -/
  | signalRaise (d sel : Nat)
  /-- SIGNAL_ROUND_TRIP (R360). A single-signal crossing carries one pending event by a four-phase round trip. -/
  | signalRoundTrip (d sel : Nat)
  /-- SAMPLE_PRESENT (R362). A value presented at an agreed-sample crossing is accepted at the first agreeing attempt and delivered once. -/
  | samplePresent (d sel : Nat) (value : Nat) (attempts : Nat)
  /-- SAMPLE_FALLBACK (R364). Eight disagreeing attempts in a row move the crossing and its value into queue mode and raise an event. -/
  | sampleFallback (d sel : Nat)
  /-- QUEUE_WRITE (R365). A value written into a queue crossing becomes available to the other side in order. -/
  | queueWrite (d sel : Nat) (value : Nat)
  /-- CROSSING_STALL (R369). A handshake side waits beyond STALL_LIMIT and STALLED is set with an event. -/
  | crossingStall (d sel : Nat)
  /-- XING_FORCE (R373). A write of XING_CTL.FORCE puts the selected agreed-sample crossing into queue mode. -/
  | xingForce (d : Nat) (w : RegWrite)
  /-- D2D_PACKET_SEND (R384). A packet with a credit in its class is sent on the module its flow key maps to. -/
  | d2dPacketSend (d dst : Nat) (cls : PacketClass) (lane srcStop : Nat) (hdr data : List Byte) (side : Sideband)
  /-- D2D_FLIT_RECEIVE (R380). A die-link flit arrives and is accepted, or discarded with a NAK on a CRC or sequence fault, and lane errors are counted. -/
  | d2dFlitReceive (d e m : Nat) (bytes : List Byte)
  /-- LANE_ERROR_WINDOW (R381). A window of 16,777,216 flits ends and lane error counts restart. -/
  | laneErrorWindow (d e m : Nat)
  /-- D2D_REPAIR_COMPLETE (R390). A module finishes retraining, resumes from its oldest unacknowledged flit and raises an event, or is retired. -/
  | d2dRepairComplete (d e m : Nat) (trained : Bool)
  /-- D2D_NAK (R382). A die-link NAK arrives and the sender resends from the named flit. -/
  | d2dNak (d e m seq : Nat)
  /-- D2D_CREDIT (R383). A die-link CREDIT packet returns packet credits per class. -/
  | d2dCredit (d e m req rep : Nat)
  /-- D2D_GOODBYE (R398). A die-link GOODBYE arrives, peers stop sending to the die and it is declared lost. -/
  | d2dGoodbye (d e : Nat) (cause : Nat)
  /-- ROUTE (R386). A ROUTE packet arrives and the receiver releases packets of the moved flow from the new module. -/
  | d2dRoute (d e m key newModule : Nat)
  /-- D2D_REPLAY_TIMEOUT (R380). No ACK advance for 256 flit times makes the sender resend from its oldest unacknowledged flit. -/
  | d2dReplayTimeout (d e m : Nat)
  /-- D2D_WATCHDOG (R394). A module passes no good flit for WDOG ticks and is retired, and an edge whose modules all expire is lost. -/
  | d2dWatchdog (d e m : Nat) (whole : Bool)
  /-- DIE_LOST_DECLARATION (R395). The sequencer, or the deputy for I/O die 0, declares a die lost and its outstanding requests, cores and edges are completed or fenced. -/
  | dieLostDeclaration (die : Nat)
  /-- DEPUTY_TAKEOVER (R396). When the deputy's logic die is lost, the next-lowest surviving control stop takes the declaration role. -/
  | deputyTakeover (stack : Nat)
  /-- D2D_STAT_CLEAR (R406). A write of D2D_STAT.CLEAR clears LATE_DROPS. -/
  | d2dStatClear (d : Nat) (w : RegWrite)
  /-- PACKET_ORIGINATE (R422). A Nirsavor packet made on the part is routed to an origin I/O die and a port, or answered NO_ROUTE. -/
  | packetOriginate (d : Nat) (pkt : Packet)
  /-- LINK_FLIT_RECEIVE (R412). A fabric codeword and flit arrive and are accepted or discarded for replay, with corrected symbols counted per lane. -/
  | linkFlitReceive (d p : Nat) (flit : LinkFlit)
  /-- FEC_ERROR_WINDOW (R438). A window of 16,777,216 codewords ends and lane symbol counts restart. -/
  | fecErrorWindow (d p : Nat)
  /-- PACKET_ARRIVAL (R422). A packet arriving at a port is delivered, answered HOPS, NO_ROUTE or REFUSED, or forwarded. -/
  | packetArrival (d p : Nat) (pkt : Packet)
  /-- PUT (R414). A PUT request is checked and its write performed at the destination, then answered with ACK. -/
  | put (d : Nat) (pkt : Packet)
  /-- GET (R414). A GET request reads far memory at the destination and is answered with DATA. -/
  | get (d : Nat) (pkt : Packet)
  /-- ADD64 (R414). An ADD64 request performs a shared-cache 64-bit add and returns the old value. -/
  | add64 (d : Nat) (pkt : Packet)
  /-- PAIL (R417). A PAIL request delivers a churn or shadow message to the pail manager that can take it. -/
  | fabricPail (d : Nat) (pkt : Packet)
  /-- ACK (R427). An ACK reply reaches its issuer and completes the request. -/
  | fabricAck (d : Nat) (pkt : Packet)
  /-- DATA (R427). A DATA reply reaches its issuer and completes the request with its data. -/
  | fabricData (d : Nat) (pkt : Packet)
  /-- UNREACH (R415). An UNREACH reply completes its request with the failure status it carries. -/
  | unreach (d : Nat) (pkt : Packet)
  /-- LINK_NAK (R412). A fabric NAK arrives and the sender resends from the named flit. -/
  | linkNak (d p seq : Nat)
  /-- LINK_CREDIT (R418). A fabric CREDIT returns credits for the request virtual channels. -/
  | linkCredit (d p : Nat) (credits : List Nat)
  /-- CREDIT_R (R418). A fabric CREDIT_R returns credits for the reply virtual channels. -/
  | creditR (d p : Nat) (credits : List Nat)
  /-- LINK_GOODBYE (R429). A fabric GOODBYE marks the port peer lost after GOODBYE and queued packets are answered UNREACH FENCED. -/
  | linkGoodbye (d p cause : Nat)
  /-- LINK_REPLAY_TIMEOUT (R412). No ACK advance for 2,048 flit times makes the port resend from its oldest unacknowledged flit. -/
  | linkReplayTimeout (d p : Nat)
  /-- E2E_TIMEOUT (R428). An outstanding fabric request has no reply after E2E_LIMIT and completes with DIE_LOST. -/
  | e2eTimeout (d tag : Nat)
  /-- PORT_WATCHDOG (R430). A port receives no codeword for WDOG ticks, is marked peer lost, and its queued requests are answered UNREACH DIE_LOST. -/
  | portWatchdog (d p : Nat)
  /-- PORT_ENABLE (R433). Setting LINK_PORT_CTL.ENABLE starts training of the port's lanes. -/
  | portEnable (d p : Nat) (w : RegWrite)
  /-- PORT_DISABLE (R447). Clearing LINK_PORT_CTL.ENABLE sends GOODBYE and stops the port. -/
  | portDisable (d p : Nat) (w : RegWrite)
  /-- RETRAIN (R432). A write of LINK_PORT_CTL.RETRAIN retrains a port with an empty replay buffer. -/
  | retrain (d p : Nat) (w : RegWrite)
  /-- PORT_TRAINING_COMPLETE (R434). Port training ends and the port comes up at its usable width or is held down, with an event. -/
  | portTrainingComplete (d p : Nat) (t : Training)
  /-- ROUTE_DATA_WRITE (R423). A write of LINK_ROUTE_DATA changes a route entry for packets that reach routing afterwards. -/
  | routeDataWrite (d dst : Nat) (w : RegWrite)
  /-- LINK_STAT_CLEAR (R446). A write of LINK_STAT.CLEAR clears the link statistics. -/
  | linkStatClear (d : Nat) (w : RegWrite)
  /-- LINK_PORT_STAT_CLEAR (R449). A write of LINK_PORT_STAT.CLEAR clears a port's statistics. -/
  | linkPortStatClear (d p : Nat) (w : RegWrite)
  /-- DOORBELL (R460). A doorbell write updates SQ_TAIL and CQ_HEAD, starts descriptor fetches and releases held completions. -/
  | doorbell (f off size value : Nat)
  /-- DESCRIPTOR_ARRIVAL (R466). Fetched descriptor data arrives, takes its sequence number and is checked for form and, on a confidential ring, its tag. -/
  | descriptorArrival (ring : Nat)
  /-- ADMISSION_VISIT (R483). The registrar visits rings by priority and starts the descriptors whose ordering, unit and allowances permit. -/
  | admissionVisit
  /-- NOP_DESCRIPTOR (R479). A NOP descriptor completes OK once its ordering allows it to start. -/
  | nopDescriptor (ring seq : Nat)
  /-- LAUNCH_DESCRIPTOR (R484). A LAUNCH descriptor is admitted on a chosen core with its power reserved, deferred, or completed DENIED or FENCED. -/
  | launchDescriptor (ring seq : Nat)
  /-- MOVE_DESCRIPTOR (R471). A MOVE descriptor copies bytes between spaces of the homeroom, through a lesson when a slice is named. -/
  | moveDescriptor (ring seq : Nat)
  /-- LADLE_DESCRIPTOR (R474). A LADLE descriptor is checked, translated and sent to its owning ladle port. -/
  | ladleDescriptor (ring seq : Nat)
  /-- PAIL_DESCRIPTOR (R475). A PAIL descriptor is translated and forwarded to the pail manager of its logic die. -/
  | pailDescriptor (ring seq : Nat)
  /-- FABRIC_DESCRIPTOR (R477). A FABRIC descriptor issues PUT, GET or ADD64 requests cut at grain boundaries. -/
  | fabricDescriptor (ring seq : Nat)
  /-- SCRUB (R636). A SCRUB descriptor checks every granule of a range and writes a summary record. -/
  | scrub (ring seq : Nat)
  /-- FENCE_DESCRIPTOR (R479). A FENCE descriptor completes when earlier descriptors of its ring have completed and their writes are visible. -/
  | fenceDescriptor (ring seq : Nat)
  /-- WAIT (R479). A WAIT descriptor holds its ring until another ring of its function has completed every descriptor below SEQ. -/
  | waitDescriptor (ring seq : Nat)
  /-- WAIT_TIMEOUT (R479). The TIMEOUT of a WAIT descriptor passes first and it completes with TIMEOUT. -/
  | waitTimeout (ring seq : Nat)
  /-- UNIT_COMPLETION (R488). A unit's completion record reaches the registrar, which releases its reservation and writes a completion entry and interrupt. -/
  | unitCompletion (ring seq elapsed : Nat)
  /-- FORECAST_MESSAGE (R559). A forecast message reaches the registrar, which resets its reservations and admits against the new allowances. -/
  | forecastMessage (msg : Forecast)
  /-- FORECAST_STALE (R486). No forecast message arrives for STALE ticks and both allowances are taken as 0. -/
  | forecastStale
  /-- RING_ENABLE (R499). A write of 1 to RING_CTL.ENABLE enables the ring, or is queued as PENDING behind a drain or before READY. -/
  | ringEnable (ring : Nat) (w : RegWrite)
  /-- RING_DISABLE (R498). A write of 0 to RING_CTL.ENABLE stops fetching and aborts fetched descriptors that have not started. -/
  | ringDisable (ring : Nat) (w : RegWrite)
  /-- RING_DRAIN_COMPLETE (R498). The started descriptors of a draining ring complete and the ring becomes disabled, taking any queued enable. -/
  | ringDrainComplete (ring : Nat)
  /-- FUNCTION_LEVEL_RESET (R500). A function-level reset stops the function's rings, discards its work and resets its BAR4 and MSI-X table. -/
  | functionLevelReset (f : Nat)
  /-- LOCKSTEP_HALT (R501). The two registrar cores' writes differ, both halt and every enabled ring enters error with cause LOCKSTEP. -/
  | lockstepHalt
  /-- BAR4_ACCESS (R455). A host access through BAR4 is translated into the homeroom's far memory and performed or refused. -/
  | bar4Access (f off : Nat) (acc : HostAccess)
  /-- RING_ADMIT_STAT_CLEAR (R512). A write of RING_ADMIT_STAT.CLEAR clears the admission counters. -/
  | ringAdmitStatClear (w : RegWrite)
  /-- I3C_ADDRESS_ASSIGN (R515). ENTDAA or SETDASA assigns a dynamic address and moves the office into I3C mode. -/
  | i3cAddressAssign (addr : Nat)
  /-- I3C_ADDRESS_RESET (R515). RSTDAA returns the office to SMBus mode. -/
  | i3cAddressReset
  /-- SET_ENDPOINT_ID (R516). The MCTP Set Endpoint ID message assigns the office its endpoint ID. -/
  | setEndpointId (op eid : Nat)
  /-- GET_ENDPOINT_ID (R516). The MCTP Get Endpoint ID message returns the office's endpoint ID. -/
  | getEndpointId
  /-- GET_ENDPOINT_UUID (R516). The MCTP Get Endpoint UUID message returns the office's UUID. -/
  | getEndpointUuid
  /-- GET_MCTP_VERSION_SUPPORT (R516). The MCTP Get MCTP Version Support message returns the supported versions. -/
  | getMctpVersionSupport (ty : Nat)
  /-- GET_MESSAGE_TYPE_SUPPORT (R516). The MCTP Get Message Type Support message returns the supported types. -/
  | getMessageTypeSupport
  /-- GET_SENSOR_READING (R518). PLDM GetSensorReading returns a numeric sensor's reading, or unavailable for an unpowered or lost die. -/
  | getSensorReading (sensor : PldmSensor)
  /-- PLATFORM_EVENT_MESSAGE (R518). A polled PLDM PlatformEventMessage exchange returns office events. -/
  | platformEventMessage (ack : Nat)
  /-- REQUEST_UPDATE (R528). PLDM RequestUpdate takes the image buffer when the part awaits an image, or is refused. -/
  | requestUpdate (maxTransfer : Nat)
  /-- REQUEST_FIRMWARE_DATA (R528). A firmware data block requested by the office arrives and enters the image buffer. -/
  | requestFirmwareData (off : Nat) (bytes : List Byte)
  /-- ACTIVATE_FIRMWARE (R528). PLDM ActivateFirmware starts verification and bring-up of the delivered image. -/
  | activateFirmware
  /-- GET_VERSION (R519). SPDM GET_VERSION returns the supported SPDM versions. -/
  | getVersion (rsp : Responder)
  /-- GET_CAPABILITIES (R519). SPDM GET_CAPABILITIES returns the responder's capabilities. -/
  | getCapabilities (rsp : Responder) (version : Nat)
  /-- NEGOTIATE_ALGORITHMS (R519). SPDM NEGOTIATE_ALGORITHMS settles on SM2, SM3 and SM4-GCM. -/
  | negotiateAlgorithms (rsp : Responder)
  /-- GET_DIGESTS (R519). SPDM GET_DIGESTS returns the certificate chain digests. -/
  | getDigests (rsp : Responder)
  /-- GET_CERTIFICATE (R582). SPDM GET_CERTIFICATE returns the identity and alias certificate chain. -/
  | getCertificate (rsp : Responder) (off len : Nat)
  /-- CHALLENGE (R519). SPDM CHALLENGE is answered signed by the alias key. -/
  | challenge (rsp : Responder) (nonce : List Byte)
  /-- GET_MEASUREMENTS (R583). SPDM GET_MEASUREMENTS returns the signed measurement blocks. -/
  | getMeasurements (rsp : Responder) (index : Nat) (sign : Bool) (nonce : List Byte)
  /-- KEY_EXCHANGE (R519). SPDM KEY_EXCHANGE starts a session, refused while RNG_FAIL is set. -/
  | keyExchange (rsp : Responder) (exchange : List Byte)
  /-- FINISH (R519). SPDM FINISH establishes the session. -/
  | finish (rsp : Responder) (session : Nat) (authorised : Bool)
  /-- HEARTBEAT_MESSAGE (R519). SPDM HEARTBEAT keeps a session alive. -/
  | heartbeatMessage (rsp : Responder) (session : Nat)
  /-- KEY_UPDATE (R519). SPDM KEY_UPDATE updates a session's keys. -/
  | keyUpdate (rsp : Responder) (session : Nat)
  /-- END_SESSION (R519). SPDM END_SESSION ends a session. -/
  | endSession (rsp : Responder) (session : Nat)
  /-- GET_STATUS (R521). The office command GET_STATUS returns OFFICE_STATUS and TOP_ID. -/
  | getStatus (h : OfficeHead)
  /-- READ_REG (R523). The office command READ_REG reads a register as the second master, or answers NOT_READY. -/
  | readReg (h : OfficeHead) (off : Nat)
  /-- WRITE_REG (R524). The office command WRITE_REG writes a register as the second master, secured for SEC and FUSE. -/
  | writeReg (h : OfficeHead) (off value : Nat) (session : Option Nat) (env : WriteEnv)
  /-- GET_EVENTS (R532). The office command GET_EVENTS removes and returns the oldest office events. -/
  | getEvents (h : OfficeHead) (n : Nat)
  /-- SET_COOLANT (R529). The office command SET_COOLANT replaces the held inlet and flow readings and restarts their ages. -/
  | setCoolant (h : OfficeHead) (inlet flow valid : Nat)
  /-- GET_SHUTDOWN (R530). The office command GET_SHUTDOWN returns a shutdown record. -/
  | getShutdown (h : OfficeHead) (index : Nat)
  /-- SET_RING_CONF (R596). The secured office command SET_RING_CONF sets a disabled ring's CONF to 1. -/
  | setRingConf (h : OfficeHead) (ring conf : Nat) (session : Option Nat)
  /-- IMAGE_BUFFER_TIMEOUT (R527). The holder of the image buffer moves no data for 5 s and the buffer is released. -/
  | imageBufferTimeout
  /-- COOLANT_AGE_EXPIRY (R529). A coolant reading's age exceeds 2 s and OFFICE_COOLANT.WORST is set. -/
  | coolantAgeExpiry (inlet flow : Nat)
  /-- VSET_WRITE (R538). A write of PWR_DOMAIN.VSET sets a domain's set point, and its voltage ramps toward the new value. -/
  | vsetWrite (domain : Nat) (w : RegWrite)
  /-- REGULATOR_FAULT (R539). A regulator falls short of its ramp point or hits current limit, turns its domain off, and its core or die is fenced or lost. -/
  | regulatorFault (domain : Nat)
  /-- REGULATOR_OVERVOLTAGE (R541). A regulator output above 0.95 V for 1 us causes a latched shutdown with cause 0x07. -/
  | regulatorOvervoltage (domain : Nat)
  /-- POWER_SAMPLE (R542). The office sums rail and domain power every 50 us and updates the back-stop level. -/
  | powerSample (pkg : Nat) (perStack domains : List Nat)
  /-- PWR_LIMIT_WRITE (R543). A write of PWR_LIMIT.WATTS sets the limit for the next forecast update, or is refused with an event. -/
  | pwrLimitWrite (w : RegWrite)
  /-- SENSOR_SAMPLE (R545). On-die sensors are sampled every 25 us, and hot-spot readings drive warning, throttle, slice refresh and shutdown decisions. -/
  | sensorSample (readings : List (Nat × Int))
  /-- FORECAST_UPDATE (R557). The forecast model updates every 200 us and sends the registrar its allowances and warm flags. -/
  | forecastUpdate
  /-- HR_OPEN (R605). A write of SEC_HR_CTL.OPEN opens a FREE homeroom, or is queued during teardown. -/
  | hrOpen (hr : Nat) (w : RegWrite)
  /-- TEARDOWN_WRITE (R604). A write of SEC_HR_CTL.TEARDOWN starts the teardown of an OPEN or SEALED homeroom. -/
  | teardownWrite (hr : Nat) (w : RegWrite)
  /-- TEARDOWN_COMPLETE (R604). A teardown finishes clearing, the homeroom becomes FREE with an event, and a queued OPEN takes effect. -/
  | teardownComplete (hr : Nat)
  /-- HR_CORES_WRITE (R587). A write of SEC_HR_CORES moves cores between homeroom 0 and an OPEN homeroom. -/
  | hrCoresWrite (hr k : Nat) (w : RegWrite)
  /-- HR_MAP_WRITE (R587). A write of SEC_HR_MAP moves sets between homeroom 0 and an OPEN homeroom, clearing them. -/
  | hrMapWrite (hr k : Nat) (w : RegWrite)
  /-- HR_FUNCS_WRITE (R587). A write of SEC_HR_CTL.FUNCS moves functions, each first reset and its rings' CONF cleared. -/
  | hrFuncsWrite (hr : Nat) (w : RegWrite)
  /-- HR_WINDOW_WRITE (R587). A write of SEC_HR_WIN_HOST or SEC_HR_WIN_MAP gives, changes or removes a window range of an OPEN homeroom. -/
  | hrWindowWrite (hr win : Nat) (map : Bool) (w : RegWrite)
  /-- CORE_MOVE_CLEAR (R587). Once a moved core has no lesson running, its desk, slice, slates and accumulators are filled. -/
  | coreMoveClear (c : Nat)
  /-- HR_QUERY (R589). HR_QUERY returns the homeroom's configuration record and CONFIG_DIGEST. -/
  | hrQuery (hr : Nat)
  /-- KEY_SET (R593). KEY_SET installs a region, command, transport or fabric key. -/
  | keySet (hr kind v : Nat) (key : List Byte)
  /-- SEAL (R590). SEAL seals an OPEN homeroom when its configuration digest equals the digest carried. -/
  | sealHomeroom (hr : Nat) (digest : List Byte)
  /-- RING_CONF (R596). RING_CONF sets a disabled ring of the homeroom confidential or not. -/
  | ringConf (hr ring conf : Nat)
  /-- RING_QUERY (R591). RING_QUERY returns a ring's EPOCH and next SEQ. -/
  | ringQuery (hr ring : Nat)
  /-- SALT_SET (R601). SALT_SET sets the homeroom salt while none of its trees is open. -/
  | saltSet (hr : Nat) (salt : List Byte)
  /-- SALT_EXPORT (R601). SALT_EXPORT returns the salt when TWIN_SALT is blown. -/
  | saltExport (hr : Nat)
  /-- FABRIC_SET (R602). FABRIC_SET sets the admitted fabric sources and the PROTECT setting. -/
  | fabricSet (hr : Nat) (protect : Bool) (entries : List (Nat × Bool))
  /-- TEARDOWN (R604). The homeroom command TEARDOWN starts a teardown from the tenant. -/
  | tenantTeardown (hr : Nat)
  /-- MAILBOX_GO (R584). A write of SEC_MBOX_CTL.GO runs a mailbox exchange with a homeroom responder or hands over the identity certificate. -/
  | mailboxGo (w : RegWrite) (resp : MailboxReply)
  /-- RNG_HEALTH_FAIL (R581). The entropy source fails a health test and RNG_FAIL is set until the next cold start. -/
  | rngHealthFail
  /-- DEBUG_UNLOCK (R606). An authorised write of SEC_DEBUG.UNLOCK unlocks debug, tears down homerooms 1 to 15 and holds SEAL at DENIED. -/
  | debugUnlock (w : RegWrite) (authorised : Bool)
  /-- MIRROR_WRITE (R625). A write of REL_MIRROR pairs or unpairs sets and starts the clears of both, or is refused. -/
  | mirrorWrite (k : Nat) (w : RegWrite)
  /-- MIRROR_CLEAR_COMPLETE (R625). The clears of a mirror pairing change complete and REL_STATUS.BUSY reads 0. -/
  | mirrorClearComplete
  /-- FLIP_ARM (R642). A write of REL_FLIP_SEL setting ARM arms the flip mask for the next matching write, or is refused. -/
  | flipArm (w : RegWrite)
  /-- IMAGE_WINDOW_WRITE (R527). A host write to the image window takes the image buffer and stores image bytes, or is dropped. -/
  | imageWindowWrite (off : Nat) (bytes : List Byte)
  /-- IMAGE (R577). The IMAGE step verifies the delivered image and loads it, or enters recovery. -/
  | bootImage (w : RegWrite)
  /-- TRAIN (R662). The TRAIN step trains links and memories, tests their checkers and fills them. -/
  | bootTrain (w : RegWrite) (findings : List Finding)
  /-- ROLLCALL (R664). The ROLLCALL step tests the logic, reads the handed-back record, merges the defect list and fences. -/
  | rollCall (w : RegWrite) (findings : List Finding)
  /-- READY (R673). The READY step locks RWL fields, exports the record, advances fuses, starts the registrar and releases cores. -/
  | bootReady (w : RegWrite)
  /-- BOOT_STEP_COMPLETE (R660). A bring-up step finishes its work and the part enters its next phase, or FAILED or RECOVERY. -/
  | bootStepComplete
  /-- EXPORT (R671). A write of BOOT_CTL.EXPORT writes a fresh signed defect record to the host buffer. -/
  | exportRecord (w : RegWrite)
  /-- COLD_RESTART (R679). A write of BOOT_CTL.COLD with KEY 0xC5 sends GOODBYE, resets every domain but the office and re-enters phase 0. -/
  | coldRestart (w : RegWrite)
  /-- DOMAIN_DOWN (R675). ACTION 1 on BOOT_DOMAIN brings a domain down with GOODBYE, or is queued. -/
  | domainDown (w : RegWrite)
  /-- DOMAIN_UP (R676). ACTION 2 on BOOT_DOMAIN brings a domain up through training, roll call, merge and release, or is queued. -/
  | domainUp (w : RegWrite)
  /-- DOMAIN_ACTION_COMPLETE (R677). A domain finishes going down or coming up and any queued action starts. -/
  | domainActionComplete (d : Nat) (findings : List Finding)
  /-- VAUX_POWER_ON (R699). VAUX_1V8 reaches tolerance, straps are sampled and the office starts in SMBus mode. -/
  | vauxPowerOn (straps : Nat)
  /-- VAUX_LOSS (R703). VAUX_1V8 leaves tolerance and every regulator domain is turned off and every die held in reset. -/
  | vauxLoss
  /-- MAIN_RAIL_FAULT (R697). An armed main rail is out of tolerance for 2 us and causes a latched shutdown with cause 0x06. -/
  | mainRailFault (rail die mv : Nat)
  /-- VIN_CORE_CYCLE (R556). VIN_CORE is seen off and then on after VAUX_1V8 was cycled, ending a latched shutdown. -/
  | vinCoreCycle
  /-- PERST_DEASSERT (R701). PERST_N is deasserted, the main-rail monitors arm, PCIE_SRIS is sampled and the main side powers on. -/
  | perstDeassert (sris : Bool)
  /-- PERST_ASSERT (R702). PERST_N is asserted, the monitors disarm, GOODBYE is sent and every regulator domain turns off. -/
  | perstAssert
  /-- REFCLK_LOSS (R706). A reference clock is lost, taking its die, its fabric ports or the host link down. -/
  | refclkLoss (clk : Nat)
  /-- DRAM_LAYER_LOSS (R33). A DRAM layer of a compute stack is lost in the field, the slices of all 64 cores of that stack are lost and those cores are fenced with cause 0x07. -/
  | dramLayerLoss (stack layer : Nat)
  /-- COMPLETION_TIMEOUT (R492). A read the part made of host memory gets no completion within the PCI Express completion timeout, so the descriptor fails with BUS_ERROR and a failed fetch puts its ring in error with cause FETCH. -/
  | completionTimeout (ring seq : Nat) (fetch : Bool)
  /-- REFRESH_MANAGEMENT_REQUEST (R199). A far-stack device raises a refresh-management request and the controller honours it with extra refresh. -/
  | refreshManagementRequest (f bank : Nat)
  /-- IMAGE_TRANSFER_CANCEL (R527). The holder of the image buffer cancels its transfer, and the buffer becomes free to either path. -/
  | imageTransferCancel (host : Bool)
  deriving DecidableEq, Repr

end Sys2Proof
end

