-- ==== Sys2Proof/Machine/Sensors.lean ====
section
/-! DEFINITION. Temperature sensors and hot spots: where they lie, whose neighbours they are, and which units they throttle
(R545 to R552). -/

namespace Sys2Proof.Machine

/-- A sensor as `THM_SSEL` names it (R572): class in bits [2:0], unit in [7:4], index in [15:8]. -/
def sensorKey (cls unit index : Nat) : Nat := cls + 16 * unit + 256 * index

/-- The class, the unit and the index of a key. -/
def sensorParts (k : Nat) : Nat × Nat × Nat := (bitsOf k 0 3, bitsOf k 4 4, bitsOf k 8 8)

/-- The die of a sensor (R545): a far stack's readout comes over its logic die. -/
def sensorDie (k : Nat) : Nat :=
  let (c, u, _) := sensorParts k
  if c = 3 then 4 + u else if c = 4 then u / 3 else u

/-- A sensor is present on the variant (R545, R572). -/
def sensorPresent (v : Variant) (k : Nat) : Bool :=
  let (c, u, i) := sensorParts k
  match c with
  | 0 => decide (u < 4) && decide (i < 48)
  | 1 => decide (u < 4) && decide (i < 32)
  | 2 => decide (u < 4) && decide (i < 8)
  | 3 => decide (u < ioDies v) && decide (i < 8)
  | 4 => farPresent v u && decide (i = 0)
  | _ => false

/-- The places adjacent to place i of a grid of rows × columns. -/
def gridAdjacent (rows cols i : Nat) : List Nat :=
  (List.range (rows * cols)).filter fun j =>
    decide ((Int.natAbs ((i / cols : Nat) - (j / cols : Nat) : Int)) + (Int.natAbs ((i % cols : Nat) - (j % cols : Nat) : Int)) = 1)

/-- The neighbours of a sensor for cross-checking (R545). -/
def sensorNeighbours (k : Nat) : List Nat :=
  let (c, u, i) := sensorParts k
  let idx := match c with
    | 0 => if i < 32 then gridAdjacent 8 4 i else (rangeFrom (i / 4 * 4) 4).filter fun j => decide (j ≠ i)
    | 1 => ((gridAdjacent 4 2 (i % 8)).map fun j => i / 8 * 8 + j) ++
        (if 8 ≤ i then [i - 8] else []) ++ (if i < 24 then [i + 8] else [])
    | 2 => gridAdjacent 4 2 i
    | 3 => (List.range 8).filter fun j => decide (j ≠ i)
    | _ => []
  idx.map (sensorKey c u)

/-- The governing sensor of a core (R546). -/
def governing (c : Nat) : Nat := sensorKey 0 (coreStack c) (coreRow c * 4 + coreCol c / 2)

/-- The other core-pair sensors of a core's die, the nearest first (R546). -/
def nextNearest (c : Nat) : List Nat :=
  let r := coreRow c
  let p := coreCol c / 2
  let dist := fun (j : Nat) => Int.natAbs ((r : Int) - (j / 4 : Nat)) + Int.natAbs ((p : Int) - (j % 4 : Nat))
  ((rangeFrom 1 11).flatMap fun d => (List.range 32).filter fun j => decide (dist j = d)).map (sensorKey 0 (coreStack c))

/-- The region of a layer that covers a core (R545). -/
def coreRegion (c : Nat) : Nat := coreRow c / 2 * 2 + coreCol c / 4

/-- The layer sensor over a core (R545). -/
def layerSensor (c l : Nat) : Nat := sensorKey 1 (coreStack c) (8 * l + coreRegion c)

/-! Hot spots are numbered (the model's numbers): on logic die d at 64d, 16 core hot spots, row × 2 + half-row; then four peripheral
ones; then 32 DRAM-layer regions, layer × 8 + region; then eight of the base die; I/O die d is 256 + d, far site f is 260 + f. -/

/-- The hot spots of a variant (R548). -/
def hotSpots (v : Variant) : List Nat :=
  ((List.range 4).flatMap fun d => rangeFrom (64 * d) 60) ++ (rangeFrom 256 (ioDies v)) ++ (farSites v).map (260 + ·)

/-- The class of a hot spot's sensors (R530). -/
def hotClass (h : Nat) : Nat :=
  if 260 ≤ h then 4 else if 256 ≤ h then 3 else if h % 64 < 20 then 0 else if h % 64 < 52 then 1 else 2

/-- The sensors of a hot spot (R548). -/
def hotSensors (h : Nat) : List Nat :=
  if 260 ≤ h then [sensorKey 4 (h - 260) 0]
  else if 256 ≤ h then (List.range 8).map (sensorKey 3 (h - 256))
  else
    let d := h / 64
    let i := h % 64
    if i < 16 then [sensorKey 0 d (2 * i), sensorKey 0 d (2 * i + 1)]
    else if i < 20 then (rangeFrom (32 + 4 * (i - 16)) 4).map (sensorKey 0 d)
    else if i < 52 then [sensorKey 1 d (i - 20)]
    else [sensorKey 2 d (i - 52)]

/-- The hot spot of a sensor (R548). -/
def hotOf (k : Nat) : Nat :=
  let (c, u, i) := sensorParts k
  match c with
  | 0 => 64 * u + (if i < 32 then i / 2 else 16 + (i - 32) / 4)
  | 1 => 64 * u + 20 + i
  | 2 => 64 * u + 52 + i
  | 3 => 256 + u
  | _ => 260 + u

/-- The cores of a region of four by two (R545). -/
def regionCores (d i : Nat) : List Nat := (dieCores d).filter fun c => decide (coreRegion c = i)

/-- The cores that a hot spot covers (R545, R548). -/
def hotCores (h : Nat) : List Nat :=
  if 256 ≤ h then []
  else
    let d := h / 64
    let i := h % 64
    if i < 16 then (dieCores d).filter fun c => decide (2 * coreRow c + coreCol c / 4 = i)
    else if i < 20 then []
    else if i < 52 then regionCores d ((i - 20) % 8)
    else regionCores d (i - 52)

/-- Warning, throttle and shutdown levels of a class (R550), in units of 0.125 °C. -/
def hotLevels (cls : Nat) : Int × Int × Int :=
  if cls = 1 ∨ cls = 4 then (680, 760, 840) else (760, 840, 944)

/-- Units that throttle are numbered (the model's numbers): voltage domains as in R537; the island of far port f is 512 + f; the module
islands of edge e of die d are 768 + 4d + e; fabric port p of I/O die d is 1024 + 6d + p. -/
def hotUnits (h : Nat) : List Nat :=
  if 260 ≤ h then [512 + (h - 260)]
  else if 256 ≤ h then (260 + (h - 256)) :: rangeFrom (1024 + 6 * (h - 256)) 6
  else
    let d := h / 64
    let i := h % 64
    if i < 16 ∨ 20 ≤ i then hotCores h
    else if i < 19 then [512 + 3 * d + (i - 16), 256 + d]
    else (256 + d) :: rangeFrom (768 + 4 * d) 4

end Sys2Proof.Machine
end

