-- ==== Sys2Proof/Config.lean ====
section
/-! DEFINITION. What the spec leaves open: constants without a body, so that no proof can see their values. -/

namespace Sys2Proof

/-- Contents of a far byte after its set's scope or NARROW bit changed for the n-th time (R210, log 13). -/
opaque Config.freeByte : Nat → Nat → Byte

/-- A fresh free value: a function of the counter `draws` and of a bound below which the value is taken (log 5). -/
opaque Config.freeNat : Nat → Nat

/-- Byte `i` of a fresh free string: random salts, nonces, keys of the entropy source (R581, R601, log 5). -/
opaque Config.randomByte : Nat → Nat → Byte

/-- The associativity set of a shared-cache slice in which a line lies (R211 gives 12,288 sets, no index; log 14). -/
opaque Config.cacheSet : Nat → Nat → Nat

/-- The bank of a shared-cache slice in which a line lies (R211 gives 16 banks, no index; log 14). -/
opaque Config.cacheBank : Nat → Nat → Nat

/-- The entries of a queue crossing beyond 4, up to 28 (R365, log 72): by die and selection. -/
opaque Config.xingDepth : Nat → Nat

/-- The forecast model's nowcast for a hot spot at an update (R557, R712, log 15), in units of 0.125 °C. -/
opaque Config.nowcast : Nat → Nat → Int

/-- The forecast model's 10 ms forecast for a hot spot at an update (R557, R712, log 15), in units of 0.125 °C. -/
opaque Config.forecast : Nat → Nat → Int

/-- A model coefficient (R557, R558, R712, log 15): its kind and index. -/
opaque Config.coefficient : Nat → Nat → Nat

/-- What the host's training and configuration of the link leave in `HOST_STATUS` (R503, log 29): rate, width, flit mode and enabled virtual
functions. -/
opaque Config.hostPort : Nat → Nat

/-- The result of an operation of the tutor's profile whose value the standards leave open (log 16). -/
opaque Config.tutorFree : Nat → Nat → Nat

/-- The part's own certificate, UUID and vendor data (R516, R517, R582, log 17): by kind. -/
opaque Config.identity : Nat → List Byte

/-- A certificate that the part makes (R582, log 17): its kind, 0 for a self-signed identity certificate and 1 for the alias certificate,
and the public keys of its subject and its signer. -/
opaque Config.certificate : Nat → List Byte → List Byte

/-- The subject public key of a certificate, x then y (R582, log 17). -/
opaque Config.certificateKey : List Byte → List Byte

end Sys2Proof
end

