-- ==== Sys2Proof/Machine/State.lean ====
section
/-! DEFINITION. The state of the part as plain data, and its state right after reset. -/

namespace Sys2Proof.Machine

/-- Why the model stops: for no reason. The spec gives every command an effect, so no meaning ends in a fault, and the type has no
constructor. -/
inductive Fault
  deriving DecidableEq, Repr

/-- Why a command is refused. -/
inductive Refusal
  /-- No meaning has been written for the command yet (safe). Only `exec` could answer it; every command has its meaning. -/
  | notModelled (mnemonic : String)
  deriving DecidableEq, Repr

/-- The state of the part (log 1 to log 8 name what the spec leaves open about its reset values). -/
structure State where
  /-- Assembly variant (R2). -/
  variant : Variant := .S
  /-- Registers that have been written or changed; any other reads as `resetWord` (R18). -/
  regs : List (Reg × W64) := []
  /-- The 32,768 protection fuses, four to a logical bit (R573). -/
  fuses : BitVec 32768 := 0
  /-- Power, reset and shutdown latch (R556, R699 to R703). -/
  power : PowerState := ⟨true, false, true, true, false, false, false, false, 1⟩
  /-- The factory entries of the manufacturing fuse array (R573, R665). -/
  factory : List Defect := []
  /-- The fused layer offsets of slices by core: 16 bits as in `NEAR_LAYER_OFFSET` (R187, R196). -/
  layerFuses : SMap Nat := []
  /-- Stored bytes of far memory by location (R206), their check-bit differences by granule (R618), and the count of changes of
  undefined content by far site × 128 + set (R210). -/
  far : Mem := []
  farChk : SMap Nat := []
  farEpoch : SMap Nat := []
  /-- Slices and desks: bytes and check-bit differences by granule (R172, R620). -/
  slice : Mem := []
  sliceChk : SMap Nat := []
  desk : Mem := []
  deskChk : SMap Nat := []
  /-- Host memory, and the address ranges whose reads fail (R492): the environment's, log 4. -/
  host : Mem := []
  /-- Granules, keyed by `slipKey`, whose next first read fails although they are stored well; one that stands twice fails its second
  read too (R188, R256, R629, R632): the environment's, log 4. -/
  slips : List Nat := []
  hostFaults : List (Nat × Nat) := []
  /-- Shared cache (R211 to R222, R644). -/
  lines : SMap Line := []
  lineAge : Nat := 0
  fills : List Fill := []
  /-- Requests that wait for one of a slice's 256 pending fills (R211). -/
  fillWaits : List ScReq := []
  /-- Of the last 64 grants of a slice's miss queue, which went to tagged reads out of age order, newest first (R228). -/
  missRecent : SMap (List Bool) := []
  purges : List Purge := []
  /-- Failures in the frames of the cache, and the frames retired for them (R644). -/
  frameFails : SMap Nat := []
  framesRetired : SMap Nat := []
  /-- Sets whose scope or NARROW change is under way (R210), and the accesses held. -/
  setChanges : List Nat := []
  /-- Sets that the registrar clears for a change of mirror pairing (R625): accesses to them are held (R259). -/
  clears : List Nat := []
  heldAccess : List ScReq := []
  /-- Grants of far ports that an access has obtained and keeps while it waits at another line: the requester and the grain (R224). -/
  paid : List (Requester × Nat) := []
  /-- Writes that were held at a line, in arrival order (R255): the requester and the grain. -/
  turns : List (Requester × Nat) := []
  /-- Cores, slice controllers, far ports and ladle ports. -/
  cores : SMap CoreSt := []
  slices : SMap SliceSt := []
  farPorts : SMap FarPort := []
  ladles : SMap LadlePort := []
  /-- Pail managers by logic die (R265 to R313). -/
  pails : SMap PailMgr := []
  /-- Fabric ports by 6 × I/O die + local port, outstanding requests, tags that time-outs keep from reuse, and the next tag to try
  (R408, R428). -/
  fabPorts : SMap FabPort := []
  fabReqs : List FabReq := []
  fabQuarantine : List Nat := []
  fabTag : Nat := 0
  /-- Fabric requests and BAR4 accesses whose access is held, in arrival order (R210, R254, R255). -/
  fabWaits : List FabWait := []
  hostWaits : List HostWait := []
  /-- Mesh routers by 64 × die + row × 8 + column, ring slots by ((2 × die + direction) × 16 + lane) × 64 + stop, stops by 64 × die +
  stop, heartbeats missed in a row by 128 × die + node (R318 to R335). -/
  routers : SMap RouterSt := []
  ringSlots : SMap RingSlot := []
  stops : SMap StopSt := []
  missed : SMap Nat := []
  /-- Common arbiters and crossings, by die × 2^20 + selection (R337, R358). -/
  arbs : SMap ArbSt := []
  xings : SMap XingSt := []
  /-- Ends of die-to-die modules by (die × 4 + edge) × 32 + module and of edges by die × 4 + edge, and the compute stack whose control
  stop is the deputy (R376 to R396). -/
  modules : SMap ModuleSt := []
  edges : SMap EdgeSt := []
  deputy : Nat := 0
  /-- Rings beside their registers, the registrar, and the present size of BAR4 of functions where it is not 64 GiB (R451 to R493). -/
  rings : SMap RingSt := []
  registrar : Registrar := .init
  bar4Size : SMap Nat := []
  /-- Completion records on their way to the registrar (R162, R246, R285). -/
  records : List UnitRecord := []
  /-- Domain actions under way, by domain (R677). -/
  domains : SMap DomainAct := []
  /-- Homerooms beside their registers (R585). -/
  homerooms : SMap Homeroom := []
  /-- The office: shutdown records, newest first (R530, R531), and its open SPDM sessions (R519). -/
  shutdowns : List (List Byte) := []
  sessions : List SpdmSession := []
  /-- The SPDM version negotiated with each responder, 0 for the office's own (R519). -/
  spdm : SMap Nat := []
  /-- The identity certificate handed to the part (R582). -/
  idCert : Option (List Byte) := none
  /-- Bring-up, the image buffer, and heat and power beside their registers (R527, R542 to R562, R656 to R679). -/
  boot : BootSt := .init
  image : ImageBuf := .init
  thermal : Thermal := .init
  /-- The defect list, in the order of R670: kind, unit, detail, origin. -/
  defects : List Defect := []
  /-- Integrity log, newest first (R645). -/
  relLog : List RelEntry := []
  /-- The event queue's PHASE and the office's queue (R494, R532). -/
  evqPhase : Bool := true
  officeEvents : List Event := []
  /-- Unmasked MSI-X vectors (at reset every one is masked) and pending ones, by function and vector (R457). -/
  msixUnmasked : List (Nat × Nat) := []
  msixPending : List (Nat × Nat) := []
  /-- What the part has sent outside, newest last. -/
  out : List Output := []
  /-- Free values taken so far (log 5). -/
  draws : Nat := 0
  /-- Commands that wait, first in first out. -/
  pending : List Instr := []
  deriving DecidableEq, Repr

/-- The state right after reset. -/
def State.reset : State := {}

end Sys2Proof.Machine
end

