-- ==== Sys2Proof/Machine/Views.lean ====
section
/-! DEFINITION. Reading State: stored registers and their fields, units by number, which homeroom owns what, and the registers
whose value is computed from other state when they are read. -/

namespace Sys2Proof.Machine

/-- The entry of a register in a list of registers. -/
def regFind : List (Reg × W64) → Reg → Option W64
  | [], _ => none
  | (k, v) :: l, r => if k = r then some v else regFind l r

/-- A list of registers with one set. -/
def regSet : List (Reg × W64) → Reg → W64 → List (Reg × W64)
  | [], r, v => [(r, v)]
  | (k, w) :: l, r, v => if k = r then (r, v) :: l else (k, w) :: regSet l r v

/-- A core that the manufacturing fuses fence (R76, R573, R665). -/
def State.fuseFenced (s : State) (c : Nat) : Bool := s.factory.any fun d => decide (d.kind = 1) && decide (d.unit % 256 = c)

/-- The reset value of a register of this part (R16, R18): `resetWord`, and what the part's fuses give: the layer offsets of a slice (R187,
R196), and STATE and CAUSE of a core that they fence (R65, R76). -/
def State.resetOf (s : State) (r : Reg) : W64 :=
  match r with
  | .nearLayerOffset c => BitVec.ofNat 64 (smGet 0 s.layerFuses c % 2 ^ 16)
  | .coreStatus c =>
    if s.fuseFenced c then fldSet (fldSet (resetWord s.variant r) CORE_STATUS_STATE 2) CORE_STATUS_CAUSE 0x01 else resetWord s.variant r
  | _ => resetWord s.variant r

/-- The stored value of a register: what was last put there, or its reset value (R16, R18). -/
def State.get (s : State) (r : Reg) : W64 := (regFind s.regs r).getD (s.resetOf r)

/-- Put a value into a register. -/
def State.put (s : State) (r : Reg) (v : W64) : State := { s with regs := regSet s.regs r v }

/-- A field of a stored register. -/
def State.fget (s : State) (r : Reg) (f : Fld) : Nat := fldGet (s.get r) f

/-- Put a value into a field of a register. -/
def State.fput (s : State) (r : Reg) (f : Fld) (v : Nat) : State := s.put r (fldSet (s.get r) f v)

/-- Add to a field of a register that saturates. -/
def State.fadd (s : State) (r : Reg) (f : Fld) (n : Nat) : State := s.fput r f (satAdd f.width (s.fget r f) n)

/-- Send something outside. -/
def State.emit (s : State) (o : Output) : State := { s with out := s.out ++ [o] }

/-- A core's units. -/
def State.core (s : State) (c : Nat) : CoreSt := smGet CoreSt.init s.cores c
/-- Replace a core's units. -/
def State.setCore (s : State) (c : Nat) (v : CoreSt) : State := { s with cores := smPut s.cores c v }
/-- Change a core's units. -/
def State.modCore (s : State) (c : Nat) (f : CoreSt → CoreSt) : State := s.setCore c (f (s.core c))

/-- A slice controller. -/
def State.near (s : State) (c : Nat) : SliceSt := smGet SliceSt.init s.slices c
/-- Replace a slice controller. -/
def State.setNear (s : State) (c : Nat) (v : SliceSt) : State := { s with slices := smPut s.slices c v }

/-- A far port. -/
def State.farPort (s : State) (f : Nat) : FarPort := smGet FarPort.init s.farPorts f
/-- Replace a far port. -/
def State.setFarPort (s : State) (f : Nat) (v : FarPort) : State := { s with farPorts := smPut s.farPorts f v }

/-- A ladle port. -/
def State.ladle (s : State) (f : Nat) : LadlePort := smGet LadlePort.init s.ladles f
/-- Replace a ladle port. -/
def State.setLadle (s : State) (f : Nat) (v : LadlePort) : State := { s with ladles := smPut s.ladles f v }

/-- A homeroom beside its registers. -/
def State.hr (s : State) (h : Nat) : Homeroom := smGet Homeroom.init s.homerooms h
/-- Replace a homeroom. -/
def State.setHr (s : State) (h : Nat) (v : Homeroom) : State := { s with homerooms := smPut s.homerooms h v }

/-- The phase of the cold start (R656). -/
def State.phase (s : State) : Nat := s.fget .bootStatus BOOT_STATUS_PHASE

/-- STATE of a domain (R686). -/
def State.domainState (s : State) (d : Nat) : Nat := bitsOf (s.get .bootDomsum).toNat (4 * d) 3

/-- A die is present, its domain is up and the main side is on (R674, R728). -/
def State.dieUp (s : State) (d : Nat) : Bool := diePresent s.variant d && decide (s.domainState d = 0) && s.power.mainOn

/-- Every RWL field is locked (R16, R673, R679). -/
def State.locked (s : State) : Bool := decide (s.phase = 4) || decide (s.boot.step = 4)

/-- The homeroom of a core (R586): the homeroom of 1 to 15 whose `SEC_HR_CORES` marks it, else homeroom 0. -/
def State.coreHr (s : State) (c : Nat) : Nat :=
  ((rangeFrom 1 15).find? fun h => bitAt (s.get (.secHrCores h (c / 64))).toNat (c % 64)).getD 0

/-- The homeroom of a function (R453). -/
def State.funcHr (s : State) (f : Nat) : Nat :=
  ((rangeFrom 1 15).find? fun h => bitAt (s.fget (.secHrCtl h) SEC_HR_CTL_FUNCS) f).getD 0

/-- STATE of a core (R76): 0 in service, 1 fencing, 2 fenced, 3 recovering. -/
def State.coreState (s : State) (c : Nat) : Nat := s.fget (.coreStatus c) CORE_STATUS_STATE

/-- A pail manager. -/
def State.pail (s : State) (d : Nat) : PailMgr := smGet PailMgr.init s.pails d
/-- Replace a pail manager. -/
def State.setPail (s : State) (d : Nat) (v : PailMgr) : State := { s with pails := smPut s.pails d v }

/-- STATE of a homeroom (R586, R610): 0 FREE, 1 OPEN, 2 SEALED, 3 TEARING; homeroom 0 reads 1. -/
def State.hrState (s : State) (h : Nat) : Nat := if h = 0 then 1 else s.fget (.secHrCtl h) SEC_HR_CTL_STATE

/-- A homeroom is active (R586): OPEN or SEALED, and not homeroom 0. -/
def State.hrActive (s : State) (h : Nat) : Bool :=
  decide (h ≠ 0) && (decide (s.hrState h = 1) || decide (s.hrState h = 2))

/-- Entry v of a homeroom's set map (R612): the physical set, where the entry is valid. -/
def State.mapEntry (s : State) (h v : Nat) : Option Nat :=
  let b := bitsOf (s.get (.secHrMap h (v / 8))).toNat (8 * (v % 8)) 8
  if h ≠ 0 ∧ v < 128 ∧ bitAt b 7 then some (b % 128) else none

/-- The mirror set of a set (R655), where its entry is valid. -/
def State.mirrorOf (s : State) (n : Nat) : Option Nat :=
  let b := bitsOf (s.get (.relMirror (n / 8))).toNat (8 * (n % 8)) 8
  if n < 128 ∧ bitAt b 7 then some (b % 128) else none

/-- The set that names `m` as its mirror copy (R623); a register that reads 0 has no valid entry. -/
def State.mirrorSource (s : State) (m : Nat) : Option Nat :=
  (List.range 16).findSome? fun j => if s.get (.relMirror j) = 0#64 then none else (rangeFrom (8 * j) 8).find? fun n => s.mirrorOf n == some m

/-- The homeroom of 1 to 15 that maps a set, and the index at which it does (R588); a register that reads 0 has no valid entry. -/
def State.mapOwner (s : State) (n : Nat) : Option (Nat × Nat) :=
  (rangeFrom 1 15).findSome? fun h =>
    (List.range 16).findSome? fun j =>
      if s.get (.secHrMap h j) = 0#64 then none else ((rangeFrom (8 * j) 8).find? fun v => s.mapEntry h v == some n).map fun v => (h, v)

/-- The homeroom that holds a set (R585): none for a mirror copy (R625). -/
def State.setOwner (s : State) (n : Nat) : Option Nat :=
  match s.mapOwner n with
  | some (h, _) => some h
  | none => if (s.mirrorSource n).isSome then none else some 0

/-- The sets that homeroom 0 holds (R585, R625). -/
def State.hostSets (s : State) : List Nat := (List.range 128).filter fun n => s.setOwner n == some 0

/-- The number of sets of a homeroom (R610). -/
def State.setCount (s : State) (h : Nat) : Nat :=
  if h = 0 then s.hostSets.length else ((List.range 128).filter fun v => (s.mapEntry h v).isSome).length

/-- A logical bit of the protection fuses (R573): blown when two of its four fuses are. -/
def State.fuseBit (s : State) (i : Nat) : Bool :=
  decide (2 ≤ ((List.range 4).filter fun j => s.fuses.getLsbD (4 * i + j)).length)

/-- A field of logical bits (R574). -/
def State.fuseField (s : State) (lo n : Nat) : Nat := (List.range n).foldl (fun a i => a + b2n (s.fuseBit (lo + i)) * 2 ^ i) 0

/-- The ROLLBACK count (R574). -/
def State.rollback (s : State) : Nat := ((List.range 256).filter fun i => s.fuseBit (1536 + i)).length

/-- The effective HR_MAX (R574). -/
def State.hrMax (s : State) : Nat :=
  let n := s.fuseField 1288 5
  if n = 0 ∨ 16 < n then 16 else n

/-- Homerooms that are not FREE, homeroom 0 included (R608). -/
def State.activeHrs (s : State) : Nat := 1 + ((rangeFrom 1 15).filter fun h => decide (s.hrState h ≠ 0)).length

/-- MAIN of `OFFICE_STATUS` (R533): 0 down, 1 bringing up, 2 running, 3 recovery. -/
def State.mainState (s : State) : Nat :=
  if !s.power.mainOn then 0 else if s.phase = 4 then 2 else if s.phase = 5 then 3 else 1

/-- Registers of a kind that have been written, with their values: for the sums over instances (R356, R375). -/
def State.regsWhere (s : State) (p : Reg → Bool) : List (Reg × W64) := s.regs.filter fun e => p e.1

/-- The cores whose slice or desk is backed (R21): not fencing, fenced or recovering. -/
def State.coreUsable (s : State) (c : Nat) : Bool := decide (s.coreState c = 0) && s.dieUp (c / 64)

/-- Bits of a set of numbers below 2^w, as a word. -/
def maskOf (l : List Nat) : Nat := l.foldl (fun a i => a ||| 2 ^ i) 0

/-- The summary field of one arbiter type on a die (R357): ANY at bit 15 and FIRST below. -/
def State.arbSumField (s : State) (d ty : Nat) : Nat :=
  let hits := s.regs.filterMap fun e =>
    match e.1 with
    | .arbStarve d' i => if d' = d ∧ bitsOf i 0 4 = ty ∧ fldGet e.2 ARB_STARVE_FLAGS ≠ 0 then some (bitsOf i 8 12) else none
    | _ => none
  match hits.min? with
  | none => 0
  | some f => 2 ^ 15 + f

/-- The types whose crossings on a die satisfy a test of their status (R375). -/
def State.xingSumBits (s : State) (d : Nat) (f : Fld) : Nat :=
  maskOf ((List.range 6).filter fun t => s.regs.any fun e =>
    match e.1 with
    | .xingStatus d' i => decide (d' = d) && decide (bitsOf i 0 4 = t) && decide (fldGet e.2 f ≠ 0)
    | _ => false)

/-- A unit's throttle steps (R553). -/
def State.throttle (s : State) (u : Nat) : ThrottleUnit := smGet ⟨0, 0, 0⟩ s.thermal.units u

/-- The recess level of a domain (R554): the highest of its thermal level, the back-stop of a core domain and the coolant-fault floor. -/
def State.recess (s : State) (i : Nat) : Nat :=
  max (max (s.throttle i).level (if i < 256 then s.fget .pwrStatus PWR_STATUS_BACKSTOP else 0)) s.thermal.floor

/-- The code of the present voltage of a domain (R538, R553, R569): 0 where it is off; the least of the set point and the thermal cap;
an I/O die's is fixed. -/
def State.voltage (s : State) (i : Nat) : Nat :=
  if s.fget (.pwrDomain i) PWR_DOMAIN_OFF = 1 then 0
  else if i < 260 then min (s.fget (.pwrDomain i) PWR_DOMAIN_VSET) (60 - 5 * (s.throttle i).cap) else s.fget (.pwrDomain i) PWR_DOMAIN_VNOW

/-- The host link is up: I/O die 0 is up (R33, R451), or has been brought up and awaits its image (R676), and the
link has its clock (R706). -/
def State.hostLink (s : State) : Bool := (s.dieUp 4 || (s.boot.awaiting && s.power.mainOn)) && !s.power.pcieLost

/-- What a read of a register finds in it (R16): its stored value, with the fields that show other state computed from it. -/
def State.view (s : State) (r : Reg) : W64 :=
  let w := s.get r
  match r with
  | .hostStatus =>
    if s.hostLink then
      let free := fun k m => Config.hostPort (s.out.length * 4 + k) % m
      fldSet (fldSet (fldSet (fldSet w HOST_STATUS_RATE (free 0 8)) HOST_STATUS_WIDTH (free 1 17)) HOST_STATUS_FLIT (free 2 2)) HOST_STATUS_VFS (free 3 17)
    else w
  | .coreStatus c => fldSet w CORE_STATUS_DEFECT (b2n (s.fuseFenced c || s.defects.any fun d => decide (d.kind = 1) && decide (d.unit % 256 = c)))
  | .nearStatus c =>
    if s.coreState c = 3 ∧ fldGet w NEAR_STATUS_STATE = 1 then
      fldSet w NEAR_STATUS_STATE (Config.freeNat (s.out.length + c) % 2)
    else w
  | .hostFunc f => fldSet w HOST_FUNC_HOMEROOM (s.funcHr f)
  | .secStatus => fldSet (fldSet w SEC_STATUS_ROLLBACK s.rollback) SEC_STATUS_ACTIVE s.activeHrs
  | .secHrCtl h =>
    let fs := if h = 0 then maskOf ((List.range 17).filter fun f => decide (s.funcHr f = 0)) else fldGet w SEC_HR_CTL_FUNCS
    let k := (s.hr h).keys
    fldSet (fldSet (fldSet (fldSet (fldSet w SEC_HR_CTL_STATE (s.hrState h)) SEC_HR_CTL_FUNCS fs) SEC_HR_CTL_SETS (s.setCount h))
      SEC_HR_CTL_KEYED (b2n (k.region.any fun e => !e.2.isEmpty))) SEC_HR_CTL_CMDKEY (b2n k.command.isSome)
  | .secHrCores h i =>
    if h = 0 then BitVec.ofNat 64 (maskOf ((List.range 64).filter fun c => decide (s.coreHr (64 * i + c) = 0))) else w
  | .secHrMap h i =>
    if h = 0 then
      BitVec.ofNat 64 ((List.range 8).foldl (fun a k => if s.setOwner (8 * i + k) == some 0 then a + (128 + 8 * i + k) * 2 ^ (8 * k) else a) 0)
    else w
  | .secHrWinHost h _ => if h = 0 then 0#64 else w
  | .secHrWinMap h _ => if h = 0 then 0#64 else w
  | .fuseStatus =>
    fldSet (fldSet (fldSet (fldSet (fldSet (fldSet 0#64 FUSE_STATUS_DEBUG (s.fuseField 1284 4)) FUSE_STATUS_HR_MAX s.hrMax)
      FUSE_STATUS_TWIN_SALT (b2n (s.fuseBit 1293))) FUSE_STATUS_PROG_CLOSED (b2n (s.fuseBit 1294)))
      FUSE_STATUS_REVOKE (s.fuseField 1280 3)) FUSE_STATUS_ROLLBACK s.rollback
  | .fuseData i => if i < 4 then 0#64 else BitVec.ofNat 64 (s.fuseField (64 * i) 64)
  | .officeStatus => fldSet (fldSet (fldSet w OFFICE_STATUS_MAIN s.mainState) OFFICE_STATUS_RECORDS s.shutdowns.length)
      OFFICE_STATUS_SESSIONS (s.sessions.filter fun x => decide (x.owner = 0) && x.established).length
  | .officeEvq => fldSet w OFFICE_EVQ_COUNT s.officeEvents.length
  | .bootDomain _ => fldSet w BOOT_DOMAIN_STATE (s.domainState (fldGet w BOOT_DOMAIN_SEL))
  | .bootStatus => fldSet w BOOT_STATUS_ENTRIES s.defects.length
  | .pwrDomain i =>
    if 263 < i then 0#64
    else fldSet (fldSet w PWR_DOMAIN_RECESS (s.recess i)) PWR_DOMAIN_VNOW (s.voltage i)
  | .thmSensor k =>
    if !sensorPresent s.variant k then 0#64
    else
      let n := s.thermal.update
      fldSet (fldSet (fldSet w THM_SENSOR_NOWCAST (if n = 0 then 0 else ofSigned 16 (Config.nowcast n (2 ^ 20 + k)))) THM_SENSOR_FORECAST
        (ofSigned 16 (smGet 0 s.thermal.fore (hotOf k)))) THM_SENSOR_LEVEL (smGet 0 s.thermal.levels (hotOf k))
  | .arbSum0 d => BitVec.ofNat 64 ((List.range 4).foldl (fun a t => a + s.arbSumField d t * 2 ^ (16 * t)) 0)
  | .arbSum1 d => BitVec.ofNat 64 (s.arbSumField d 4 + s.arbSumField d 5 * 2 ^ 16)
  | .xingSum d =>
    fldSet (fldSet 0#64 XING_SUM_FALLBACK_ANY (s.xingSumBits d XING_STATUS_FALLBACK)) XING_SUM_STALL_ANY (s.xingSumBits d XING_STATUS_STALLED)
  | .pailStatus d =>
    let m := s.pail d
    fldSet (fldSet (fldSet (fldSet w PAIL_STATUS_TREES (maskOf (m.trees.map Prod.fst))) PAIL_STATUS_SEQS m.seqs.length)
      PAIL_STATUS_RINGS m.rings.length) PAIL_STATUS_IDLE
      (b2n (m.waiting.isEmpty && m.outside.isEmpty && m.syncs.isEmpty && m.rings.all fun e => e.2.active.isNone))
  | .ldlStatus f =>
    if farPresent s.variant f then
      let p := s.ladle f
      fldSet (fldSet (fldSet w LDL_STATUS_QUEUED (min 16 p.queue.length)) LDL_STATUS_ACTIVE p.seqs.length) LDL_STATUS_IDLE
        (b2n (p.queue.isEmpty && p.seqs.isEmpty))
    else 0#64
  | .relLog0 n =>
    match s.relLog[n]? with
    | none => 0#64
    | some e => fldSet (fldSet (fldSet (fldSet 0#64 REL_LOG0_ADDR e.addr) REL_LOG0_MEM e.mem) REL_LOG0_CLASS e.cls) REL_LOG0_OUTCOME e.outcome
  | .relLog1 n =>
    match s.relLog[n]? with
    | none => 0#64
    | some e =>
      let b := fldSet (fldSet 0#64 REL_LOG1_UNIT e.unit) REL_LOG1_REQUESTER e.requester
      match e.yoke with
      | none => b
      | some (y, t, d) =>
        fldSet (fldSet (fldSet (fldSet b REL_LOG1_YOKE y) REL_LOG1_TREE t) REL_LOG1_DIE d) REL_LOG1_YOKE_VALID 1
  | _ => w

end Sys2Proof.Machine
end

