-- ==== Sys2Proof/Machine/Ops.lean ====
section
/-! DEFINITION. Operations that many commands share: free values, events and interrupts, host memory, the defect list and the
grade, and the start of a fence. -/

namespace Sys2Proof.Machine

/-- A free value below a bound (log 5), and the state that has taken it. -/
def State.draw (s : State) (bound : Nat) : Nat × State := (Config.freeNat s.draws % bound, { s with draws := s.draws + 1 })

/-- `n` free bytes (log 5), and the state that has taken them. -/
def State.drawBytes (s : State) (n : Nat) : List Byte × State :=
  ((List.range n).map (Config.randomByte s.draws), { s with draws := s.draws + 1 })

/-- A write to host memory: posted, and taken as written once sent (R492). -/
def State.hostWrite (s : State) (a : Nat) (bs : List Byte) : State :=
  if s.hostLink then { s with host := memWrite s.host a bs } else s

/-- A read of host memory (R492): none where it fails. -/
def State.hostRead (s : State) (a n : Nat) : Option (List Byte) :=
  if s.hostLink && s.hostFaults.all fun r => decide (a + n ≤ r.1) || decide (r.1 + r.2 ≤ a) then some (memRead s.host a n) else none

/-- Raise an MSI-X vector of a function (R457): the number is taken modulo the function's table size; a vector that is not
unmasked becomes pending. -/
def State.msix (s : State) (f v : Nat) : State :=
  let n := v % (if f = 0 then 512 else 32)
  if s.msixUnmasked.contains (f, n) then s.emit (.msix f n)
  else if s.msixPending.contains (f, n) then s else { s with msixPending := (f, n) :: s.msixPending }

/-- The two words of an event entry (R494). -/
def eventWords (e : Event) (phase : Bool) : List Byte :=
  leBytes 8 (e.source + e.inst % 2 ^ 16 * 2 ^ 16 + e.reg % 2 ^ 16 * 2 ^ 32 + b2n phase * 2 ^ 63) ++ leBytes 8 e.detail

/-- Raise an event to the host (R494, R497, R513): nothing where the queue is disabled; dropped and counted where it is full. -/
def State.raiseHost (s : State) (e : Event) : State :=
  if s.fget .ringEvqCfg RING_EVQ_CFG_ENABLE = 0 ∨ !s.hostLink then s
  else
    let size := 2 ^ s.fget .ringEvqCfg RING_EVQ_CFG_LOG2SIZE
    let tail := s.fget .ringEvqStatus RING_EVQ_STATUS_TAIL
    let next := (tail + 1) % size
    if next = s.fget .ringEvqHead RING_EVQ_HEAD_HEAD % size then
      (s.fadd .ringEvqStatus RING_EVQ_STATUS_LOST 1).fput .ringEvqStatus RING_EVQ_STATUS_OVERFLOW 1
    else
      let s := s.hostWrite (s.fget .ringEvqBase RING_EVQ_BASE_BASE * 4096 + 16 * tail) (eventWords e s.evqPhase)
      let s := s.fput .ringEvqStatus RING_EVQ_STATUS_TAIL next
      let s := if next = 0 then { s with evqPhase := !s.evqPhase } else s
      s.msix 0 (s.fget .ringEvqCfg RING_EVQ_CFG_VECTOR)

/-- Raise an event to the office (R532): dropped and counted while 64 wait. In SMBus mode SMBALERT# is asserted while the queue
is not empty (R514). -/
def State.raiseOffice (s : State) (e : Event) : State :=
  if 64 ≤ s.officeEvents.length then
    (s.fadd .officeEvq OFFICE_EVQ_LOST 1).fput .officeEvq OFFICE_EVQ_OVERFLOW 1
  else
    let t := { s with officeEvents := s.officeEvents ++ [e] }
    if s.officeEvents.isEmpty then
      if s.fget .officeStatus OFFICE_STATUS_MODE = 0 then t.emit (.pin "SMBALERT_N" false)
      else t.emit (.message "in-band interrupt" [min 255 t.officeEvents.length])
    else t

/-- The event that reports a register (R496): DETAIL is the register's value. -/
def State.eventOf (s : State) (b : Block) (inst off : Nat) (r : Reg) : Event := ⟨blockCode b, inst, off, (s.view r).toNat⟩

/-- Raise the event of a register to the host and to the office (R496). -/
def State.raise (s : State) (b : Block) (inst off : Nat) (r : Reg) : State :=
  (s.raiseHost (s.eventOf b inst off r)).raiseOffice (s.eventOf b inst off r)

/-- The order of the defect list (R670): kind, then unit, then detail. -/
def defectKey (d : Defect) : Nat := (d.kind * 2 ^ 16 + d.unit) * 2 ^ 32 + d.detail

/-- Enter a defect in its place; an entry of the same unit keeps the lower origin (R670). -/
def defectInsert : List Defect → Defect → List Defect
  | [], d => [d]
  | e :: l, d =>
    if defectKey e = defectKey d then { e with origin := min e.origin d.origin } :: l
    else if defectKey d < defectKey e then d :: e :: l else e :: defectInsert l d

/-- Add a finding to the defect list (R665, R667): a list of 512 entries takes no new one and sets `LIST_FULL`. -/
def State.addDefect (s : State) (d : Defect) : State :=
  if 512 ≤ s.defects.length ∧ !s.defects.any fun e => decide (defectKey e = defectKey d) then s.fput .bootStatus BOOT_STATUS_LIST_FULL 1
  else { s with defects := defectInsert s.defects d }

/-- The cores in service (R672). -/
def State.enabledCores (s : State) : Nat := ((List.range 256).filter fun c => decide (s.coreState c = 0)).length

/-- Compute the grade (R5, R672); a change after READY raises an event. -/
def State.regrade (s : State) : State :=
  if s.phase ≠ 4 then s
  else
    let g := b2n (decide (s.enabledCores < 248))
    let old := s.fget .bootStatus BOOT_STATUS_GRADE
    let t := (s.fput .bootStatus BOOT_STATUS_ENABLED s.enabledCores).fput .bootStatus BOOT_STATUS_GRADE g
    if g = old then t else t.raise .boot 0 0x008 .bootStatus

/-- The unfence class of a cause (R65, R732): 1 host or office, 2 office only, 3 never. -/
def causeClass (c : Nat) : Nat := if c = 0x03 ∨ c = 0x05 then 1 else if c = 0x04 then 2 else 3

/-- The event of a fence (R66, R496). -/
def State.fenceEvent (s : State) (c : Nat) : State := s.raise .core c 0x000 (.coreStatus c)

/-- A fence ends a fill or clear of the core's slice at once (R192): the slice is stopped. -/
def State.endFill (s : State) (c : Nat) : State :=
  if s.fget (.nearStatus c) NEAR_STATUS_STATE = 1 ∨ s.fget (.nearStatus c) NEAR_STATUS_STATE = 3 then s.fput (.nearStatus c) NEAR_STATUS_STATE 0 else s

/-- A fence cause arrives at a core (R66 step 1, R192, R732): a core in service or recovering starts a fence; a core that is fencing or
fenced only takes a cause of a narrower class, with the event again. Cause 0x06 enters the core in the defect list (R667). -/
def State.beginFence (s : State) (c cause : Nat) : State :=
  let s := if cause = 0x06 then s.addDefect ⟨1, c, 0, 3⟩ else s
  let st := s.coreState c
  if st = 1 ∨ st = 2 then
    if causeClass (s.fget (.coreStatus c) CORE_STATUS_CAUSE) < causeClass cause then
      (s.fput (.coreStatus c) CORE_STATUS_CAUSE cause).fenceEvent c
    else s
  else ((s.endFill c).fput (.coreStatus c) CORE_STATUS_STATE 1).fput (.coreStatus c) CORE_STATUS_CAUSE cause

/-- Hand a completion record to the registrar (R162, R246, R285). -/
def State.sendRecord (s : State) (r : UnitRecord) : State := { s with records := s.records ++ [r] }

/-- Integrity events (R646): raised only while `REL_CTL.INT_EN` is 1. -/
def State.relEvent (s : State) : State :=
  if s.fget .relCtl REL_CTL_INT_EN = 1 then s.raise .rel 0 0x008 .relStatus else s

/-- A checker fails its self-test (R640, R646). -/
def State.failSelfTest (s : State) : State := (s.fput .relStatus REL_STATUS_SELFTEST_FAIL 1).relEvent

/-- Enter the REL log (R645): the newest entry first, 32 kept. -/
def State.relAdd (s : State) (e : RelEntry) : State := { s with relLog := (e :: s.relLog).take 32 }

end Sys2Proof.Machine
end

