-- ==== Sys2Proof/Machine/Arbiter.lean ====
section
/-! DEFINITION. The common arbiter (R337 to R346): its decisions, hints, losses and freezes. -/

namespace Sys2Proof.Machine

/-! ### The common arbiter (R337 to R346) -/

/-- The key of an instance or a crossing of a die. -/
def selKey (d sel : Nat) : Nat := d * 2 ^ 20 + sel % 2 ^ 20

/-- The selection of an arbiter type and index (R352). -/
def arbSelOf (ty index : Nat) : Nat := ty + index * 2 ^ 8

/-- The requesters of an instance (R337). -/
def arbRequesters (sel : Nat) : Nat := (arbShape (bitsOf sel 0 4)).2

/-- An arbiter at reset. -/
def ArbSt.init (sel : Nat) : ArbSt := ⟨0, 0, arbWeights (bitsOf sel 0 4), List.replicate 16 0, List.replicate 16 0⟩

/-- An arbiter instance. -/
def State.arb (s : State) (d sel : Nat) : ArbSt := smGet (ArbSt.init sel) s.arbs (selKey d sel)
/-- Replace an arbiter instance. -/
def State.setArb (s : State) (d sel : Nat) (a : ArbSt) : State := { s with arbs := smPut s.arbs (selKey d sel) a }

/-- The weight of a requester; 0 is taken as 1 (R338). -/
def weightOf (weights i : Nat) : Nat := max 1 (bitsOf weights (4 * i) 4)

/-- The pointer moves on (R338); a new weight takes effect as it returns to requester 0. -/
def ArbSt.moveOn (a : ArbSt) (n reg : Nat) : ArbSt :=
  { a with ptr := (a.ptr + 1) % n, used := 0, weights := if (a.ptr + 1) % n = 0 then reg else a.weights }

/-- The pointer's visits until a pending requester is granted (R338): a new weight takes effect as the pointer returns to requester
0. Fuel is one visit of each requester and one more of the first. -/
def ArbSt.visit (n mask reg : Nat) : Nat → ArbSt → Option (Nat × ArbSt)
  | 0, _ => none
  | f + 1, a =>
    if mask.testBit a.ptr ∧ a.used < weightOf a.weights a.ptr then some (a.ptr, { a with used := a.used + 1 })
    else ArbSt.visit n mask reg f (a.moveOn n reg)

/-- The hint of a loser (R340): the grants still owed to the requester at the pointer, and the weights of those pending between; none
precede the loser's turn where the pointer is at it. -/
def ArbSt.hint (a : ArbSt) (n mask i : Nat) : Nat :=
  let owed := if a.ptr = i then 0 else if mask.testBit a.ptr then weightOf a.weights a.ptr - a.used else 0
  let between := (rangeFrom 1 ((i + n - a.ptr) % n - 1)).filter fun k => mask.testBit ((a.ptr + k) % n)
  min 15 (owed + (between.map fun k => weightOf a.weights ((a.ptr + k) % n)).sum)

/-- The summary register of an arbiter type, and its offset (R357, R496). -/
def arbSum (d ty : Nat) : Reg × Nat := if ty < 4 then (.arbSum0 d, 0x028) else (.arbSum1 d, 0x030)

/-- A requester loses (R339, R340, R345): its counter rises, it takes a hall pass, and a counter beyond LIMIT sets its flag, which
raises an event once. -/
def State.arbLose (s : State) (d sel mask i : Nat) : State :=
  let a := s.arb d sel
  let n := wordAt a.losses i + 1
  let s := (s.setArb d sel { a with losses := a.losses.set i n }).emit (.hallPass d sel i (a.hint (arbRequesters sel) mask i))
  let s := s.fput (.arbStat d sel) ARB_STAT_MAX_LOSSES (min 0xFFFF (max n (s.fget (.arbStat d sel) ARB_STAT_MAX_LOSSES)))
  let fl := s.fget (.arbStarve d sel) ARB_STARVE_FLAGS
  if s.fget (.arbCtl d sel) ARB_CTL_LIMIT < n ∧ !fl.testBit i then
    let t := s.fput (.arbStarve d sel) ARB_STARVE_FLAGS (fl + 2 ^ i)
    let (r, off) := arbSum d (bitsOf sel 0 4)
    if s.fget (.arbCtl d sel) ARB_CTL_INT_EN = 1 then t.raise .arb d off r else t
  else s

/-- An instance is frozen (R342). -/
def State.arbFrozen (s : State) (d sel : Nat) : Bool := decide (s.fget (.arbCtl d sel) ARB_CTL_FREEZE = 1)

/-- Hints of 0xF for every pending requester of a frozen instance (R342). -/
def State.arbFrozenHints (s : State) (d sel mask : Nat) : State :=
  ((List.range (arbRequesters sel)).filter mask.testBit).foldl (fun s i => s.emit (.hallPass d sel i 0xF)) s

/-- Decide between pending requesters (R338 to R342, R345): the requester granted, if any. `after` is the mask once it is granted; where the
requester is then no longer pending, the pointer moves on. -/
def State.arbDecide (s : State) (d sel mask : Nat) (after : Nat → Nat) : State × Option Nat :=
  if s.arbFrozen d sel then (s.arbFrozenHints d sel mask, none)
  else
    let n := arbRequesters sel
    match ArbSt.visit n mask (s.get (.arbWeight d sel)).toNat (n + 1) (s.arb d sel) with
    | none => (s, none)
    | some (r, a) =>
      let a := if (after r).testBit r then a else a.moveOn n (s.get (.arbWeight d sel)).toNat
      let t := (s.setArb d sel { a with losses := a.losses.set r 0 }).fadd (.arbStat d sel) ARB_STAT_GRANTS 1
      (((List.range n).filter fun i => decide (i ≠ r) && mask.testBit i).foldl (fun s i => s.arbLose d sel (after r) i) t, some r)

/-- Show the pending requesters (R355). -/
def State.arbPending (s : State) (d sel mask : Nat) : State := s.fput (.arbStarve d sel) ARB_STARVE_PENDING mask

/-- The requesters of an instance that have a request pending. -/
def State.arbMask (s : State) (d sel : Nat) : Nat :=
  maskOf ((List.range (arbRequesters sel)).filter fun i => decide (0 < wordAt (s.arb d sel).counts i))

/-- A requester of an instance has one more request pending (R338, R355). -/
def State.arbAsk (s : State) (d sel r : Nat) : State :=
  let a := s.arb d sel
  let t := s.setArb d sel { a with counts := a.counts.modify r (· + 1) }
  t.arbPending d sel (t.arbMask d sel)

/-- The requests pending at an instance become these (R355). -/
def State.arbCounts (s : State) (d sel : Nat) (counts : List Nat) : State :=
  let t := s.setArb d sel { s.arb d sel with counts := counts }
  t.arbPending d sel (t.arbMask d sel)

/-- Decide for the pending requesters of an instance that counts them, and take the granted request from its count (R338, R342, R353). -/
def State.arbServe (s : State) (d sel : Nat) : State × Option Nat :=
  let counts := (s.arb d sel).counts
  let mask := s.arbMask d sel
  let left := fun r => if wordAt counts r ≤ 1 then mask - 2 ^ r else mask
  match s.arbDecide d sel mask left with
  | (t, none) => (t, none)
  | (t, some r) =>
    let b := t.arb d sel
    ((((t.setArb d sel { b with counts := b.counts.modify r (· - 1) }).arbPending d sel (left r)).fput (.arbCtl d sel) ARB_CTL_BUSY 1), some r)

/-! ### Islands (R368) -/

/-- Reset the islands of a die that a test of their selection names (R368): crossings return to their initial state. -/
def State.resetIslands (s : State) (d : Nat) (p : Nat → Bool) : State :=
  { s with xings := s.xings.filter fun e => !(decide (e.1 / 2 ^ 20 = d) && p (e.1 % 2 ^ 20)),
           regs := s.regs.filter fun e => match e.1 with
             | .xingStatus d' sel => !(decide (d' = d) && p sel)
             | _ => true }

/-- The crossings of the island of a type and index (R371). -/
def islandSel (ty index sel : Nat) : Bool := decide (bitsOf sel 0 4 = ty) && decide (bitsOf sel 8 8 = index)

/-! ### Accesses to near memories (R54, R125) -/

/-- The arbiter instance of a core's slice port (R54, R337). -/
def slicePort (c : Nat) : Nat := arbSelOf 1 (c % 64)

/-- The arbiter instance of a bank of a core's desk (R125, R337): desk offset bits [11:6] select the bank. -/
def deskBank (c off : Nat) : Nat := arbSelOf 0 (c % 64 * 64 + bitsOf off 6 6)

/-- The desk banks that a byte range touches. -/
def deskBanks (c off n : Nat) : List Nat :=
  if n = 0 then [] else (List.range (min 64 ((off + n - 1) / 64 + 1 - off / 64))).map fun i => deskBank c (off + 64 * i)

end Sys2Proof.Machine
end

