-- ==== Sys2Proof/Machine/Crypto.lean ====
section
/-! DEFINITION. The algorithms the spec names by their standards: SM3, HMAC (R580), SM4, SM4-GCM (R595), SM4-XTS (R594),
SM2 (R577), CRC-16 (R618) and CRC-32C (R377, R412). PRESUMED (log 12): their bodies are those of the standards. -/

namespace Sys2Proof.Machine

/-- Rotate a 32-bit value left. -/
def rotl32 (x k : Nat) : Nat := ((x <<< (k % 32)) ||| (x >>> (32 - k % 32))) % 2 ^ 32

/-- 32-bit complement. -/
def not32 (x : Nat) : Nat := (2 ^ 32 - 1) - x % 2 ^ 32

/-- SM3 permutation P0. -/
def sm3P0 (x : Nat) : Nat := x ^^^ rotl32 x 9 ^^^ rotl32 x 17
/-- SM3 permutation P1. -/
def sm3P1 (x : Nat) : Nat := x ^^^ rotl32 x 15 ^^^ rotl32 x 23

/-- The registers of SM3. -/
structure Sm3Regs where
  a : Nat
  b : Nat
  c : Nat
  d : Nat
  e : Nat
  f : Nat
  g : Nat
  h : Nat
  deriving DecidableEq, Repr

/-- SM3's initial value. -/
def sm3Init : Sm3Regs :=
  ⟨0x7380166F, 0x4914B2B9, 0x172442D7, 0xDA8A0600, 0xA96F30BC, 0x163138AA, 0xE38DEE4D, 0xB0FB0E4E⟩

/-- SM3's message expansion: the 68 words, newest first. -/
def sm3Expand : Nat → List Nat → List Nat
  | 0, w => w
  | n + 1, w =>
    let at' := fun i => wordAt w i
    let x := sm3P1 (at' 15 ^^^ at' 8 ^^^ rotl32 (at' 2) 15) ^^^ rotl32 (at' 12) 7 ^^^ at' 5
    sm3Expand n (x :: w)

/-- One round of SM3 with its number, message word and derived word. -/
def sm3Round (r : Sm3Regs) (j w w' : Nat) : Sm3Regs :=
  let t := if j < 16 then 0x79CC4519 else 0x7A879D8A
  let ss1 := rotl32 ((rotl32 r.a 12 + r.e + rotl32 t j) % 2 ^ 32) 7
  let ss2 := ss1 ^^^ rotl32 r.a 12
  let ff := if j < 16 then r.a ^^^ r.b ^^^ r.c else (r.a &&& r.b) ||| (r.a &&& r.c) ||| (r.b &&& r.c)
  let gg := if j < 16 then r.e ^^^ r.f ^^^ r.g else (r.e &&& r.f) ||| (not32 r.e &&& r.g)
  let tt1 := (ff + r.d + ss2 + w') % 2 ^ 32
  let tt2 := (gg + r.h + ss1 + w) % 2 ^ 32
  ⟨tt1, r.a, rotl32 r.b 9, r.c, sm3P0 tt2, r.e, rotl32 r.f 19, r.g⟩

/-- SM3's compression of one 64-byte block. -/
def sm3Block (v : Sm3Regs) (block : List Byte) : Sm3Regs :=
  let w0 := (List.range 16).map (fun i => beNat ((block.drop (4 * i)).take 4))
  let ws := (sm3Expand 52 w0.reverse).reverse
  let r := (List.range 64).foldl (fun r j => sm3Round r j (wordAt ws j) (wordAt ws j ^^^ wordAt ws (j + 4))) v
  ⟨r.a ^^^ v.a, r.b ^^^ v.b, r.c ^^^ v.c, r.d ^^^ v.d, r.e ^^^ v.e, r.f ^^^ v.f, r.g ^^^ v.g, r.h ^^^ v.h⟩

/-- Split a list into whole blocks of `k` bytes. -/
def blocksOf (k : Nat) : Nat → List Byte → List (List Byte)
  | 0, _ => []
  | n + 1, bs => bs.take k :: blocksOf k n (bs.drop k)

/-- The SM3 digest of a message, 32 bytes. -/
def sm3 (m : List Byte) : List Byte :=
  let zeros := (119 - m.length % 64) % 64
  let padded := m ++ [0x80#8] ++ List.replicate zeros 0#8 ++ beBytes 8 (8 * m.length)
  let r := (blocksOf 64 (padded.length / 64) padded).foldl sm3Block sm3Init
  [r.a, r.b, r.c, r.d, r.e, r.f, r.g, r.h].flatMap (beBytes 4)

/-- XOR two byte strings of one length. -/
def xorBytes (a b : List Byte) : List Byte := List.zipWith (· ^^^ ·) a b

/-- HMAC over SM3 (R580). -/
def hmacSm3 (key msg : List Byte) : List Byte :=
  let k0 := if key.length ≤ 64 then key else sm3 key
  let k := k0 ++ List.replicate (64 - k0.length) 0#8
  sm3 (k.map (· ^^^ 0x5C#8) ++ sm3 (k.map (· ^^^ 0x36#8) ++ msg))

/-- The bytes of an ASCII label. -/
def asciiBytes (s : String) : List Byte := s.toList.map (fun c => BitVec.ofNat 8 c.toNat)

/-- The SM4 S-box, entry 0 in the most significant byte. -/
def sm4SboxTable : Nat :=
  0xD690E9FECCE13DB716B614C228FB2C052B679A762ABE04C3AA441326498606999C4250F491EF987A33540B43EDCFAC62E4B31CA9C908E89580DF94FA758F3FA64707A7FCF37317BA83593C19E6854FA8686B81B27164DA8BF8EB0F4B70569D351E240E5E6358D1A225227C3B01217887D40046579FD327524C3602E7A0C4C89EEABF8AD240C738B5A3F7F2CEF96115A1E0AE5DA49B341A55AD933230F58CB1E31DF6E22E8266CA60C02923AB0D534E6FD5DB3745DEFD8E2F03FF6A726D6C5B518D1BAF92BBDDBC7F11D95C411F105AD80AC13188A5CD7BBD2D74D012B8E5B4B08969974A0C96777E65B9F109C56EC68418F07DEC3ADC4D2079EE5F3ED7CB3948

/-- The SM4 S-box. -/
def sm4Sbox (x : Nat) : Nat := (sm4SboxTable >>> (8 * (255 - x % 256))) % 256

/-- The S-box on each byte of a word. -/
def sm4Tau (x : Nat) : Nat :=
  sm4Sbox (x >>> 24) * 2 ^ 24 + sm4Sbox (x >>> 16) * 2 ^ 16 + sm4Sbox (x >>> 8) * 2 ^ 8 + sm4Sbox x

/-- The linear step of encryption. -/
def sm4L (b : Nat) : Nat := b ^^^ rotl32 b 2 ^^^ rotl32 b 10 ^^^ rotl32 b 18 ^^^ rotl32 b 24
/-- The linear step of the key schedule. -/
def sm4L' (b : Nat) : Nat := b ^^^ rotl32 b 13 ^^^ rotl32 b 23

/-- Constant CK of a round of the key schedule: bytes 7 × (4i + j) mod 256. -/
def sm4Ck (i : Nat) : Nat :=
  (List.range 4).foldl (fun a j => a * 256 + (4 * i + j) * 7 % 256) 0

/-- The 32 round keys of a 16-byte key. -/
def sm4Keys (key : List Byte) : List Nat :=
  let fk := [0xA3B1BAC6, 0x56AA3350, 0x677D9197, 0xB27022DC]
  let k := (List.range 4).map (fun i => beNat ((key.drop (4 * i)).take 4) ^^^ wordAt fk i)
  let step := fun (st : List Nat × List Nat) (i : Nat) =>
    let w := st.1
    let x := wordAt w 0 ^^^ sm4L' (sm4Tau (wordAt w 1 ^^^ wordAt w 2 ^^^ wordAt w 3 ^^^ sm4Ck i))
    (w.drop 1 ++ [x], st.2 ++ [x])
  ((List.range 32).foldl step (k, [])).2

/-- SM4 on one 16-byte block with a list of round keys. -/
def sm4Run (rks : List Nat) (block : List Byte) : List Byte :=
  let x := (List.range 4).map (fun i => beNat ((block.drop (4 * i)).take 4))
  let step := fun (w : List Nat) (rk : Nat) =>
    w.drop 1 ++ [wordAt w 0 ^^^ sm4L (sm4Tau (wordAt w 1 ^^^ wordAt w 2 ^^^ wordAt w 3 ^^^ rk))]
  (rks.foldl step x).reverse.flatMap (beBytes 4)

/-- SM4 encryption of one block. -/
def sm4Enc (key block : List Byte) : List Byte := sm4Run (sm4Keys key) block
/-- SM4 decryption of one block. -/
def sm4Dec (key block : List Byte) : List Byte := sm4Run (sm4Keys key).reverse block

/-- Multiplication by α in the XTS field: bytes little-endian, polynomial x^128 + x^7 + x^2 + x + 1. -/
def xtsDouble (t : List Byte) : List Byte :=
  let v := leNat t * 2
  leBytes 16 (if 2 ^ 128 ≤ v then (v - 2 ^ 128) ^^^ 0x87 else v)

/-- The tweaks of `n` blocks. -/
def xtsTweaks : Nat → List Byte → List (List Byte)
  | 0, _ => []
  | n + 1, t => t :: xtsTweaks n (xtsDouble t)

/-- SM4-XTS: data key, tweak key, the 16-byte tweak block, and the data (R594, R603); a tail below 16 bytes is handled by stealing
ciphertext from the block before it. -/
def sm4Xts (enc : Bool) (dataKey tweakKey tweak data : List Byte) : List Byte :=
  let n := data.length / 16
  let r := data.length % 16
  let rks := if enc then sm4Keys dataKey else (sm4Keys dataKey).reverse
  let ts := xtsTweaks (n + 1) (sm4Enc tweakKey tweak)
  let one := fun i b => xorBytes (sm4Run rks (xorBytes b (ts.getD i []))) (ts.getD i [])
  let whole := if r = 0 then n else n - 1
  let head := (List.range whole).flatMap fun i => one i ((data.drop (16 * i)).take 16)
  if r = 0 then head
  else
    let x := one (if enc then n - 1 else n) ((data.drop (16 * (n - 1))).take 16)
    let y := one (if enc then n else n - 1) ((data.drop (16 * n)).take r ++ x.drop r)
    head ++ y ++ x.take r

/-- Multiplication in the GCM field, most significant bit first. -/
def gcmMul (x y : Nat) : Nat :=
  ((List.range 128).foldl (fun (st : Nat × Nat) i =>
    let z := if x.testBit (127 - i) then st.1 ^^^ st.2 else st.1
    let v := if st.2 % 2 = 1 then (st.2 / 2) ^^^ (0xE1 * 2 ^ 120) else st.2 / 2
    (z, v)) (0, y)).1

/-- Bytes padded with zeros to whole 16-byte blocks. -/
def pad16 (bs : List Byte) : List Byte := bs ++ List.replicate ((16 - bs.length % 16) % 16) 0#8

/-- GHASH over padded data. -/
def ghash (h : Nat) (data : List Byte) : Nat :=
  (blocksOf 16 (data.length / 16) data).foldl (fun y b => gcmMul (y ^^^ beNat b) h) 0

/-- The key stream of `n` blocks from a counter value under a 12-byte nonce. -/
def gcmStream (key nonce : List Byte) (n : Nat) : List Byte :=
  (List.range n).flatMap (fun i => sm4Enc key (nonce ++ beBytes 4 (i + 2)))

/-- SM4-GCM encryption or decryption: the transformed text. -/
def gcmCrypt (key nonce text : List Byte) : List Byte :=
  xorBytes text ((gcmStream key nonce (ceilDiv text.length 16)).take text.length)

/-- The SM4-GCM tag over additional data and ciphertext. -/
def gcmTag (key nonce aad cipher : List Byte) : List Byte :=
  let h := beNat (sm4Enc key (List.replicate 16 0#8))
  let s := ghash h (pad16 aad ++ pad16 cipher ++ beBytes 8 (8 * aad.length) ++ beBytes 8 (8 * cipher.length))
  xorBytes (beBytes 16 s) (sm4Enc key (nonce ++ beBytes 4 1))

/-- The SM2 prime. -/
def sm2P : Nat := 0xFFFFFFFEFFFFFFFFFFFFFFFFFFFFFFFFFFFFFFFF00000000FFFFFFFFFFFFFFFF
/-- The SM2 coefficient b; a is p − 3. -/
def sm2B : Nat := 0x28E9FA9E9D9F5E344D5A9E4BCF6509A7F39789F515AB8F92DDBCBD414D940E93
/-- The order of the SM2 base point. -/
def sm2N : Nat := 0xFFFFFFFEFFFFFFFFFFFFFFFFFFFFFFFF7203DF6B21C6052B53BBF40939D54123
/-- The SM2 base point. -/
def sm2G : Nat × Nat :=
  (0x32C4AE2C1F1981195F9904466A39C9948FE30BBFF2660BE1715A4589334C74C7,
   0xBC3736A2F4F6779C59BDCEE36B692153D0A9877CC62A474002DF32E52139F0A0)

/-- Modular exponentiation over the 256 bits of an exponent. -/
def powMod (m b e : Nat) : Nat :=
  (List.range 256).foldl (fun r i => let q := r * r % m; if e.testBit (255 - i) then q * b % m else q) 1

/-- Inverse modulo the SM2 prime. -/
def sm2Inv (x : Nat) : Nat := powMod sm2P x (sm2P - 2)

/-- Point addition on the SM2 curve; none is the point at infinity. -/
def sm2Add (p q : Option (Nat × Nat)) : Option (Nat × Nat) :=
  match p, q with
  | none, q => q
  | p, none => p
  | some (x1, y1), some (x2, y2) =>
    if x1 = x2 ∧ (y1 + y2) % sm2P = 0 then none
    else
      let l := if x1 = x2 then (3 * x1 * x1 + (sm2P - 3)) * sm2Inv (2 * y1 % sm2P) % sm2P
        else (y2 + sm2P - y1) * sm2Inv ((x2 + sm2P - x1) % sm2P) % sm2P
      let x3 := (l * l + 2 * sm2P - x1 - x2) % sm2P
      some (x3, (l * (x1 + sm2P - x3) + sm2P - y1) % sm2P)

/-- Scalar multiplication on the SM2 curve. -/
def sm2Mul (k : Nat) (p : Nat × Nat) : Option (Nat × Nat) :=
  (List.range 256).foldl (fun r i => let d := sm2Add r r; if k.testBit (255 - i) then sm2Add d (some p) else d) none

/-- The point lies on the SM2 curve. -/
def sm2OnCurve (p : Nat × Nat) : Bool :=
  decide (p.1 < sm2P) && decide (p.2 < sm2P) &&
    decide (p.2 * p.2 % sm2P = (p.1 * p.1 * p.1 + (sm2P - 3) * p.1 + sm2B) % sm2P)

/-- The default user identity of GB/T 32918. -/
def sm2UserId : List Byte := asciiBytes "1234567812345678"

/-- The identity digest Z of a public key under the default identity. -/
def sm2Z (pub : Nat × Nat) : List Byte :=
  sm3 (beBytes 2 (8 * 16) ++ sm2UserId ++ [sm2P - 3, sm2B, sm2G.1, sm2G.2, pub.1, pub.2].flatMap (beBytes 32))

/-- SM2 signature verification under GB/T 32918.2 (R577). -/
def sm2Verify (pub : Nat × Nat) (msg : List Byte) (r s : Nat) : Bool :=
  let e := beNat (sm3 (sm2Z pub ++ msg))
  let t := (r + s) % sm2N
  if r = 0 ∨ sm2N ≤ r ∨ s = 0 ∨ sm2N ≤ s ∨ t = 0 ∨ !sm2OnCurve pub then false
  else match sm2Add (sm2Mul s sm2G) (sm2Mul t pub) with
    | none => false
    | some (x, _) => decide ((e + x) % sm2N = r)

/-- The public key of a private key. -/
def sm2Public (d : Nat) : Nat × Nat := (sm2Mul d sm2G).getD (0, 0)

/-- An SM2 signature with nonce `k`: r and s; r = 0 where the nonce does not serve. -/
def sm2Sign (d k : Nat) (msg : List Byte) : Nat × Nat :=
  let e := beNat (sm3 (sm2Z (sm2Public d) ++ msg))
  let x := ((sm2Mul k sm2G).getD (0, 0)).1
  let r := (e + x) % sm2N
  (r, powMod sm2N (1 + d) (sm2N - 2) * ((k + sm2N * sm2N - r * d) % sm2N) % sm2N)

/-- The private key that a 32-byte seed gives (R580). -/
def sm2Private (seed : List Byte) : Nat := beNat seed % (sm2N - 1) + 1

/-- One byte enters the CRC of R618, most significant bit first. -/
def crc16Byte (crc : Nat) (b : Byte) : Nat :=
  (List.range 8).foldl (fun c _ => if c.testBit 15 then ((c * 2) % 2 ^ 16) ^^^ 0x8BB7 else c * 2) (crc ^^^ (b.toNat * 256))

/-- The CRC of R618: polynomial 0x8BB7, initial value 0, no reflection, no final XOR. -/
def crc16 (bs : List Byte) : Nat := bs.foldl crc16Byte 0

/-- The check bits of a granule: the complement of its CRC (R618). -/
def checkOf (granule : List Byte) : Nat := 0xFFFF ^^^ crc16 granule

/-- One byte enters the reflected CRC-32C. -/
def crc32cByte (crc : Nat) (b : Byte) : Nat :=
  (List.range 8).foldl (fun c _ => if c % 2 = 1 then (c / 2) ^^^ 0x82F63B78 else c / 2) (crc ^^^ b.toNat)

/-- CRC-32C: polynomial 0x1EDC6F41, reflected, initial value and final XOR all ones (R377). -/
def crc32c (bs : List Byte) : Nat := bs.foldl crc32cByte 0xFFFFFFFF ^^^ 0xFFFFFFFF

end Sys2Proof.Machine
end

