-- ==== Sys2Proof/Machine/PailMap.lean ====
section
/-! DEFINITION. Rows of a far stack (R245, R249) and the geometry of pails and yokes (R265 to R269). -/

namespace Sys2Proof.Machine

/-- The row in which a grain of a far stack lies (R206). -/
def rowOf (loc : FarLoc) : RowId :=
  let f := farFields loc.l
  ⟨loc.site, f.pc, f.sid, f.bg, f.bank, f.row⟩

/-- The grain of a row at a column (R249). -/
def rowGrain (r : RowId) (col : Nat) : FarLoc :=
  ⟨r.site, r.row * 2 ^ 14 + ((r.sid ^^^ (r.row / 16)) % 4) * 2 ^ 12 + ((r.bank ^^^ (r.row / 4)) % 4) * 2 ^ 10 +
    ((r.bg ^^^ r.row) % 4) * 2 ^ 8 + col * 2 ^ 6 + (r.pc ^^^ r.row ^^^ (r.row / 64) ^^^ (r.row / 4096)) % 64⟩

/-- Bytes of an element of a pail's format (R265): FP8 codes 1 and 2, BF16 and FP16 codes 0xB and 0xC. -/
def pailElemBytes (fmt : Nat) : Nat := if fmt = 0xB ∨ fmt = 0xC then 2 else 1

/-- Bytes of a key line (R265). -/
def keyLineBytes (hdim fmt : Nat) : Nat := hdim * pailElemBytes fmt

/-- Tokens of a pail (R265). -/
def pailTokens (hdim fmt : Nat) : Nat := 16384 / (2 * keyLineBytes hdim fmt)

/-- Pails per head that cover one 64-token block (R265). -/
def pailsPerBlock (hdim fmt : Nat) : Nat := if 64 ≤ pailTokens hdim fmt then 1 else 64 / pailTokens hdim fmt

/-- Pails of a yoke (R268). -/
def yokePails (t : Tree) : Nat := t.layers * t.heads * pailsPerBlock t.hdim t.fmt

/-- The yoke stride (R269). -/
def yokeStride (v : Variant) (t : Tree) : Nat := roundUp (yokePails t) (64 * sitesPerStack v)

/-- Pail slots of a pool set (R269). -/
def setSlots (v : Variant) : Nat := 65536 * sitesPerStack v

/-- The first row of the run of a pail slot (R269) of the manager on die `d`. -/
def slotRow (v : Variant) (d : Nat) (pool : List Nat) (z : Nat) : RowId :=
  let w := sitesPerStack v
  let b := z / 64 / w % 64
  let run := z / 64 / w / 64 % 16
  ⟨3 * d + z / 64 % w, z % 64, b / 16, b / 4 % 4, b % 4, wordAt pool (z / 64 / w / 64 / 16) * 256 + run * 16⟩

/-- The first row of pail `j` of a yoke (R269). -/
def pailRow (v : Variant) (d : Nat) (t : Tree) (yoke j : Nat) : RowId := slotRow v d t.pool (yoke * yokeStride v t + j)

/-- The grain that holds byte `p` of a pail whose run starts at `r` (R267). -/
def pailGrain (r : RowId) (p : Nat) : FarLoc := rowGrain { r with row := r.row + p / 1024 } (p / 256 % 4)

/-- The yoke of a tree in which a grain lies (R269, R645). -/
def yokeAt (v : Variant) (d : Nat) (t : Tree) (loc : FarLoc) : Option Nat :=
  let w := sitesPerStack v
  let r := rowOf loc
  match t.pool.findIdx? (· == loc.l / 2 ^ 22) with
  | none => none
  | some idx =>
    let z := (((idx * 16 + r.row / 16 % 16) * 64 + (r.sid * 16 + r.bg * 4 + r.bank)) * w + loc.site % 3) * 64 + r.pc
    let y := z / yokeStride v t
    if loc.site / 3 = d ∧ y < t.yokes then some y else none

/-- The tree of which a set is a pool set, on any pail manager (R623): die, tree number and tree. -/
def State.poolTree (s : State) (n : Nat) : Option (Nat × Nat × Tree) :=
  (List.range 4).findSome? fun d => (s.pail d).trees.findSome? fun e => if e.2.pool.contains n then some (d, e.1, e.2) else none

/-- The pail that holds a token of a block, and the token's index within it (R268): HALF counts where T is 128. -/
def tokenPail (t : Tree) (layer head half tok : Nat) : Nat × Nat :=
  let n := pailTokens t.hdim t.fmt
  let p := pailsPerBlock t.hdim t.fmt
  if n = 128 then ((layer * t.heads + head) * p, half * 64 + tok)
  else if n = 64 then ((layer * t.heads + head) * p, tok)
  else ((layer * t.heads + head) * p + tok / n, tok % n)

end Sys2Proof.Machine
end

