-- ==== Sys2Proof/Machine/Paths.lean ====
section
/-! DEFINITION. The ends of the die-to-die links and the paths between dies (R27, R30, R393). -/

namespace Sys2Proof.Machine

/-! ### Ends and modules (R376, R386, R404, R405) -/

/-- The end of a module. -/
def State.module (s : State) (d e m : Nat) : ModuleSt := smGet ModuleSt.init s.modules ((d * 4 + e) * 32 + m)
/-- Replace the end of a module. -/
def State.setModule (s : State) (d e m : Nat) (v : ModuleSt) : State := { s with modules := smPut s.modules ((d * 4 + e) * 32 + m) v }
/-- The end of an edge. -/
def State.edge (s : State) (d e : Nat) : EdgeSt := smGet (EdgeSt.init (edgeModules s.variant d e)) s.edges (d * 4 + e)
/-- Replace the end of an edge. -/
def State.setEdge (s : State) (d e : Nat) (v : EdgeSt) : State := { s with edges := smPut s.edges (d * 4 + e) v }

/-- The other end of an edge. -/
def otherEnd (v : Variant) (d e : Nat) : Option (Nat × Nat) := (edgePeer v d e).bind fun p => (edgeTo v p d).map fun f => (p, f)

/-- STATE of an end of an edge (R404). -/
def State.edgeState (s : State) (d e : Nat) : Nat := s.fget (.d2dEdgeStatus d e) D2D_EDGE_STATUS_STATE

/-- An edge carries traffic: it is up, and so are the dies at both ends. -/
def State.edgeUp (s : State) (d e : Nat) : Bool :=
  decide (s.edgeState d e = 1) && s.dieUp d && (match edgePeer s.variant d e with | some p => s.dieUp p | none => false)

/-- WIDTH of a module (R405). -/
def State.moduleWidth (s : State) (d e m : Nat) : Nat := s.fget (.d2dModule d e m) D2D_MODULE_WIDTH

/-- A module that is in use (R386, R391). -/
def State.moduleActive (s : State) (d e m : Nat) : Bool := decide (m < edgeModules s.variant d e) && decide (s.moduleWidth d e m < 2)

/-- STATE of the surviving ends of the edges to a die. -/
def State.reports (s : State) (d : Nat) : List Nat :=
  (dieEdges s.variant d).filterMap fun e =>
    match otherEnd s.variant d e with
    | some (p, g) => if s.dieUp p then some (s.edgeState p g) else none
    | none => none

/-- A die has announced its end (R397, R398). -/
def State.goodbyed (s : State) (d : Nat) : Bool := (s.reports d).contains 4

/-! ### Paths (R30, R393) -/

/-- The paths between two compute stacks, in the order of preference: the dies after the first. -/
def stackPaths (a b : Nat) : List (List Nat) :=
  if a = b then [[]]
  else if b = a ^^^ 3 then [[a ^^^ 1, b], [a ^^^ 2, b]]
  else if b = a ^^^ 1 then [[b], [a ^^^ 2, a ^^^ 3, b]]
  else [[b], [a ^^^ 1, a ^^^ 3, b]]

/-- The stacks at which an I/O die is entered on the way to or from a stack: the nearer first, the lower where both are equal. -/
def entries (v : Variant) (io a : Nat) : List Nat :=
  let l := (List.range 4).filter fun t => (edgeTo v io t).isSome
  (List.range 3).flatMap fun k => l.filter fun t => decide (popcount 2 (t ^^^ a) = k)

/-- The paths from one die to another, in the order of preference. -/
def diePaths (v : Variant) (a b : Nat) : List (List Nat) :=
  if a < 4 then
    if b < 4 then stackPaths a b else (entries v b a).flatMap fun t => (stackPaths a t).map (· ++ [b])
  else if b < 4 then (entries v a b).flatMap fun t => (stackPaths t b).map (t :: ·)
  else (entries v a (ioStacks (b - 4)).1).flatMap fun t => (entries v b t).flatMap fun u => (stackPaths t u).map fun p => t :: p ++ [b]

/-- Every hop of a path is up. -/
def State.pathOk (s : State) : Nat → List Nat → Bool
  | _, [] => true
  | d, p :: ps => (match edgeTo s.variant d p with | some e => s.edgeUp d e | none => false) && s.pathOk p ps

/-- The edge on which a die sends a packet for another. -/
def State.firstHop (s : State) (d dst : Nat) : Option Nat :=
  ((diePaths s.variant d dst).find? (s.pathOk d)).bind fun p => p.head?.bind (edgeTo s.variant d)

/-- The die from which a requester's accesses leave (R27): none for engines that work where the memory is. -/
def Requester.die : Requester → Option Nat
  | .core c => some (c / 64)
  | .tutor c => some (c / 64)
  | .host _ => some 4
  | .registrar => some 4
  | .pail d => some d
  | .ladle f => some (f / 3)
  | .fabric d => some (4 + d)
  | .scrub => none
  | .writeback => none

/-- A die reaches another, or itself: a path of edges that are up leads there (R27, R30, R393). -/
def State.diesLinked (s : State) (a b : Nat) : Bool := decide (a = b) || (diePaths s.variant a b).any (s.pathOk a)

/-- A requester's accesses reach a die (R27, R30, R393). -/
def State.linked (s : State) (rq : Requester) (dst : Nat) : Bool :=
  match rq.die with
  | none => true
  | some d => s.diesLinked d dst

end Sys2Proof.Machine
end

