-- ==== Sys2Proof/Machine/Access.lean ====
section
/-! DEFINITION. Accesses to memory: code words and their checks (R618 to R634), slices and desks, far memory through the shared
cache (R211 to R222), homeroom translation (R588) and the host-memory window (R598). -/

namespace Sys2Proof.Machine

/-- The outcome of a memory access. -/
abbrev Res (α : Type) := Except AccErr α

/-- Parts of a byte range that lie in one 256-byte grain each, in rising order. -/
def pieces (a n : Nat) : List (Nat × Nat) :=
  if n = 0 then [] else
    (List.range ((a + n + 255) / 256 - a / 256)).map fun i =>
      (max a ((a / 256 + i) * 256), min (a + n) ((a / 256 + i + 1) * 256) - max a ((a / 256 + i) * 256))

/-- The granules that a byte range touches (R618). -/
def granules (a n : Nat) : List Nat := if n = 0 then [] else rangeFrom (a / 16) ((a + n - 1) / 16 + 1 - a / 16)

/-- The granules of a byte range of which only a part is covered (R177, R632). -/
def partGranules (a n : Nat) : List Nat := (granules a n).filter fun g => decide (16 * g < a) || decide (a + n < 16 * g + 16)

/-- The granules that lie whole in a byte range (R378). -/
def wholeGranules (a n : Nat) : List Nat := (granules a n).filter fun g => decide (a ≤ 16 * g) && decide (16 * g + 16 ≤ a + n)

/-- Replace bytes of a list from a position. -/
def spliceBytes (l : List Byte) (off : Nat) (bs : List Byte) : List Byte := l.take off ++ bs ++ l.drop (off + bs.length)

/-! ### The flip mask -/

/-- Whether the armed flip mask takes the next write of a granule (R641): the memory, its unit and, under MATCH, the granule;
a SEALED homeroom's memory is never flipped (R642). -/
def State.flipHits (s : State) (mem unit hr addr : Nat) : Bool :=
  decide (s.fget .relFlipSel REL_FLIP_SEL_ARM = 1) && decide (s.fget .relFlipSel REL_FLIP_SEL_MEM = mem) &&
  decide (s.fget .relFlipSel REL_FLIP_SEL_UNIT = unit) &&
  (decide (s.fget .relFlipSel REL_FLIP_SEL_MATCH = 0) || decide (s.fget .relFlipAddr REL_FLIP_ADDR_GRANULE = addr / 16)) &&
  decide (s.hrState hr ≠ 2)

/-- The data bits of the flip mask (R641, R654). -/
def State.flipData (s : State) : List Byte :=
  leBytes 8 (s.get .relFlipMask0).toNat ++ leBytes 8 (s.get .relFlipMask1).toNat

/-- The difference that the flip mask leaves between the check bits stored and the valid ones (R618, R641). -/
def State.flipDiff (s : State) : Nat := crc16 s.flipData ^^^ s.fget .relFlipMask2 REL_FLIP_MASK2_CHECK

/-- A granule on its way into a memory with valid check bits (R641): the state, the bytes stored, and the difference of their
check bits from the valid ones. -/
def State.flip (s : State) (mem unit hr addr : Nat) (data : List Byte) : State × List Byte × Nat :=
  if s.flipHits mem unit hr addr then (s.fput .relFlipSel REL_FLIP_SEL_ARM 0, xorBytes data s.flipData, s.flipDiff)
  else (s, data, 0)

/-! ### Failures -/

/-- The class of a far-memory set (R623): 0 plain, 1 mirrored, 2 mirror copy, 3 recomputable. -/
def State.setClass (s : State) (n : Nat) : Nat :=
  if (s.mirrorSource n).isSome then 2 else if (s.mirrorOf n).isSome then 1 else if (s.poolTree n).isSome then 3 else 0

/-- An unrecoverable failure (R629, R645, R646). -/
def State.unrecovered (s : State) (e : RelEntry) : State :=
  (((s.fadd .relStatus REL_STATUS_UNREC_COUNT 1).fput .relStatus REL_STATUS_UNRECOVERED 1).relAdd e).relEvent

/-- A failure that was repaired (R629, R645, R646). -/
def State.repaired (s : State) (e : RelEntry) : State :=
  let t := (s.fadd .relStatus REL_STATUS_REPAIRS 1).relAdd e
  if s.fget .relCtl REL_CTL_REPAIR_EV = 1 then t.relEvent else t

/-- A granule of a core's desk or slice failed without recovery (R643): at the limit the core is fenced. -/
def State.coreFail (s : State) (c : Nat) : State :=
  let n := (s.core c).failCount + 1
  let t := s.modCore c fun k => { k with failCount := n }
  if s.fget .relCtl REL_CTL_CORE_LIMIT ≤ n then t.beginFence c 0x06 else t

/-! ### Slices and desks -/

/-- The two memories of a core. -/
inductive NearMem
  | slice | desk
  deriving DecidableEq, Repr

/-- Bytes of a core's memory. -/
def State.nearBytes (s : State) (m : NearMem) (c off n : Nat) : List Byte :=
  match m with
  | .slice => memRead s.slice (sliceKey c off) n
  | .desk => memRead s.desk (deskKey c off) n

/-- The difference of a granule's check bits from the valid ones. -/
def State.nearDiff (s : State) (m : NearMem) (c g : Nat) : Nat :=
  match m with
  | .slice => smGet 0 s.sliceChk (sliceKey c (16 * g) / 16)
  | .desk => smGet 0 s.deskChk (deskKey c (16 * g) / 16)

/-- Store a granule whole. -/
def State.nearPut (s : State) (m : NearMem) (c g : Nat) (data : List Byte) (diff : Nat) : State :=
  match m with
  | .slice =>
    { s with slice := memWrite s.slice (sliceKey c (16 * g)) data, sliceChk := smSet 0 s.sliceChk (sliceKey c (16 * g) / 16) diff }
  | .desk =>
    { s with desk := memWrite s.desk (deskKey c (16 * g)) data, deskChk := smSet 0 s.deskChk (deskKey c (16 * g) / 16) diff }

/-- MEM code and device address of a granule of a core's memory (R651). -/
def nearPlace (m : NearMem) (c g : Nat) : Nat × Nat :=
  match m with
  | .slice => (1, sliceBase + c * 0x20000000 + 16 * g)
  | .desk => (2, deskBase + c * 0x1000000 + 16 * g)

/-- A granule of a core's memory fails its second read (R188, R632, R643): it is logged, a slice records it in `NEAR_ERR`, and the
core counts it. -/
def State.nearFail (s : State) (rq : Requester) (m : NearMem) (c g : Nat) : State :=
  let s := s.unrecovered ⟨(nearPlace m c g).2, (nearPlace m c g).1, 0, 2, c, requesterCode rq, none⟩
  let s := match m with
    | .slice =>
      ((s.fput (.nearErr c) NEAR_ERR_OFFSET (16 * g)).fput (.nearErr c) NEAR_ERR_VALID 1).fadd (.nearErr c) NEAR_ERR_FAILED 1
    | .desk => s
  s.coreFail c

/-- The key in `slips` of a granule of a core's memory. -/
def nearSlip (m : NearMem) (c g : Nat) : Nat :=
  match m with
  | .slice => 4 * (sliceKey c (16 * g) / 16)
  | .desk => 4 * (deskKey c (16 * g) / 16) + 1

/-- The key in `slips` of granule `g` of a grain of far memory. -/
def farSlip (loc : FarLoc) (g : Nat) : Nat := 4 * (farKey loc / 16 + g) + 2

/-- The reads of a granule that `slips` fails come about. -/
def State.takeSlip (s : State) (k : Nat) : State := { s with slips := (s.slips.erase k).erase k }

/-- Test granules of a core's memory before their use (R188, R632): a granule in `transient`, or once in `slips`, fails its first read
alone. -/
def State.nearTest (rq : Requester) (m : NearMem) (c : Nat) (transient : Nat) : State → List Nat → State × Bool
  | s, [] => (s, true)
  | s, g :: gs =>
    if s.nearDiff m c g ≠ 0 ∨ 2 ≤ s.slips.count (nearSlip m c g) then
      (((s.takeSlip (nearSlip m c g)).nearFail rq m c g).nearTest rq m c transient gs).map id fun _ => false
    else if transient.testBit (g % 16) || s.slips.contains (nearSlip m c g) then
      match m with
      | .slice => ((s.takeSlip (nearSlip m c g)).fadd (.nearErr c) NEAR_ERR_RETRIED 1).nearTest rq m c transient gs
      | .desk => (s.takeSlip (nearSlip m c g)).nearTest rq m c transient gs
    else s.nearTest rq m c transient gs

/-- Issue `n` refresh commands of a bank (channel × 16 + bank): each refreshes the next of the bank's 768 rows (R180, R181). -/
def SliceSt.refresh (p : SliceSt) (bank n : Nat) : SliceSt :=
  { p with owed := smPut p.owed bank 0, rowPtr := smPut p.rowPtr bank ((smGet 0 p.rowPtr bank + n) % 768) }

/-- A request reaches a bank (R180, R193): its channel leaves power-down, and where eight refreshes are owed they are issued first. -/
def State.touchBank (s : State) (c grain : Nat) : State :=
  let l := sliceLoc (256 * grain)
  let p := s.near c
  let p := { p with poweredDown := p.poweredDown &&& (2 ^ 16 - 1 - 2 ^ l.channel) }
  let k := l.channel * 16 + l.bank
  s.setNear c (if 8 ≤ smGet 0 p.owed k then p.refresh k 8 else p)

/-- An access reaches a core's memory: in a slice, each grain's bank (R175, R180, R193). -/
def State.nearReach (s : State) (m : NearMem) (c off n : Nat) : State :=
  match m with
  | .slice => (pieces off n).foldl (fun s p => s.touchBank c (p.1 / 256)) s
  | .desk => s

/-- Read a core's memory (R188, R632). -/
def State.nearRead (s : State) (rq : Requester) (m : NearMem) (c off n transient : Nat) : State × Res (List Byte) :=
  match (s.nearReach m c off n).nearTest rq m c transient (granules off n) with
  | (t, true) => (t, .ok (s.nearBytes m c off n))
  | (t, false) => (t, .error .check)

/-- Store whole granules one after another, each through the flip mask (R641). -/
def State.nearStore (m : NearMem) (c : Nat) (hr : Nat) : State → Nat → List (List Byte) → State
  | s, _, [] => s
  | s, g, d :: ds =>
    let (t, b, x) := s.flip (nearPlace m c g).1 c hr (nearPlace m c g).2 d
    (t.nearPut m c g b x).nearStore m c hr (g + 1) ds

/-- A write of a desk ends the tutors' reservations of the bytes it covers (R165). -/
def State.dropResv (s : State) (m : NearMem) (c off n : Nat) : State :=
  let hit := fun (r : Option Nat) => match r with
    | some k => decide (m = .desk) && decide (k < deskKey c off + n) && decide (deskKey c off < k + 8)
    | none => false
  if s.cores.any fun e => hit e.2.tutor.resv then
    { s with cores := s.cores.map fun e => if hit e.2.tutor.resv then (e.1, { e.2 with tutor := { e.2.tutor with resv := none } }) else e }
  else s

/-- Write a core's memory (R177, R632): a granule that is covered in part is read and tested first, and where one fails nothing
of the write is performed. -/
def State.nearWrite (s : State) (rq : Requester) (m : NearMem) (c off : Nat) (bs : List Byte) : State × Res Unit :=
  match (s.nearReach m c off bs.length).nearTest rq m c 0 (partGranules off bs.length) with
  | (t, false) => (t, .error .check)
  | (t, true) =>
    let g0 := off / 16
    let n := (granules off bs.length).length
    let old := s.nearBytes m c (16 * g0) (16 * n)
    ((t.nearStore m c (s.coreHr c) g0 (blocksOf 16 n (spliceBytes old (off % 16) bs))).dropResv m c off bs.length, .ok ())

/-- An access waits at a frozen arbiter of a core's memory (R54, R125, R342). -/
def State.nearHeld (s : State) (m : NearMem) (c off n : Nat) : Bool :=
  match m with
  | .slice => s.arbFrozen (c / 64) (slicePort c)
  | .desk => (deskBanks c off n).any (s.arbFrozen (c / 64))

/-- Bytes of a core's memory. -/
def NearMem.size : NearMem → Nat
  | .slice => sliceBytes
  | .desk => deskBytes

/-- Why a requester's access to a core's memory cannot be made (R21, R27, R342, R393). -/
def State.nearErrOf (s : State) (rq : Requester) (m : NearMem) (c off n : Nat) : Option AccErr :=
  if !s.coreUsable c ∨ m.size < off + n then some .unbacked
  else if !s.linked rq (c / 64) then some .dieLost
  else if s.nearHeld m c off n then some (.held (.near c)) else none

/-! ### Far memory: stored grains -/

/-- Scope of a set (R205): true for package-wide. -/
def State.wide (s : State) (n : Nat) : Bool := bitAt (s.get (.sepScope (n / 64))).toNat (n % 64)

/-- NARROW of a set (R201). -/
def State.narrow (s : State) (n : Nat) : Bool := bitAt (s.get (.sepNarrow (n / 64))).toNat (n % 64)

/-- The location of a physical far address (R206, R207). -/
def State.farLoc (s : State) (pa : Nat) : FarLoc := separator s.variant (s.wide (setOf s.variant pa)) pa

/-- The physical far address of a location (R249). -/
def State.farAddr (s : State) (loc : FarLoc) : Nat := unseparate s.variant (s.wide (loc.l / 2 ^ 22)) loc

/-- The location of the mirror copy of a grain of a mirrored set (R624). -/
def State.farMirror (s : State) (loc : FarLoc) : Option FarLoc :=
  (s.mirrorOf (loc.l / 2 ^ 22)).map fun m => mirrorLoc s.variant m loc

/-- A far stack that cannot be reached: unpopulated, lost, or on a die that is not up (R33, R234). -/
def State.farGone (s : State) (site : Nat) : Bool :=
  !farPresent s.variant site || decide (s.fget (.farStatus site) FAR_STATUS_LOST = 1) || !s.dieUp (site / 3)

/-- The byte that masks a stored byte whose set has undefined contents (R210, log 13). -/
def State.farPad (s : State) (loc : FarLoc) (i : Nat) : Byte :=
  let e := smGet 0 s.farEpoch (loc.site * 128 + loc.l / 2 ^ 22)
  if e = 0 then 0#8 else Config.freeByte e (farKey loc + i)

/-- The 256 stored bytes of a grain: ciphertext where its set is encrypted. -/
def State.farRaw (s : State) (loc : FarLoc) : List Byte :=
  (List.range 256).map fun i => memByte s.far (farKey loc + i) ^^^ s.farPad loc i

/-- The difference of a stored granule's check bits from the valid ones. -/
def State.farDiff (s : State) (loc : FarLoc) (g : Nat) : Nat := smGet 0 s.farChk (farKey loc / 16 + g)

/-- Store one granule of a grain. -/
def State.farPut (s : State) (loc : FarLoc) (g : Nat) (data : List Byte) (diff : Nat) : State :=
  { s with far := memWrite s.far (farKey loc + 16 * g) ((List.range 16).map fun i => data.getD i 0#8 ^^^ s.farPad loc (16 * g + i)),
           farChk := smSet 0 s.farChk (farKey loc / 16 + g) diff }

/-- The region keys of a set (R593): the homeroom's set index and the 32 key bytes; no bytes where the key was zeroised (R604). -/
def State.setKey (s : State) (n : Nat) : Option (Nat × List Byte) :=
  match s.mapOwner n with
  | none => none
  | some (h, v) => (smFind (s.hr h).keys.region v).map fun k => (v, k)

/-- SM4-XTS over a grain (R594). -/
def cryptGrain (enc : Bool) (key : Option (Nat × List Byte)) (loc : FarLoc) (bs : List Byte) : List Byte :=
  match key with
  | none => bs
  | some (v, k) =>
    sm4Xts enc (k.take 16) (k.drop 16)
      (pad16 [BitVec.ofNat 8 v, BitVec.ofNat 8 (v / 256), BitVec.ofNat 8 (farFields loc.l).col]) bs

/-- Charge a grant to a homeroom (R224, R225): in regulator mode 256 bytes where its tokens cover them, and nothing for a spare grant
(R227); priority mode keeps no tokens (R229). -/
def FarPort.charge (p : FarPort) (hr : Nat) : FarPort :=
  if p.mode = 0 then
    if 256 ≤ wordAt p.tokens hr then
      { p with charged := p.charged.set hr (wordAt p.charged hr + 256), tokens := p.tokens.set hr (wordAt p.tokens hr - 256) }
    else p
  else { p with charged := p.charged.set hr (wordAt p.charged hr + 256) }

/-- A homeroom is eligible at a port (R225). -/
def eligible (p : FarPort) (hr : Nat) : Bool := decide (256 ≤ wordAt p.tokens hr)

/-- The grant rules of a far port (R225, R227, R228). -/
def State.mayGrant (s : State) (f : Nat) (p : FarPort) (r : FarReq) : Bool :=
  let peers := p.waiting.filter fun w => decide (w.pc = r.pc)
  let oldest := match peers with | w :: _ => decide (w = r) | [] => false
  if p.mode = 0 then
    eligible p r.hr ||
      (decide (s.fget (.farMode f) FAR_MODE_SPARE = 1) && !(peers.any fun w => eligible p w.hr) && oldest)
  else
    let out := ((smGet [] p.recent r.pc).filter id).length
    if out < s.fget (.farMode f) FAR_MODE_PRIO_SHARE ∧ peers.any FarReq.tagged then
      r.tagged && (match peers.filter FarReq.tagged with | w :: _ => decide (w = r) | [] => false)
    else oldest

/-- A grant to a waiting request (R224, R228): it is charged, and it is noted whether it went to a tagged read out of age order. -/
def FarPort.grant (p : FarPort) (r : FarReq) : FarPort :=
  let late := r.tagged && (match p.waiting.filter fun w => decide (w.pc = r.pc) with | w :: _ => decide (w ≠ r) | [] => false)
  { p.charge r.hr with recent := smPut p.recent r.pc ((late :: smGet [] p.recent r.pc).take 64) }

/-- The arbiter instance of a pseudo-channel's command queue (R337). -/
def farQueue (site pc : Nat) : Nat := arbSelOf 3 (site % 3 * 64 + pc)

/-- A pseudo-channel's command queue of 32 entries is full (R225, R337). -/
def FarPort.full (p : FarPort) (pc : Nat) : Bool := decide (32 ≤ (p.waiting.filter fun w => decide (w.pc = pc)).length)

/-- A request reaches a far port (R225, R337, R342): it enters its pseudo-channel's queue, or waits for the queue's arbiter. -/
def State.askPort (s : State) (site : Nat) (r : FarReq) : State :=
  let p := s.farPort site
  if s.farGone site then s
  else if s.arbFrozen (site / 3) (farQueue site r.pc) || p.full r.pc || p.outside.any fun w => decide (w.pc = r.pc) then
    (s.setFarPort site { p with outside := p.outside ++ [r] }).arbAsk (site / 3) (farQueue site r.pc) r.from'
  else s.setFarPort site { p with waiting := p.waiting ++ [r] }

/-! ### The shared cache -/

/-- A line on its way through the shared cache: grain, set, location, home slice, NARROW, mirror copy. -/
structure LineAt where
  grain : Nat
  set : Nat
  loc : FarLoc
  slice : Nat
  narrow : Bool
  mirror : Option FarLoc
  deriving DecidableEq, Repr

/-- The line of a physical far address (R206, R212). -/
def State.lineAt (s : State) (pa : Nat) : LineAt :=
  let loc := s.farLoc pa
  ⟨pa / 256, setOf s.variant pa, loc, homeSlice s.variant loc, s.narrow (setOf s.variant pa), s.farMirror loc⟩

/-- Why a line cannot be accessed (R21, R33, R604, R623, R627). -/
def State.lineErr (s : State) (pa : Nat) : Option AccErr :=
  let c := s.lineAt pa
  if farBytes s.variant ≤ pa ∨ (s.mirrorSource c.set).isSome then some .unbacked
  else if s.farGone c.loc.site && (match c.mirror with | none => true | some m => s.farGone m.site) then some .unbacked
  else match s.setKey c.set with
    | some (_, []) => some .encrypted
    | _ => none

/-- The log entry of a granule of far memory (R645, R651, R652); in a recomputable set it names the yoke. -/
def State.farEntry (s : State) (rq : Requester) (loc : FarLoc) (addr mem unit cls outcome : Nat) : RelEntry :=
  let y := if cls = 3 then
      match s.poolTree (loc.l / 2 ^ 22) with
      | some (d, t, tr) => (yokeAt s.variant d tr loc).map fun y => (y, t, d)
      | none => none
    else none
  ⟨addr, mem, cls, outcome, unit, requesterCode rq, y⟩

/-- What the fetch of one granule from far memory gives (R629): its 16 stored bytes, or none where it failed without recovery. Of a
granule that is stored well, bit g of `transient`, or one entry in `slips`, says that its first read fails, and bit 16 + g, or two
entries, that both do. -/
def State.fetchGranule (s : State) (rq : Requester) (c : LineAt) (transient g : Nat) : State × Option (List Byte) :=
  let stored := fun (l : FarLoc) => ((s.farRaw l).drop (16 * g)).take 16
  let up := !s.farGone c.loc.site
  let addr := c.grain * 256 + 16 * g
  let once := transient.testBit g || s.slips.contains (farSlip c.loc g)
  let twice := transient.testBit (16 + g) || decide (2 ≤ s.slips.count (farSlip c.loc g))
  let s := if once then s.takeSlip (farSlip c.loc g) else s
  if up && decide (s.farDiff c.loc g = 0) && !twice then
    (if once then s.fadd .relStatus REL_STATUS_RETRIES 1 else s, some (stored c.loc))
  else
    match c.mirror with
    | some m =>
      if !s.farGone m.site && decide (s.farDiff m g = 0) then
        (if up then (s.farPut c.loc g (stored m) 0).repaired (s.farEntry rq c.loc addr 0 c.loc.site (s.setClass c.set) 1) else s,
         some (stored m))
      else (s.unrecovered (s.farEntry rq c.loc addr 0 c.loc.site (s.setClass c.set) 2), none)
    | none => (s.unrecovered (s.farEntry rq c.loc addr 0 c.loc.site (s.setClass c.set) 2), none)

/-- Fetch granules of a grain in order (R629): the stored bytes by granule, and the granules that failed. -/
def State.fetchGranules (rq : Requester) (c : LineAt) (transient : Nat) : State → List Nat → State × SMap (List Byte) × List Nat
  | s, [] => (s, [], [])
  | s, g :: gs =>
    match s.fetchGranule rq c transient g with
    | (t, some b) => let (u, m, bad) := t.fetchGranules rq c transient gs; (u, smPut m g b, bad)
    | (t, none) => let (u, m, bad) := t.fetchGranules rq c transient gs; (u, m, g :: bad)

/-- The location that serves a line's fills (R627). -/
def State.fillLoc (s : State) (c : LineAt) : FarLoc := if s.farGone c.loc.site then c.mirror.getD c.loc else c.loc

/-- The far site that serves a line's fills (R627). -/
def State.fillSite (s : State) (c : LineAt) : Nat := (s.fillLoc c).site

/-- A fill's request at the far port, which needs `n` grants (R202, R224). -/
def State.fillReq (s : State) (c : LineAt) (hr n : Nat) (tagged : Bool) : FarReq :=
  ⟨(farFields (s.fillLoc c).l).pc, hr, true, c.slice % 3, tagged, c.grain, n⟩

/-- A requester's far reads carry the latency-critical tag (R126, R228). -/
def State.taggedReads (s : State) : Requester → Bool
  | .core c => (s.core c).tag
  | _ => false

/-- Obtain `n` grants for an access that is made at once, or none where the port would not grant them now (R225 to R228): the request waits
behind those that are at the port. -/
def State.grants (s : State) (site : Nat) (r : FarReq) : Nat → FarPort → Option FarPort
  | 0, p => some p
  | n + 1, p => if s.mayGrant site { p with waiting := p.waiting ++ [r] } r then s.grants site r n (p.grant r) else none

/-- The grants of an access that is made at once (R224): those that it already has, or `n` of its port; none where it has to wait. -/
def State.takeGrants (s : State) (rq : Requester) (hr : Nat) (c : LineAt) (n : Nat) : Option State :=
  let site := s.fillSite c
  let r := s.fillReq c hr n (s.taggedReads rq)
  let p := s.farPort site
  if s.paid.contains (rq, c.grain) then some s
  else if s.arbFrozen (site / 3) (farQueue site r.pc) || p.full r.pc || p.outside.any fun w => decide (w.pc = r.pc) then none
  else (s.grants site r n p).map fun q => { s.setFarPort site q with paid := s.paid ++ [(rq, c.grain)] }

/-- Fetch sectors of a grain and decrypt them (R200 to R203, R594, R629): 256 bytes, of which those of the sectors fetched count,
and the granules that failed. -/
def State.fetchSectors (s : State) (rq : Requester) (c : LineAt) (secs : List Nat) (transient : Nat) :
    State × List Byte × List Nat :=
  let (u, m, bad) := s.fetchGranules rq c transient (secs.flatMap fun k => [2 * k, 2 * k + 1])
  let raw := (List.range 16).flatMap fun g => smGet (List.replicate 16 0#8) m g
  (u, cryptGrain false (s.setKey c.set) c.loc raw, bad)

/-- A line with nothing valid. -/
def emptyLine (hr slice : Nat) : Line := ⟨List.replicate 256 0#8, List.replicate 16 0, 0, 0, hr, 0, slice, 0⟩

/-- Key of a frame of a shared-cache slice (R211, R644). -/
def frameKey (slice cset way : Nat) : Nat := (slice * 12288 + cset) * 16 + way

/-- The associativity set of a line (R211, log 14). -/
def cacheSetOf (slice grain : Nat) : Nat := Config.cacheSet slice grain % 12288

/-- Write one granule back to one far location (R202, R213, R619): nothing where its memory is lost; check bits that fail stay failing. -/
def State.putBack (s : State) (c : LineAt) (hr g : Nat) (bad : Bool) (data : List Byte) (loc : FarLoc) : State :=
  if s.farGone loc.site then s
  else if bad then s.farPut loc g data 0xFFFF
  else
    let (t, b, x) := s.flip 0 loc.site hr (c.grain * 256 + 16 * g) data
    t.farPut loc g b x

/-- Write the dirty granules of a line to far memory, to both copies of a mirrored set (R202, R213, R626); a granule whose cache
storage fails is written poisoned (R619, R631). `loc` and the copies are those of the mapping in force. -/
def State.writeBackGranules (c : LineAt) (l : Line) (cipher : List Byte) (hr : Nat) : State → List Nat → State
  | s, [] => s
  | s, g :: gs =>
    let bad := decide (wordAt l.chk g ≠ 0)
    let data := (cipher.drop (16 * g)).take 16
    let t := (if bad then s.unrecovered (s.farEntry .writeback c.loc (c.grain * 256 + 16 * g) 3 c.slice 0 2) else s).putBack c hr g bad data c.loc
    let t := match c.mirror with | some m => t.putBack c hr g bad data m | none => t
    t.writeBackGranules c l cipher hr gs

/-- Write back a line's dirty sectors (R202, R213): the bytes are in far memory at once, and the write waits at the port of each copy for
the grants that charge it (R224, R225). -/
def State.writeBack (s : State) (c : LineAt) (l : Line) : State :=
  if l.dirty = 0 then s
  else
    let secs := (List.range 8).filter l.dirty.testBit
    let s := (c.loc :: c.mirror.toList).foldl (fun s loc =>
      s.askPort loc.site ⟨(farFields loc.l).pc, l.hr, false, c.slice % 3, false, c.grain, if c.narrow then secs.length else 1⟩) s
    s.writeBackGranules c l (cryptGrain true (s.setKey c.set) c.loc l.data) ((s.setOwner c.set).getD 0)
      (secs.flatMap fun k => [2 * k, 2 * k + 1])

/-- Remove a line from its slice without write-back. -/
def State.dropLine (s : State) (grain : Nat) : State := { s with lines := smDel s.lines grain }

/-- Write back and invalidate a line (R210, R221). -/
def State.flushLine (s : State) (grain : Nat) : State :=
  match smFind s.lines grain with
  | none => s
  | some l => (s.writeBack (s.lineAt (grain * 256)) l).dropLine grain

/-- A frame fails under R631 (R644): the second failure retires it, at most 256 frames a slice; beyond that each failure raises an
event with `FRAMES_FULL`. -/
def State.frameFail (s : State) (rq : Requester) (c : LineAt) (way addr : Nat) : State :=
  let k := frameKey c.slice (cacheSetOf c.slice c.grain) way
  let n := smGet 0 s.frameFails k + 1
  let s := { s with frameFails := smPut s.frameFails k n }
  if n < 2 then s
  else if (s.framesRetired.filter fun e => decide (e.1 / (12288 * 16) = c.slice)).length < 256 then
    let s := { s with framesRetired := smPut s.framesRetired k 1 }
    let s := s.relAdd (s.farEntry rq c.loc addr 3 c.slice 0 3)
    (s.addDefect ⟨6, c.slice / 3 + 4 * (c.slice % 3), cacheSetOf c.slice c.grain + way * 2 ^ 14, 3⟩).relEvent
  else (s.fput .relStatus REL_STATUS_FRAMES_FULL 1).relEvent

/-- Room for a line (R211): the lowest way of its associativity set that is neither in use nor retired, else that of the least
recently used line with no pending fill, which is written back; none where every way is retired or waits for a fill. -/
def State.makeRoom (s : State) (c : LineAt) : State × Option Nat :=
  let k := cacheSetOf c.slice c.grain
  let used := s.lines.filter fun e => decide (e.2.slice = c.slice) && decide (cacheSetOf c.slice e.1 = k)
  match (List.range 16).find? fun w => !(used.any fun e => decide (e.2.way = w)) && (smFind s.framesRetired (frameKey c.slice k w)).isNone with
  | some w => (s, some w)
  | none =>
    match (used.filter fun e => !s.fills.any fun f => decide (f.grain = e.1)).foldl
        (fun a e => match a with | none => some e | some b => if e.2.age < b.2.age then some e else a) (none : Option (Nat × Line)) with
    | none => (s, none)
    | some e => (s.flushLine e.1, some e.2.way)

/-- Place a line in its slice as the most recently used; where there is no room it is written back and not kept. -/
def State.placeLine (s : State) (c : LineAt) (l : Line) : State :=
  match smFind s.lines c.grain with
  | some old => { s with lines := smPut s.lines c.grain { l with age := s.lineAge + 1, way := old.way, slice := c.slice }, lineAge := s.lineAge + 1 }
  | none =>
    match s.makeRoom c with
    | (t, none) => t.writeBack c l
    | (t, some w) => { t with lines := smPut t.lines c.grain { l with age := t.lineAge + 1, way := w, slice := c.slice }, lineAge := t.lineAge + 1 }

/-- Sectors that a byte range of a grain needs (R201, R202): all eight unless the set is narrow. -/
def sectorsFor (narrow : Bool) (off n : Nat) : List Nat :=
  if narrow then (if n = 0 then [] else rangeFrom (off / 32) ((off + n - 1) / 32 + 1 - off / 32)) else List.range 8

/-- Merge fetched sectors into a line. -/
def mergeSectors (l : Line) (secs : List Nat) (data : List Byte) : Line :=
  { l with data := (List.range 8).flatMap fun k =>
             if secs.contains k then (data.drop (32 * k)).take 32 else (l.data.drop (32 * k)).take 32
           chk := (List.range 16).map fun g => if secs.contains (g / 2) then 0 else wordAt l.chk g
           valid := l.valid ||| maskOf secs }

/-- What a request finds at its home slice: the line with the sectors it needs, and the granules that cannot be read. -/
structure LineHit where
  line : Line
  bad : List Nat
  deriving DecidableEq, Repr

/-- The line as the cache holds it, or with nothing valid. -/
def State.lineOf (s : State) (hr : Nat) (c : LineAt) : Line := (smFind s.lines c.grain).getD (emptyLine hr c.slice)

/-- The sectors among those needed that the cache does not hold. -/
def State.missing (s : State) (hr : Nat) (c : LineAt) (secs : List Nat) : List Nat := secs.filter fun k => !(s.lineOf hr c).valid.testBit k

/-- Fill the sectors that a line lacks (R201, R202, R213, R629): it is allocated unless a granule failed or `keep` is false. -/
def State.fillLine (s : State) (rq : Requester) (hr : Nat) (c : LineAt) (missing : List Nat) (transient : Nat) (keep : Bool) : State × LineHit :=
  let (t, data, bad) := s.fetchSectors rq c missing transient
  let l := mergeSectors (s.lineOf hr c) missing data
  if bad.isEmpty then (if keep then t.placeLine c l else t, ⟨l, []⟩) else (t, ⟨l, bad⟩)

/-- The line that a request needs (R213, R224): as it is held, or filled at once with the grants that this takes; the request is held
where the port does not give them. -/
def State.bringLine (s : State) (rq : Requester) (hr : Nat) (c : LineAt) (secs : List Nat) (transient : Nat) (keep : Bool) :
    State × Res LineHit :=
  let missing := s.missing hr c secs
  if missing.isEmpty then (if keep then s.placeLine c (s.lineOf hr c) else s, .ok ⟨s.lineOf hr c, []⟩)
  else
    match s.takeGrants rq hr c (if c.narrow then missing.length else 1) with
    | none => (s, .error (.held (.far c.grain)))
    | some t => let (u, h) := t.fillLine rq hr c missing transient keep; (u, .ok h)

/-- Test the granules of a cached line that a request touches (R631): none where they are sound or the line is absent; a failing
granule in a clean line has the line invalidated; one in a dirty line is unrecoverable. -/
def State.testLine (s : State) (rq : Requester) (c : LineAt) (gs : List Nat) : State × Bool :=
  match smFind s.lines c.grain with
  | none => (s, true)
  | some l =>
    match gs.find? fun g => decide (wordAt l.chk g ≠ 0) && l.valid.testBit (g / 2) with
    | none => (s, true)
    | some g =>
      let addr := c.grain * 256 + 16 * g
      if l.dirty = 0 then ((s.frameFail rq c l.way addr).dropLine c.grain, true)
      else
        let s := s.unrecovered (s.farEntry rq c.loc addr 3 c.slice 0 2)
        let t := s.frameFail rq c l.way addr
        ((if (smFind t.framesRetired (frameKey c.slice (cacheSetOf c.slice c.grain) l.way)).isSome then t.flushLine c.grain else t), false)

/-- Granules of a grain that a byte range touches. -/
def lineGranules (off n : Nat) : List Nat := granules off n

/-- Read bytes of a grain from its line (R629). -/
def LineHit.read (h : LineHit) (off n : Nat) : Res (List Byte) :=
  if (lineGranules off n).any h.bad.contains then .error .check else .ok ((h.line.data.drop off).take n)

/-- Read bytes of one grain through its home slice (R213, R629, R631). -/
def State.lineRead (s : State) (rq : Requester) (hr pa n transient : Nat) (keep : Bool) : State × Res (List Byte) :=
  match s.lineErr pa with
  | some e => (s, .error e)
  | none =>
    let c := s.lineAt pa
    match s.testLine rq c (lineGranules (pa % 256) n) with
    | (t, false) => (t, .error .check)
    | (t, true) =>
      match t.bringLine rq hr c (sectorsFor c.narrow (pa % 256) n) transient keep with
      | (u, .error e) => (u, .error e)
      | (u, .ok h) => (u, h.read (pa % 256) n)

/-- The line after bytes are stored in it, each granule through the flip mask (R620, R641). -/
def State.storeLine (c : LineAt) (owner : Nat) : State → Line → List Nat → State × Line
  | s, l, [] => (s, l)
  | s, l, g :: gs =>
    let (t, b, x) := s.flip 3 c.slice owner (c.grain * 256 + 16 * g) ((l.data.drop (16 * g)).take 16)
    t.storeLine c owner { l with data := spliceBytes l.data (16 * g) b, chk := l.chk.set g x } gs

/-- Merge bytes into a line, and place it (R213, R630): where the fill met a failing granule that the write does not cover whole nothing is
performed. -/
def State.writeHit (s : State) (c : LineAt) (h : LineHit) (off : Nat) (bs : List Byte) : State × Res Unit :=
  if (partGranules off bs.length).any h.bad.contains ∨ h.bad.any fun g => !(granules off bs.length).contains g then (s, .error .check)
  else
    let l := { h.line with data := spliceBytes h.line.data off bs,
                           dirty := h.line.dirty ||| maskOf (sectorsFor c.narrow off bs.length) }
    let (v, l) := s.storeLine c ((s.setOwner c.set).getD 0) l (granules off bs.length)
    (v.placeLine c l, .ok ())

/-- A write that covers a whole grain needs no fill (R213); one that misses is charged to its homeroom (R224). -/
def State.wholeLine (s : State) (hr : Nat) (c : LineAt) : State × LineHit :=
  let site := s.fillSite c
  (if (smFind s.lines c.grain).isSome then s else s.setFarPort site ((s.farPort site).charge hr), ⟨{ s.lineOf hr c with valid := 0xFF }, []⟩)

/-- Write bytes of one grain at its home slice (R213, R630): a part of a grain is merged into the filled line. -/
def State.lineWrite (s : State) (rq : Requester) (hr pa : Nat) (bs : List Byte) : State × Res Unit :=
  match s.lineErr pa with
  | some e => (s, .error e)
  | none =>
    let c := s.lineAt pa
    let off := pa % 256
    match s.testLine rq c (partGranules off bs.length) with
    | (t, false) => (t, .error .check)
    | (t, true) =>
      if bs.length = 256 then let (u, h) := t.wholeLine hr c; u.writeHit c h off bs
      else
        match t.bringLine rq hr c (sectorsFor c.narrow off bs.length) 0 true with
        | (u, .error e) => (u, .error e)
        | (u, .ok h) => u.writeHit c h off bs

/-- The new value of a shared-cache operation (R217, R218) on `width` bytes. -/
def atomNew (op : AtomOp) (width old v expected : Nat) : Nat :=
  let b := 8 * width
  match op with
  | .add => (old + v) % 2 ^ b
  | .smin => if asSigned b old ≤ asSigned b v then old else v
  | .smax => if asSigned b old ≤ asSigned b v then v else old
  | .umin => min old v
  | .umax => max old v
  | .and => old &&& v
  | .or => old ||| v
  | .xor => old ^^^ v
  | .swap => v
  | .cas => if old = expected then v else old
  | .fp32Add => fp32Add old v
  | .bf16Add =>
    match decFloat bf16Fmt old, decFloat bf16Fmt v with
    | .fin true 0 _, .fin true 0 _ => 0x8000
    | x, y => encodeIeee bf16Fmt .nearest (groupNum (groupAdd (groupAdd .empty x) y))

/-- Update elements of one line one after another (R217, R220, R630): offset in the grain, operand and expected value; an element whose
granule fails ends the operation. The old values. -/
def State.updateLine (rq : Requester) (hr : Nat) (grain : Nat) (op : AtomOp) (width : Nat) :
    State → List (Nat × Nat × Nat) → State × Res (List Nat)
  | s, [] => (s, .ok [])
  | s, e :: es =>
    match s.lineRead rq hr (grain * 256 + e.1) width 0 true with
    | (t, .error x) => (t, .error x)
    | (t, .ok bs) =>
      let old := leNat bs
      match t.lineWrite rq hr (grain * 256 + e.1) (leBytes width (atomNew op width old (e.2.1 % 2 ^ (8 * width)) e.2.2)) with
      | (u, .error x) => (u, .error x)
      | (u, .ok _) =>
        match u.updateLine rq hr grain op width es with
        | (v, .error x) => (v, .error x)
        | (v, .ok l) => (v, .ok (old :: l))

/-- Elements of one line combined in one operation at the home slice (R217, R220), which `SC_STAT.ATOMICS` counts once (R239): the old
values. -/
def State.lineCombine (s : State) (rq : Requester) (hr grain : Nat) (op : AtomOp) (width : Nat) (elems : List (Nat × Nat × Nat)) :
    State × Res (List Nat) :=
  if elems.any fun e => decide (e.1 % width ≠ 0) then (s, .error .misaligned)
  else
    match s.updateLine rq hr grain op width elems with
    | (t, .error e) => (t, .error e)
    | (t, .ok l) => (t.fadd (.scStat (s.lineAt (grain * 256)).slice) SC_STAT_ATOMICS 1, .ok l)

/-- An atomic update at the home slice (R217, R219, R630): the old value. -/
def State.lineAtomic (s : State) (rq : Requester) (hr pa : Nat) (op : AtomOp) (width v expected : Nat) : State × Res Nat :=
  match s.lineCombine rq hr (pa / 256) op width [(pa % 256, v, expected)] with
  | (t, .ok l) => (t, .ok (wordAt l 0))
  | (t, .error e) => (t, .error e)

/-! ### Holding -/

/-- The first row of an operand run of a ladle command (R245), on its primary rows or on the mirror rows (R628). -/
def State.ladleRun (s : State) (mirror : Bool) (a : Nat) : RowId :=
  let loc := s.farLoc a
  rowOf (if mirror then (s.farMirror loc).getD loc else loc)

/-- The operand addresses of a ladle command, the destination first (R243). -/
def ladleOperands (c : LadleCmd) : List Nat :=
  match c.op with
  | 1 => [c.dst, c.w2]
  | 3 => [c.dst, c.w2]
  | 4 => [c.dst, c.w2, c.w3]
  | 5 => [c.dst, c.w2, c.w3]
  | 6 => [c.dst, c.w2, c.w3]
  | _ => [c.dst]

/-- A row lies in a run (R245). -/
def rowIn (run : RowId) (rows : Nat) (r : RowId) : Bool :=
  decide (r.site = run.site) && decide (r.pc = run.pc) && decide (r.sid = run.sid) && decide (r.bg = run.bg) &&
  decide (r.bank = run.bank) && decide (run.row ≤ r.row) && decide (r.row < run.row + rows)

/-- A read of a row is held by a sequence (R254, R259). -/
def State.seqHoldsRead (s : State) (q : LadleSeq) (loc : FarLoc) : Bool :=
  let run := s.ladleRun q.mirror q.cmd.dst
  let r := rowOf loc
  if q.cmd.op = 7 then decide (r.site = run.site) && decide (r.row / 256 = run.row / 256)
  else rowIn run q.cmd.rows r && (q.cmd.fence || (decide (r.row = run.row + q.row) && decide (q.phase ≠ 0)))

/-- A command on one copy touches a row (R255, R259). -/
def State.cmdTouches (s : State) (cmd : LadleCmd) (mirror : Bool) (loc : FarLoc) : Bool :=
  let r := rowOf loc
  if cmd.op = 7 then
    let run := s.ladleRun mirror cmd.dst
    decide (r.site = run.site) && decide (r.row / 256 = run.row / 256)
  else (ladleOperands cmd).any fun a => rowIn (s.ladleRun mirror a) cmd.rows r

/-- The port of a line's bank in its home slice is frozen (R211, R337, R342; log 14). -/
def State.bankFrozen (s : State) (pa : Nat) : Bool :=
  let c := s.lineAt pa
  (List.range 16).any fun b =>
    s.arbFrozen (c.slice / 3) (arbSelOf 2 (c.slice % 3 * 16 + b)) && decide (Config.cacheBank c.slice c.grain % 16 = b)

/-- An access to a far address is held at its separator stage, at its bank or by a ladle: its set's scope or NARROW is changing (R210), its set is being
cleared for a mirror pairing (R259, R625), or a ladle sequence holds it (R254, R255,
R259). A mirrored write is held by either copy. -/
def State.farBlocked (s : State) (pa : Nat) (write : Bool) : Bool :=
  s.setChanges.contains (setOf s.variant pa) || s.clears.contains (setOf s.variant pa) || s.bankFrozen pa ||
  (let c := s.lineAt pa
   let ports := c.loc.site :: (match c.mirror with | some m => [m.site] | none => [])
   let locs := c.loc :: (match c.mirror with | some m => [m] | none => [])
   if write then
     ports.any fun f => ((s.ladle f).seqs.any fun q => locs.any (s.cmdTouches q.cmd q.mirror)) ||
       ((s.ladle f).halves.any fun q => locs.any (s.cmdTouches q.cmd q.mirror))
   else ports.any fun f => ((s.ladle f).seqs.any fun q => locs.any (s.seqHoldsRead q)) ||
       ((s.ladle f).halves.any fun q => (q.cmd.fence || decide (q.cmd.op = 7)) && locs.any (s.cmdTouches q.cmd q.mirror)))

/-- Requests to the line wait, at its pending fill or for one (R211, R214, R215). -/
def State.linePending (s : State) (pa : Nat) : Bool :=
  s.fills.any (fun f => decide (f.grain = pa / 256)) || s.fillWaits.any fun q => decide (q.pa / 256 = pa / 256)

/-- Why a requester's access to far memory cannot be made now (R21, R27, R210, R215, R254, R255, R393). -/
def State.farErr (s : State) (rq : Requester) (pa : Nat) (write : Bool) : Option AccErr :=
  match s.lineErr pa with
  | some e => some e
  | none =>
    if !s.linked rq ((s.lineAt pa).loc.site / 3) then some .dieLost
    else if s.farBlocked pa write || s.linePending pa then some (.held (.far (pa / 256))) else none

/-- A read that is made at once misses on a line whose fill is pending, and joins it (R214): it is served once the fill completes. -/
def State.joinFill (s : State) (rq : Requester) (pa n : Nat) : State :=
  let c := s.lineAt pa
  let secs := s.missing 0 c (sectorsFor c.narrow (pa % 256) n)
  { s with fills := s.fills.map fun f =>
      if decide (f.grain = c.grain) && decide (f.joins < 32) && !f.steps.contains rq && !secs.isEmpty && secs.all f.sectors.testBit then
        { f with joins := f.joins + 1, steps := f.steps ++ [rq] }
      else f }

/-- What an attempt `u` at an access that has to wait leaves of itself: the grants that it has obtained, and the fills that it has
joined, which `SC_STAT.MERGES` counts (R214, R224). -/
def State.keepHeld (s u : State) : State :=
  u.fills.foldl (fun t f =>
    match s.fills.find? fun g => decide (g.grain = f.grain) with
    | some g => if g.joins < f.joins then t.fadd (.scStat f.slice) SC_STAT_MERGES (f.joins - g.joins) else t
    | none => t) { s with fills := u.fills, farPorts := u.farPorts, paid := u.paid, turns := u.turns }

/-- A requester's work is done: the grants and turns kept for it go. -/
def State.settle (s : State) (rq : Requester) : State :=
  { s with paid := s.paid.filter fun e => decide (e.1 ≠ rq), turns := s.turns.filter fun e => decide (e.1 ≠ rq) }

/-- A write of a requester to a line has its turn: no other that was held at the line came before it (R215, R255). -/
def State.hasTurn (s : State) (rq : Requester) (grain : Nat) : Bool :=
  match s.turns.find? fun e => decide (e.2 = grain) with
  | some e => decide (e.1 = rq)
  | none => true

/-- A write that is held takes its turn among those held at its line (R255). -/
def State.takeTurn (s : State) (rq : Requester) (grain : Nat) : State :=
  if s.turns.contains (rq, grain) then s else { s with turns := s.turns ++ [(rq, grain)] }

/-- Do a write or an update of one line for a requester, once nothing holds it and it has its turn (R215, R255). -/
def State.farTurn {α : Type} (s : State) (rq : Requester) (pa : Nat) (act : State → State × Res α) : State × Res α :=
  match s.farErr rq pa true with
  | some (.held w) => (s.takeTurn rq (pa / 256), .error (.held w))
  | some e => (s, .error e)
  | none =>
    if !s.hasTurn rq (pa / 256) then (s.takeTurn rq (pa / 256), .error (.held (.far (pa / 256))))
    else match act s with
      | (t, .error (.held w)) => (t, .error (.held w))
      | (t, r) => ({ t with turns := t.turns.erase (rq, pa / 256) }, r)

/-- A line that home slices do not allocate: one of a destination row of a running sequence (R254). -/
def State.noAllocate (s : State) (pa : Nat) : Bool :=
  let c := s.lineAt pa
  (c.loc :: c.mirror.toList).any fun l => (s.ladle l.site).seqs.any fun q => rowIn (s.ladleRun q.mirror q.cmd.dst) q.cmd.rows (rowOf l)

/-! ### Homeroom addresses -/

/-- The translation of a far address that a homeroom names (R588); homeroom 0 keeps the identity over the sets it holds. -/
def State.translate (s : State) (hr a : Nat) : Res Nat :=
  let n := a / setBytes s.variant
  if hr = 0 then
    if n < 128 ∧ s.setOwner n = some 0 then .ok a else .error .outside
  else
    match s.mapEntry hr n with
    | some p => .ok (p * setBytes s.variant + a % setBytes s.variant)
    | none => .error .outside

/-- The homeroom address of a physical far address, where the homeroom holds it. -/
def State.untranslate (s : State) (hr pa : Nat) : Nat :=
  match s.mapOwner (pa / setBytes s.variant) with
  | some (h, v) => if h = hr then v * setBytes s.variant + pa % setBytes s.variant else pa
  | none => pa

/-- Read one part of a far range in a homeroom's address space. -/
def State.farReadPart (s : State) (rq : Requester) (hr a n : Nat) : State × Res (List Byte) :=
  match s.translate hr a with
  | .error e => (s, .error e)
  | .ok pa =>
    match s.farErr rq pa false with
    | some (.held w) => (s.joinFill rq pa n, .error (.held w))
    | some e => (s, .error e)
    | none => s.lineRead rq hr pa n 0 (!s.noAllocate pa)

/-- Write one part of a far range in a homeroom's address space. -/
def State.farWritePart (s : State) (rq : Requester) (hr a : Nat) (bs : List Byte) : State × Res Unit :=
  match s.translate hr a with
  | .error e => (s, .error e)
  | .ok pa => s.farTurn rq pa fun s => s.lineWrite rq hr pa bs

/-- An operation on elements of one line (R217, R220) in a homeroom's address space: offset, operand and expected value of each. -/
def State.farCombine (s : State) (rq : Requester) (hr a : Nat) (op : AtomOp) (width : Nat) (elems : List (Nat × Nat × Nat)) :
    State × Res (List Nat) :=
  match s.translate hr a with
  | .error e => (s, .error e)
  | .ok pa => s.farTurn rq pa fun s => s.lineCombine rq hr (pa / 256) op width elems

/-- A shared-cache operation (R217) in a homeroom's address space: the old value. -/
def State.farAtomic (s : State) (rq : Requester) (hr a : Nat) (op : AtomOp) (width v expected : Nat) : State × Res Nat :=
  match s.farCombine rq hr a op width [(a % 256, v, expected)] with
  | (t, .ok l) => (t, .ok (wordAt l 0))
  | (t, .error e) => (t, .error e)

/-- A window range of a homeroom (R598, R613): host base and window offset in bytes, length in bytes, PROTECT. -/
def State.window (s : State) (h w : Nat) : Option (Nat × Nat × Nat × Bool) :=
  if s.fget (.secHrWinHost h w) SEC_HR_WIN_HOST_VALID = 1 then
    some (s.fget (.secHrWinHost h w) SEC_HR_WIN_HOST_HBASE * 4096, s.fget (.secHrWinMap h w) SEC_HR_WIN_MAP_WOFF * 4096,
      s.fget (.secHrWinMap h w) SEC_HR_WIN_MAP_PAGES * 4096, decide (s.fget (.secHrWinHost h w) SEC_HR_WIN_HOST_PROTECT = 1))
  else none

/-- The window range that covers x: its number and its data (R598). -/
def State.windowAt (s : State) (h x : Nat) : Option (Nat × Nat × Nat × Nat × Bool) :=
  (List.range 8).findSome? fun w =>
    match s.window h w with
    | some (hb, wo, len, p) => if wo ≤ x ∧ x < wo + len then some (w, hb, wo, len, p) else none
    | none => none

/-- The host bus address of a window address (R598); a protected range admits only MOVE descriptors (R599). -/
def State.windowHost (s : State) (h x : Nat) : Res Nat :=
  if h = 0 then .ok x
  else
    match s.windowAt h x with
    | none => .error .window
    | some (_, hb, wo, _, p) => if p then .error .window else .ok (hb + (x - wo))

/-- Read one part of an address range (R21, R22): `allow` says which spaces the requester may name. -/
def State.readPart (s : State) (rq : Requester) (hr : Nat) (core : Option Nat) (allow : Space → Bool) (a n : Nat) :
    State × Res (List Byte) :=
  let sp := match core with | some c => resolveAlias c (spaceOf a) | none => spaceOf a
  if !allow sp then (s, .error .unbacked)
  else match sp with
    | .far x => s.farReadPart rq hr x n
    | .slice c o => match s.nearErrOf rq .slice c o n with | some e => (s, .error e) | none => s.nearRead rq .slice c o n 0
    | .desk c o => match s.nearErrOf rq .desk c o n with | some e => (s, .error e) | none => s.nearRead rq .desk c o n 0
    | .window x =>
      match s.windowHost hr x with
      | .error e => (s, .error e)
      | .ok h =>
        if !s.linked rq 4 then (s, .error .dieLost)
        else match s.hostRead h n with | some bs => (s, .ok bs) | none => (s, .error .hostFail)
    | _ => (s, .error .unbacked)

/-- Write one part of an address range (R21, R22). -/
def State.writePart (s : State) (rq : Requester) (hr : Nat) (core : Option Nat) (allow : Space → Bool) (a : Nat) (bs : List Byte) :
    State × Res Unit :=
  let sp := match core with | some c => resolveAlias c (spaceOf a) | none => spaceOf a
  if !allow sp then (s, .error .unbacked)
  else match sp with
    | .far x => s.farWritePart rq hr x bs
    | .slice c o => match s.nearErrOf rq .slice c o bs.length with | some e => (s, .error e) | none => s.nearWrite rq .slice c o bs
    | .desk c o => match s.nearErrOf rq .desk c o bs.length with | some e => (s, .error e) | none => s.nearWrite rq .desk c o bs
    | .window x =>
      match s.windowHost hr x with
      | .error e => (s, .error e)
      | .ok h => if !s.linked rq 4 then (s, .error .dieLost) else (s.hostWrite h bs, .ok ())
    | _ => (s, .error .unbacked)

/-- Read parts one after another; the first failure ends the read. -/
def State.readParts (rq : Requester) (hr : Nat) (core : Option Nat) (allow : Space → Bool) :
    State → List (Nat × Nat) → State × Res (List Byte)
  | s, [] => (s, .ok [])
  | s, p :: ps =>
    match s.readPart rq hr core allow p.1 p.2 with
    | (t, .error e) => (t, .error e)
    | (t, .ok bs) =>
      match t.readParts rq hr core allow ps with
      | (u, .error e) => (u, .error e)
      | (u, .ok rest) => (u, .ok (bs ++ rest))

/-- Write parts one after another; the first failure ends the write. -/
def State.writeParts (rq : Requester) (hr : Nat) (core : Option Nat) (allow : Space → Bool) :
    State → List (Nat × Nat) → List Byte → State × Res Unit
  | s, [], _ => (s, .ok ())
  | s, p :: ps, bs =>
    match s.writePart rq hr core allow p.1 (bs.take p.2) with
    | (t, .error e) => (t, .error e)
    | (t, .ok _) => t.writeParts rq hr core allow ps (bs.drop p.2)

/-- Read a range of device addresses (R21, R22). -/
def State.readAt (s : State) (rq : Requester) (hr : Nat) (core : Option Nat) (allow : Space → Bool) (a n : Nat) :
    State × Res (List Byte) :=
  s.readParts rq hr core allow (pieces a n)

/-- Write a range of device addresses (R21, R22). -/
def State.writeAt (s : State) (rq : Requester) (hr : Nat) (core : Option Nat) (allow : Space → Bool) (a : Nat) (bs : List Byte) :
    State × Res Unit :=
  s.writeParts rq hr core allow (pieces a bs.length) bs

/-- Far memory or the host window: what pail managers and fabric requests may name (R283, R414). -/
def allowFarWindow : Space → Bool
  | .far _ => true
  | .window _ => true
  | _ => false

/-- Far memory alone. -/
def allowFar : Space → Bool
  | .far _ => true
  | _ => false

end Sys2Proof.Machine
end

