-- ==== Sys2Proof/Machine/RegOps.lean ====
section
/-! DEFINITION. Register accesses: which block holds a register, who reaches it, and what a write leaves in it (R14 to R17, R454,
R524, R525, R658, R719 to R730). -/

namespace Sys2Proof.Machine

/-- The block of a register and the die that holds it, 8 for the office (R718, R720, R725). -/
def Reg.home : Reg → Block × Nat
  | .topId | .topStraps | .topSupply => (.top, 4)
  | .hostStatus | .hostErr | .hostFunc _ => (.host, 4)
  | .ringSqBase _ | .ringCqBase _ | .ringCfg _ | .ringCtl _ | .ringStatus _ | .ringSeq _ | .ringAdmit | .ringAdmitStat
  | .ringEvqBase | .ringEvqCfg | .ringEvqHead | .ringEvqStatus => (.ring, 4)
  | .officeStatus | .officeCtl | .officeEvq | .officeCoolant => (.office, 8)
  | .secStatus | .secHrSel _ | .secHrCtl _ | .secHrCores _ _ | .secHrMap _ _ | .secHrWinHost _ _ | .secHrWinMap _ _
  | .secMboxAddr | .secMboxCtl | .secDebug => (.sec, 8)
  | .fuseStatus | .fuseSel _ | .fuseData _ => (.fuse, 8)
  | .pwrLimit | .pwrStatus | .pwrCtl | .pwrPkg | .pwrStack _ | .pwrDsel _ | .pwrDomain _ => (.pwr, 8)
  | .thmCtl | .thmStatus | .thmSsel _ | .thmSensor _ => (.thm, 8)
  | .sepScope _ | .sepNarrow _ | .sepStatus => (.sep, 8)
  | .relCtl | .relStatus | .relLogIdx _ | .relLog0 _ | .relLog1 _ | .relFlipSel | .relFlipAddr | .relFlipMask0
  | .relFlipMask1 | .relFlipMask2 | .relMirror _ => (.rel, 8)
  | .bootCtl | .bootStatus | .bootImgLen | .bootRecBase | .bootRecLen | .bootExportBase | .bootDomain _ | .bootDomsum
  | .bootRoll => (.boot, 8)
  | .coreStatus c | .coreFenceCtl c | .coreRate c | .coreSkimSeed c => (.core, c / 64)
  | .arrCtl c _ | .arrStat c _ | .arrSrndSeed c _ => (.arr, c / 64)
  | .lsnCtl c | .lsnStatus c | .lsnEvt c _ => (.lsn, c / 64)
  | .nearCtl c | .nearStatus c | .nearLayerOffset c | .nearTemp c | .nearErr c => (.near, c / 64)
  | .farStatus f | .farMode f | .farShare f _ | .farUse f _ => (.far, f / 3)
  | .scCtl f | .scStat f => (.sc, f / 3)
  | .ldlCtl f | .ldlStatus f | .ldlStat f | .ldlErr f => (.ldl, f / 3)
  | .pailCtl d | .pailStatus d | .pailStat0 d | .pailStat1 d | .pailErr d => (.pail, d)
  | .meshCtl d | .meshStatus d | .meshStat d => (.mesh, d)
  | .arbSel d _ | .arbCtl d _ | .arbWeight d _ | .arbStarve d _ | .arbStat d _ | .arbSum0 d | .arbSum1 d => (.arb, d)
  | .xingSel d _ | .xingCtl d | .xingStatus d _ | .xingSum d => (.xing, d)
  | .d2dSel d _ | .d2dCtl d | .d2dEdgeStatus d _ | .d2dModule d _ _ | .d2dStat d => (.d2d, d)
  | .linkId d | .linkCtl d | .linkRouteIdx d _ | .linkRouteData d _ | .linkStat d | .linkPortCtl d _ | .linkPortStatus d _
  | .linkPortStat d _ | .linkPortPeer d _ => (.link, 4 + d)

/-- The ring of a ring register (R454). -/
def Reg.ring : Reg → Option Nat
  | .ringSqBase n | .ringCqBase n | .ringCfg n | .ringCtl n | .ringStatus n | .ringSeq n => some n
  | _ => none

/-- Blocks that are reachable before TRAIN (R658). -/
def earlyBlock : Block → Bool
  | .boot | .top | .host | .office | .sec | .fuse => true
  | _ => false

/-- The cold start has completed TRAIN (R656, R658). -/
def State.trained (s : State) : Bool := decide (2 ≤ s.phase) && decide (s.phase ≠ 5)

/-- A block held on a die can be reached (R658, R728); die 8 is the office. -/
def State.reachable (s : State) (b : Block) (d : Nat) : Bool :=
  (earlyBlock b || s.trained) && (decide (d = 8) || s.dieUp d || (decide (d = 4) && s.hostLink))

/-- A master's path to the registers: a host access needs the host link. -/
def State.pathUp (s : State) : Master → Bool
  | .office => true
  | _ => s.hostLink

/-- The registers that a master may reach at all (R441, R454, R458, R607, R647, R681): a virtual function reaches its own rings. -/
def State.masterReaches (s : State) (m : Master) (r : Reg) : Bool :=
  match m with
  | .vf f => match r.ring with
    | some n => decide (s.fget (.ringCfg n) RING_CFG_FUNC = f)
    | none => false
  | _ => true

/-- A write is blocked by `OFFICE_CTL.HOST_BLOCK` (R525): bits of the OFFICE, SEC and FUSE blocks are ignored. -/
def State.hostBlocked (s : State) (m : Master) (b : Block) : Bool :=
  decide (m ≠ .office) && (match b with | .office | .sec | .fuse => false | _ => true) &&
    bitAt (s.fget .officeCtl OFFICE_CTL_HOST_BLOCK) (blockCode b)

/-- What a write of a register does: it is performed where the master reaches the register; it is dropped otherwise, and counted
where HOST_BLOCK drops it. -/
def State.guarded (s : State) (m : Master) (r : Reg) (act : State → State) : State :=
  if !s.pathUp m then s
  else if s.hostBlocked m r.home.1 then s.fadd .officeCtl OFFICE_CTL_BLOCKED 1
  else if s.masterReaches m r && s.reachable r.home.1 r.home.2 then act s
  else s

/-- The bits that a write covers (R730). -/
def halfMask : Half → W64
  | .full => BitVec.allOnes 64
  | .lo => BitVec.ofNat 64 (2 ^ 32 - 1)
  | .hi => BitVec.ofNat 64 ((2 ^ 32 - 1) * 2 ^ 32)

/-- The value written, in its half. -/
def RegWrite.bits (w : RegWrite) : W64 :=
  (match w.half with
   | .hi => BitVec.ofNat 64 (w.value % 2 ^ 32 * 2 ^ 32)
   | _ => BitVec.ofNat 64 w.value) &&& halfMask w.half

/-- A write that names a register: what the register held, what the access codes leave in it, and the bits written as 1. -/
structure Written where
  old : W64
  new : W64
  ones : W64
  deriving DecidableEq, Repr

/-- What the access codes leave of a write (R16, R730): RW bits, and RWL bits until they are locked, take the value written; a 1
clears a W1C bit; other bits keep theirs. -/
def applyCodes (rows : List FieldRow) (locked : Bool) (old : W64) (w : RegWrite) : Written :=
  let v := w.bits
  let rw := rowsMask rows (fun a => decide (a = .rw) || (decide (a = .rwl) && !locked)) &&& halfMask w.half
  let w1c := rowsMask rows (fun a => decide (a = .w1c))
  ⟨old, ((old &&& ~~~rw) ||| (v &&& rw)) &&& ~~~(v &&& w1c), v⟩

/-- The write of a register by its access codes. -/
def State.written (s : State) (r : Reg) (w : RegWrite) : Written := applyCodes r.rows s.locked (s.get r) w

/-- A write of 1 to a field of one bit. -/
def Written.hit (w : Written) (f : Fld) : Bool := decide (fldGet w.ones f ≠ 0)

/-- A field as it stands after the write. -/
def Written.field (w : Written) (f : Fld) : Nat := fldGet w.new f

/-- The value of a read: the register as seen by a master, 0 where it does not reach it (R15, R454, R728). -/
def State.regValue (s : State) (m : Master) (r : Reg) : W64 :=
  if s.masterReaches m r && s.reachable r.home.1 r.home.2 then s.view r &&& rowsMask r.rows (fun a => decide (a ≠ .wo)) else 0#64

/-- Clear the fields of a statistics register that its CLEAR bit clears, where that bit is written as 1 (R239, R263). -/
def State.clearStat (s : State) (r : Reg) (w : RegWrite) (clear : Fld) (fs : List Fld) : State :=
  if (s.written r w).hit clear then fs.foldl (fun s f => s.fput r f 0) s else s

end Sys2Proof.Machine
end

