-- ==== Sys2Proof/Machine/FabricOps.lean ====
section
/-! DEFINITION. The Nirsavor fabric's shared operations (R407 to R432): packets, flits, routing and replies. -/

namespace Sys2Proof.Machine

/-! ### Packets (R413) -/

/-- KIND (R414). -/
def Packet.kind (p : Packet) : Nat := bitsOf p.w0 0 8
/-- VC. -/
def Packet.vc (p : Packet) : Nat := bitsOf p.w0 8 2
/-- X. -/
def Packet.x (p : Packet) : Bool := bitAt p.w0 10
/-- DST. -/
def Packet.dst (p : Packet) : Nat := bitsOf p.w0 12 12
/-- SRC. -/
def Packet.src (p : Packet) : Nat := bitsOf p.w0 24 12
/-- FLOW. -/
def Packet.flow (p : Packet) : Nat := bitsOf p.w0 36 8
/-- RHR. -/
def Packet.rhr (p : Packet) : Nat := bitsOf p.w0 44 4
/-- TAG. -/
def Packet.tag (p : Packet) : Nat := bitsOf p.w0 48 16
/-- ADDR. -/
def Packet.addr (p : Packet) : Nat := bitsOf p.w1 0 48
/-- LEN. -/
def Packet.len (p : Packet) : Nat := bitsOf p.w1 48 9
/-- HOPS. -/
def Packet.hops (p : Packet) : Nat := bitsOf p.w1 57 6

/-- A packet's words from its fields. -/
def mkPacket (kind vc : Nat) (x : Bool) (dst src flow rhr tag addr len hops : Nat) (data : List Byte) : Packet :=
  ⟨kind + (vc % 4) <<< 8 + (b2n x) <<< 10 + (dst % 4096) <<< 12 + (src % 4096) <<< 24 + (flow % 256) <<< 36 + (rhr % 16) <<< 44 +
     (tag % 65536) <<< 48, addr % 2 ^ 48 + (len % 512) <<< 48 + (hops % 64) <<< 57, data⟩

/-- Replace a field of `width` bits at `lo` of a number. -/
def putBits (w lo width v : Nat) : Nat := w - bitsOf w lo width * 2 ^ lo + v % 2 ^ width * 2 ^ lo

/-- The packet is a reply (R414). -/
def Packet.isReply (p : Packet) : Bool := decide (0x41 ≤ p.kind) && decide (p.kind ≤ 0x43)

/-- A packet breaks the rule of R413: an undefined KIND, LEN above 256, or an unlisted bit that is 1. -/
def Packet.malformed (p : Packet) : Bool :=
  !([0x01, 0x02, 0x03, 0x04, 0x41, 0x42, 0x43].contains p.kind) || bitAt p.w0 11 || bitAt p.w1 63 || decide (256 < p.len) ||
  (p.isReply && decide (bitsOf p.w1 8 40 ≠ 0))

/-- The packet's bytes on a link (R411). -/
def Packet.bytes (p : Packet) : List Byte := leBytes 8 p.w0 ++ leBytes 8 p.w1 ++ p.data

/-- Credits that a packet takes (R418). -/
def Packet.credits (p : Packet) : Nat := ceilDiv (16 + p.data.length) 64

/-- Its place in the list of a port's credits: request VCs 0 to 3, then reply VCs 0 to 3. -/
def Packet.lane (p : Packet) : Nat := (if p.isReply then 4 else 0) + p.vc

/-! ### Ports -/

/-- A fabric port. -/
def State.fab (s : State) (d p : Nat) : FabPort := smGet FabPort.init s.fabPorts (6 * d + p)
/-- Replace a fabric port. -/
def State.setFab (s : State) (d p : Nat) (v : FabPort) : State := { s with fabPorts := smPut s.fabPorts (6 * d + p) v }

/-- STATE of a port (R448). -/
def State.portState (s : State) (d p : Nat) : Nat := s.fget (.linkPortStatus d p) LINK_PORT_STATUS_STATE

/-- I/O die d is present and up. -/
def State.ioUp (s : State) (d : Nat) : Bool := s.dieUp (4 + d)

/-- The mask of up ports of an I/O die (R422). -/
def State.upPorts (s : State) (d : Nat) : Nat :=
  if s.ioUp d then maskOf ((List.range 6).filter fun p => decide (s.portState d p = 2)) else 0

/-- The mask of twin ports of an I/O die (R422). -/
def State.twinPorts (s : State) (d : Nat) : Nat :=
  maskOf ((List.range 6).filter fun p => decide (s.fget (.linkPortCtl d p) LINK_PORT_CTL_TWIN = 1))

/-- The port chosen by the flow hash from a mask of `n` ports (R422). -/
def pickPort (n mask : Nat) (p : Packet) : Option Nat :=
  let h := (p.src ^^^ (2 * p.dst) ^^^ (17 * p.flow)) % 4096
  if popcount n mask = 0 then none else nthSetBit n mask (h % popcount n mask)

/-- The part's device ID (R442). -/
def State.deviceId (s : State) : Nat := s.fget (.linkId 0) LINK_ID_DEVICE_ID

/-- A flit with its CRC (R410, R377): the ACK names the last flit received whole and in order. -/
def linkFlit (seq ack : Nat) (content : List Byte) : List Byte :=
  let body := leBytes 2 (seq % 4096) ++ leBytes 2 (ack % 4096) ++ content ++ List.replicate (632 - content.length) 0#8
  body ++ leBytes 4 (crc32c body)

/-- The message of a codeword (R409): a link flit and 20 bits, of which the low 12 are the running codeword count, least significant first
and filled up with zero to whole bytes. -/
def codeword (count : Nat) (flit : List Byte) : List Byte := flit ++ leBytes 3 (count % 4096)

/-- Send one flit of a port that is up, in the next codeword (R409, R410). -/
def State.sendFlit (s : State) (d p seq : Nat) (content : List Byte) : State :=
  if s.portState d p ≠ 2 then s
  else
    let f := s.fab d p
    (s.setFab d p { f with codewords := (f.codewords + 1) % 4096 }).emit
      (.fabric d p (codeword f.codewords (linkFlit seq (f.expected + 4095) content)))

/-- Send the next flit of a port, which its replay buffer keeps with the packets that end in it (R410, R412). -/
def State.putFlit (s : State) (d p : Nat) (content : List Byte) (ends : List Packet) : State :=
  let f := s.fab d p
  (s.setFab d p { f with unacked := f.unacked ++ [(f.next, content)], sent := f.sent ++ ends.map fun k => (f.next, k),
                         next := (f.next + 1) % 4096 }).sendFlit d p f.next content

/-- The division of a link island's clock (R439, R553). -/
def State.divider (s : State) (u : Nat) : Nat := 2 ^ (s.throttle u).level

/-- Send content (R411, R439): while the island's clock is divided by n, in one flit of every n, and padding in the others. -/
def State.sendContent (d p : Nat) : State → List (List Byte × List Packet) → State
  | s, [] => s
  | s, c :: cs =>
    (Nat.repeat (fun s => if 1024 ≤ (s.fab d p).unacked.length then s else s.putFlit d p [] []) (s.divider (1024 + 6 * d + p) - 1)
      (s.putFlit d p c.1 c.2)).sendContent d p cs

/-- Send a link control packet (R414): it takes no credits. -/
def State.sendControl (s : State) (d p : Nat) (bytes : List Byte) : State := s.sendContent d p [(bytes, [])]

/-- Where packets end in a stream without gaps, which has `n` bytes before them (R378, R411). -/
def streamEnds {α : Type} (bytes : α → List Byte) : Nat → List α → List (Nat × α)
  | _, [] => []
  | n, p :: ps => (n + (bytes p).length, p) :: streamEnds bytes (n + (bytes p).length) ps

/-- Packets packed without gaps into flits of `size` bytes of content, with the packets that end in each (R378, R411). -/
def packStream {α : Type} (size : Nat) (bytes : α → List Byte) (ps : List α) : List (List Byte × List α) :=
  let all := ps.flatMap bytes
  (List.range (ceilDiv all.length size)).map fun i =>
    ((all.drop (size * i)).take size,
     ((streamEnds bytes 0 ps).filter fun e => decide (size * i < e.1) && decide (e.1 ≤ size * (i + 1))).map Prod.snd)

/-- The waiting packets that a port can send now, in order (R412, R418): a VC without credit holds only its own packets; no more than
`room` flits go. -/
def fabTake (room : Nat) : Nat → List Nat → List Nat → List Packet → List Packet
  | _, _, _, [] => []
  | n, credits, blocked, k :: ks =>
    if blocked.contains k.lane || decide (wordAt credits k.lane < k.credits) then fabTake room n credits (k.lane :: blocked) ks
    else if room < ceilDiv (n + k.bytes.length) 632 then []
    else k :: fabTake room (n + k.bytes.length) (credits.set k.lane (wordAt credits k.lane - k.credits)) blocked ks

/-- Send what a port can send (R411, R412, R418, R439); one that is not up holds its packets (R438), and 1,024 unacknowledged flits hold
every one. -/
def State.pumpPort (s : State) (d p : Nat) : State :=
  let f := s.fab d p
  let go := fabTake (ceilDiv (1024 - f.unacked.length) (s.divider (1024 + 6 * d + p))) 0 f.credits [] f.queue
  if s.portState d p ≠ 2 ∨ go.isEmpty then s
  else
    (s.setFab d p { f with queue := go.foldl List.erase f.queue,
                           credits := go.foldl (fun c k => c.set k.lane (wordAt c k.lane - k.credits)) f.credits }).sendContent d p
      (packStream 632 Packet.bytes go)

/-- The flits up to one are acknowledged: `left` stay in the replay buffer (R412). -/
def FabPort.acked (f : FabPort) (left : List (Nat × List Byte)) : FabPort :=
  { f with unacked := left, sent := f.sent.filter fun e => left.any fun u => decide (u.1 = e.1) }

/-- Queue a packet at a port (R419): its VC rises by one, at most to 3, where the route entry that chose the port says so. -/
def State.enqueue (s : State) (d p : Nat) (k : Packet) (vcUp : Bool) : State :=
  let k := if vcUp then { k with w0 := putBits k.w0 8 2 (min 3 (k.vc + 1)) } else k
  let f := s.fab d p
  (s.setFab d p { f with queue := f.queue ++ [k] }).pumpPort d p

/-! ### Routing (R422) -/

/-- Where a packet goes. -/
inductive Route
  | deliver
  | port (d p : Nat) (vcUp : Bool)
  /-- No usable port, and the status that says so: NO_ROUTE, or FENCED behind a GOODBYE (R422, R429). -/
  | none (status : Nat)
  deriving DecidableEq, Repr

/-- The status of a packet that no port of a set can take (R415, R422, R429). -/
def State.noRoute (s : State) (d ports : Nat) : Nat :=
  if (List.range 6).any fun p => bitAt ports p && decide (s.portState d p = 8) then 1 else 3

/-- The route of a packet made on this part (R422, R425): twin traffic is limited to the package ports of `ports`. -/
def State.routeOut (s : State) (k : Packet) (ports : Nat) : Route :=
  if k.x then
    let m := (List.range 4).foldl (fun a d => a + (s.upPorts d &&& s.twinPorts d &&& bitsOf ports (6 * d) 6) * 2 ^ (6 * d)) 0
    match pickPort 24 m k with
    | some n => .port (n / 6) (n % 6) false
    | none => .none 3
  else if k.dst = s.deviceId then .deliver
  else
    let entry := fun d => s.get (.linkRouteData d k.dst)
    match (List.range 4).find? fun d =>
      decide (fldGet (entry d) LINK_ROUTE_DATA_ORIGIN = 1) && decide (fldGet (entry d) LINK_ROUTE_DATA_PORTS &&& s.upPorts d ≠ 0) with
    | none =>
      .none (((List.range 4).find? fun d => decide (fldGet (entry d) LINK_ROUTE_DATA_ORIGIN = 1) && s.ioUp d &&
        decide (s.noRoute d (fldGet (entry d) LINK_ROUTE_DATA_PORTS) = 1)).elim 3 fun _ => 1)
    | some d =>
      match pickPort 6 (fldGet (entry d) LINK_ROUTE_DATA_PORTS &&& s.upPorts d) k with
      | some p => .port d p (fldGet (entry d) LINK_ROUTE_DATA_VC_UP == 1)
      | none => .none 3

/-- A free tag for a request (R428): where none is left, the tag that timed out first. -/
def State.freeTag (s : State) : Nat :=
  ((List.range (s.fabReqs.length + s.fabQuarantine.length + 1)).findSome? fun i =>
    let t := (s.fabTag + i) % 65536
    if (s.fabReqs.any fun r => decide (r.tag = t)) || s.fabQuarantine.contains t then none else some t).getD (s.fabQuarantine.headD 0)

/-- The tweak block of a packet's data (R603). -/
def fabTweak (k : Packet) (reply : Bool) (index : Nat) (addr : Nat) : List Byte :=
  leBytes 6 addr ++ leBytes 2 k.src ++ leBytes 2 k.dst ++ [BitVec.ofNat 8 (b2n reply)] ++ leBytes 2 index ++ List.replicate 3 0#8

/-- Encrypt or decrypt the data of a packet under a homeroom's fabric key (R603), where its PROTECT is set. -/
def State.fabCrypt (s : State) (enc : Bool) (hr : Nat) (k : Packet) (reply : Bool) (index addr : Nat) (data : List Byte) : List Byte :=
  match (s.hr hr).keys.fabric with
  | some key => if (s.hr hr).protect ∧ 16 ≤ data.length then sm4Xts enc (key.take 16) (key.drop 16) (fabTweak k reply index addr) data else data
  | none => data

/-- The die from which a request is issued (R416). -/
def FabIssuer.die : FabIssuer → Nat
  | .descriptor _ _ => 4
  | .pail d _ _ => d

/-- Issue a request (R393, R416, R422, R428): its tag, HOPS and source are set; where no route leads to its destination, or no path to the
I/O die that it is to leave by, a status says so. -/
def State.fabIssue (s : State) (k : Packet) (ports : Nat) (issuer : FabIssuer) (index : Nat) : State × Route :=
  let tag := s.freeTag
  let k := mkPacket k.kind k.vc k.x k.dst s.deviceId k.flow k.rhr tag k.addr k.len (s.fget (.linkCtl 0) LINK_CTL_MAX_HOPS) k.data
  match s.routeOut k ports with
  | .none st => (s, .none st)
  | .deliver => ({ s with fabReqs := s.fabReqs ++ [(⟨tag, k, issuer, index, none, none⟩ : FabReq)], fabTag := tag + 1 }.emit (.message "DELIVER" [k.w0, k.w1]), .deliver)
  | .port d p up =>
    if !s.diesLinked issuer.die (4 + d) then (s, .none 2)
    else (({ s with fabReqs := s.fabReqs ++ [(⟨tag, k, issuer, index, some (6 * d + p), none⟩ : FabReq)], fabTag := tag + 1 }.enqueue d p k up), .port d p up)

/-- The ADDR of a PAIL packet (R417). -/
def pailAddr (msg die ringId pos step run : Nat) : Nat :=
  msg % 16 + die % 4 * 2 ^ 4 + ringId % 65536 * 2 ^ 6 + pos % 64 * 2 ^ 22 + step % 128 * 2 ^ 28 + run % 256 * 2 ^ 35

/-- Send a pail manager message (R302, R310, R417): one packet of at most 256 data bytes after another, of one flow; those of DATA,
RIDER and SHADOW_DATA are protected (R603). False where no route leads to the peer. -/
def State.sendPailMsg (s : State) (d hr : Nat) (x : Bool) (dst ports addr key : Nat) (data : List Byte) : State × Bool :=
  let chunks := if data.isEmpty then [[]] else blocksOf 256 (ceilDiv data.length 256) data
  let msg := addr % 16
  let prot := decide (msg = 3) || decide (msg = 4) || decide (msg = 8)
  (List.range chunks.length).foldl (fun (r : State × Bool) i =>
    if !r.2 then r
    else
      let c := chunks.getD i []
      let k0 := mkPacket 0x04 0 x dst r.1.deviceId d hr 0 addr c.length 0 c
      let k := if prot then { k0 with data := r.1.fabCrypt true hr k0 false i addr c } else k0
      match r.1.fabIssue k ports (.pail d msg key) i with
      | (t, .none _) => (t, false)
      | (t, _) => (t, true)) (s, true)

end Sys2Proof.Machine
end

