-- ==== Sys2Proof/Machine/Slices.lean ====
section
/-! DEFINITION. Slices (R172 to R198): the commands of the slice controllers. -/

namespace Sys2Proof.Machine

/-- Answer a request of a memory. -/
def State.answer {α : Type} (s : State) (rq : Requester) (r : Res α) (data : α → List Byte) : State :=
  match r with
  | .ok v => s.emit (.reply rq (data v))
  | .error e => s.emit (.replyError rq e)

/-- The requester of a grain request (R174). -/
def SliceSource.requester (c : Nat) : SliceSource → Requester
  | .engine => .scrub
  | .other rq => rq
  | _ => .core c

/-- A source that the controller does not accept (R174). -/
def SliceSource.foreign : SliceSource → Bool
  | .other _ => true
  | _ => false

/-- A grain request is performed and answered (R175 to R177, R188). -/
def State.sliceServe (s : State) (c : Nat) (q : SliceReq) : State :=
  match q.acc with
  | .read off len transient =>
    let (u, r) := s.nearRead (q.src.requester c) .slice c (256 * q.grain + off) len transient
    u.answer (q.src.requester c) r id
  | .write off bytes =>
    let (u, r) := s.nearWrite (q.src.requester c) .slice c (256 * q.grain + off) bytes
    u.answer (q.src.requester c) r fun _ => []

/-- Grain requests that wait are performed, in the order in which they were accepted (R176), unless the port is frozen. -/
def State.sliceDrain (s : State) (c : Nat) : State :=
  if s.arbFrozen (c / 64) (slicePort c) then s
  else (s.near c).outstanding.foldl (fun s q => s.sliceServe c q) (s.setNear c { s.near c with outstanding := [] })

/-- A grain request is accepted (R174 to R176, R342): one of the core's port waits while the port is frozen, at most 64 of them; the
controller's own engines do not use the port. -/
def State.sliceAccept (s : State) (c : Nat) (q : SliceReq) : State :=
  let waiting := (s.near c).outstanding
  if q.src ≠ .engine ∧ s.arbFrozen (c / 64) (slicePort c) then
    if waiting.length < 64 then s.setNear c { s.near c with outstanding := waiting ++ [q] } else s
  else if waiting.isEmpty then s.sliceServe c q
  else (s.sliceDrain c).sliceServe c q

/-- SLICE_REQUEST (R174 to R177, R188): a grain request of the core's port or of the controller's engines; from any other source it is a
bus error to its requester. -/
def execSliceRequest (c grain : Nat) (src : SliceSource) (acc : SliceAccess) (s : State) : Host.Outcome State Fault Refusal :=
  if src.foreign || decide (sliceBytes ≤ 256 * grain) || !s.coreUsable c then .next (s.emit (.replyError (src.requester c) .unbacked))
  else .next (s.sliceAccept c ⟨grain, src, acc⟩)

/-- SLICE_REFRESH (R180, R181, R190): a bank's interval expires; the command is postponed while the bank is busy and fewer than
eight are owed, else it is issued with those owed. A stopped slice is not refreshed. -/
def execSliceRefresh (c bank : Nat) (busy : Bool) (s : State) : Host.Outcome State Fault Refusal :=
  if s.fget (.nearStatus c) NEAR_STATUS_STATE = 0 then .next s
  else
    let p := s.near c
    let owed := smGet 0 p.owed bank
    .next (s.setNear c (if busy ∧ owed < 8 then { p with owed := smPut p.owed bank (owed + 1) } else p.refresh bank (owed + 1)))

/-- CHANNEL_POWER_DOWN (R193): an IDLE_LIMIT of 0 disables it (R194). -/
def execChannelPowerDown (c channel : Nat) (s : State) : Host.Outcome State Fault Refusal :=
  if s.fget (.nearCtl c) NEAR_CTL_IDLE_LIMIT = 0 then .next s
  else .next (s.setNear c { s.near c with poweredDown := (s.near c).poweredDown ||| 2 ^ channel })

/-- The offsets a write may leave (R187): a field that would rise above its fused value keeps its own. -/
def layerOffsets (fused old new : W64) : W64 :=
  [NEAR_LAYER_OFFSET_OFS0, NEAR_LAYER_OFFSET_OFS1, NEAR_LAYER_OFFSET_OFS2, NEAR_LAYER_OFFSET_OFS3].foldl
    (fun w f => if fldGet new f ≤ fldGet fused f then fldSet w f (fldGet new f) else w) old

/-- A write of `NEAR_LAYER_OFFSET` (R187, R196). -/
def State.layerOffsetWrite (s : State) (c : Nat) (w : RegWrite) : State :=
  let x := s.written (.nearLayerOffset c) w
  s.put (.nearLayerOffset c) (layerOffsets (s.resetOf (.nearLayerOffset c)) x.old x.new)

/-- LAYER_OFFSET_WRITE (R187, R196). -/
def execLayerOffsetWrite (c : Nat) (w : RegWrite) (s : State) : Host.Outcome State Fault Refusal :=
  .next (s.guarded w.master (.nearLayerOffset c) fun s => s.layerOffsetWrite c w)

end Sys2Proof.Machine
end

