-- ==== Sys2Proof/Machine/FarMem.lean ====
section
/-! DEFINITION. Far memory, the separator and the shared cache (R199 to R239, R629): the commands of the family. -/

namespace Sys2Proof.Machine

/-- Bytes that a request names. -/
def ScKind.len : ScKind → Nat
  | .read n => n
  | .write bs => bs.length
  | .atomic _ w _ _ => w

/-- A request is a read. -/
def ScKind.isRead : ScKind → Bool
  | .read _ => true
  | _ => false

/-- A write that covers a whole grain (R213). -/
def ScKind.whole : ScKind → Bool
  | .write bs => decide (bs.length = 256)
  | _ => false

/-- What an operation returns (R217): a floating-point add nothing, and a REDUCE, which a core issues, nothing; the 64-bit add of a core may
be a SYNC's, and returns the old value. -/
def atomReply (rq : Requester) (op : AtomOp) (width old : Nat) : List Byte :=
  match op, rq with
  | .fp32Add, _ => []
  | .bf16Add, _ => []
  | .add, .core _ => if width = 8 then leBytes width old else []
  | _, .core _ => []
  | _, _ => leBytes width old

/-- Sectors that a request needs and the cache does not hold (R201, R202, R213). -/
def State.scMissing (s : State) (q : ScReq) : List Nat :=
  let c := s.lineAt q.pa
  if q.kind.whole then [] else s.missing q.hr c (sectorsFor c.narrow (q.pa % 256) q.kind.len)

/-- Note a grant of a slice's miss queue (R228): whether it went to a tagged read out of age order. -/
def State.missGrant (s : State) (slice : Nat) (late : Bool) : State :=
  { s with missRecent := smPut s.missRecent slice ((late :: smGet [] s.missRecent slice).take 64) }

/-- Start a fill for a request that misses (R213, R214, R223): it waits at the far port for its grants. -/
def State.openFill (s : State) (q : ScReq) (late : Bool) : State :=
  let c := s.lineAt q.pa
  let secs := s.scMissing q
  let t := { s with fills := s.fills ++ [(⟨c.grain, c.slice, q.hr, maskOf secs, [q], 0, 0, []⟩ : Fill)] }
  (t.missGrant c.slice late).askPort (s.fillSite c) (s.fillReq c q.hr (if c.narrow then secs.length else 1) (q.tagged && q.kind.isRead))

/-- Start a fill, or wait for one of the slice's 256 (R211). -/
def State.startFill (s : State) (q : ScReq) (late : Bool) : State :=
  if 256 ≤ (s.fills.filter fun f => decide (f.slice = (s.lineAt q.pa).slice)).length then { s with fillWaits := s.fillWaits ++ [q] }
  else s.openFill q late

/-- A request waits behind the pending fill of its line (R214, R215): a read that misses on sectors that the fill brings joins it, which
`SC_STAT.MERGES` counts, while fewer than 32 have. -/
def State.joinQueue (s : State) (q : ScReq) : State :=
  let c := s.lineAt q.pa
  let secs := s.scMissing q
  let joins := fun (f : Fill) => q.kind.isRead && decide (f.joins < 32) && !secs.isEmpty && secs.all f.sectors.testBit
  let counted := s.fills.any fun f => decide (f.grain = c.grain) && joins f
  let t := { s with fills := s.fills.map fun f =>
    if f.grain = c.grain then { f with queue := f.queue ++ [q], joins := if joins f then f.joins + 1 else f.joins } else f }
  if counted then t.fadd (.scStat c.slice) SC_STAT_MERGES 1 else t

/-- Answer a request at its home slice (R393, R398): a requester on a die that is down gets no reply, and one to which no path is left
DIE_LOST. -/
def State.respond {α : Type} (s : State) (q : ScReq) (r : Res α) (data : α → List Byte) : State :=
  if q.rq.die.any fun d => !s.dieUp d then s
  else s.answer q.rq (if s.linked q.rq ((s.lineAt q.pa).loc.site / 3) then r else .error .dieLost) data

/-- Perform a request at its home slice, the line holding what it needs (R213 to R217); where its frame has just failed (R631), a fill
starts. -/
def State.perform (s : State) (q : ScReq) : State :=
  match q.kind with
  | .read n =>
    match s.lineRead q.rq q.hr q.pa n 0 (!s.noAllocate q.pa) with
    | (_, .error (.held _)) => s.startFill q false
    | (t, r) => t.respond q r id
  | .write bs =>
    match s.lineWrite q.rq q.hr q.pa bs with
    | (_, .error (.held _)) => s.startFill q false
    | (t, r) => t.respond q r fun _ => []
  | .atomic op w v x =>
    match s.lineAtomic q.rq q.hr q.pa op w v x with
    | (_, .error (.held _)) => s.startFill q false
    | (t, r) => t.respond q r (atomReply q.rq op w)

/-- A write or update of a core that is fenced, which its home slice had not accepted before, is not performed (R66, R69). -/
def State.cutOff (s : State) (q : ScReq) : Bool :=
  !q.kind.isRead && (match q.rq with | .core c => decide (2 ≤ s.coreState c) | .tutor c => decide (2 ≤ s.coreState c) | _ => false)

/-- The granules of its line that a request tests in the cache (R631). -/
def ScReq.tests (q : ScReq) : List Nat :=
  match q.kind with
  | .write bs => partGranules (q.pa % 256) bs.length
  | k => lineGranules (q.pa % 256) k.len

/-- A request reaches its home slice (R27, R210, R214, R215, R254, R255): it fails, is held, waits behind the pending fill of its line or
those that wait for one, is performed, or starts a fill. -/
def State.submit (s : State) (q : ScReq) (late : Bool) : State :=
  match s.lineErr q.pa with
  | some e => s.emit (.replyError q.rq e)
  | none =>
    let c := s.lineAt q.pa
    if s.cutOff q then s
    else if !s.linked q.rq (c.loc.site / 3) then s.emit (.replyError q.rq .dieLost)
    else if s.farBlocked q.pa (!q.kind.isRead) then { s with heldAccess := s.heldAccess ++ [q] }
    else if s.fills.any fun f => decide (f.grain = c.grain) then s.joinQueue q
    else if s.fillWaits.any fun w => decide (w.pa / 256 = c.grain) then { s with fillWaits := s.fillWaits ++ [q] }
    else
      let (t, ok) := s.testLine q.rq c q.tests
      if !ok then t.emit (.replyError q.rq .check)
      else if (t.scMissing q).isEmpty then t.perform q else t.startFill q late

/-- Serve a request from what a fill brought, where the line is not in the cache (R213, R217, R629, R630). -/
def State.serveHit (s : State) (c : LineAt) (h : LineHit) (q : ScReq) : State :=
  let off := q.pa % 256
  match q.kind with
  | .read n => s.respond q (h.read off n) id
  | .write bs => let (t, r) := s.writeHit c h off bs; t.respond q r fun _ => []
  | .atomic op w v x =>
    if off % w ≠ 0 then s.emit (.replyError q.rq .misaligned)
    else match h.read off w with
      | .error e => s.emit (.replyError q.rq e)
      | .ok bs =>
        let (t, r) := s.writeHit c h off (leBytes w (atomNew op w (leNat bs) (v % 2 ^ (8 * w)) x))
        (match r with | .ok _ => t.fadd (.scStat c.slice) SC_STAT_ATOMICS 1 | .error _ => t).respond q r fun _ =>
          atomReply q.rq op w (leNat bs)

/-- Answer the requests of a completed fill in their order of arrival (R215, R254, R629): from the line, or from what the fill brought where
the line is not kept; one that needs sectors which it did not bring starts a fill with those behind it. -/
def State.serveFill (c : LineAt) (h : LineHit) : State → List ScReq → State
  | s, [] => s
  | s, q :: qs =>
    let cached := (smFind s.lines c.grain).isSome
    let lacks := if cached then !(s.scMissing q).isEmpty
      else !q.kind.whole && (sectorsFor c.narrow (q.pa % 256) q.kind.len).any fun k => !h.line.valid.testBit k
    if s.farBlocked q.pa (!q.kind.isRead) then { s with heldAccess := s.heldAccess ++ [q] }.serveFill c h qs
    else if lacks then qs.foldl (fun s q => s.joinQueue q) (s.openFill q false)
    else if cached || q.kind.whole then (s.perform q).serveFill c h qs
    else (s.serveHit c h q).serveFill c h qs

/-- Submit requests one after another. -/
def State.submitAll : State → List ScReq → State
  | s, [] => s
  | s, q :: qs => (s.submit q false).submitAll qs

/-- The request that a slice's miss queue grants next (R228): in priority mode the oldest tagged read, while fewer than PRIO_SHARE of the last
64 grants went to such reads out of age order; else the oldest. -/
def State.nextMiss (s : State) (slice : Nat) : Option ScReq :=
  let waits := s.fillWaits.filter fun q => decide ((s.lineAt q.pa).slice = slice)
  match waits.find? fun q => q.tagged && q.kind.isRead with
  | some q =>
    let f := s.fillSite (s.lineAt q.pa)
    if (s.farPort f).mode = 1 ∧ ((smGet [] s.missRecent slice).filter id).length < s.fget (.farMode f) FAR_MODE_PRIO_SHARE then some q
    else waits.head?
  | none => waits.head?

/-- One of a slice's fills has ended (R211, R215): the next request that waits for one goes on, with those behind it at its line. -/
def State.popMiss (s : State) (slice : Nat) : State :=
  match s.nextMiss slice with
  | none => s
  | some q =>
    let same := s.fillWaits.filter fun w => decide (w.pa / 256 = q.pa / 256)
    let late := match s.fillWaits.find? fun w => decide ((s.lineAt w.pa).slice = slice) with | some w => decide (w ≠ q) | none => false
    let t := { s with fillWaits := s.fillWaits.filter fun w => decide (w.pa / 256 ≠ q.pa / 256) }
    (t.submit (same.headD q) late).submitAll same.tail

/-- The data of a fill arrives (R213, R214, R629): with the granules of `transient` failing as `fetchGranule` says. Units whose steps joined
it read the line, with no further charge where it is not kept (R224). -/
def State.finishFill (s : State) (f : Fill) (transient : Nat) : State :=
  let pa := f.grain * 256
  let c := s.lineAt pa
  let s := { s with fills := s.fills.filter fun g => decide (g.grain ≠ f.grain), paid := s.paid ++ f.steps.map fun rq => (rq, f.grain) }
  let rq := match f.queue with | q :: _ => q.rq | [] => .core 0
  match s.lineErr pa with
  | some e => f.queue.foldl (fun s q => s.emit (.replyError q.rq e)) s
  | none =>
    let (t, h) := s.fillLine rq f.hr c ((List.range 8).filter f.sectors.testBit) transient (!s.noAllocate pa)
    (t.serveFill c h f.queue).popMiss c.slice

/-- Granules of a fill that fail their first read at the controller (R629). -/
def State.firstFails (s : State) (f : Fill) (transient : Nat) : Nat :=
  let c := s.lineAt (f.grain * 256)
  maskOf ((List.range 16).filter fun g =>
    f.sectors.testBit (g / 2) && (transient.testBit g || s.slips.contains (farSlip c.loc g) || decide (s.farDiff c.loc g ≠ 0)) &&
      !s.farGone c.loc.site)

/-- SC_READ (R213 to R215). -/
def execScRead (rq : Requester) (hr pa len : Nat) (tagged : Bool) (s : State) : Host.Outcome State Fault Refusal :=
  .next (s.submit ⟨rq, hr, pa, .read len, tagged && match rq with | .core _ => true | _ => false⟩ false)

/-- SC_WRITE (R213, R216). -/
def execScWrite (rq : Requester) (hr pa : Nat) (bytes : List Byte) (s : State) : Host.Outcome State Fault Refusal :=
  .next (s.submit ⟨rq, hr, pa, .write bytes, false⟩ false)

/-- SC_ATOMIC (R217 to R219). -/
def execScAtomic (rq : Requester) (hr pa : Nat) (op : AtomOp) (width v expected : Nat) (s : State) : Host.Outcome State Fault Refusal :=
  .next (s.submit ⟨rq, hr, pa, .atomic op width v expected, false⟩ false)

/-- A fill of a line has not had all its grants. -/
def FarPort.awaits (p : FarPort) (grain : Nat) : Bool := (p.waiting ++ p.outside).any fun w => w.read && decide (w.id = grain)

/-- A request has had a grant (R202, R224): it leaves its queue with its last one. -/
def FarPort.served (p : FarPort) (r : FarReq) : FarPort :=
  if r.left ≤ 1 then { p with waiting := p.waiting.erase r }
  else { p with waiting := p.waiting.set (p.waiting.findIdx fun w => decide (w = r)) { r with left := r.left - 1 } }

/-- A request of a slice that waits for a pseudo-channel's queue enters it, once the queue's arbiter has granted it (R337). -/
def State.enterFar (s : State) (f pc r : Nat) : State :=
  let p := s.farPort f
  match p.outside.find? fun w => decide (w.pc = pc) && decide (w.from' = r) with
  | some w => s.setFarPort f { p with outside := p.outside.erase w, waiting := p.waiting ++ [w] }
  | none => s

/-- A share of `FAR_SHARE` (R236). -/
def State.farShareOf (s : State) (f h : Nat) : Nat := bitsOf (s.get (.farShare f (h / 4))).toNat (16 * (h % 4)) 16

/-- FAR_REFRESH (R199, R252, R263): a refresh of a bank (pseudo-channel × 64 + bank) is issued with those owed, or postponed while fewer
than 8 are owed. Those issued while a sequence runs on the pseudo-channel are inserted between its row steps. -/
def execFarRefresh (f bank : Nat) (postpone : Bool) (s : State) : Host.Outcome State Fault Refusal :=
  let p := s.farPort f
  let owed := smGet 0 p.owed bank
  if postpone ∧ owed < 8 then .next (s.setFarPort f { p with owed := smPut p.owed bank (owed + 1) })
  else
    let t := s.setFarPort f { p with owed := smPut p.owed bank 0, refreshes := smPut p.refreshes bank (smGet 0 p.refreshes bank + owed + 1) }
    .next (if (s.ladle f).seqs.any fun q => decide (q.pc = bank / 64) && q.flushed then t.fadd (.ldlStat f) LDL_STAT_REFRESH_INSERTS (owed + 1)
      else t)

/-- The bits of a SEP register that a write may not change (R209): those of sets of active homerooms. -/
def State.sepLocked (s : State) (i : Nat) : W64 :=
  BitVec.ofNat 64 (maskOf ((List.range 64).filter fun k => match s.mapOwner (64 * i + k) with
    | some (h, _) => s.hrActive h
    | none => false))

/-- Take the pending fills of a set away, the requests that wait for them or at them being held (R210, R259). -/
def State.dropFills (s : State) (n : Nat) : State :=
  let moved := s.fills.filter fun f => decide (setOf s.variant (f.grain * 256) = n)
  let keeps := fun (w : FarReq) => !w.read || !moved.any fun f => decide (f.grain = w.id)
  { s with fills := s.fills.filter fun f => decide (setOf s.variant (f.grain * 256) ≠ n),
           fillWaits := s.fillWaits.filter fun q => decide (setOf s.variant q.pa ≠ n),
           heldAccess := s.heldAccess ++ moved.flatMap Fill.queue ++ s.fillWaits.filter fun q => decide (setOf s.variant q.pa = n),
           farPorts := s.farPorts.map fun (e : Nat × FarPort) =>
             (e.1, { e.2 with waiting := e.2.waiting.filter keeps, outside := e.2.outside.filter keeps }) }

/-- Write back and invalidate every line of a set (R210). -/
def State.flushSet (s : State) (n : Nat) : State :=
  let s := s.dropFills n
  (s.lines.filter fun e => decide (setOf s.variant (e.1 * 256) = n)).foldl (fun s e => s.flushLine e.1) s

/-- Every far stack's part of a set holds zero bytes with valid check bits (R259, R635). -/
def State.zeroSet (s : State) (n : Nat) : State :=
  (List.range 12).foldl (fun s f =>
    let lo := f * 2 ^ 37 + n * 2 ^ 30
    { s with far := smClear s.far lo (lo + 2 ^ 30), farChk := smClear s.farChk (lo / 16) ((lo + 2 ^ 30) / 16),
             farEpoch := smDel s.farEpoch (f * 128 + n) }) s

/-- One CLEAR_SET on each far stack (R259, R587, R625): the set's lines are invalidated, its rows and those of its mirror copy are
cleared. Accesses that were held are let go by the caller. -/
def State.clearRows (s : State) (n : Nat) : State :=
  let t := s.dropFills n
  let t := { t with lines := t.lines.filter fun e => decide (setOf t.variant (e.1 * 256) ≠ n) }
  match s.mirrorOf n with
  | some m => (t.zeroSet n).zeroSet m
  | none => t.zeroSet n

/-- A set's contents become undefined on every far stack (R210, log 13). -/
def State.scrambleSet (s : State) (n : Nat) : State :=
  { s with farEpoch := (List.range 12).foldl (fun m f => smPut m (f * 128 + n) (s.draws + 1)) s.farEpoch, draws := s.draws + 1 }

/-- Begin the change of a set (R210). -/
def State.beginSetChange (s : State) (n : Nat) : State :=
  let s := (s.flushSet n).scrambleSet n
  { s with setChanges := if s.setChanges.contains n then s.setChanges else s.setChanges ++ [n] }

/-- A write of a SEP register (R209, R210): bits of active homerooms' sets keep their value and set REFUSED; the sets of the other
changed bits are written back and invalidated under the old mapping, and BUSY reads 1. -/
def State.sepWrite (s : State) (r : Reg) (i : Nat) (w : RegWrite) : State :=
  let x := s.written r w
  let want := x.new ^^^ x.old
  let refused := want &&& s.sepLocked i
  let took := want &&& ~~~(s.sepLocked i)
  let sets := ((List.range 64).filter took.getLsbD).map (64 * i + ·)
  let s := if refused = 0#64 then s else s.fput .sepStatus SEP_STATUS_REFUSED 1
  if sets.isEmpty then s
  else ((sets.foldl State.beginSetChange s).put r (x.old ^^^ took)).fput .sepStatus SEP_STATUS_BUSY 1

/-- SEP_SCOPE_WRITE (R209, R210, R231). -/
def execSepScopeWrite (i : Nat) (w : RegWrite) (s : State) : Host.Outcome State Fault Refusal :=
  .next (s.guarded w.master (.sepScope i) fun s => s.sepWrite (.sepScope i) i w)

/-- SEP_NARROW_WRITE (R209, R210, R232). -/
def execSepNarrowWrite (i : Nat) (w : RegWrite) (s : State) : Host.Outcome State Fault Refusal :=
  .next (s.guarded w.master (.sepNarrow i) fun s => s.sepWrite (.sepNarrow i) i w)

/-- Let held requests proceed (R210, R255): in their order of arrival, those that are no longer blocked. -/
def State.releaseHeld (s : State) : State :=
  let go := s.heldAccess.filter fun q => !s.farBlocked q.pa (!q.kind.isRead)
  { s with heldAccess := s.heldAccess.filter fun q => s.farBlocked q.pa (!q.kind.isRead) }.submitAll go

/-- Clear a set at once (R587, R593, R604): the CLEAR_SETs complete within the command (log 25). -/
def State.clearSet (s : State) (n : Nat) : State := (s.clearRows n).releaseHeld

/-- A write of `FAR_MODE` (R223, R234, R235): the mode in force changes at the next window close. -/
def State.farModeWrite (s : State) (f : Nat) (w : RegWrite) : State :=
  if !farPresent s.variant f then s
  else
    let x := s.written (.farMode f) w
    let v := fldSet x.new FAR_MODE_PRIO_SHARE (min 64 (x.field FAR_MODE_PRIO_SHARE))
    s.put (.farMode f) (fldSet v FAR_MODE_WINDOW (max 0x100 (fldGet v FAR_MODE_WINDOW)))

/-- FAR_MODE_WRITE (R223, R234, R235). -/
def execFarModeWrite (f : Nat) (w : RegWrite) (s : State) : Host.Outcome State Fault Refusal :=
  .next (s.guarded w.master (.farMode f) fun s => s.farModeWrite f w)

/-- Start a purge (R222): lines brought in for the homeroom are invalidated without write-back. -/
def State.purge (s : State) (slice hr : Nat) : State :=
  { s with lines := s.lines.filter fun e => !(decide (e.2.slice = slice) && decide (e.2.hr = hr)) }

/-- A write of `SC_CTL` (R222, R238): a purge that runs goes on, and PURGE_HR takes every write. -/
def State.scCtlWrite (s : State) (slice : Nat) (w : RegWrite) : State :=
  let x := s.written (.scCtl slice) w
  let running := decide (fldGet x.old SC_CTL_PURGE = 1)
  let start := x.hit SC_CTL_PURGE && !running
  let t := s.put (.scCtl slice) (fldSet x.new SC_CTL_PURGE (b2n (running || start)))
  if start then { t.purge slice (x.field SC_CTL_PURGE_HR) with purges := s.purges ++ [⟨slice, x.field SC_CTL_PURGE_HR⟩] } else t

/-- SC_PURGE (R222, R238). -/
def execScPurge (slice : Nat) (w : RegWrite) (s : State) : Host.Outcome State Fault Refusal :=
  .next (s.guarded w.master (.scCtl slice) fun s => s.scCtlWrite slice w)

/-- SC_PURGE_COMPLETE (R222). -/
def execScPurgeComplete (slice : Nat) (s : State) : Host.Outcome State Fault Refusal :=
  .next ({ s with purges := s.purges.filter fun p => decide (p.slice ≠ slice) }.fput (.scCtl slice) SC_CTL_PURGE 0)

/-- SC_STAT_CLEAR (R239). -/
def execScStatClear (slice : Nat) (w : RegWrite) (s : State) : Host.Outcome State Fault Refusal :=
  .next (s.guarded w.master (.scStat slice) fun s =>
    s.clearStat (.scStat slice) w SC_STAT_CLEAR [SC_STAT_MERGES, SC_STAT_ATOMICS])

end Sys2Proof.Machine
end

