-- ==== Sys2Proof/Machine/Ladles.lean ====
section
/-! DEFINITION. Ladles (R240 to R264, R628). -/

namespace Sys2Proof.Machine

/-- The fields of a ladle command's words (R243), its OP being the row's. -/
def ladleParse (op : Nat) (words : List Nat) (issuer : Requester) : LadleCmd :=
  let w := wordAt words
  ⟨op, bitAt (w 0) 4, bitsOf (w 0) 8 4, bitsOf (w 0) 12 9, bitsOf (w 0) 32 32, bitsOf (w 1) 0 48,
    bitsOf (w 2) 0 (if op = 2 then 64 else 48), bitsOf (w 3) 0 (if op = 2 then 64 else 48), issuer, false⟩

/-- The encoding rules of R243 and R244. -/
def ladleEncoded (op : Nat) (words : List Nat) (issuer : Requester) : Bool :=
  let w := wordAt words
  let zero := fun i => decide (w i = 0)
  let addr := fun i => decide (w i < 2 ^ 48)
  decide (bitsOf (w 0) 5 3 = 0) && decide (bitsOf (w 0) 21 11 = 0) && decide (bitsOf (w 0) 12 9 ≤ 256) && addr 1 && decide (w 1 % 256 = 0) &&
  (match op with
   | 1 => addr 2 && zero 3
   | 2 => true
   | 3 => addr 2 && zero 3
   | 4 => addr 2 && addr 3
   | 5 => addr 2 && addr 3
   | 6 => addr 2 && addr 3
   | 7 => decide (bitsOf (w 0) 12 9 = 0) && zero 2 && zero 3 && decide (issuer = .registrar)
   | _ => false)

/-- A bank of a pseudo-channel (R250). -/
def RowId.bankId (r : RowId) : Nat := r.sid * 16 + r.bg * 4 + r.bank

/-- Row i of a run (R245). -/
def rowAt (run : RowId) (i : Nat) : RowId := { run with row := run.row + i }

/-- The placement rules of R248. -/
def placed (runs : List RowId) (rows : Nat) : Bool :=
  runs.all fun a =>
    decide (a.row % 256 + rows ≤ 256) && runs.all fun b =>
      decide (a.site = b.site) && decide (a.pc = b.pc) &&
      (decide (a = b) || decide (a.bankId ≠ b.bankId) || decide (a.row + rows ≤ b.row) || decide (b.row + rows ≤ a.row))

/-- The runs of a command on one copy. -/
def State.ladleRuns (s : State) (mirror : Bool) (cmd : LadleCmd) : List RowId := (ladleOperands cmd).map (s.ladleRun mirror)

/-- The homeroom and set index under which a set is encrypted (R258). -/
def State.encrypted (s : State) (n : Nat) : Bool := (s.setKey n).isSome

/-- What ends a command before any line is flushed (R247): its status, or none where it may start. -/
def State.ladleError (s : State) (port : Nat) (encoded : Bool) (cmd : LadleCmd) : Option Nat :=
  let ops := ladleOperands cmd
  let sets := ops.map (setOf s.variant)
  let mirrored := (s.mirrorOf (setOf s.variant cmd.dst)).isSome
  if !encoded then some 1
  else if cmd.op ≠ 7 ∧ cmd.rows = 0 then some 0
  else if cmd.op ≠ 7 ∧ (cmd.cut ∨ (cmd.hr ≠ 0 ∧ s.hrState cmd.hr = 3)) then some 7
  else if ops.any fun a => decide (farBytes s.variant ≤ a) then some 3
  else if (s.farLoc cmd.dst).site ≠ port then some 2
  else if sets.any fun n => (s.mirrorSource n).isSome then some 3
  else if cmd.op = 7 then none
  else if !placed (s.ladleRuns false cmd) cmd.rows then some 2
  else if sets.any fun n => decide (s.setOwner n ≠ some cmd.hr) then some 3
  else if mirrored ∧ sets.any fun n => (s.mirrorOf n).isNone then some 3
  else if mirrored ∧ !placed (s.ladleRuns true cmd) cmd.rows then some 2
  else if cmd.op = 1 ∧ sets.any (fun n => decide (n ≠ setOf s.variant cmd.dst)) ∧ sets.any s.encrypted then some 3
  else if 3 ≤ cmd.op ∧ sets.any s.encrypted then some 4
  else none

/-- The far sites of a command's copies (R628), false for the primary rows: those of stacks that are not lost. -/
def State.ladleCopies (s : State) (cmd : LadleCmd) : List (Bool × Nat) :=
  let loc := s.farLoc cmd.dst
  ((false, loc.site) :: (match s.farMirror loc with | some m => [(true, m.site)] | none => [])).filter fun e => !s.farGone e.2

/-- Pseudo-channels that a copy of a command runs on (R245, R259). -/
def State.ladlePcs (s : State) (mirror : Bool) (cmd : LadleCmd) : List Nat :=
  if cmd.op = 7 then List.range 64 else [(s.ladleRun mirror cmd.dst).pc]

/-- Count a row-step unit's end (R263). -/
def State.ladleCount (s : State) (port status : Nat) : State :=
  if status = 5 ∨ status = 6 then s.fadd (.ldlStat port) LDL_STAT_FAILS 1 else s

/-- A command ends (R246, R260): its completion record goes to its issuer, and requests that it held proceed (R255). A record for
a pail manager that is lost is dropped and counted. -/
def State.ladleEnd (s : State) (port : Nat) (cmd : LadleCmd) (status rows : Nat) : State :=
  let w0 := status + rows * 256 + cmd.tag * 2 ^ 32
  let s := s.ladleCount port status
  let s := match cmd.issuer with
    | .registrar => s.sendRecord ⟨.ladle port, cmd.tag, w0, 0⟩
    | .pail d => if s.dieUp d then s.emit (.reply (.pail d) (leBytes 8 w0)) else s.fadd (.ldlStat port) LDL_STAT_LATE_DROPS 1
    | _ => s
  s.releaseHeld

/-- The arbiter instance of a ladle command port (R241, R337), and the number of a requester. -/
def ladlePort (port : Nat) : Nat := arbSelOf 5 (port % 3)
/-- The requester of a ladle command port that an issuer is (R337). -/
def ladleRequester : Requester → Option Nat
  | .pail d => if d < 4 then some d else none
  | .registrar => some 4
  | _ => none

/-- A granted requester's first waiting command joins the queue (R241). -/
def State.enterLadle (s : State) (port r : Nat) : State :=
  let p := s.ladle port
  match p.asking.find? fun c => decide (ladleRequester c.issuer = some r) with
  | some c => s.setLadle port { p with queue := p.queue ++ [c], asking := p.asking.erase c }
  | none => s

/-- A port's arbiter can grant at once (R241, R337, R342): it makes grants, is not frozen, nobody waits, and the queue of 16 has room. -/
def State.ladleOpen (s : State) (port : Nat) : Bool :=
  arbGrants s.variant (port / 3) (ladlePort port) && !s.arbFrozen (port / 3) (ladlePort port) && (s.ladle port).asking.isEmpty &&
    decide (s.arbMask (port / 3) (ladlePort port) = 0) && decide ((s.ladle port).queue.length < 16)

/-- A command reaches a port (R240, R241): its issuer asks the port's arbiter, and where nothing withholds the grant the command joins the
queue at once; a command with an encoding error ends. -/
def State.ladleSubmit (s : State) (port op : Nat) (words : List Nat) (issuer : Requester) : State :=
  let cmd := ladleParse op words issuer
  match ladleRequester issuer with
  | none => s
  | some r =>
    if !ladleEncoded op words issuer then s.ladleEnd port cmd 1 0
    else
      let t := (s.setLadle port { s.ladle port with asking := (s.ladle port).asking ++ [cmd] }).arbAsk (port / 3) (ladlePort port) r
      if s.ladleOpen port then (t.arbServe (port / 3) (ladlePort port)).1.enterLadle port r else t

/-- Write back and invalidate the lines of a command's operand runs (R251); a CLEAR_SET only invalidates those of its set. -/
def State.ladleFlush (s : State) (cmd : LadleCmd) : State :=
  if cmd.op = 7 then
    { s with lines := s.lines.filter fun e =>
        !(decide (setOf s.variant (e.1 * 256) = setOf s.variant cmd.dst) && decide ((s.farLoc (e.1 * 256)).site = (s.farLoc cmd.dst).site)) }
  else
    let runs := s.ladleRuns false cmd
    (s.lines.filter fun e => runs.any fun r => rowIn r cmd.rows (rowOf (s.farLoc (e.1 * 256)))).foldl (fun s e => s.flushLine e.1) s

/-- Start the sequences of a command on each of its copies (R242, R259, R628). -/
def State.ladleBegin (s : State) (cmd : LadleCmd) : State :=
  (s.ladleCopies cmd).foldl (fun s e =>
    s.setLadle e.2 { s.ladle e.2 with seqs := (s.ladle e.2).seqs ++ (s.ladlePcs e.1 cmd).map fun pc => ⟨cmd, e.1, pc, false, 0, 0, [], []⟩ }) s

/-- A pseudo-channel of a far stack has no sequence (R242). -/
def State.pcFree (s : State) (site pc : Nat) : Bool := !(s.ladle site).seqs.any fun q => decide (q.pc = pc)

/-- A far address lies in an operand row of a command, or in the set that it clears (R221, R251). -/
def State.ladleTouches (s : State) (cmd : LadleCmd) (pa : Nat) : Bool :=
  let locs := (s.lineAt pa).loc :: (s.lineAt pa).mirror.toList
  locs.any (s.cmdTouches cmd false) || ((s.mirrorOf (setOf s.variant cmd.dst)).isSome && locs.any (s.cmdTouches cmd true))

/-- A command waits before it starts: a set that it names is changing or being cleared (R210, R259), or a fill of its rows is pending, and
what waits for the fill came before it (R215, R221). -/
def State.ladleWaits (s : State) (cmd : LadleCmd) : Bool :=
  ((ladleOperands cmd).any fun a => s.setChanges.contains (setOf s.variant a) || s.clears.contains (setOf s.variant a)) ||
    s.fills.any (fun f => s.ladleTouches cmd (f.grain * 256)) || s.fillWaits.any fun q => s.ladleTouches cmd q.pa

/-- Start the command at the head of a port's queue (R242, R251, R261): it waits while DRAIN is 1, a pseudo-channel is busy, or its sets or
rows are. -/
def State.ladleStart (s : State) (port : Nat) : State :=
  let p := s.ladle port
  match p.queue with
  | [] => s
  | cmd :: rest =>
    if s.fget (.ldlCtl port) LDL_CTL_DRAIN = 1 then s
    else
      let t := s.setLadle port { p with queue := rest }
      match s.ladleError port true cmd with
      | some e => t.ladleEnd port cmd e 0
      | none =>
        let copies := s.ladleCopies cmd
        if copies.isEmpty then t.ladleEnd port cmd 6 0
        else if (!copies.all fun e => (s.ladlePcs e.1 cmd).all (s.pcFree e.2)) || s.ladleWaits cmd then s
        else (t.ladleFlush cmd).ladleBegin cmd

/-- Row i of a sequence's destination (R245, R259). -/
def State.ladleDst (s : State) (cmd : LadleCmd) (mirror : Bool) (pc i : Nat) : RowId :=
  let run := s.ladleRun mirror cmd.dst
  if cmd.op = 7 then ⟨run.site, pc, i / 4096 % 4, i / 1024 % 4, i / 256 % 4, run.row / 256 * 256 + i % 256⟩ else rowAt run i

/-- The source rows of row i (R243). -/
def State.ladleSrc (s : State) (cmd : LadleCmd) (mirror : Bool) (i : Nat) : List RowId :=
  ((ladleOperands cmd).drop 1).map fun a => rowAt (s.ladleRun mirror a) i

/-- Rows of a sequence. -/
def ladleRows (cmd : LadleCmd) : Nat := if cmd.op = 7 then 16384 else cmd.rows

/-- Row steps for each destination row (R250). -/
def ladleSteps (dst : RowId) (src : List RowId) : Nat :=
  let banks := (dst :: src).map RowId.bankId
  match src.length with
  | 0 => 1
  | 1 => if dst.bankId = wordAt banks 1 then 2 else 1
  | _ => 4 - banks.eraseDups.length

/-- Check the granules of a row that a ladle reads (R256): one that fails a first read alone is counted in `REL_STATUS.RETRIES`; the first
that fails both is named. -/
def State.checkRow (r : RowId) : State → List Nat → State × Option (FarLoc × Nat)
  | s, [] => (s, none)
  | s, k :: ks =>
    let loc := rowGrain r (k / 16)
    let n := s.slips.count (farSlip loc (k % 16))
    let t := if n = 0 then s else s.takeSlip (farSlip loc (k % 16))
    if s.farDiff loc (k % 16) ≠ 0 ∨ 2 ≤ n then (t, some (loc, k % 16))
    else (if n = 0 then t else t.fadd .relStatus REL_STATUS_RETRIES 1).checkRow r ks

/-- Read a row into a row buffer (R240, R256): its 1,024 stored bytes, or the granule that fails. -/
def State.readRow (s : State) (r : RowId) : State × Except (FarLoc × Nat) (List Byte) :=
  match s.checkRow r (List.range 64) with
  | (t, some bad) => (t, .error bad)
  | (t, none) => (t, .ok ((List.range 4).flatMap fun col => s.farRaw (rowGrain r col)))

/-- Read rows one after another. -/
def State.readRows : State → List RowId → State × Except (FarLoc × Nat) (List (List Byte))
  | s, [] => (s, .ok [])
  | s, r :: rs =>
    match s.readRow r with
    | (t, .error e) => (t, .error e)
    | (t, .ok b) =>
      match t.readRows rs with
      | (u, .error e) => (u, .error e)
      | (u, .ok bs) => (u, .ok (b :: bs))

/-- The result of an operation on one grain of a row (R244, R258), from the rows read: its stored bytes. -/
def State.ladleGrain (s : State) (cmd : LadleCmd) (dst : RowId) (bufs : List (List Byte)) (col : Nat) : List Byte :=
  let a := ((bufs.getD 0 []).drop (256 * col)).take 256
  let b := ((bufs.getD 1 []).drop (256 * col)).take 256
  match cmd.op with
  | 1 => a
  | 2 => cryptGrain true (s.setKey (setOf s.variant cmd.dst)) (rowGrain dst col)
      ((List.replicate 16 (leBytes 8 cmd.w2 ++ leBytes 8 cmd.w3)).flatten)
  | 3 => a.map fun x => ~~~x
  | 4 => List.zipWith (· &&& ·) a b
  | 5 => List.zipWith (· ||| ·) a b
  | 6 => List.zipWith (· ^^^ ·) a b
  | _ => List.replicate 256 0#8

/-- Write a destination row, with check bits that hold (R257). -/
def State.ladleRow (s : State) (cmd : LadleCmd) (dst : RowId) (bufs : List (List Byte)) : State :=
  let data := (List.range 4).flatMap (s.ladleGrain cmd dst bufs)
  (List.range 64).foldl (fun s k => s.farPut (rowGrain dst (k / 16)) (k % 16) ((data.drop (16 * k)).take 16) 0) s

/-- A granule that a ladle reads fails both reads (R256, R634): `LDL_ERR` records it, and it is an unrecoverable failure. -/
def State.ladleFail (s : State) (port : Nat) (bad : FarLoc × Nat) : State :=
  let addr := s.farAddr bad.1 + 16 * bad.2
  let s := ((s.fput (.ldlErr port) LDL_ERR_ADDR addr).fput (.ldlErr port) LDL_ERR_STATUS 5).fput (.ldlErr port) LDL_ERR_VALID 1
  s.unrecovered (s.farEntry (.ladle port) bad.1 addr 0 bad.1.site (s.setClass (bad.1.l / 2 ^ 22)) 2)

/-- The port that a command was sent to: that of its DST row (R242). -/
def State.ladleHome (s : State) (cmd : LadleCmd) : Nat := (s.farLoc cmd.dst).site

/-- One copy of a command has ended with a status and rows done (R628): the command ends once the other copy has too, with the rows
that both have done. -/
def State.copyEnd (s : State) (site : Nat) (cmd : LadleCmd) (mirror : Bool) (status rows : Nat) : State :=
  let others := (List.range 12).filter fun f => (s.ladle f).seqs.any fun q => decide (q.cmd = cmd) && decide (q.mirror ≠ mirror)
  if !others.isEmpty then
    s.setLadle site { s.ladle site with halves := (s.ladle site).halves ++ [⟨cmd, mirror, status, rows⟩] }
  else
    let halves := (List.range 12).flatMap fun f => ((s.ladle f).halves.filter fun q => decide (q.cmd = cmd)).map fun q => (f, q)
    let rows' := halves.foldl (fun a e => min a e.2.rows) rows
    let status' := halves.foldl (fun a e => if a = 0 then e.2.status else a) status
    let t := halves.foldl (fun s e => s.setLadle e.1 { s.ladle e.1 with halves := (s.ladle e.1).halves.filter fun q => decide (q.cmd ≠ cmd) }) s
    t.ladleEnd (s.ladleHome cmd) cmd status' rows'

/-- A sequence has ended (R259): the copy ends with its last one; a CLEAR_SET reports no rows. -/
def State.seqEnd (s : State) (site : Nat) (q : LadleSeq) (status : Nat) : State :=
  let p := s.ladle site
  let left := p.seqs.erase q
  let t := s.setLadle site { p with seqs := left }
  if left.any fun r => decide (r.cmd = q.cmd) && decide (r.mirror = q.mirror) then t
  else t.copyEnd site q.cmd q.mirror status (if q.cmd.op = 7 then 0 else q.row)

/-- Issue the refreshes owed by the banks that a step touches, where one owes eight (R252). -/
def State.ladleRefresh (s : State) (site pc : Nat) (banks : List Nat) : State :=
  banks.foldl (fun s b =>
    let p := s.farPort site
    let k := pc * 64 + b
    if 8 ≤ smGet 0 p.owed k then
      (s.setFarPort site { p with owed := smPut p.owed k 0, refreshes := smPut p.refreshes k (smGet 0 p.refreshes k + 8) }).fadd (.ldlStat site)
        LDL_STAT_REFRESH_INSERTS 8
    else s) s

/-- The source rows that a step of a row reads (R250): one for each step but the last, which reads the rest. -/
def stepReads (src : List RowId) (phase steps : Nat) : List RowId := if phase + 1 < steps then (src.drop phase).take 1 else src.drop phase

/-- The requests that wait at a pseudo-channel of a far port. -/
def State.pcWaiting (s : State) (site pc : Nat) : List Nat := ((s.farPort site).waiting.filter fun w => decide (w.pc = pc)).map FarReq.id

/-- One row step of a sequence (R250 to R257). -/
def State.ladleStep (s : State) (site : Nat) (q : LadleSeq) : State :=
  let dst := s.ladleDst q.cmd q.mirror q.pc q.row
  let src := s.ladleSrc q.cmd q.mirror q.row
  let n := ladleSteps dst src
  let s := (s.ladleRefresh site q.pc ((dst :: src).map RowId.bankId).eraseDups).fadd (.ldlStat site) LDL_STAT_ROW_STEPS 1
  match s.readRows (stepReads src q.phase n) with
  | (t, .error bad) => (t.ladleFail site bad).seqEnd site q 5
  | (t, .ok bs) =>
    let p := t.ladle site
    let bufs := q.bufs ++ bs
    let put := fun (q' : LadleSeq) => { p with seqs := p.seqs.map fun r => if r = q then q' else r }
    if q.phase + 1 < n then t.setLadle site (put { q with phase := q.phase + 1, bufs := bufs, gap := t.pcWaiting site q.pc })
    else
      let q' := { q with row := q.row + 1, phase := 0, bufs := [], gap := t.pcWaiting site q.pc }
      let u := (t.ladleRow q.cmd dst bufs).setLadle site (put q')
      if q'.row = ladleRows q.cmd then u.seqEnd site q' 0 else u.releaseHeld

/-- Rows of a command of a pail manager on one copy, each with the refreshes that its banks owe (R252); the granule that ends it. -/
def State.ladleRowsNow (cmd : LadleCmd) (mirror : Bool) (site : Nat) : State → List Nat → State × Option (FarLoc × Nat)
  | s, [] => (s, none)
  | s, i :: is =>
    let dst := s.ladleDst cmd mirror 0 i
    let src := s.ladleSrc cmd mirror i
    let s := (s.ladleRefresh site dst.pc ((dst :: src).map RowId.bankId).eraseDups).fadd (.ldlStat site) LDL_STAT_ROW_STEPS (ladleSteps dst src)
    match s.readRows src with
    | (t, .error bad) => (t, some bad)
    | (t, .ok bufs) => (t.ladleRow cmd dst bufs).ladleRowsNow cmd mirror site is

/-- A pail manager's command can be performed at once (R241, R242, R261): its port grants it, nothing is queued before it, DRAIN is 0, no
sequence runs on its pseudo-channels, whose queues are not frozen, and its sets and rows are free. -/
def State.ladleClear (s : State) (cmd : LadleCmd) : Bool :=
  let port := s.ladleHome cmd
  s.ladleOpen port && (s.ladle port).queue.isEmpty && decide (s.fget (.ldlCtl port) LDL_CTL_DRAIN = 0) && !s.ladleWaits cmd &&
    (s.ladleCopies cmd).all fun e => (s.ladlePcs e.1 cmd).all fun pc => s.pcFree e.2 pc && !s.arbFrozen (e.2 / 3) (farQueue e.2 pc)

/-- A command of a pail manager, performed to its end within the pail command that issues it (log 20): its status (R286), 0xFF where it has
to wait and nothing is done. -/
def State.ladleRunNow (s : State) (cmd : LadleCmd) : State × Nat :=
  let port := s.ladleHome cmd
  if !s.ladleClear cmd then (s, 0xFF)
  else
    let s := match ladleRequester cmd.issuer with
      | some r => ((s.arbAsk (port / 3) (ladlePort port) r).arbServe (port / 3) (ladlePort port)).1
      | none => s
    match s.ladleError port true cmd with
    | some e => (s.ladleCount port e, e)
    | none =>
      if (s.ladleCopies cmd).isEmpty then (s.ladleCount port 6, 6)
      else
        let (t, bad) := (s.ladleCopies cmd).foldl (fun (x : State × Option (FarLoc × Nat)) e =>
          if x.2.isSome then x
          else match x.1.ladleRowsNow cmd e.1 e.2 (List.range cmd.rows) with
            | (u, some b) => (u.ladleFail e.2 b, some b)
            | (u, none) => (u, none)) (s.ladleFlush cmd, none)
        if bad.isSome then (t.ladleCount port 5, 5) else (t, 0)

/-- COPY (R244, R258). -/
def execLadleCopy (port : Nat) (words : List Nat) (issuer : Requester) (s : State) : Host.Outcome State Fault Refusal :=
  .next (s.ladleSubmit port 1 words issuer)

/-- FILL (R244, R258). -/
def execLadleFill (port : Nat) (words : List Nat) (issuer : Requester) (s : State) : Host.Outcome State Fault Refusal :=
  .next (s.ladleSubmit port 2 words issuer)

/-- NOT (R244, R258). -/
def execLadleNot (port : Nat) (words : List Nat) (issuer : Requester) (s : State) : Host.Outcome State Fault Refusal :=
  .next (s.ladleSubmit port 3 words issuer)

/-- AND (R244, R258). -/
def execLadleAnd (port : Nat) (words : List Nat) (issuer : Requester) (s : State) : Host.Outcome State Fault Refusal :=
  .next (s.ladleSubmit port 4 words issuer)

/-- OR (R244, R258). -/
def execLadleOr (port : Nat) (words : List Nat) (issuer : Requester) (s : State) : Host.Outcome State Fault Refusal :=
  .next (s.ladleSubmit port 5 words issuer)

/-- XOR (R244, R258). -/
def execLadleXor (port : Nat) (words : List Nat) (issuer : Requester) (s : State) : Host.Outcome State Fault Refusal :=
  .next (s.ladleSubmit port 6 words issuer)

/-- CLEAR_SET (R244, R259). -/
def execLadleClearSet (port : Nat) (words : List Nat) (issuer : Requester) (s : State) : Host.Outcome State Fault Refusal :=
  .next (s.ladleSubmit port 7 words issuer)

/-- LADLE_FLUSH_COMPLETE (R251). -/
def execLadleFlushComplete (port pc : Nat) (s : State) : Host.Outcome State Fault Refusal :=
  let p := s.ladle port
  .next (s.setLadle port { p with seqs := p.seqs.map fun q => if q.pc = pc then { q with flushed := true } else q })

/-- The next row step of a sequence may start (R253, R342): the requests of the gap have been served, and the queue is not frozen. -/
def State.stepReady (s : State) (port : Nat) (q : LadleSeq) : Bool :=
  !s.arbFrozen (port / 3) (farQueue port q.pc) && !(s.pcWaiting port q.pc).any q.gap.contains

/-- LDL_STAT_CLEAR (R263). -/
def execLdlStatClear (port : Nat) (w : RegWrite) (s : State) : Host.Outcome State Fault Refusal :=
  .next (s.guarded w.master (.ldlStat port) fun s =>
    s.clearStat (.ldlStat port) w LDL_STAT_CLEAR [LDL_STAT_ROW_STEPS, LDL_STAT_REFRESH_INSERTS, LDL_STAT_FAILS, LDL_STAT_LATE_DROPS])

end Sys2Proof.Machine
end

