-- ==== Sys2Proof/Machine/PailOps.lean ====
section
/-! DEFINITION. What pail commands share (R265 to R293): accesses, yoke counts, allocation, pail tables and the prefix index. -/

namespace Sys2Proof.Machine

/-- A pail command at work: it changes the state, and may end with a status other than OK and a RESULT (R286). The status 0xFF, which
no record carries, says that an access was held and the command waits (log 21). -/
abbrev PailM := ExceptT (Nat × Nat) (StateM State)

/-- End a command with a status. -/
def pailFail {α : Type} (status : Nat) : PailM α := throw (status, 0)

/-- End a command with a status where a condition fails. -/
def pailNeed (ok : Bool) (status : Nat) : PailM Unit := if ok then pure () else pailFail status

/-- The status of a failed access (R286, R634). -/
def pailErr (a : Nat) : AccErr → Nat
  | .held _ => 0xFF
  | .fenced => 0x0B
  | .dieLost => 0x0C
  | .outside => 2
  | .window => 2
  | .unbacked => match spaceOf a with | .far _ => 0x0C | .window _ => 0x0C | _ => 2
  | _ => 9

/-- An access of a command. -/
def pailAccess {α : Type} (a : Nat) (f : State → State × Res α) : PailM α := do
  let (t, r) := f (← get)
  set t
  match r with
  | .ok v => pure v
  | .error e => pailFail (pailErr a e)

/-- Read memory for a homeroom. -/
def pailRead (d hr a n : Nat) : PailM (List Byte) := pailAccess a fun s => s.readAt (.pail d) hr none allowFarWindow a n

/-- Write memory for a homeroom. -/
def pailWrite (d hr a : Nat) (bs : List Byte) : PailM Unit := pailAccess a fun s => s.writeAt (.pail d) hr none allowFarWindow a bs

/-- A shared-cache operation of a command. -/
def pailAtom (d hr a : Nat) (op : AtomOp) (width v : Nat) : PailM Nat := pailAccess a fun s => s.farAtomic (.pail d) hr a op width v 0

/-! ### Trees and sequences -/

/-- An open tree; a tree that is not open ends the command with STATE. -/
def getTree (d n : Nat) : PailM Tree := do
  match smFind ((← get).pail d).trees n with
  | some t => pure t
  | none => pailFail 3

/-- Replace a tree. -/
def setTree (d n : Nat) (t : Tree) : PailM Unit :=
  modify fun s => s.setPail d { s.pail d with trees := smPut (s.pail d).trees n t }

/-- An open sequence. -/
def getSeq (d k : Nat) : PailM Seq := do
  match smFind ((← get).pail d).seqs k with
  | some q => pure q
  | none => pailFail 3

/-- Replace a sequence. -/
def setSeq (d k : Nat) (q : Seq) : PailM Unit :=
  modify fun s => s.setPail d { s.pail d with seqs := smPut (s.pail d).seqs k q }

/-- The tree that a command names, which its homeroom must own (R286). -/
def ownTree (d hr n : Nat) : PailM Tree := do
  let t ← getTree d n
  pailNeed (decide (t.hr = hr)) 2
  pure t

/-- The sequence that a command names, which must be of the named tree. -/
def ownSeq (d n k : Nat) : PailM Seq := do
  let q ← getSeq d k
  pailNeed (decide (q.tree = n)) 3
  pure q

/-- Blocks that hold tokens (R273). -/
def Seq.used (q : Seq) : Nat := ceilDiv q.len 64

/-! ### Yokes (R274, R275) -/

/-- The count word of a yoke. -/
def Tree.countAt (t : Tree) (y : Nat) : Nat := t.countBase + 4 * y

/-- Record a failure in `PAIL_ERR` (R317). -/
def State.pailError (s : State) (d n yoke status : Nat) : State :=
  (((s.fput (.pailErr d) PAIL_ERR_YOKE yoke).fput (.pailErr d) PAIL_ERR_TREE n).fput (.pailErr d) PAIL_ERR_STATUS status).fput
    (.pailErr d) PAIL_ERR_VALID 1

/-- Push a freed yoke on the free stack (R275); a failing push is recorded. -/
def pushYoke (d n y : Nat) : PailM Unit := do
  let t ← getTree d n
  tryCatch (do
      pailWrite d t.hr (t.freeBase + 4 * t.freeTop) (leBytes 4 y)
      setTree d n { t with freeTop := t.freeTop + 1 })
    fun e => if e.1 = 0xFF then throw e else do
      modify fun s => s.pailError d n y 9
      pailFail 9

/-- Free a yoke (R275): it is pushed once the pail-list gathers that have fetched entries of the tree are complete. -/
def freeYoke (d n y : Nat) : PailM Unit := do
  let m := (← get).pail d
  let waits := (m.gathers.filter fun g => decide (g.tree = n)).map fun g => (g.core, g.arrayB)
  if waits.isEmpty then pushYoke d n y
  else modify fun s => s.setPail d { s.pail d with pushes := (s.pail d).pushes ++ [⟨n, y, waits⟩] }

/-- Take `k` from a yoke's count; at 0 it is freed (R274). -/
def dropCount (d n y k : Nat) : PailM Unit := do
  let t ← getTree d n
  let old ← pailAtom d t.hr (t.countAt y) .add 4 (2 ^ 32 - k)
  if old = k then freeYoke d n y else pure ()

/-- Add `k` to a yoke's count (R274). -/
def addCount (d n y k : Nat) : PailM Unit := do
  let t ← getTree d n
  let _ ← pailAtom d t.hr (t.countAt y) .add 4 k
  pure ()

/-- The count of a yoke. -/
def yokeCount (d n y : Nat) : PailM Nat := do
  let t ← getTree d n
  pure (leNat (← pailRead d t.hr (t.countAt y) 4))

/-- Go on after a failure, other than one that has the command wait, with what undoes its part; the failure stands. -/
def pailUndo {α : Type} (m : PailM α) (undo : PailM Unit) : PailM α :=
  tryCatch m fun e => do
    if e.1 = 0xFF then pure () else undo
    throw e

/-- Allocate a yoke (R275): from the free stack, else the lowest never used; its count becomes 1 by a swap (R274). -/
def allocYoke (d n : Nat) : PailM Nat := do
  let t ← getTree d n
  let y ←
    if 0 < t.freeTop then do
      let b ← pailRead d t.hr (t.freeBase + 4 * (t.freeTop - 1)) 4
      setTree d n { t with freeTop := t.freeTop - 1 }
      pure (leNat b)
    else if t.next < t.yokes then do
      setTree d n { t with next := t.next + 1 }
      pure t.next
    else pailFail 5
  let _ ← pailAtom d t.hr (t.countAt y) .swap 4 1
  pure y

/-! ### Pail tables (R273) -/

/-- A pail-table entry. -/
structure PailEntry where
  yoke : Nat
  half : Bool
  lost : Bool
  valid : Bool
  deriving DecidableEq, Repr

/-- An entry that names no yoke. -/
def PailEntry.none : PailEntry := ⟨0, false, false, false⟩

/-- The entry of a table word. -/
def entryOf (w : Nat) : PailEntry := ⟨bitsOf w 0 24, bitAt w 24, bitAt w 25, bitAt w 31⟩

/-- The table word of an entry. -/
def entryWord (e : PailEntry) : Nat := e.yoke % 2 ^ 24 + b2n e.half * 2 ^ 24 + b2n e.lost * 2 ^ 25 + b2n e.valid * 2 ^ 31

/-- Entry `b` of a table, where it lies below `vis` blocks; an entry beyond is never read as valid (R273). -/
def readEntry (d hr : Nat) (q : Seq) (vis b : Nat) : PailM PailEntry :=
  if vis ≤ b then pure .none else do pure (entryOf (leNat (← pailRead d hr (q.base + 4 * b) 4)))

/-- Write an entry whole, and note that it changed (R310). -/
def writeEntry (d hr k b : Nat) (e : PailEntry) : PailM Unit := do
  let q ← getSeq d k
  pailWrite d hr (q.base + 4 * b) (leBytes 4 (entryWord e))
  setSeq d k { q with changed := if q.changed.contains b then q.changed else q.changed ++ [b] }

/-- The block that shares a yoke span with block b where T is 128 (R268). -/
def partner (t : Tree) (b : Nat) : Option Nat := if pailTokens t.hdim t.fmt = 128 then some (b ^^^ 1) else none

/-- HALF of a block (R273). -/
def halfOf (t : Tree) (b : Nat) : Bool := decide (pailTokens t.hdim t.fmt = 128) && decide (b % 2 = 1)

/-! ### The prefix index (R276 to R282) -/

/-- The salt of a homeroom (R277); of one that has none the value is open (log 5). -/
def State.saltOf (s : State) (hr : Nat) : List Byte :=
  (((s.hr hr).salt.getD (Config.identity (0x100 + hr))) ++ List.replicate 16 0#8).take 16

/-- The key of a block (R276): salt, parent key, and 64 token IDs, each most significant byte first. -/
def blockKey (salt parent tokens : List Byte) : List Byte :=
  (sm3 (salt ++ parent ++ (blocksOf 4 64 tokens).flatMap List.reverse)).take 16

/-- A node record (R278). -/
structure Node where
  key : List Byte
  yoke : Nat
  half : Bool
  valid : Bool
  depth : Nat
  age : Nat
  deriving DecidableEq, Repr

/-- The node of 64 bytes. -/
def nodeOf (bs : List Byte) : Node :=
  let w := leNat ((bs.drop 16).take 4)
  ⟨bs.take 16, bitsOf w 0 24, bitAt w 24, bitAt w 31, leNat ((bs.drop 20).take 4), leNat ((bs.drop 24).take 4)⟩

/-- The 64 bytes of a node. -/
def nodeBytes (n : Node) : List Byte :=
  n.key ++ leBytes 4 (n.yoke % 2 ^ 24 + b2n n.half * 2 ^ 24 + b2n n.valid * 2 ^ 31) ++ leBytes 4 n.depth ++ leBytes 4 n.age ++
    List.replicate 36 0#8

/-- The bucket of a key (R279). -/
def bucketOf (t : Tree) (key : List Byte) : Nat := beNat (key.take 4) % 2 ^ t.indexLog2

/-- Where way `w` of a bucket lies. -/
def Tree.wayAt (t : Tree) (bucket w : Nat) : Nat := t.indexBase + 256 * bucket + 64 * w

/-- Read a bucket: its four nodes (R279). -/
def readBucket (d : Nat) (t : Tree) (bucket : Nat) : PailM (List Node) := do
  let bs ← pailRead d t.hr (t.wayAt bucket 0) 256
  pure ((blocksOf 64 4 bs).map nodeOf)

/-- Write one way. -/
def writeWay (d : Nat) (t : Tree) (bucket w : Nat) (n : Node) : PailM Unit := pailWrite d t.hr (t.wayAt bucket w) (nodeBytes n)

/-- Invalidate every node that names a yoke (R293, R313), each reducing its count by 1. -/
def dropNodes (d n y : Nat) : PailM Unit := do
  let t ← getTree d n
  (List.range (2 ^ t.indexLog2)).forM fun b => do
    let ways ← readBucket d t b
    (List.range 4).forM fun w => do
      match ways[w]? with
      | some m =>
        if m.valid && decide (m.yoke = y) then do
          writeWay d t b w { m with valid := false }
          dropCount d n y 1
        else pure ()
      | none => pure ()

/-! ### Copies (R290, R291, R293) -/

/-- The pail command status of a failed access of a copy (R286, R293); 0xFF has it wait. -/
def copyErr : AccErr → Nat
  | .held _ => 0xFF
  | .check => 9
  | .fenced => 0x0B
  | _ => 0x0C

/-- Copy one grain through its home slices (R291). -/
def State.copyGrain (s : State) (d hr a b : Nat) : State × Nat :=
  match s.farErr (.pail d) a false with
  | some e => (s, copyErr e)
  | none =>
    match s.lineRead (.pail d) hr a 256 0 true with
    | (t, .error e) => (t, copyErr e)
    | (t, .ok bs) =>
      match t.farTurn (.pail d) b fun s => s.lineWrite (.pail d) hr b bs with
      | (u, .error e) => (u, copyErr e)
      | (u, .ok _) => (u, 0)

/-- Copy one pail through the far controllers (R291): the pail command status, 0 for success. -/
def State.copyThrough (s : State) (d hr : Nat) (src dst : RowId) : State × Nat :=
  (List.range 64).foldl (fun (r : State × Nat) g =>
    if r.2 ≠ 0 then r
    else r.1.copyGrain d hr (r.1.farAddr (pailGrain src (256 * g))) (r.1.farAddr (pailGrain dst (256 * g)))) (s, 0)

/-- The pail command status for a ladle status (R293). -/
def copyStatus : Nat → Nat
  | 0xFF => 0xFF | 0 => 0 | 5 => 9 | 6 => 0x0C | 7 => 0x0B | _ => 2

/-- Copy one pail of a yoke (R290 step 3, R291). -/
def State.copyPail (s : State) (d hr : Nat) (src dst : RowId) : State × Nat :=
  let cross := decide (src.row / 256 ≠ dst.row / 256) && (s.encrypted (src.row / 256) || s.encrypted (dst.row / 256))
  if cross then s.copyThrough d hr src dst
  else
    let (t, e) := s.ladleRunNow ⟨1, false, hr, 16, 0, s.farAddr (rowGrain dst 0), s.farAddr (rowGrain src 0), 0, .pail d, false⟩
    (t, copyStatus e)

/-- Copy every pail of a yoke in increasing j; the first that fails ends the copy. -/
def State.copyYoke (s : State) (d : Nat) (t : Tree) (old new : Nat) : State × Nat :=
  (List.range (yokePails t)).foldl (fun (r : State × Nat) j =>
    if r.2 ≠ 0 then r else r.1.copyPail d t.hr (pailRow s.variant d t old j) (pailRow s.variant d t new j)) (s, 0)

/-- Copy a yoke into a new one (R290 step 3), or stop as R293 says. -/
def copyFresh (d n old : Nat) : PailM Nat := do
  let t ← getTree d n
  let new ← allocYoke d n
  let (s, e) := (← get).copyYoke d t old new
  set s
  if e = 0 then do
    modify fun s => s.fadd (.pailStat1 d) PAIL_STAT1_COPIES 1
    pure new
  else if e = 0xFF then pailFail 0xFF
  else do
    modify fun s => s.pailError d n old e
    dropCount d n new 1
    if e = 9 then dropNodes d n old else pure ()
    pailFail e

/-- Have an entry of a sequence name a yoke whose count already stands for it (R274): where the entry cannot be written the count falls
again. -/
def placeEntry (d n k b : Nat) (e : PailEntry) : PailM Unit := do
  let t ← getTree d n
  pailUndo (writeEntry d t.hr k b e) (dropCount d n e.yoke 1)

/-- Have an entry name one more holder's yoke (R274, R290). -/
def moveEntry (d n k b : Nat) (e : PailEntry) : PailM Unit := do
  addCount d n e.yoke 1
  placeEntry d n k b e

/-- The entry of the block that shares a yoke span with block b, where it is valid (R268, R273). -/
def mateEntry (d n k vis b : Nat) : PailM (Option (Nat × PailEntry)) := do
  let t ← getTree d n
  let q ← getSeq d k
  match partner t b with
  | some p => do
    let m ← readEntry d t.hr q vis p
    pure (if m.valid then some (p, m) else none)
  | none => pure none

/-- A block marked LOST receives a new yoke without a copy, and its partner moves to the same yoke, marked LOST (R290 step 4). -/
def replaceLost (d n k b : Nat) (e : PailEntry) (mate : Option (Nat × PailEntry)) : PailM Unit := do
  let y ← allocYoke d n
  placeEntry d n k b ⟨y, e.half, false, true⟩
  dropCount d n e.yoke 1
  match mate with
  | some (p, m) => do
    moveEntry d n k p { m with yoke := y, lost := true }
    dropCount d n m.yoke 1
  | none => pure ()

/-- A block whose yoke others name too is copied first, and every entry of the sequence that names the old yoke moves (R290 steps 2 and 3). -/
def unshare (d n k b : Nat) (e : PailEntry) (mate : Option (Nat × PailEntry)) : PailM Unit := do
  let both := mate.filter fun m => decide (m.2.yoke = e.yoke)
  let own := if both.isSome then 2 else 1
  let c ← yokeCount d n e.yoke
  if c ≤ own then pure ()
  else do
    let y ← copyFresh d n e.yoke
    placeEntry d n k b { e with yoke := y }
    dropCount d n e.yoke 1
    match both with
    | some (p, m) => do
      moveEntry d n k p { m with yoke := y }
      dropCount d n e.yoke 1
    | none => pure ()

/-- Prepare a block for writing (R290); blocks below `vis` have entries. -/
def prepareBlock (d n k vis b : Nat) : PailM Unit := do
  let t ← getTree d n
  let q ← getSeq d k
  let e ← readEntry d t.hr q vis b
  let mate ← mateEntry d n k vis b
  if e.valid && e.lost then replaceLost d n k b e mate
  else if e.valid then unshare d n k b e mate
  else
    match mate with
    | some (_, m) =>
      if b % 2 = 1 ∧ !m.lost then do
        let cur : PailEntry := ⟨m.yoke, halfOf t b, false, true⟩
        moveEntry d n k b cur
        unshare d n k b cur mate
      else do
        let y ← allocYoke d n
        placeEntry d n k b ⟨y, halfOf t b, false, true⟩
    | none => do
      let y ← allocYoke d n
      placeEntry d n k b ⟨y, halfOf t b, false, true⟩

/-- Prepare the blocks of a token range in increasing order (R290). -/
def prepareRange (d n k vis : Nat) (first count : Nat) : PailM Unit :=
  (rangeFrom (first / 64) (if count = 0 then 0 else (first + count - 1) / 64 + 1 - first / 64)).forM fun b =>
    prepareBlock d n k (max vis b) b

/-- Segments of a key or value line (R289). -/
def lineSegments (t : Tree) : Nat := if keyLineBytes t.hdim t.fmt = 512 then 2 else 1

/-- The far address, as the tree's homeroom names it, of a segment of a token's line (R267, R268, R289). -/
def State.segmentAddr (s : State) (d : Nat) (t : Tree) (e : PailEntry) (layer head tok seg : Nat) (value : Bool) : Nat :=
  let (j, u) := tokenPail t layer head (b2n e.half) (tok % 64)
  let p := u * keyLineBytes t.hdim t.fmt + 256 * seg + (if value then 8192 else 0)
  s.untranslate t.hr (s.farAddr (pailGrain (pailRow s.variant d t e.yoke j) p) + p % 256)

/-- The slot-list addresses of one token (R289): layer by layer, head by head, key then value, segment by segment. -/
def State.tokenSlots (s : State) (d : Nat) (t : Tree) (e : PailEntry) (tok : Nat) : List Nat :=
  (List.range t.layers).flatMap fun l => (List.range t.heads).flatMap fun h => [false, true].flatMap fun v =>
    (List.range (lineSegments t)).map fun g => s.segmentAddr d t e l h tok g v

/-- Write the slot list of a token range (R289): the entries written. -/
def writeSlots (d n k vis addr first count : Nat) : PailM Nat := do
  let t ← getTree d n
  let q ← getSeq d k
  let all ← (rangeFrom first count).mapM fun tok => do
    let e ← readEntry d t.hr q vis (tok / 64)
    pure ((← get).tokenSlots d t e tok)
  let slots := all.flatten
  pailWrite d t.hr addr (slots.flatMap (leBytes 8))
  pure slots.length

end Sys2Proof.Machine
end

