-- ==== Sys2Proof/Machine/Pails.lean ====
section
/-! DEFINITION. Pail commands (R270 to R313): what each does to its tree, sequence or ring. -/

namespace Sys2Proof.Machine

/-- The encoding rules of R283 and R284. -/
def pailEncoded (op : Nat) (c : PailCmd) : Bool :=
  let addr := fun w => decide (w < 2 ^ 48)
  let z := fun w => decide (w = 0)
  decide (c.rsv = 0) &&
  (match op with
   | 0x01 => z c.seq && addr c.w1 && z c.w2 && z c.w3
   | 0x02 => z c.seq && z c.w1 && z c.w2 && z c.w3
   | 0x03 => z c.seq && decide (c.w1 < 2 ^ 16) && z c.w2 && z c.w3
   | 0x10 => addr c.w1 && decide (c.w1 % 4 = 0) && decide (c.w2 < 2 ^ 16) && z c.w3
   | 0x12 => addr c.w1 && decide (c.w2 < 2 ^ 32) && z c.w3
   | 0x13 => addr c.w1 && decide (1 ≤ c.w2) && decide (c.w2 ≤ 4096) && z c.w3
   | 0x14 => addr c.w1 && decide (c.w2 < 2 ^ 46) && decide (1 ≤ bitsOf c.w2 32 13) && decide (bitsOf c.w2 32 13 ≤ 4096) && z c.w3
   | 0x15 => addr c.w1 && z c.w2 && z c.w3
   | 0x16 => decide (c.w1 < 2 ^ 12) && z c.w2 && z c.w3
   | 0x17 => decide (c.w1 < 2 ^ 32) && z c.w2 && z c.w3
   | 0x18 => decide (c.w1 < 2 ^ 32) && z c.w2 && z c.w3
   | 0x30 => addr c.w1 && z c.w2 && z c.w3
   | 0x31 => decide (c.w1 < 2 ^ 9) && z c.w2 && z c.w3
   | 0x11 => z c.w1 && z c.w2 && z c.w3
   | 0x20 => z c.w1 && z c.w2 && z c.w3
   | 0x21 => z c.w1 && z c.w2 && z c.w3
   | 0x32 => z c.w1 && z c.w2 && z c.w3
   | _ => false)

/-! ### Trees -/

/-- A range of far addresses lies in the homeroom's regions (R271). -/
def State.inRegions (s : State) (hr a n : Nat) : Bool :=
  let b := setBytes s.variant
  (rangeFrom (a / b) (if n = 0 then 0 else (a + n - 1) / b + 1 - a / b)).all fun v =>
    match s.translate hr (v * b) with | .ok _ => true | .error _ => false

/-- The tree that a record describes (R270): the tree, or the status that refuses it. -/
def State.treeOf (s : State) (hr : Nat) (bs : List Byte) : Tree × Nat :=
  let w := wordAt (leWords 16 bs)
  let hdim := match bitsOf (w 5) 16 2 with | 0 => 64 | 1 => 128 | 2 => 256 | _ => 0
  let fmt := bitsOf (w 5) 18 4
  let marked := (List.range 128).filter fun i => bitAt (if i < 64 then w 3 else w 4) (i % 64)
  let phys := marked.map fun i => if hr = 0 then (if s.setOwner i = some 0 then some i else none) else s.mapEntry hr i
  let pool := (List.range 128).filter fun n => phys.contains (some n)
  let t : Tree :=
    { hr := bitsOf (w 5) 22 4, layers := bitsOf (w 5) 0 8, heads := bitsOf (w 5) 8 7, hdim := hdim, fmt := fmt,
      indexBase := bitsOf (w 0) 0 48, indexLog2 := bitsOf (w 0) 48 5, countBase := bitsOf (w 1) 0 48, freeBase := bitsOf (w 2) 0 48,
      pool := pool, root := leBytes 8 (w 6) ++ leBytes 8 (w 7), shadow := bitAt (w 8) 18, twinDev := bitsOf (w 8) 0 12,
      twinTree := bitsOf (w 8) 12 4, twinDie := bitsOf (w 8) 16 2, twinPorts := bitsOf (w 9) 0 24, yokes := 0, next := 0, freeTop := 0,
      cursor := 0, clock := 0 }
  let t := { t with yokes := if yokeStride s.variant t = 0 then 0 else pool.length * setSlots s.variant / yokeStride s.variant t }
  let bad := (rangeFrom 10 6).any (fun i => decide (w i ≠ 0)) || decide (t.indexLog2 < 10) || decide (24 < t.indexLog2) ||
    decide (t.indexBase % 256 ≠ 0) || decide (t.countBase % 256 ≠ 0) || decide (t.freeBase % 256 ≠ 0) || decide (t.layers = 0) ||
    decide (t.heads = 0) || decide (64 < t.heads) || decide (hdim = 0) || !([0x1, 0x2, 0xB, 0xC].contains fmt) || marked.isEmpty
  let denied := decide (t.hr ≠ hr) || phys.any Option.isNone || pool.any s.wide ||
    !s.inRegions hr t.indexBase (256 * 2 ^ t.indexLog2) || !s.inRegions hr t.countBase (4 * t.yokes) || !s.inRegions hr t.freeBase (4 * t.yokes)
  (t, if bad then 1 else if denied then 2 else if t.yokes = 0 then 1 else 0)

/-- TREE_OPEN (R270, R271). -/
def treeOpenBody (d : Nat) (c : PailCmd) : PailM Nat := do
  pailNeed (smFind ((← get).pail d).trees c.tree).isNone 3
  let bs ← pailRead d c.hr c.w1 128
  let (t, e) := (← get).treeOf c.hr bs
  pailNeed (decide (e = 0)) e
  setTree d c.tree t
  pure t.yokes

/-- TREE_CLOSE (R272). -/
def treeCloseBody (d : Nat) (c : PailCmd) : PailM Nat := do
  let _ ← ownTree d c.hr c.tree
  let m := (← get).pail d
  let busy := (m.seqs.any fun e => decide (e.2.tree = c.tree)) || (m.rings.any fun e => decide (e.2.tree = c.tree)) ||
    (m.syncs.any fun y => decide (y.tree = c.tree))
  pailNeed (!busy) 4
  modify fun s => s.setPail d { s.pail d with trees := smDel (s.pail d).trees c.tree,
                                              pushes := (s.pail d).pushes.filter fun p => decide (p.tree ≠ c.tree),
                                              gathers := (s.pail d).gathers.filter fun g => decide (g.tree ≠ c.tree) }
  pure 0

/-- EVICT (R282): from the cursor, over at most every way once, until MAX nodes are freed. -/
def evictLoop (d n : Nat) : Nat → Nat → PailM Nat
  | 0, _ => pure 0
  | _ + 1, 0 => pure 0
  | fuel + 1, left + 1 => do
    let t ← getTree d n
    let b := t.cursor / 4 % 2 ^ t.indexLog2
    let w := t.cursor % 4
    let ways ← readBucket d t b
    setTree d n { t with cursor := (t.cursor + 1) % (4 * 2 ^ t.indexLog2) }
    match ways[w]? with
    | some m =>
      if m.valid then do
        let k ← yokeCount d n m.yoke
        if k = 1 then do
          writeWay d t b w { m with valid := false }
          dropCount d n m.yoke 1
          pure ((← evictLoop d n fuel left) + 1)
        else evictLoop d n fuel (left + 1)
      else evictLoop d n fuel (left + 1)
    | none => evictLoop d n fuel (left + 1)

/-- EVICT (R282). -/
def evictBody (d : Nat) (c : PailCmd) : PailM Nat := do
  let t ← ownTree d c.hr c.tree
  evictLoop d c.tree (4 * 2 ^ t.indexLog2) c.w1

/-! ### Messages to a twin (R310, R311; log 23 for their layout) -/

/-- Grains of one block within its pail (R267, R268): keys then values; half a pail where T is 128. -/
def blockGrains (t : Tree) (half : Bool) : List Nat :=
  if pailTokens t.hdim t.fmt = 128 then rangeFrom (16 * b2n half) 16 ++ rangeFrom (32 + 16 * b2n half) 16 else List.range 64

/-- Grains of a pail that hold tokens `lo` to `hi - 1` of a block, rounded out to whole grains (R310). -/
def tokenGrains (t : Tree) (half : Bool) (q lo hi : Nat) : List Nat :=
  (blockGrains t half).filter fun g =>
    (rangeFrom lo (hi - lo)).any fun tok =>
      let (j, u) := tokenPail t 0 0 (b2n half) tok
      let kb := keyLineBytes t.hdim t.fmt
      decide (j = q) && [0, 8192].any fun o => decide (o + u * kb < 256 * (g + 1)) && decide (256 * g < o + u * kb + kb)

/-- The far address, as the tree's homeroom names it, of a grain of a pail (R267). -/
def State.pailGrainAddr (s : State) (d : Nat) (t : Tree) (yoke j g : Nat) : Nat :=
  s.untranslate t.hr (s.farAddr (pailGrain (pailRow s.variant d t yoke j) (256 * g)))

/-- Places (block, pail, grain) of the grains of a token range, in block and pail order (R310). -/
def shadowPlaces (t : Tree) (lo hi : Nat) : List (Nat × Nat × Nat) :=
  (rangeFrom (lo / 64) (if hi ≤ lo then 0 else (hi - 1) / 64 + 1 - lo / 64)).flatMap fun b =>
    (List.range (yokePails t)).flatMap fun j =>
      (tokenGrains t (halfOf t b) (j % pailsPerBlock t.hdim t.fmt) (max lo (64 * b) - 64 * b) (min hi (64 * b + 64) - 64 * b)).map fun g => (b, j, g)

/-- Send a message to the twin of a tree (R310, R422, R425). -/
def sendTwin (d msg : Nat) (t : Tree) (key : Nat) (data : List Byte) : PailM Unit := do
  let (s, ok) := (← get).sendPailMsg d t.hr true t.twinDev t.twinPorts (pailAddr msg t.twinDie t.twinTree 0 0 0) key data
  set s
  if ok then pure () else pailFail 0x0A

/-- The body of a SHADOW_DATA message: sequence, table base and capacity, length, the shadowed length before, how many keys of published
blocks follow, whether it opens the sequence, the keys, the changed entries, and the grains. -/
def shadowBytes (k : Nat) (q : Seq) (fresh : Bool) (ents : List (Nat × PailEntry)) (grains : List Byte) : List Byte :=
  ([k, q.base, q.blocks, q.len, q.synced, q.keys.length, b2n fresh].flatMap (leBytes 8)) ++ q.keys.flatten ++ leBytes 8 ents.length ++
    (ents.flatMap fun e => leBytes 4 e.1 ++ leBytes 4 (entryWord e.2)) ++ grains

/-- The entry of a block whose pails are read; one that is LOST ends the command (R286). -/
def readKept (d hr : Nat) (q : Seq) (b : Nat) : PailM PailEntry := do
  let e ← readEntry d hr q q.used b
  pailNeed (!e.lost) 8
  pure e

/-- SHADOW_SYNC (R310): none answers a command that waits for the twin. -/
def shadowSyncBody (d : Nat) (c : PailCmd) : PailM (Option Nat) := do
  let t ← ownTree d c.hr c.tree
  let q ← ownSeq d c.tree c.seq
  pailNeed (t.shadow && !q.shadow) 3
  let ents ← (q.changed.filter fun b => decide (b < q.used)).mapM fun b => do pure (b, ← readEntry d t.hr q q.used b)
  let places := shadowPlaces t (min q.synced q.len) q.len
  let grains ← places.mapM fun p => do
    let e ← readKept d t.hr q p.1
    pailRead d t.hr ((← get).pailGrainAddr d t e.yoke p.2.1 p.2.2) 256
  if places.isEmpty && ents.isEmpty && decide (q.synced = q.len) then pure (some 0)
  else do
    sendTwin d 8 t c.seq (shadowBytes c.seq q false ents grains.flatten)
    modify fun s => s.setPail d { s.pail d with syncs := (s.pail d).syncs ++ [⟨c.seq, c.tree, c.tag, places.length, 0⟩] }
    pure none

/-! ### Sequences -/

/-- SEQ_OPEN (R273); on a shadowed tree the twin opens a shadow sequence under the same number (R309), anew where it has one. -/
def seqOpenBody (d : Nat) (c : PailCmd) : PailM Nat := do
  let t ← ownTree d c.hr c.tree
  pailNeed (smFind ((← get).pail d).seqs c.seq).isNone 3
  pailNeed ((← get).inRegions c.hr c.w1 (4 * c.w2)) 2
  let q : Seq := { tree := c.tree, base := c.w1, blocks := c.w2, len := 0, keys := [], shadow := false, synced := 0, changed := [] }
  setSeq d c.seq q
  if t.shadow then tryCatch (sendTwin d 8 t c.seq (shadowBytes c.seq q true [] [])) fun e => if e.1 = 0xFF then throw e else pure () else pure ()
  pure 0

/-- Clear the entries of blocks from `lo` to the sequence's last, and release their yokes (R295). -/
def cutSeq (d n k lo : Nat) : PailM Unit := do
  let t ← getTree d n
  let q ← getSeq d k
  (rangeFrom lo (q.used - lo)).forM fun b => do
    let e ← readEntry d t.hr q q.used b
    writeEntry d t.hr k b .none
    if e.valid then dropCount d n e.yoke 1 else pure ()

/-- A failed command leaves no count raised for a block beyond the sequence's length (R273, R274): the entries it set there are cleared,
and their yokes released. -/
def undoBeyond (d n k : Nat) : PailM Unit := do
  let t ← getTree d n
  let q ← getSeq d k
  (q.changed.filter fun b => decide (q.used ≤ b)).forM fun b => do
    let e ← readEntry d t.hr q (b + 1) b
    writeEntry d t.hr k b .none
    if e.valid then dropCount d n e.yoke 1 else pure ()
  let q ← getSeq d k
  setSeq d k { q with changed := q.changed.filter fun b => decide (b < q.used) }

/-- Shorten a sequence (R295). -/
def truncateSeq (d n k len : Nat) : PailM Unit := do
  cutSeq d n k (ceilDiv len 64)
  let q ← getSeq d k
  setSeq d k { q with len := len, keys := q.keys.take (len / 64), synced := min q.synced len,
                      changed := q.changed.filter fun b => decide (64 * b < len) }

/-- TRUNCATE (R295, R312). -/
def truncateBody (d : Nat) (c : PailCmd) : PailM Nat := do
  let _ ← ownTree d c.hr c.tree
  let q ← ownSeq d c.tree c.seq
  pailNeed (!q.shadow) 4
  pailNeed (decide (c.w1 ≤ q.len)) 6
  truncateSeq d c.tree c.seq c.w1
  pure c.w1

/-- SEQ_CLOSE (R295). -/
def seqCloseBody (d : Nat) (c : PailCmd) : PailM Nat := do
  let _ ← ownTree d c.hr c.tree
  let _ ← ownSeq d c.tree c.seq
  truncateSeq d c.tree c.seq 0
  modify fun s => s.setPail d { s.pail d with seqs := smDel (s.pail d).seqs c.seq }
  pure 0

/-- MATCH from block b on (R280): the hits. -/
def matchLoop (d : Nat) (c : PailCmd) : Nat → Nat → List Byte → PailM Nat
  | 0, b, _ => pure b
  | fuel + 1, b, parent => do
    let t ← getTree d c.tree
    let q ← getSeq d c.seq
    if c.w2 / 64 ≤ b then pure b
    else if q.blocks ≤ b then throw (5, b)
    else do
      let toks ← pailRead d c.hr (c.w1 + 256 * b) 256
      let key := blockKey ((← get).saltOf t.hr) parent toks
      let ways ← readBucket d t (bucketOf t key)
      match ways.findIdx? fun m => m.valid && decide (m.key = key) with
      | none => do
        modify fun s => s.fadd (.pailStat0 d) PAIL_STAT0_MISSES 1
        pure b
      | some w => do
        let m := ways.getD w ⟨[], 0, false, false, 0, 0⟩
        moveEntry d c.tree c.seq b ⟨m.yoke, m.half, false, true⟩
        let q ← getSeq d c.seq
        setSeq d c.seq { q with len := 64 * (b + 1), keys := q.keys ++ [key] }
        modify fun s => s.fadd (.pailStat0 d) PAIL_STAT0_HITS 1
        let t ← getTree d c.tree
        setTree d c.tree { t with clock := (t.clock + 1) % 2 ^ 32 }
        writeWay d t (bucketOf t key) w { m with age := (t.clock + 1) % 2 ^ 32 }
        matchLoop d c fuel (b + 1) key

/-- MATCH (R280). -/
def matchBody (d : Nat) (c : PailCmd) : PailM Nat := do
  let t ← ownTree d c.hr c.tree
  let q ← ownSeq d c.tree c.seq
  pailNeed (decide (q.len = 0)) 3
  matchLoop d c (c.w2 / 64 + 1) 0 t.root

/-- APPEND (R289, R290, R312). -/
def appendBody (d : Nat) (c : PailCmd) : PailM Nat := do
  let _ ← ownTree d c.hr c.tree
  let q ← ownSeq d c.tree c.seq
  pailNeed (!q.shadow) 4
  pailNeed (decide (ceilDiv (q.len + c.w2) 64 ≤ q.blocks)) 5
  pailUndo (do
      prepareRange d c.tree c.seq q.used q.len c.w2
      let _ ← writeSlots d c.tree c.seq (ceilDiv (q.len + c.w2) 64) c.w1 q.len c.w2)
    (undoBeyond d c.tree c.seq)
  let q' ← getSeq d c.seq
  setSeq d c.seq { q' with len := q.len + c.w2 }
  pure (q.len + c.w2)

/-- A block of a token range is LOST (R286). -/
def rangeLost (d : Nat) (t : Tree) (q : Seq) (first count : Nat) : PailM Bool := do
  let es ← (rangeFrom (first / 64) (if count = 0 then 0 else (first + count - 1) / 64 + 1 - first / 64)).mapM (readEntry d t.hr q q.used)
  pure (es.any PailEntry.lost)

/-- RESOLVE (R289, R290, R312). -/
def resolveBody (d : Nat) (c : PailCmd) : PailM Nat := do
  let t ← ownTree d c.hr c.tree
  let q ← ownSeq d c.tree c.seq
  let first := bitsOf c.w2 0 32
  let count := bitsOf c.w2 32 13
  let write := bitAt c.w2 45
  pailNeed (!(q.shadow && write)) 4
  pailNeed (decide (first + count ≤ q.len)) 6
  if write then prepareRange d c.tree c.seq q.used first count
  else do pailNeed (!(← rangeLost d t q first count)) 8
  writeSlots d c.tree c.seq q.used c.w1 first count

/-- Where a new node goes (R281): an invalid way, else the idle way of lowest AGE, the lowest-numbered among equals. -/
def chooseWay (d n : Nat) (ways : List Node) : PailM (Option Nat) := do
  match ways.findIdx? fun m => !m.valid with
  | some w => pure (some w)
  | none => do
    let idle ← (List.range ways.length).filterM fun w => do
      match ways[w]? with
      | some m => do pure (decide ((← yokeCount d n m.yoke) = 1))
      | none => pure false
    pure (idle.foldl (fun best w =>
      match best with
      | none => some w
      | some v => if (ways.getD w ⟨[], 0, false, false, 0, 0⟩).age < (ways.getD v ⟨[], 0, false, false, 0, 0⟩).age then some w else best) none)

/-- Insert a node (R281): false where a valid node with the key exists; INDEX_FULL where no way is invalid or idle. -/
def insertNode (d n : Nat) (key : List Byte) (e : PailEntry) (b done : Nat) : PailM Bool := do
  let t ← getTree d n
  let ways ← readBucket d t (bucketOf t key)
  if ways.any fun m => m.valid && decide (m.key = key) then pure false
  else do
    match ← chooseWay d n ways with
    | none => throw (7, done)
    | some w => do
      addCount d n e.yoke 1
      pailUndo (writeWay d t (bucketOf t key) w ⟨key, e.yoke, e.half, true, b, t.clock⟩) (dropCount d n e.yoke 1)
      modify fun s => s.fadd (.pailStat1 d) PAIL_STAT1_INSERTS 1
      match ways[w]? with
      | some m => if m.valid then dropCount d n m.yoke 1 else pure ()
      | none => pure ()
      pure true

/-- PUBLISH from block b on (R281, R311): the nodes inserted. -/
def publishLoop (d : Nat) (c : PailCmd) : Nat → Nat → Nat → PailM Nat
  | 0, _, done => pure done
  | fuel + 1, b, done => do
    let t ← getTree d c.tree
    let q ← getSeq d c.seq
    if q.len / 64 ≤ b then pure done
    else do
      let toks ← pailRead d c.hr (c.w1 + 256 * b) 256
      let parent := (q.keys.getLast?).getD t.root
      let key := blockKey ((← get).saltOf t.hr) parent toks
      let e ← readEntry d t.hr q q.used b
      if e.lost then throw (8, done) else pure ()
      let added ← insertNode d c.tree key e b done
      if added && t.shadow then
        tryCatch (sendTwin d 10 t c.seq (leBytes 8 c.seq ++ leBytes 8 b ++ key)) fun x => if x.1 = 0xFF then throw x else pure ()
      else pure ()
      let q ← getSeq d c.seq
      setSeq d c.seq { q with keys := q.keys ++ [key] }
      publishLoop d c fuel (b + 1) (done + b2n added)

/-- PUBLISH (R281, R312). -/
def publishBody (d : Nat) (c : PailCmd) : PailM Nat := do
  let _ ← ownTree d c.hr c.tree
  let q ← ownSeq d c.tree c.seq
  pailNeed (!q.shadow) 4
  publishLoop d c (q.len / 64 + 1) q.keys.length 0

/-- FORK (R294). -/
def forkBody (d : Nat) (c : PailCmd) : PailM Nat := do
  let t ← ownTree d c.hr c.tree
  let q ← ownSeq d c.tree c.seq
  let src ← ownSeq d c.tree c.w1
  pailNeed (decide (c.w1 ≠ c.seq) && decide (q.len = 0)) 3
  pailNeed (!q.shadow) 4
  pailNeed (decide (src.used ≤ q.blocks)) 5
  pailUndo ((List.range src.used).forM fun b => do
      let e ← readEntry d t.hr src src.used b
      if e.valid then moveEntry d c.tree c.seq b e else writeEntry d t.hr c.seq b e)
    (undoBeyond d c.tree c.seq)
  let q' ← getSeq d c.seq
  setSeq d c.seq { q' with len := src.len, keys := src.keys }
  pure src.used

/-- MARK_LOST (R313). -/
def markLostBody (d : Nat) (c : PailCmd) : PailM Nat := do
  let t ← ownTree d c.hr c.tree
  let q ← ownSeq d c.tree c.seq
  pailNeed (decide (c.w1 < q.used)) 6
  let e ← readEntry d t.hr q q.used c.w1
  pailNeed e.valid 6
  if e.lost then pure 0
  else do
    writeEntry d t.hr c.seq c.w1 { e with lost := true }
    match partner t c.w1 with
    | some p => do
      let m ← readEntry d t.hr q q.used p
      if m.valid then writeEntry d t.hr c.seq p { m with lost := true } else pure ()
    | none => pure ()
    dropNodes d c.tree e.yoke
    pure 0

/-- ADOPT (R312). -/
def adoptBody (d : Nat) (c : PailCmd) : PailM Nat := do
  let _ ← ownTree d c.hr c.tree
  let q ← ownSeq d c.tree c.seq
  pailNeed q.shadow 3
  setSeq d c.seq { q with shadow := false, synced := 0 }
  pure 0

/-! ### Churn (R301 to R305) -/

/-- The ring kept under an own sequence. -/
def getRing (d k : Nat) : PailM ChurnRing := do
  match smFind ((← get).pail d).rings k with
  | some r => pure r
  | none => pailFail 3

/-- Replace a ring. -/
def setRing (d k : Nat) (r : ChurnRing) : PailM Unit :=
  modify fun s => s.setPail d { s.pail d with rings := smPut (s.pail d).rings k r }

/-- Replace the run of a ring. -/
def setRun (d k : Nat) (x : ChurnRun) : PailM Unit := do
  let r ← getRing d k
  setRing d k { r with active := some x }

/-- End the run of a ring with a status (R303, R305). -/
def State.churnEnd (s : State) (d k status : Nat) : State :=
  match smFind (s.pail d).rings k with
  | some r =>
    match r.active with
    | some x =>
      (s.setPail d { s.pail d with rings := smPut (s.pail d).rings k { r with active := none, runs := r.runs + 1 } }).sendRecord
        ⟨.pail d, x.tag, status + x.tag * 2 ^ 32, 0⟩
    | none => s
  | none => s

/-- A ring's neighbour has stopped answering (R305): the ring is lost, and its run ends with PEER_LOST. -/
def State.ringLost (s : State) (d k : Nat) : State :=
  match smFind (s.pail d).rings k with
  | some r => (s.setPail d { s.pail d with rings := smPut (s.pail d).rings k { r with lost := true } }).churnEnd d k 0x0A
  | none => s

/-- Send a churn message of a run to a neighbour (R302): a neighbour that no route leads to is lost (R305). -/
def sendChurnAt (d k msg : Nat) (next : Bool) (step run : Nat) (data : List Byte) : PailM Bool := do
  let r ← getRing d k
  let t ← getTree d r.tree
  let (s, ok) := (← get).sendPailMsg d t.hr false (if next then r.nextDev else r.prevDev) (2 ^ 24 - 1)
    (pailAddr msg 0 r.id r.pos step run) k data
  set s
  if ok then pure () else modify fun s => s.ringLost d k
  pure ok

/-- Send a churn message of the current run. -/
def sendChurn (d k msg : Nat) (next : Bool) (step : Nat) (data : List Byte) : PailM Bool := do
  let r ← getRing d k
  sendChurnAt d k msg next step r.runs data

/-- The body of a HELLO (R302): R and C. -/
def helloBytes (r : ChurnRing) : List Byte := leBytes 8 r.r ++ leBytes 8 r.c

/-- Fill a buffer sequence's table with new yokes for 2C tokens (R301). -/
def fillBuffer (d n k c : Nat) : PailM Unit := do
  let q ← getSeq d k
  pailNeed (decide (ceilDiv (2 * c) 64 ≤ q.blocks)) 5
  pailUndo ((List.range (ceilDiv (2 * c) 64)).forM fun b => prepareBlock d n k b b) (undoBeyond d n k)
  let q' ← getSeq d k
  setSeq d k { q' with len := 2 * c }

/-- The ring that a record of 64 bytes describes (R301). -/
def churnRecord (tree : Nat) (bs : List Byte) : ChurnRing :=
  let w := wordAt (leWords 8 bs)
  { id := bitsOf (w 0) 0 16, tree := tree, r := bitsOf (w 0) 16 7, pos := bitsOf (w 0) 24 6,
    nextDev := bitsOf (w 0) 32 12, prevDev := bitsOf (w 0) 48 12, buf0 := bitsOf (w 1) 0 12, buf1 := bitsOf (w 1) 16 12,
    c := bitsOf (w 1) 32 32, ready := bitsOf (w 2) 0 48, release := bitsOf (w 3) 0 48, count := bitsOf (w 4) 0 32,
    riderOwn := bitsOf (w 5) 0 48, riderBuf := bitsOf (w 6) 0 48, riderBytes := bitsOf (w 7) 0 32, helloNext := false,
    helloPrev := false, refusedNext := false, refusedPrev := false, lost := false, runs := 0, early := 0, active := none }

/-- The ranges of R301 for a ring's record. -/
def ChurnRing.shaped (r : ChurnRing) : Bool :=
  decide (2 ≤ r.r) && decide (r.r ≤ 64) && decide (r.pos < r.r) && decide (r.ready % 8 = 0) && decide (r.release % 8 = 0) &&
    decide (r.riderBytes % 256 = 0)

/-- The addresses that a ring's record names lie in the homeroom's regions (R301). -/
def State.ringPlaced (s : State) (hr : Nat) (r : ChurnRing) : Bool :=
  s.inRegions hr r.ready 8 && s.inRegions hr r.release 8 && s.inRegions hr r.riderOwn r.riderBytes && s.inRegions hr r.riderBuf (2 * r.riderBytes)

/-- A run of a ring begins (R303): the first step's place, what RELEASE holds, and the credits that it gives. -/
def ChurnRing.begin (r : ChurnRing) (tag layer : Nat) (rider : Bool) (rel : Nat) : ChurnRing :=
  { r with early := 0,
           active := some { tag := tag, layer := layer, rider := rider, release0 := rel, sent := 0, held := 0, riderSent := 0, riderHeld := 0,
                            acked := 0, credit := r.early, released := 0, credited := min 2 (r.r - 1), raised := 0 } }

/-- CHURN_OPEN (R301): a neighbour that no route leads to ends it with PEER_LOST, the ring being open and lost (R305). -/
def churnOpenBody (d : Nat) (c : PailCmd) : PailM Nat := do
  let _ ← ownTree d c.hr c.tree
  let _ ← ownSeq d c.tree c.seq
  let m := (← get).pail d
  pailNeed ((smFind m.rings c.seq).isNone && decide (m.rings.length < 4)) 3
  let r := churnRecord c.tree (← pailRead d c.hr c.w1 64)
  pailNeed r.shaped 1
  pailNeed ((← get).ringPlaced c.hr r) 2
  let b0 ← ownSeq d c.tree r.buf0
  let b1 ← ownSeq d c.tree r.buf1
  pailNeed (decide (b0.len = 0) && decide (b1.len = 0) && decide (r.buf0 ≠ r.buf1) && decide (r.buf0 ≠ c.seq) && decide (r.buf1 ≠ c.seq)) 3
  fillBuffer d c.tree r.buf0 r.c
  pailUndo (fillBuffer d c.tree r.buf1 r.c) (truncateSeq d c.tree r.buf0 0)
  setRing d c.seq r
  let next ← sendChurn d c.seq 1 true 0 (helloBytes r)
  let prev ← sendChurn d c.seq 1 false 0 (helloBytes r)
  pailNeed (next && prev) 0x0A
  pure 0

/-- The sequence that holds a step's block (R299, R303): the own one at step 0, else buffer k mod 2. -/
def ChurnRing.holder (r : ChurnRing) (own k : Nat) : Nat := if k = 0 then own else if k % 2 = 0 then r.buf0 else r.buf1

/-- Where a step's rider lies (R301, R304). -/
def ChurnRing.riderAt (r : ChurnRing) (k : Nat) : Nat :=
  if k = 0 ∨ k = r.r then r.riderOwn else r.riderBuf + k % 2 * r.riderBytes

/-- Places (block, pail, grain) of a layer's grains of 2C tokens, in block, head, pail order (R302). -/
def churnPlaces (t : Tree) (layer c : Nat) : List (Nat × Nat × Nat) :=
  (List.range (ceilDiv (2 * c) 64)).flatMap fun b => (List.range t.heads).flatMap fun h =>
    (List.range (pailsPerBlock t.hdim t.fmt)).flatMap fun q =>
      (blockGrains t (halfOf t b)).map fun g => (b, (layer * t.heads + h) * pailsPerBlock t.hdim t.fmt + q, g)

/-- Read the grains of a step's block (R303); a block that is LOST ends the run (R286). -/
def readBlock (d k : Nat) (r : ChurnRing) (layer step : Nat) : PailM (List Byte) := do
  let t ← getTree d r.tree
  let q ← getSeq d (r.holder k step)
  let gs ← (churnPlaces t layer r.c).mapM fun p => do
    let e ← readKept d t.hr q p.1
    pailRead d t.hr ((← get).pailGrainAddr d t e.yoke p.2.1 p.2.2) 256
  pure gs.flatten

/-- Write the grains of a step's block (R303). -/
def writeBlock (d k : Nat) (r : ChurnRing) (layer step : Nat) (data : List Byte) : PailM Unit := do
  let t ← getTree d r.tree
  let q ← getSeq d (r.holder k step)
  let ps := churnPlaces t layer r.c
  (List.range ps.length).forM fun i => do
    let p := ps.getD i (0, 0, 0)
    let e ← readEntry d t.hr q q.used p.1
    pailWrite d t.hr ((← get).pailGrainAddr d t e.yoke p.2.1 p.2.2) ((data.drop (256 * i)).take 256)

/-- One action of a run that is due (R303, R304): true where one was taken. -/
def churnAct (d k : Nat) : PailM Bool := do
  let r ← getRing d k
  let t ← getTree d r.tree
  match r.active with
  | none => pure false
  | some x =>
    if x.sent + 1 ≤ r.r - 1 ∧ x.sent ≤ x.held ∧ x.sent + 1 ≤ x.credit then do
      let data ← readBlock d k r x.layer x.sent
      setRun d k { x with sent := x.sent + 1 }
      sendChurn d k 3 true (x.sent + 1) data
    else if x.rider ∧ x.riderSent < r.r ∧ x.riderSent < x.released ∧ (x.riderSent + 1 ≤ x.sent ∨ x.riderSent + 1 = r.r) then do
      let data ← pailRead d t.hr (r.riderAt x.riderSent) r.riderBytes
      setRun d k { x with riderSent := x.riderSent + 1 }
      sendChurn d k 4 true (x.riderSent + 1) data
    else if x.raised < x.held ∧ (!x.rider ∨ x.raised < x.riderHeld) then do
      let _ ← pailAtom d t.hr r.ready .add 8 1
      setRun d k { x with raised := x.raised + 1 }
      sendChurn d k 5 false (x.raised + 1) []
    else if 2 ≤ x.credited ∧ x.credited + 1 ≤ r.r - 1 ∧ x.credited - 1 < x.released ∧ x.credited ≤ x.acked then do
      setRun d k { x with credited := x.credited + 1 }
      sendChurn d k 2 false (x.credited + 1) []
    else if r.r ≤ x.released ∧ (if x.rider then r.r else r.r - 1) ≤ x.acked then do
      modify fun s => s.churnEnd d k 0
      pure false
    else pure false

/-- Take the actions that are due. -/
def churnPump (d k : Nat) : Nat → PailM Unit
  | 0 => pure ()
  | n + 1 => do if ← churnAct d k then churnPump d k n else pure ()

/-- Actions of a run at most, at one moment. -/
def churnFuel : Nat := 512

/-- Do a part of a run: where it fails, the run ends with the status of the failure (R285, R286). -/
def churnGuard (d k : Nat) (m : PailM Unit) : PailM Unit :=
  tryCatch m fun e => if e.1 = 0xFF then throw e else modify fun s => s.churnEnd d k e.1

/-- CHURN_RUN (R303, R304): none answers a command that runs on. -/
def churnRunBody (d : Nat) (c : PailCmd) : PailM (Option Nat) := do
  let t ← ownTree d c.hr c.tree
  let _ ← ownSeq d c.tree c.seq
  let r ← getRing d c.seq
  pailNeed (decide (bitsOf c.w1 0 8 < t.layers)) 1
  pailNeed (!r.lost) 0x0A
  pailNeed (r.helloNext && r.helloPrev) 3
  let rel := leNat (← pailRead d t.hr r.release 8)
  let _ ← pailAtom d t.hr r.ready .add 8 1
  setRing d c.seq (r.begin c.tag (bitsOf c.w1 0 8) (bitAt c.w1 8) rel)
  let _ ← sendChurn d c.seq 2 false 1 []
  if 2 < r.r then do
    let _ ← sendChurn d c.seq 2 false 2 []
  else pure ()
  churnGuard d c.seq (churnPump d c.seq churnFuel)
  pure none

/-- CHURN_CLOSE (R305). -/
def churnCloseBody (d : Nat) (c : PailCmd) : PailM Nat := do
  let _ ← ownTree d c.hr c.tree
  let _ ← ownSeq d c.tree c.seq
  let r ← getRing d c.seq
  let _ ← sendChurn d c.seq 6 true 0 []
  let _ ← sendChurn d c.seq 6 false 0 []
  truncateSeq d c.tree r.buf0 0
  truncateSeq d c.tree r.buf1 0
  modify fun s => s.setPail d { s.pail d with rings := smDel (s.pail d).rings c.seq }
  pure 0

/-! ### Running commands -/

/-- A command's meaning by its OP (R284): its RESULT, or none where it completes later. -/
def pailBody (d op : Nat) (c : PailCmd) : PailM (Option Nat) :=
  let now := fun (m : PailM Nat) => (do pure (some (← m)) : PailM (Option Nat))
  match op with
  | 0x01 => now (treeOpenBody d c)
  | 0x02 => now (treeCloseBody d c)
  | 0x03 => now (evictBody d c)
  | 0x10 => now (seqOpenBody d c)
  | 0x11 => now (seqCloseBody d c)
  | 0x12 => now (matchBody d c)
  | 0x13 => now (appendBody d c)
  | 0x14 => now (resolveBody d c)
  | 0x15 => now (publishBody d c)
  | 0x16 => now (forkBody d c)
  | 0x17 => now (truncateBody d c)
  | 0x18 => now (markLostBody d c)
  | 0x20 => shadowSyncBody d c
  | 0x21 => now (adoptBody d c)
  | 0x30 => now (churnOpenBody d c)
  | 0x31 => churnRunBody d c
  | 0x32 => now (churnCloseBody d c)
  | _ => pailFail 1

/-- A pail command ends (R285): its record goes to the registrar. -/
def State.pailEnd (s : State) (d tag status result : Nat) : State := s.sendRecord ⟨.pail d, tag, status + tag * 2 ^ 32, result⟩

/-- A sequence has a run or a transfer in progress, behind which its commands wait (R287). -/
def PailMgr.seqBusy (m : PailMgr) (k : Nat) : Bool :=
  (m.rings.any fun e => e.2.active.isSome && (decide (e.1 = k) || decide (e.2.buf0 = k) || decide (e.2.buf1 = k))) ||
  m.syncs.any fun y => decide (y.seq = k)

/-- The sequences that a command names (R287): FORK names two. -/
def pailNames (op : Nat) (c : PailCmd) : List Nat := if op < 0x10 then [] else if op = 0x16 then [c.seq, c.w1] else [c.seq]

/-- A command looks up, inserts or invalidates nodes (R279, R313). -/
def pailIndexes (op : Nat) : Bool := [0x03, 0x12, 0x15, 0x18].contains op

/-- A command waits for an earlier one on a sequence that it names, for a run or a transfer there (R287), or for an earlier index
operation (R279). -/
def PailMgr.mustWait (m : PailMgr) (op : Nat) (c : PailCmd) : Bool :=
  (pailNames op c).any (fun k => m.seqBusy k || m.waiting.any fun e => (pailNames e.1 e.2).contains k) ||
    (pailIndexes op && m.waiting.any fun e => pailIndexes e.1)

/-- Perform a command that has been accepted: it ends, runs on, or waits. -/
def State.pailPerform (s : State) (d op : Nat) (c : PailCmd) : State :=
  let wait := fun (s : State) => s.setPail d { s.pail d with waiting := (s.pail d).waiting ++ [(op, c)] }
  if c.hr ≠ 0 ∧ s.hrState c.hr = 3 then s.pailEnd d c.tag 0x0B 0
  else if !pailEncoded op c then s.pailEnd d c.tag 1 0
  else if (s.pail d).mustWait op c then wait s
  else match (pailBody d op c).run s with
    | (.ok (some r), t) => t.pailEnd d c.tag 0 (r % 2 ^ 32)
    | (.ok none, t) => t
    | (.error e, t) => if e.1 = 0xFF then wait (s.keepHeld t) else t.pailEnd d c.tag e.1 (e.2 % 2 ^ 32)

/-- Try the accepted commands that wait, in their order (R287, R314). -/
def State.pailRetry (s : State) (d : Nat) : State :=
  let t := (s.pail d).waiting.foldl (fun s e => s.pailPerform d e.1 e.2) (s.setPail d { s.pail d with waiting := [] })
  if (t.pail d).waiting.isEmpty && (t.pail d).inbox.isEmpty then t.settle (.pail d) else t

/-! ### Twin shadowing: the receiving side (R309 to R312) -/

/-- The words, keys, entries and grains of a SHADOW_DATA message (log 23). -/
structure ShadowData where
  seq : Nat
  base : Nat
  blocks : Nat
  len : Nat
  synced : Nat
  fresh : Bool
  keys : List (List Byte)
  ents : List (Nat × PailEntry)
  grains : List Byte
  deriving DecidableEq, Repr

/-- Read a SHADOW_DATA message. -/
def shadowOf (bs : List Byte) : ShadowData :=
  let w := wordAt (leWords 7 bs)
  let n := w 5
  let r := bs.drop (56 + 16 * n)
  let m := leNat (r.take 8)
  ⟨w 0, w 1, w 2, w 3, w 4, decide (w 6 = 1), blocksOf 16 n (bs.drop 56),
    (List.range m).map fun i => (leNat ((r.drop (8 + 8 * i)).take 4), entryOf (leNat ((r.drop (12 + 8 * i)).take 4))), r.drop (8 + 8 * m)⟩

/-- Count a message that is dropped (R305, R312). -/
def State.pailDrop (s : State) (d : Nat) : State := s.fadd (.pailStat1 d) PAIL_STAT1_LATE_DROPS 1

/-- Drop a message, and count it. -/
def dropMessage (d : Nat) : PailM Unit := modify fun s => s.pailDrop d

/-- Write the grains of a sync into the twin's own yokes (R310): how many. -/
def shadowGrains (d n : Nat) (m : ShadowData) : PailM Nat := do
  let t ← getTree d n
  let ps := shadowPlaces t (min m.synced m.len) m.len
  (List.range ps.length).forM fun i => do
    let p := ps.getD i (0, 0, 0)
    let q ← getSeq d m.seq
    let e ← readEntry d t.hr q (ceilDiv m.len 64) p.1
    pailWrite d t.hr ((← get).pailGrainAddr d t e.yoke p.2.1 p.2.2) ((m.grains.drop (256 * i)).take 256)
  pure ps.length

/-- A shadow sequence is opened under a number (R309): one that the twin keeps under it is given up first. -/
def openShadow (d n : Nat) (m : ShadowData) : PailM Unit := do
  match smFind ((← get).pail d).seqs m.seq with
  | some q => truncateSeq d q.tree m.seq 0
  | none => pure ()
  modify fun s => s.setPail d { s.pail d with nodes := (s.pail d).nodes.filter fun x => decide (x.seq ≠ m.seq) }
  setSeq d m.seq ⟨n, m.base, m.blocks, 0, [], true, 0, []⟩

/-- Insert the nodes that came before the blocks that they are for (R311). -/
def insertNodes (d n k : Nat) : PailM Unit := do
  let q ← getSeq d k
  let due := ((← get).pail d).nodes.filter fun x => decide (x.tree = n) && decide (x.seq = k) && decide (x.block < q.used)
  modify fun s => s.setPail d { s.pail d with nodes := (s.pail d).nodes.filter fun x => !due.contains x }
  let t ← getTree d n
  due.forM fun x => do
    let e ← readEntry d t.hr q q.used x.block
    if e.valid && !e.lost then tryCatch (do let _ ← insertNode d n x.key e x.block 0) fun e => if e.1 = 0xFF then throw e else pure ()
    else pure ()

/-- What a sync does at the twin (R310): its sequence takes the length and keys, each block written being prepared as for any write, and
the grains; the twin acknowledges them. -/
def takeSync (d n : Nat) (msg : PailMsg) (m : ShadowData) : PailM Unit := do
  let t ← getTree d n
  let q ← getSeq d m.seq
  let lo := min (min m.synced m.len) q.len
  truncateSeq d n m.seq lo
  prepareRange d n m.seq (ceilDiv lo 64) lo (m.len - lo)
  m.ents.forM fun e => do
    let q ← getSeq d m.seq
    let old ← readEntry d t.hr q (ceilDiv m.len 64) e.1
    if old.valid then writeEntry d t.hr m.seq e.1 { old with lost := e.2.lost } else pure ()
  let sent ← shadowGrains d n m
  let q ← getSeq d m.seq
  setSeq d m.seq { q with len := m.len, keys := m.keys, synced := m.len, changed := [] }
  insertNodes d n m.seq
  let (u, _) := (← get).sendPailMsg d t.hr true msg.dev t.twinPorts (pailAddr 9 t.twinDie t.twinTree 0 0 0) m.seq (leBytes 8 m.seq ++ leBytes 8 sent)
  set u

/-- The effect of SHADOW_DATA (R309, R310, R312): into the shadow sequence of the same number. -/
def shadowBody (d : Nat) (msg : PailMsg) : PailM Unit := do
  let m := shadowOf msg.data
  if (smFind ((← get).pail d).trees msg.tree).isNone then dropMessage d
  else
    match smFind ((← get).pail d).seqs m.seq with
    | none => do
      openShadow d msg.tree m
      if m.fresh then pure () else takeSync d msg.tree msg m
    | some q =>
      if !q.shadow then dropMessage d
      else if m.fresh then openShadow d msg.tree m
      else if q.tree ≠ msg.tree then dropMessage d
      else takeSync d msg.tree msg m

/-- The effect of SHADOW_ACK (R310): the sync completes once the twin has acknowledged every grain. -/
def shadowAckBody (d : Nat) (msg : PailMsg) : PailM Unit := do
  let k := leNat (msg.data.take 8)
  let n := leNat ((msg.data.drop 8).take 8)
  let m := (← get).pail d
  match m.syncs.find? fun y => decide (y.seq = k) && decide (y.tree = msg.tree) with
  | none => dropMessage d
  | some y =>
    if y.acked + n < y.sent then
      modify fun s => s.setPail d { m with syncs := m.syncs.map fun z => if z = y then { y with acked := y.acked + n } else z }
    else
      let seqs := match smFind m.seqs k with
        | some q => smPut m.seqs k { q with synced := q.len, changed := [] }
        | none => m.seqs
      modify fun s => (s.setPail d { m with syncs := m.syncs.erase y, seqs := seqs }).pailEnd d y.tag 0 y.sent

/-- The effect of SHADOW_NODE (R311): a published node is inserted for the twin's own yoke of the block, at once or when the sync that
brings the block has come. -/
def shadowNodeBody (d : Nat) (msg : PailMsg) : PailM Unit := do
  let k := leNat (msg.data.take 8)
  let b := leNat ((msg.data.drop 8).take 8)
  match smFind ((← get).pail d).seqs k with
  | none => dropMessage d
  | some q =>
    if !q.shadow || decide (q.tree ≠ msg.tree) then dropMessage d
    else do
      modify fun s => s.setPail d { s.pail d with nodes := (s.pail d).nodes ++ [⟨msg.tree, k, b, (msg.data.drop 16).take 16⟩] }
      insertNodes d msg.tree k

/-! ### Churn messages (R301 to R305) -/

/-- The ring of a RING_ID (R417): its own sequence and the ring. -/
def PailMgr.ringOf (m : PailMgr) (id : Nat) : Option (Nat × ChurnRing) := m.rings.find? fun e => decide (e.2.id = id)

/-- The message comes from the next position, or from the previous one. -/
def ChurnRing.fromNext (r : ChurnRing) (m : PailMsg) : Bool := decide (m.dev = r.nextDev) && decide (m.pos = (r.pos + 1) % r.r)
/-- The message comes from the previous position. -/
def ChurnRing.fromPrev (r : ChurnRing) (m : PailMsg) : Bool := decide (m.dev = r.prevDev) && decide (m.pos = (r.pos + r.r - 1) % r.r)

/-- The effect of HELLO (R301): a matching one agrees in R and C. -/
def helloBody (d : Nat) (msg : PailMsg) (k : Nat) (r : ChurnRing) : PailM Unit :=
  if msg.r = r.r ∧ msg.c = r.c then
    setRing d k { r with helloNext := r.helloNext || r.fromNext msg, helloPrev := r.helloPrev || r.fromPrev msg }
  else pure ()

/-- The effect of CREDIT (R303): a credit of the run in progress, or of the next one. -/
def creditBody (d : Nat) (msg : PailMsg) (k : Nat) (r : ChurnRing) : PailM Unit :=
  if !r.fromNext msg then dropMessage d
  else match r.active with
    | some x =>
      if msg.run = r.runs % 256 then do
        setRun d k { x with credit := max x.credit msg.step }
        churnPump d k churnFuel
      else if msg.run = (r.runs + 1) % 256 then setRing d k { r with early := max r.early msg.step }
      else dropMessage d
    | none => if msg.run = r.runs % 256 then setRing d k { r with early := max r.early msg.step } else dropMessage d

/-- The effect of DATA (R303): the block of the step that was invited is written into its buffer. -/
def dataBody (d : Nat) (msg : PailMsg) (k : Nat) (r : ChurnRing) : PailM Unit :=
  match r.active with
  | some x =>
    if r.fromPrev msg ∧ msg.run = r.runs % 256 ∧ msg.step = x.held + 1 ∧ msg.step ≤ x.credited then do
      writeBlock d k r x.layer msg.step msg.data
      setRun d k { x with held := msg.step }
      churnPump d k churnFuel
    else dropMessage d
  | none => dropMessage d

/-- The effect of RIDER (R304): into the rider buffer of its step; that of step R into RIDER_OWN, acknowledged at once. -/
def riderBody (d : Nat) (msg : PailMsg) (k : Nat) (r : ChurnRing) : PailM Unit := do
  let t ← getTree d r.tree
  if !r.fromPrev msg then dropMessage d
  else if msg.step = r.r then do
    pailWrite d t.hr (r.riderAt msg.step) (msg.data.take r.riderBytes)
    let _ ← sendChurnAt d k 5 false msg.step msg.run []
  else match r.active with
    | some x =>
      if msg.run = r.runs % 256 ∧ msg.step = x.riderHeld + 1 then do
        pailWrite d t.hr (r.riderAt msg.step) (msg.data.take r.riderBytes)
        setRun d k { x with riderHeld := msg.step }
        churnPump d k churnFuel
      else dropMessage d
    | none => dropMessage d

/-- The effect of DATA_ACK (R303, R304). -/
def dataAckBody (d : Nat) (msg : PailMsg) (k : Nat) (r : ChurnRing) : PailM Unit :=
  match r.active with
  | some x =>
    if r.fromNext msg ∧ msg.run = r.runs % 256 then do
      setRun d k { x with acked := max x.acked msg.step }
      churnPump d k churnFuel
    else dropMessage d
  | none => dropMessage d

/-- The effect of CLOSE (R302, R305): the neighbour no longer takes part, so the ring is not ready. -/
def closeBody (d : Nat) (msg : PailMsg) (k : Nat) (r : ChurnRing) : PailM Unit :=
  setRing d k { r with helloNext := r.helloNext && !r.fromNext msg, helloPrev := r.helloPrev && !r.fromPrev msg }

/-- A message of a churn ring (R302): where no ring is open under its RING_ID, or the ring is lost, it is dropped and counted; a failure
ends the run (R286). -/
def churnBody (d : Nat) (msg : PailMsg) (body : Nat → ChurnRing → PailM Unit) : PailM Unit := do
  match ((← get).pail d).ringOf msg.ringId with
  | none => dropMessage d
  | some (k, r) => if r.lost then dropMessage d else churnGuard d k (body k r)

/-- The effect of a message by its MSG (R417). -/
def messageBody (d msg : Nat) (m : PailMsg) : PailM Unit :=
  match msg with
  | 1 => churnBody d m (helloBody d m)
  | 2 => churnBody d m (creditBody d m)
  | 3 => churnBody d m (dataBody d m)
  | 4 => churnBody d m (riderBody d m)
  | 5 => churnBody d m (dataAckBody d m)
  | 6 => churnBody d m (closeBody d m)
  | 8 => shadowBody d m
  | 9 => shadowAckBody d m
  | 10 => shadowNodeBody d m
  | _ => pure ()

/-- Perform the messages that wait, in their order of arrival: the first whose access is held waits, with those behind it (log 21). Fuel is
their number. -/
def State.pailInbox (d : Nat) : Nat → State → State
  | 0, s => s
  | n + 1, s =>
    match (s.pail d).inbox with
    | [] => s
    | (k, m) :: rest =>
      match (messageBody d k m).run (s.setPail d { s.pail d with inbox := rest }) with
      | (.ok _, t) => t.pailInbox d n
      | (.error e, t) => if e.1 = 0xFF then s.keepHeld t else t.pailInbox d n

/-- A manager goes on with what waits: its messages, then its commands; a lost manager does nothing (R313). -/
def State.pailWork (s : State) (d : Nat) : State :=
  if !s.dieUp d then s else (s.pailInbox d (s.pail d).inbox.length).pailRetry d

/-- Managers that have something waiting go on: an access that held them may have been let go. -/
def State.wake (s : State) : State :=
  (List.range 4).foldl (fun s d => if (s.pail d).inbox.isEmpty && (s.pail d).waiting.isEmpty then s else s.pailWork d) s

/-- A message reaches a manager (R417). -/
def State.pailDeliver (s : State) (d msg : Nat) (m : PailMsg) : State :=
  if !s.dieUp d then s else (s.setPail d { s.pail d with inbox := (s.pail d).inbox ++ [(msg, m)] }).pailWork d

/-- A pail command is delivered to a manager (R283, R287, R314): behind those that wait, and while DRAIN is 1 it is not accepted; a lost
manager answers nothing (R313). -/
def State.pailCommand (s : State) (d op : Nat) (c : PailCmd) : State :=
  if !s.dieUp d then s
  else if s.fget (.pailCtl d) PAIL_CTL_DRAIN = 1 then s.setPail d { s.pail d with outside := (s.pail d).outside ++ [(op, c)] }
  else (s.setPail d { s.pail d with waiting := (s.pail d).waiting ++ [(op, c)] }).pailWork d

/-- A manager does something of its own: where an access is held it is left undone, and done when its time comes again. -/
def State.pailDo (s : State) (d : Nat) (m : PailM Unit) : State :=
  if !s.dieUp d then s
  else match m.run s with
    | (.ok _, t) => t.pailWork d
    | (.error e, t) => if e.1 = 0xFF then s.keepHeld t else t.pailWork d

/-! ### The commands -/

/-- TREE_OPEN (R271). -/
def execTreeOpen (d : Nat) (cmd : PailCmd) (s : State) : Host.Outcome State Fault Refusal := .next (s.pailCommand d 0x01 cmd)
/-- TREE_CLOSE (R272). -/
def execTreeClose (d : Nat) (cmd : PailCmd) (s : State) : Host.Outcome State Fault Refusal := .next (s.pailCommand d 0x02 cmd)
/-- EVICT (R282). -/
def execEvict (d : Nat) (cmd : PailCmd) (s : State) : Host.Outcome State Fault Refusal := .next (s.pailCommand d 0x03 cmd)
/-- SEQ_OPEN (R273). -/
def execSeqOpen (d : Nat) (cmd : PailCmd) (s : State) : Host.Outcome State Fault Refusal := .next (s.pailCommand d 0x10 cmd)
/-- SEQ_CLOSE (R295). -/
def execSeqClose (d : Nat) (cmd : PailCmd) (s : State) : Host.Outcome State Fault Refusal := .next (s.pailCommand d 0x11 cmd)
/-- MATCH (R280). -/
def execMatchBlocks (d : Nat) (cmd : PailCmd) (s : State) : Host.Outcome State Fault Refusal := .next (s.pailCommand d 0x12 cmd)
/-- APPEND (R290). -/
def execAppend (d : Nat) (cmd : PailCmd) (s : State) : Host.Outcome State Fault Refusal := .next (s.pailCommand d 0x13 cmd)
/-- RESOLVE (R289). -/
def execResolve (d : Nat) (cmd : PailCmd) (s : State) : Host.Outcome State Fault Refusal := .next (s.pailCommand d 0x14 cmd)
/-- PUBLISH (R281). -/
def execPublish (d : Nat) (cmd : PailCmd) (s : State) : Host.Outcome State Fault Refusal := .next (s.pailCommand d 0x15 cmd)
/-- FORK (R294). -/
def execFork (d : Nat) (cmd : PailCmd) (s : State) : Host.Outcome State Fault Refusal := .next (s.pailCommand d 0x16 cmd)
/-- TRUNCATE (R295). -/
def execTruncate (d : Nat) (cmd : PailCmd) (s : State) : Host.Outcome State Fault Refusal := .next (s.pailCommand d 0x17 cmd)
/-- MARK_LOST (R313). -/
def execMarkLost (d : Nat) (cmd : PailCmd) (s : State) : Host.Outcome State Fault Refusal := .next (s.pailCommand d 0x18 cmd)
/-- SHADOW_SYNC (R310). -/
def execShadowSync (d : Nat) (cmd : PailCmd) (s : State) : Host.Outcome State Fault Refusal := .next (s.pailCommand d 0x20 cmd)
/-- ADOPT (R312). -/
def execAdopt (d : Nat) (cmd : PailCmd) (s : State) : Host.Outcome State Fault Refusal := .next (s.pailCommand d 0x21 cmd)
/-- CHURN_OPEN (R301). -/
def execChurnOpen (d : Nat) (cmd : PailCmd) (s : State) : Host.Outcome State Fault Refusal := .next (s.pailCommand d 0x30 cmd)
/-- CHURN_RUN (R303). -/
def execChurnRun (d : Nat) (cmd : PailCmd) (s : State) : Host.Outcome State Fault Refusal := .next (s.pailCommand d 0x31 cmd)
/-- CHURN_CLOSE (R305). -/
def execChurnClose (d : Nat) (cmd : PailCmd) (s : State) : Host.Outcome State Fault Refusal := .next (s.pailCommand d 0x32 cmd)

/-- Push a freed yoke that no gather in force keeps back (R275). -/
def pushWaiting (d tree yoke : Nat) : PailM Unit := do
  let m := (← get).pail d
  match m.pushes.find? fun p => decide (p.tree = tree) && decide (p.yoke = yoke) && p.waits.isEmpty with
  | none => pure ()
  | some p => do
    modify fun s => s.setPail d { m with pushes := m.pushes.erase p }
    pushYoke d tree yoke

/-- YOKE_PUSH (R275): a freed yoke is pushed once no gather that it waited for is in force. -/
def execYokePush (d tree yoke : Nat) (s : State) : Host.Outcome State Fault Refusal := .next (s.pailDo d (pushWaiting d tree yoke))

/-- The gather of an array. -/
def PailMgr.gather (m : PailMgr) (c : Nat) (arrayB : Bool) : Option PailGather :=
  m.gathers.find? fun g => decide (g.core = c) && decide (g.arrayB = arrayB)

/-- Fetch the entries of the blocks of a token range for a gather (R298), which keeps them, as they are, until it completes. -/
def fetchEntries (d c : Nat) (arrayB : Bool) (n k first count : Nat) : PailM (List PailEntry) := do
  let t ← getTree d n
  let q ← ownSeq d n k
  let es ← (rangeFrom (first / 64) (if count = 0 then 0 else (first + count - 1) / 64 + 1 - first / 64)).mapM (readEntry d t.hr q q.used)
  let m := (← get).pail d
  modify fun s => s.setPail d { m with gathers := (m.gathers.filter fun g => !(decide (g.core = c) && decide (g.arrayB = arrayB))) ++
    [⟨c, arrayB, n, k, first, count, es.map entryWord⟩] }
  pure es

/-- The gather of an array has completed (R275): freed yokes no longer wait for it. -/
def State.gatherDone (s : State) (d c : Nat) (arrayB : Bool) : State :=
  let m := s.pail d
  s.setPail d { m with gathers := m.gathers.filter fun g => !(decide (g.core = c) && decide (g.arrayB = arrayB)),
                       pushes := m.pushes.map fun p => { p with waits := p.waits.filter fun w => !(decide (w = (c, arrayB))) } }

/-- PAIL_LIST_FETCH (R298): the engine's fetch at its step's start; one that is held is made again. -/
def execPailListFetch (d c : Nat) (arrayB : Bool) (seq tree first count : Nat) (s : State) : Host.Outcome State Fault Refusal :=
  if !s.dieUp d then .next s
  else match (fetchEntries d c arrayB tree seq first count).run s with
    | (.ok es, t) => .next (t.emit (.reply (.core c) (es.flatMap fun e => leBytes 4 (entryWord e))))
    | (.error e, t) => .next (if e.1 = 0xFF then s.keepHeld t else t.emit (.replyError (.core c) .check))

end Sys2Proof.Machine
end

