-- ==== Sys2Proof/Machine/Churn.lean ====
section
/-! DEFINITION. Pail manager messages (R301 to R312, R417) and the PAIL block's writes. -/

namespace Sys2Proof.Machine

/-- HELLO (R301). -/
def execHello (d : Nat) (msg : PailMsg) (s : State) : Host.Outcome State Fault Refusal := .next (s.pailDeliver d 1 msg)

/-- HELLO_RESEND (R417): refused HELLOs are sent again. -/
def execHelloResend (d ring : Nat) (s : State) : Host.Outcome State Fault Refusal :=
  match (s.pail d).ringOf ring with
  | none => .next s
  | some (k, r) =>
    .next (s.pailDo d (do
      setRing d k { r with refusedNext := false, refusedPrev := false }
      if r.refusedNext then do let _ ← sendChurn d k 1 true 0 (helloBytes r) else pure ()
      if r.refusedPrev then do let _ ← sendChurn d k 1 false 0 (helloBytes r) else pure ()))

/-- CHURN_CREDIT (R303). -/
def execChurnCredit (d : Nat) (msg : PailMsg) (s : State) : Host.Outcome State Fault Refusal := .next (s.pailDeliver d 2 msg)

/-- CHURN_DATA (R303). -/
def execChurnData (d : Nat) (msg : PailMsg) (s : State) : Host.Outcome State Fault Refusal := .next (s.pailDeliver d 3 msg)

/-- RIDER (R304). -/
def execRider (d : Nat) (msg : PailMsg) (s : State) : Host.Outcome State Fault Refusal := .next (s.pailDeliver d 4 msg)

/-- DATA_ACK (R303, R304). -/
def execDataAck (d : Nat) (msg : PailMsg) (s : State) : Host.Outcome State Fault Refusal := .next (s.pailDeliver d 5 msg)

/-- CLOSE (R302, R305). -/
def execCloseMessage (d : Nat) (msg : PailMsg) (s : State) : Host.Outcome State Fault Refusal := .next (s.pailDeliver d 6 msg)

/-- RELEASE_POLL (R303): the steps whose count RELEASE has reached are released. -/
def execReleasePoll (d ring : Nat) (s : State) : Host.Outcome State Fault Refusal :=
  match (s.pail d).ringOf ring with
  | none => .next s
  | some (k, r) =>
    .next (s.pailDo d (churnGuard d k (do
      match r.active with
      | none => pure ()
      | some x => do
        let t ← getTree d r.tree
        let now := leNat (← pailRead d t.hr r.release 8)
        let rise := (now + 2 ^ 64 - x.release0) % 2 ^ 64
        let steps := if r.count = 0 then r.r else min r.r (rise / r.count)
        setRun d k { x with released := max x.released steps }
        churnPump d k churnFuel)))

/-- SHADOW_DATA (R309, R310). -/
def execShadowData (d : Nat) (msg : PailMsg) (s : State) : Host.Outcome State Fault Refusal := .next (s.pailDeliver d 8 msg)

/-- SHADOW_ACK (R310). -/
def execShadowAck (d : Nat) (msg : PailMsg) (s : State) : Host.Outcome State Fault Refusal := .next (s.pailDeliver d 9 msg)

/-- SHADOW_NODE (R311). -/
def execShadowNode (d : Nat) (msg : PailMsg) (s : State) : Host.Outcome State Fault Refusal := .next (s.pailDeliver d 10 msg)

/-! ### Registers -/

/-- Commands that came while DRAIN was 1 are accepted once it is 0 (R314). -/
def State.pailAccept (s : State) (d : Nat) : State :=
  if s.fget (.pailCtl d) PAIL_CTL_DRAIN = 1 then s
  else (s.setPail d { s.pail d with waiting := (s.pail d).waiting ++ (s.pail d).outside, outside := [] }).pailWork d

/-- A write of `PAIL_CTL` (R314): POLL below 0x0010 is taken as 0x0010. -/
def State.pailCtlWrite (s : State) (d : Nat) (w : RegWrite) : State :=
  let x := s.written (.pailCtl d) w
  (s.put (.pailCtl d) (fldSet x.new PAIL_CTL_POLL (max 0x10 (x.field PAIL_CTL_POLL)))).pailAccept d

/-- PAIL_DRAIN_WRITE (R314). -/
def execPailDrainWrite (d : Nat) (w : RegWrite) (s : State) : Host.Outcome State Fault Refusal :=
  .next (s.guarded w.master (.pailCtl d) fun s => s.pailCtlWrite d w)

/-- A write of `PAIL_STAT1` (R316): CLEAR clears both registers. -/
def State.pailStatWrite (s : State) (d : Nat) (w : RegWrite) : State :=
  if (s.written (.pailStat1 d) w).hit PAIL_STAT1_CLEAR then (s.put (.pailStat0 d) 0#64).put (.pailStat1 d) 0#64 else s

/-- PAIL_STAT_CLEAR (R316). -/
def execPailStatClear (d : Nat) (w : RegWrite) (s : State) : Host.Outcome State Fault Refusal :=
  .next (s.guarded w.master (.pailStat1 d) fun s => s.pailStatWrite d w)

end Sys2Proof.Machine
end

