-- ==== Sys2Proof/Machine/Operands.lean ====
section
/-! DEFINITION. Operands of lesson steps: step fields (R126 to R157), matrix records (R131), what each role may name (R130), and
how operands are read and written. -/

namespace Sys2Proof.Machine

/-! ### Step fields -/

/-- OPCODE (R126). -/
def StepRec.op (t : StepRec) : Nat := bitsOf t.w0 0 8
/-- DONE_EVT. -/
def StepRec.doneEvt (t : StepRec) : Nat := bitsOf t.w0 8 4
/-- DONE_EN. -/
def StepRec.doneEn (t : StepRec) : Bool := bitAt t.w0 12
/-- BARRIER. -/
def StepRec.barrier (t : StepRec) : Bool := bitAt t.w0 13
/-- LAT_CRIT. -/
def StepRec.latCrit (t : StepRec) : Bool := bitAt t.w0 14
/-- ENGINE (R133, R142). -/
def StepRec.engine (t : StepRec) : Nat := bitsOf t.w0 16 2
/-- TRANSPOSE. -/
def StepRec.transpose (t : StepRec) : Bool := bitAt t.w0 18
/-- SKIM_AUTO. -/
def StepRec.skimAuto (t : StepRec) : Bool := bitAt t.w0 19
/-- RND. -/
def StepRec.rnd (t : StepRec) : Bool := bitAt t.w0 20
/-- SAT. -/
def StepRec.sat (t : StepRec) : Bool := bitAt t.w0 21
/-- NO_SIDE; on CONVERT the same bit is BLOCK_AXIS (R147). -/
def StepRec.noSide (t : StepRec) : Bool := bitAt t.w0 22
/-- W_SLATE. -/
def StepRec.wSlate (t : StepRec) : Bool := bitAt t.w0 23
/-- REUSE. -/
def StepRec.reuse (t : StepRec) : Bool := bitAt t.w0 24
/-- INIT. -/
def StepRec.init (t : StepRec) : Nat := bitsOf t.w0 25 2
/-- LIST_MODE. -/
def StepRec.listMode (t : StepRec) : Nat := bitsOf t.w0 27 2
/-- LIST_SIDE. -/
def StepRec.listSide (t : StepRec) : Bool := bitAt t.w0 29
/-- M (R133); LINES of CONVERT (R147). -/
def StepRec.m (t : StepRec) : Nat := bitsOf t.w1 0 20
/-- K; LEN of CONVERT. -/
def StepRec.k (t : StepRec) : Nat := bitsOf t.w1 20 20
/-- N. -/
def StepRec.n (t : StepRec) : Nat := bitsOf t.w1 40 20

/-- The step that 32 bytes hold (R126). -/
def stepOf (bs : List Byte) (post : Bool) (index order : Nat) (bad : Bool) : StepRec :=
  let w := wordAt (leWords 4 bs)
  ⟨w 0, w 1, w 2, w 3, post, index, order, bad⟩

/-- The bits of each word that an opcode defines (R126, R128, R133); none for an undefined opcode. -/
def stepMask (op : Nat) : Option (Nat × Nat × Nat × Nat) :=
  let bits := fun lo n => (2 ^ n - 1) * 2 ^ lo
  let h := bits 0 15
  let all := bits 0 64
  match op with
  | 0x00 => some (h, 0, 0, 0)
  | 0x01 => some (h, 0, 0, 0)
  | 0x08 => some (h + bits 16 8, bits 0 48, all, bits 0 48)
  | 0x09 => some (h + bits 16 1, 0, 0, 0)
  | 0x10 => some (h + bits 16 5 + bits 22 1, bits 0 56, bits 0 18, bits 0 20)
  | 0x11 => some (h + bits 16 11, bits 0 60, bits 0 54, bits 0 18)
  | 0x12 => some (h + bits 16 3 + bits 20 10, bits 0 60, bits 0 54, bits 0 36)
  | 0x13 => some (h + bits 16 3 + bits 20 3 + bits 25 2, bits 0 60, bits 0 54, bits 0 18)
  | 0x14 => some (h + bits 20 3, bits 0 40, bits 0 36, 0)
  | 0x20 => some (h + bits 32 32, all, bits 0 48, all)
  | 0x21 => some (h + bits 32 32, all, bits 0 48, all)
  | 0x22 => some (h + bits 32 32, all, bits 0 48, all)
  | 0x23 => some (h + bits 16 4, bits 0 48, bits 0 48, bits 0 32)
  | 0x30 => some (h, bits 0 48, all, all)
  | _ => none

/-- A step decodes (R127, R128): its opcode is defined, every undefined field is 0, and MODE and OP are defined (R151, R153); END
and HANDOFF are not posted. -/
def StepRec.decodes (t : StepRec) : Bool :=
  match stepMask t.op with
  | none => false
  | some (a, b, c, d) =>
    decide (t.w0 &&& a = t.w0) && decide (t.w1 &&& b = t.w1) && decide (t.w2 &&& c = t.w2) && decide (t.w3 &&& d = t.w3) &&
    !(t.post && (decide (t.op = 0x01) || decide (t.op = 0x30))) &&
    !(decide (t.op = 0x08) && decide (3 < bitsOf t.w0 16 4)) && !(decide (t.op = 0x23) && decide (8 < bitsOf t.w0 16 4))

/-- A STREAM that runs on the skim path (R59): its streamed operand can only lie in the own desk or slice (R130). -/
def StepRec.onSkim (t : StepRec) : Bool :=
  decide (t.op = 0x11) && t.skimAuto && !t.wSlate && (decide (t.m = 1) || decide (t.n = 1))

/-- The engines whose queues a step enters (R121, R134); none for steps carried out at the issue point. An ENGINE value that ends
the lesson enters array A's queue, where it fails before any operand is fetched. -/
def StepRec.engines (t : StepRec) : List Engine :=
  match t.op with
  | 0x10 => if t.engine = 1 then [.arrayB] else [.arrayA]
  | 0x11 => if t.onSkim then [.skim] else if t.engine = 1 then [.arrayB] else if t.engine = 2 then [.arrayA, .arrayB] else [.arrayA]
  | 0x12 => if t.engine = 1 then [.arrayB] else if t.engine = 2 then [.arrayA, .arrayB] else [.arrayA]
  | 0x13 => [.skim]
  | 0x14 => [.skim]
  | 0x20 => [.mover]
  | 0x21 => [.mover]
  | 0x22 => [.mover]
  | 0x23 => [.mover]
  | 0x30 => [.tutor]
  | _ => []

/-! ### Performing steps -/

/-- Why a step does not go on: an access of it is held, and it has to be performed again; or it fails with a status (R160). -/
inductive StepStop
  | waits (on : WaitsOn)
  | fails (e : LStatus)
  deriving DecidableEq, Repr

/-- A step at work: it changes the state, and may stop. -/
abbrev StepM := ExceptT StepStop (StateM State)

/-- Fail a step. -/
def stepFail {α : Type} (e : LStatus) : StepM α := throw (.fails e)

/-- Fail a step unless a condition holds. -/
def stepNeed (ok : Bool) (e : LStatus) : StepM Unit := if ok then pure () else stepFail e

/-- Do something only where a condition holds. -/
def stepWhen {α : Type} (c : Bool) (x : StepM α) : StepM (Option α) := if c then some <$> x else pure none

/-- The status of a step by the failure of an access (R33, R66, R161, R393): any that the list does not name is BUS_ERROR. -/
def accessStatus : AccErr → LStatus
  | .fenced => .fenced
  | .dieLost => .dieLost
  | _ => .busError

/-- A memory access of a step (R161). -/
def stepAccess {α : Type} (f : State → State × Res α) : StepM α := do
  let (t, r) := f (← get)
  set t
  match r with
  | .ok v => pure v
  | .error (.held w) => throw (.waits w)
  | .error e => stepFail (accessStatus e)

/-- Roles of addresses in steps (R130). -/
inductive Role
  | ownDesk | ownMem | gathered | loadSrc | moveEnd | farOnly | tutor
  deriving DecidableEq, Repr

/-- The spaces that a role of core c admits (R130), aliases being resolved: another core's desk only within the homeroom. -/
def State.roleAllows (s : State) (c : Nat) (role : Role) : Space → Bool
  | .far _ => decide (role ≠ .ownDesk) && decide (role ≠ .ownMem)
  | .window _ => decide (role ≠ .ownDesk) && decide (role ≠ .ownMem) && decide (role ≠ .farOnly)
  | .slice d _ => decide (d = c) && decide (role ≠ .ownDesk) && decide (role ≠ .farOnly)
  | .desk d _ =>
    if d = c then decide (role ≠ .moveEnd) && decide (role ≠ .farOnly) && decide (role ≠ .loadSrc)
    else (decide (role = .gathered) || decide (role = .loadSrc) || decide (role = .tutor)) && decide (s.coreHr d = s.coreHr c)
  | _ => false

/-- The space of an address as core c names it (R129). -/
def coreSpace (c a : Nat) : Space := resolveAlias c (spaceOf a)

/-- An address names a space that its role admits, or no space at all, which is then a bus error (R21, R130); one that has to be in far
memory is not (R151, R153). -/
def State.roleOk (s : State) (c : Nat) (role : Role) (a : Nat) : Bool :=
  match coreSpace c a with
  | .unbacked => decide (role ≠ .farOnly)
  | sp => s.roleAllows c role sp

/-- A byte range begins and ends in a space that its role admits (R130). -/
def State.rangeOk (s : State) (c : Nat) (role : Role) (a n : Nat) : Bool := s.roleOk c role a && s.roleOk c role (a + (n - 1))

/-- The homeroom of the lesson that runs on a core (R163). -/
def State.lessonHr (s : State) (c : Nat) : Nat := ((s.core c).lesson.map Launch.homeroom).getD (s.coreHr c)

/-- Read memory for a step. -/
def stepRead (c : Nat) (role : Role) (a n : Nat) : StepM (List Byte) :=
  stepAccess fun s => s.readAt (.core c) (s.lessonHr c) (some c) (s.roleAllows c role) a n

/-- Write memory for a step. -/
def stepWrite (c : Nat) (role : Role) (a : Nat) (bs : List Byte) : StepM Unit :=
  stepAccess fun s => s.writeAt (.core c) (s.lessonHr c) (some c) (s.roleAllows c role) a bs

/-! ### Matrix records (R131, R132) -/

/-- A matrix record. -/
structure MatRec where
  base : Nat
  fmt : Fmt
  lineStride : Nat
  scaleStride : Nat
  scaleBase : Nat
  sideBase : Nat
  deriving DecidableEq, Repr

/-- Read the record of a number (R131): an undefined format is BAD_FORMAT (R81), a set reserved bit BAD_OPERAND. -/
def readRec (c i : Nat) : StepM MatRec := do
  let w := wordAt (leWords 4 (← stepRead c .ownDesk (deskBase + c * 0x1000000 + 32 * i) 32))
  match fmtOf (bitsOf (w 0) 48 4) with
  | none => stepFail .badFormat
  | some f => do
    stepNeed (decide (bitsOf (w 0) 52 12 = 0) && decide (bitsOf (w 2) 48 16 = 0) && decide (bitsOf (w 3) 48 16 = 0)) .badOperand
    pure ⟨bitsOf (w 0) 0 48, f, bitsOf (w 1) 0 32, bitsOf (w 1) 32 32, bitsOf (w 2) 0 48, bitsOf (w 3) 0 48⟩

/-- The rules of R131 for a record whose lines hold `len` elements: alignment and strides. -/
def MatRec.shaped (r : MatRec) (len : Nat) (scaled side : Bool) : Bool :=
  decide (r.base % 32 = 0) && decide (r.lineStride % 32 = 0) && decide (packedBytes r.fmt len ≤ r.lineStride) &&
  (!scaled || (decide (r.scaleBase % 32 = 0) && decide (ceilDiv len 32 ≤ r.scaleStride))) && (!side || decide (r.sideBase % 32 = 0))

/-- The lines of a record that a step names, elements `lo` to `lo + len` − 1 of each, and their scales, lie in the role's spaces (R130). -/
def MatRec.linesOk (r : MatRec) (s : State) (c : Nat) (role : Role) (nums : List Nat) (lo len : Nat) (scaled : Bool) : Bool :=
  nums.all fun l => s.rangeOk c role (r.base + l * r.lineStride + packedBytes r.fmt lo) (packedBytes r.fmt len) &&
    (!scaled || s.rangeOk c role (r.scaleBase + l * r.scaleStride + lo / 32) (ceilDiv len 32))

/-- The records of `count` columns from column `n0` of a side table of `gs` groups a column lie in the role's spaces (R97, R130). -/
def MatRec.sideOk (r : MatRec) (s : State) (c : Nat) (role : Role) (n0 count gs : Nat) : Bool :=
  decide (count * gs = 0) || s.rangeOk c role (r.sideBase + 46 * (n0 * gs) / 8) ((46 * (n0 * gs) % 8 + 46 * (count * gs) + 7) / 8)

/-- The rules of R130 and R131 for a record of which a step names the first `n` lines, of `len` elements. -/
def MatRec.ok (r : MatRec) (s : State) (c : Nat) (role : Role) (n len : Nat) (scaled side : Bool) : Bool :=
  r.shaped len scaled side && r.linesOk s c role (List.range n) 0 len scaled && (!side || r.sideOk s c role 0 n (len / 128))

/-- A matrix operand as read: its format, packed lines and, for MX formats, the scales of each line. -/
structure Operand where
  fmt : Fmt
  lines : List (List Byte)
  scales : List (List Byte)
  deriving DecidableEq, Repr

/-- Element i of line l with its scale (R84, R86, R132). -/
def Operand.elem (o : Operand) (l i : Nat) : Num :=
  let x := decElem o.fmt (packedElem o.fmt (o.lines.getD l []) i)
  if isMx o.fmt then applyScale ((o.scales.getD l []).getD (i / 32) 0#8).toNat x else x

/-- Read pieces of one length at each of a list of addresses. -/
def readEach (c : Nat) (role : Role) (n : Nat) : List Nat → StepM (List (List Byte))
  | [] => pure []
  | a :: as => do
    let b ← stepRead c role a n
    pure (b :: (← readEach c role n as))

/-- Read an operand: lines at the addresses given, each with its scales by its number (R132, R140). -/
def readOperand (c : Nat) (role : Role) (r : MatRec) (len : Nat) (addrs nums : List Nat) : StepM Operand := do
  let lines ← readEach c role (packedBytes r.fmt len) addrs
  let scales ← if isMx r.fmt then readEach c role (ceilDiv len 32) (nums.map fun l => r.scaleBase + l * r.scaleStride) else pure []
  pure ⟨r.fmt, lines, scales⟩

/-- The addresses of the first `n` lines of a record. -/
def MatRec.addrs (r : MatRec) (n : Nat) : List Nat := (List.range n).map fun l => r.base + l * r.lineStride

end Sys2Proof.Machine
end

