-- ==== Sys2Proof/Machine/Flags.lean ====
section
/-! DEFINITION. Flags and status of lessons: event counters (R152), the flags of a lesson (R110, R120), and how a failing step ends
its lesson (R160, R161). -/

namespace Sys2Proof.Machine

/-- The register field of an event counter (R171). -/
def evtField (i : Nat) : Fld := ⟨16 * (i % 4), 16⟩

/-- An event counter (R152). -/
def State.evt (s : State) (c i : Nat) : Nat := s.fget (.lsnEvt c (i / 4)) (evtField i)

/-- Add to an event counter; it wraps (R152). -/
def State.evtAdd (s : State) (c i v : Nat) : State := s.fput (.lsnEvt c (i / 4)) (evtField i) (s.evt c i + v)

/-- A counter of `width` bits satisfies a target (R152, R154). -/
def satisfies (width c t : Nat) : Bool := decide ((c + 2 ^ width - t % 2 ^ width) % 2 ^ width < 2 ^ (width - 1))

/-- K_EMPTY is set for the lesson (R120). -/
def State.setKEmpty (s : State) (c : Nat) : State := s.modCore c fun k => { k with kEmpty := true }

/-- NAN_CLEARED is set for the lesson (R110). -/
def State.setNanCleared (s : State) (c : Nat) : State := s.modCore c fun k => { k with nanCleared := true }

/-- STATE of `LSN_STATUS` (R171). -/
def State.lsnState (s : State) (c v : Nat) : State := s.fput (.lsnStatus c) LSN_STATUS_STATE v

/-- A step that waits in a queue has started on the other array (R134): it is one of ENGINE 2. -/
def CoreSt.startedHalf (k : CoreSt) (t : StepRec) : Bool := k.running.any fun q => q.any fun r => decide (r.step.order = t.order)

/-- A step, or the tutor, fails (R161): issue stops, what has not started is discarded, a routine stops at its instruction
boundary; the status that stands is that of the failing step issued earliest. DESIGN CHOICE: R161 does not say whether a step that
waits at the issue point has started; here it has not, and is discarded with its event (log 61). -/
def State.stepFails (s : State) (c : Nat) (f : LessonFail) : State :=
  let k := s.core c
  match k.lesson with
  | none => s
  | some _ =>
    let f' := match k.fail with
      | some g => if g.order ≤ f.order then g else f
      | none => f
    (s.setCore c { k with fail := some f', fetched := [], postQ := [], pointLesson := none, pointPost := none,
                          queues := k.queues.map fun q => q.filter k.startedHalf, running := k.running.modify Engine.tutor.idx fun _ => [],
                          tutor := { k.tutor with running := false, waiting := false }, preloading := false }).lsnState c 2

/-- The failure of a step (R161). -/
def StepRec.failure (t : StepRec) (e : LStatus) (word1 : Nat) : LessonFail := ⟨t.order, e, t.post, t.index, word1⟩

/-- A step completes with OK (R124, R126): it signals its event. -/
def State.signalDone (s : State) (c : Nat) (t : StepRec) : State := if t.doneEn then s.evtAdd c t.doneEvt 1 else s

end Sys2Proof.Machine
end

