-- ==== Sys2Proof/Machine/Lessons.lean ====
section
/-! DEFINITION. Lessons (R121 to R164): launch and preload, the issue point, steps that act at it, and completion. -/

namespace Sys2Proof.Machine

/-! ### Launch (R163, R164) -/

/-- The completion record of a launch that runs no step (R162 to R164): NO_STEP set, STEP_INDEX 0. -/
def State.refuseLaunch (s : State) (c : Nat) (l : Launch) (e : LStatus) : State :=
  s.sendRecord ⟨.core c, l.tag, lstatusCode e + 2 ^ 11, 0⟩

/-- Desk bytes of step `i` of a lesson (R126, R163). -/
def Launch.stepAt (l : Launch) (i : Nat) : Nat := l.offset + 32 * i

/-- The most steps the lesson stream may issue (R163). -/
def Launch.limit (l : Launch) : Nat := if l.stepLimit = 0 then 262144 else l.stepLimit

/-- The lesson stream has another step to fetch (R159): none lies beyond the desk, beyond the limit, or after an END. -/
def CoreSt.fetches (k : CoreSt) (l : Launch) : Bool :=
  decide (k.fetchIndex < l.limit) && decide (l.stepAt k.fetchIndex + 32 ≤ deskBytes) && !k.fetched.any fun t => decide (t.op = 0x01)

/-- The next fetch waits at a frozen bank of the desk (R125, R342). -/
def State.fetchHeld (s : State) (c : Nat) : Bool :=
  match (s.core c).lesson with
  | some l => (s.core c).fetches l && s.nearHeld .desk c (l.stepAt (s.core c).fetchIndex) 32
  | none => false

/-- Fetch the next step (R159, R634). -/
def State.fetchStep (s : State) (c : Nat) : State :=
  let k := s.core c
  match k.lesson with
  | none => s
  | some l =>
    if 8 ≤ k.fetched.length ∨ !k.fetches l ∨ s.fetchHeld c then s
    else
      let (t, r) := s.nearRead (.core c) .desk c (l.stepAt k.fetchIndex) 32 0
      let bs := match r with | .ok b => b | .error _ => List.replicate 32 0#8
      let bad := match r with | .ok _ => false | .error _ => true
      t.modCore c fun k => { k with fetched := k.fetched ++ [stepOf bs false k.fetchIndex 0 bad], fetchIndex := k.fetchIndex + 1 }

/-- Fetch up to 8 steps ahead of issue (R159). -/
def State.prefetch (s : State) (c : Nat) : State := Nat.repeat (fun s => s.fetchStep c) 8 s

/-- A launch names a preload (R163). -/
def Launch.preloads (l : Launch) : Bool := decide (l.preloadBytes ≠ 0) && decide (l.preloadSrc ≠ 0)

/-- A core at the start of a lesson (R164 step 1): tutor state is cleared, nothing is fetched, queued, running or held. -/
def CoreSt.starting (k : CoreSt) (l : Launch) : CoreSt :=
  { k with lesson := some l, waitingLaunch := none, tutor := .init, preloading := l.preloads, ended := false, fail := none, discard := false,
           fetched := [], fetchIndex := 0, issued := 0, order := 0, postQ := [], pointLesson := none, pointPost := none,
           queues := List.replicate 5 [], running := List.replicate 5 [], kEmpty := false, nanCleared := false, stuck := [],
           arrA := { k.arrA with used := false }, arrB := { k.arrB with used := false } }

/-- A lesson starts (R164 step 1): the event counters are cleared and the state is running. -/
def State.lessonStarted (s : State) (c : Nat) (l : Launch) : State :=
  (((List.range 4).foldl (fun s j => s.put (.lsnEvt c j) 0#64) s).modCore c fun k => k.starting l).lsnState c 1

/-- Start a lesson (R164 steps 1 and 2): a preload comes first, where the launch names one. -/
def State.startLesson (s : State) (c : Nat) (l : Launch) : State :=
  if l.preloads then s.lessonStarted c l else (s.lessonStarted c l).prefetch c

/-- A launch message reaches a core (R163, R164, R192): a core that is not in service answers FENCED; a bad message ends the lesson at
once; while the slice is cleared the launch waits. A core that runs a lesson is sent none. -/
def State.launch (s : State) (c : Nat) (l : Launch) : State :=
  if s.coreState c ≠ 0 then s.refuseLaunch c l .fenced
  else if (s.core c).lesson.isSome ∨ (s.core c).waitingLaunch.isSome then s
  else if l.offset % 32 ≠ 0 ∨ l.preloadBytes % 32 ≠ 0 ∨ 65536 < l.preloadBytes then
    (s.refuseLaunch c l .badOperand).fput (.lsnStatus c) LSN_STATUS_LAST_STATUS (lstatusCode .badOperand)
  else if s.fget (.nearStatus c) NEAR_STATUS_STATE = 3 then s.modCore c fun k => { k with waitingLaunch := some l }
  else s.startLesson c l

/-- LESSON_LAUNCH (R163, R164). -/
def execLessonLaunch (c : Nat) (l : Launch) (s : State) : Host.Outcome State Fault Refusal := .next (s.launch c l)

/-- What a step (its order + 1) or a preload (0) of a core waits for, or nothing. -/
def CoreSt.wait (k : CoreSt) (key : Nat) (on : Option WaitsOn) : CoreSt :=
  { k with stuck := match on with | some w => smPut k.stuck key w | none => smDel k.stuck key }

/-- A piece of a core's work is under way or has ended: nothing of it waits, and the grants and turns kept for the core go once none of its
work waits. -/
def State.workDone (s : State) (c key : Nat) : State :=
  let t := s.modCore c fun k => k.wait key none
  if (t.core c).stuck.isEmpty then t.settle (.core c) else t

/-- An attempt `u` at a piece of work has met a held access (R66): it is made again. -/
def State.workWaits (s u : State) (c key : Nat) (on : WaitsOn) : State := (s.keepHeld u).modCore c fun k => k.wait key (some on)

/-- The copy of a preload (R164 step 2). PRELOAD_SRC may name what a LOAD may: DEDUCED, since R130 lists opcodes only and the mover copies a
preload as it does a LOAD; any other space is a bus error (log 62). -/
def preloadCopy (c : Nat) (l : Launch) : StepM Unit := do
  let bs ← stepRead c .loadSrc l.preloadSrc l.preloadBytes
  stepWrite c .ownDesk (deskBase + c * 0x1000000 + l.offset) bs

/-- PRELOAD_COMPLETE (R164): a failed copy ends the lesson with BUS_ERROR and no step. -/
def execPreloadComplete (c : Nat) (s : State) : Host.Outcome State Fault Refusal :=
  match (s.core c).lesson, (s.core c).preloading with
  | some l, true =>
    match (preloadCopy c l).run (s.modCore c fun k => { k with tag := false }) with
    | (.ok _, t) => .next (((t.workDone c 0).modCore c fun k => { k with preloading := false }).prefetch c)
    | (.error (.waits w), t) => .next (s.workWaits t c 0 w)
    | (.error (.fails e), t) => .next ((t.workDone c 0).stepFails c ⟨0, e, false, 0, 0⟩)
  | _, _ => .next s

/-! ### The issue point (R121, R122, R126 to R128) -/

/-- A step is in an engine's queue or running, or held at the issue point. -/
def CoreSt.holds (k : CoreSt) (p : StepRec → Bool) : Bool :=
  k.queues.any (fun q => q.any p) || k.running.any fun q => q.any fun r => p r.step

/-- Every earlier step of a stream has completed (R126, R156). -/
def CoreSt.streamDone (k : CoreSt) (post : Bool) : Bool := !k.holds fun t => t.post == post

/-- The queues that a step enters have room (R121, R122). -/
def CoreSt.room (k : CoreSt) (t : StepRec) : Bool := t.engines.all fun e => decide ((k.queues.getD e.idx []).length < e.depth)

/-- A stream's next step can issue (R122, R126): its stream is not held at the issue point, its barrier is met, its queues have
room. A step that does not decode only ends the lesson. -/
def CoreSt.ready (k : CoreSt) (t : StepRec) : Bool :=
  (if t.post then k.pointPost else k.pointLesson).isNone && (!t.barrier || k.streamDone t.post) && (t.bad || !t.decodes || k.room t)

/-- Place a step that issues: in its queues, or at the issue point of its stream. -/
def CoreSt.place (k : CoreSt) (t : StepRec) : CoreSt :=
  if t.engines.isEmpty then
    if t.post then { k with pointPost := some ⟨t, false⟩ } else { k with pointLesson := some ⟨t, false⟩ }
  else { k with queues := t.engines.foldl (fun q e => q.modify e.idx (· ++ [t])) k.queues }

/-- Issue a step that has left its stream (R122, R127, R128, R161): one whose fetch failed ends the lesson with BUS_ERROR, one that
does not decode with BAD_OPCODE. DESIGN CHOICE: a step whose fetch failed counts as issued (log 63). -/
def State.issue (s : State) (c : Nat) (t0 : StepRec) : State :=
  let t := { t0 with order := (s.core c).order }
  let s := s.modCore c fun k => { k with order := k.order + 1, issued := if t.post then k.issued else k.issued + 1 }
  let s := if t.post then s else s.fput (.lsnStatus c) LSN_STATUS_STEP_INDEX t.index
  if t.bad then s.stepFails c (t.failure .busError 0)
  else if !t.decodes then s.stepFails c (t.failure .badOpcode 0)
  else s.modCore c fun k => k.place t

/-- The lesson stream issues its next step, if it can; with none to issue or fetch, it has passed STEP_LIMIT or the end of the desk (R164). -/
def State.issueLesson (s : State) (c : Nat) : State :=
  let k := s.core c
  match k.fetched with
  | t :: rest =>
    if k.ended ∨ !k.ready t then s else ((s.modCore c fun k => { k with fetched := rest }).issue c t).prefetch c
  | [] =>
    if k.ended ∨ k.pointLesson.isSome then s
    else if k.lesson.any k.fetches then s.prefetch c
    else s.stepFails c ⟨k.order, .stepLimit, false, 0, 0⟩

/-- STEP_ISSUE (R122): the post stream first; a stream whose queue is full lets the other issue. -/
def execStepIssue (c : Nat) (s : State) : Host.Outcome State Fault Refusal :=
  let k := s.core c
  if k.lesson.isNone ∨ k.preloading ∨ k.fail.isSome ∨ s.coreState c ≠ 0 then .next s
  else match k.postQ with
    | t :: rest =>
      if k.ready t then .next ((s.modCore c fun k => { k with postQ := rest }).issue c t) else .next (s.issueLesson c)
    | [] => .next (s.issueLesson c)

/-! ### Engines (R123, R124) -/

/-- The array of an engine. -/
def CoreSt.arr (k : CoreSt) (b : Bool) : ArrayState := if b then k.arrB else k.arrA
/-- Replace an array. -/
def CoreSt.setArr (k : CoreSt) (b : Bool) (a : ArrayState) : CoreSt := if b then { k with arrB := a } else { k with arrA := a }
/-- Change an array. -/
def State.modArr (s : State) (c : Nat) (b : Bool) (f : ArrayState → ArrayState) : State :=
  s.modCore c fun k => k.setArr b (f (k.arr b))
/-- The engine of an array. -/
def arrEngine (b : Bool) : Engine := if b then .arrayB else .arrayA

/-- A STREAM or GATHER step. -/
def StepRec.isPass (t : StepRec) : Bool := decide (t.op = 0x11) || decide (t.op = 0x12)

/-- The start condition of the step at the head of an array's queue (R40, R123, R734): a load waits until no tile is loading or
pending and no self-tiling step is at work; a pass waits for the pass before it, for loads whose step has begun, and, where
it tiles its weight itself, for a tile that is loading. -/
def CoreSt.arrayStarts (k : CoreSt) (b : Bool) (t : StepRec) : Bool :=
  let a := k.arr b
  let open_ := fun (p : StepRec → Bool) => (k.running.getD (arrEngine b).idx []).any fun r => !r.performed && p r.step
  if t.op = 0x10 then
    decide (1 < t.engine) ||
      (a.pendingTile.isNone && a.loading.isNone && !open_ fun u => decide (u.op = 0x10) || (u.isPass && !u.wSlate))
  else !open_ (fun _ => true) && (t.wSlate || a.loading.isNone)

/-- An engine may start a step (R123): the skim engine, the mover and the tutor run one at a time. -/
def CoreSt.starts (k : CoreSt) (e : Engine) (t : StepRec) : Bool :=
  match e with
  | .arrayA => k.arrayStarts false t
  | .arrayB => k.arrayStarts true t
  | _ => (k.running.getD e.idx []).isEmpty

/-- An array step that tiles its weight itself starts (R119, R120, R734): a tile that is pending is discarded. -/
def CoreSt.discards (k : CoreSt) (e : Engine) (t : StepRec) : CoreSt :=
  if t.isPass && !t.wSlate && decide (t.m ≠ 0) && decide (t.n ≠ 0) && decide (t.k ≠ 0) then
    match e with
    | .arrayA => { k with arrA := { k.arrA with pendingTile := none } }
    | .arrayB => { k with arrB := { k.arrB with pendingTile := none } }
    | _ => k
  else k

/-- The step at the head of an engine's queue starts, where it can (R123, R734). -/
def State.startStep (s : State) (c : Nat) (e : Engine) : State :=
  let k := s.core c
  match k.queues.getD e.idx [] with
  | [] => s
  | t :: rest =>
    if s.coreState c = 0 ∧ k.starts e t then
      s.setCore c (CoreSt.discards { k with queues := k.queues.set e.idx rest,
                                            running := k.running.modify e.idx (· ++ [⟨t, false, .ok⟩]) } e t)
    else s

/-- The step that an engine has started and not yet performed, if its opcode is `op`. -/
def State.toPerform (s : State) (c : Nat) (e : Engine) (op : Nat) : Option StepRec :=
  match ((s.core c).running.getD e.idx []).find? fun r => !r.performed with
  | some r => if s.coreState c = 0 ∧ r.step.op = op then some r.step else none
  | none => none

/-- Record that an engine has performed a step, with its status; a failure stands for every engine that holds the step (R134). -/
def CoreSt.performed (k : CoreSt) (e : Engine) (order : Nat) (st : LStatus) : CoreSt :=
  let mark := fun (r : Running) =>
    if r.step.order = order then { r with status := if st = .ok then r.status else st } else r
  { k with running := (k.running.map fun q => q.map mark).modify e.idx fun q => q.map fun r =>
      if r.step.order = order then { r with performed := true } else r }

/-- A step has been performed with a status (R124, R161). -/
def State.stepDone (s : State) (c : Nat) (e : Engine) (t : StepRec) (st : LStatus) (word1 : Nat) : State :=
  let s := s.modCore c fun k => k.performed e t.order st
  if st = .ok then s else s.stepFails c (t.failure st word1)

/-- A step of a core is at work: its far reads carry the tag that its LAT_CRIT says (R126). -/
def State.atWork (s : State) (c : Nat) (t : StepRec) : State := s.modCore c fun k => { k with tag := t.latCrit }

/-- Perform a step on an engine: it runs to its end, or waits for a held access. -/
def State.performStep (s : State) (c : Nat) (e : Engine) (t : StepRec) (act : StepM Unit) : State :=
  match act.run (s.atWork c t) with
  | (.ok _, u) => (u.workDone c (t.order + 1)).stepDone c e t .ok 0
  | (.error (.waits w), u) => s.workWaits u c (t.order + 1) w
  | (.error (.fails st), u) => (u.workDone c (t.order + 1)).stepDone c e t st 0

/-- STEP_COMPLETE (R124, R126, R134): a performed step leaves its engine; a slate load completes with its tile. Once no engine holds
the step it signals its event, unless it failed. -/
def execStepComplete (c : Nat) (e : Engine) (order : Nat) (s : State) : Host.Outcome State Fault Refusal :=
  let k := s.core c
  match (k.running.getD e.idx []).find? fun r => decide (r.step.order = order) && r.performed with
  | none => .next s
  | some r =>
    let loading := match e with
      | .arrayA => decide (r.step.op = 0x10) && k.arrA.loading.isSome
      | .arrayB => decide (r.step.op = 0x10) && k.arrB.loading.isSome
      | _ => false
    if loading || decide (s.coreState c ≠ 0) then .next s
    else
      let k' := { k with running := k.running.modify e.idx fun q => q.filter fun r => decide (r.step.order ≠ order) }
      let t := s.setCore c k'
      .next (if r.status = .ok ∧ !k'.holds (fun u => decide (u.order = order)) then t.signalDone c r.step else t)

/-! ### Completion (R158, R161, R162) -/

/-- Everything that a lesson has issued is complete and the tutor is idle (R158). -/
def CoreSt.quiet (k : CoreSt) : Bool :=
  k.queues.all List.isEmpty && k.running.all List.isEmpty && k.pointLesson.isNone && k.pointPost.isNone && k.postQ.isEmpty &&
  !k.tutor.running && !k.preloading

/-- The two words of a lesson's completion record (R162): STEP_INDEX is the failing lesson-stream step's index; the last index
issued for STEP_LIMIT, FENCED, DIE_LOST and where no step failed; and a free value for a failing posted step, which has none. -/
def State.lessonRecord (s : State) (c : Nat) (l : Launch) (f : Option LessonFail) : State × UnitRecord :=
  let k := s.core c
  let st := match f with | none => LStatus.ok | some f => f.status
  let last := k.issued - 1
  let (free, t) := s.draw (2 ^ 18)
  let (idx, u) := match f with
    | none => (last, s)
    | some f =>
      if f.status = LStatus.stepLimit ∨ f.status = LStatus.fenced ∨ f.status = LStatus.dieLost then (last, s)
      else if f.post then (free, t) else (f.index, s)
  let posted := match f with | none => false | some f => f.post
  let w1 := match f with | none => 0 | some f => f.word1
  (u, ⟨.core c, l.tag,
    lstatusCode st + b2n k.kEmpty * 2 ^ 8 + b2n k.nanCleared * 2 ^ 9 + b2n posted * 2 ^ 10 + b2n (decide (k.issued = 0)) * 2 ^ 11 +
      (if k.issued = 0 then 0 else idx % 2 ^ 18) * 2 ^ 32, w1⟩)

/-- An OK lesson that ran an array step on an array clears the array's HANGS (R75). -/
def State.clearHangs (s : State) (c : Nat) (b : Bool) : State :=
  if ((s.core c).arr b).used then s.fput (.arrStat c (if b then 1 else 0)) ARR_STAT_HANGS 0 else s

/-- End a lesson (R162, R164 step 5): its record leaves unless a function-level reset has discarded it (R500), and the core is idle. -/
def State.endLesson (s : State) (c : Nat) (l : Launch) (f : Option LessonFail) : State :=
  let (t, r) := s.lessonRecord c l f
  let k := t.core c
  let t := if k.discard then t else t.sendRecord r
  let t := match f with
    | none => (t.clearHangs c false).clearHangs c true
    | some _ => t
  ((((t.settle (.core c)).settle (.tutor c)).modCore c fun k =>
    { k with lesson := none, fail := none, discard := false, ended := false, fetched := [], postQ := [],
             pointLesson := none, pointPost := none, queues := List.replicate 5 [], running := List.replicate 5 [],
             preloading := false, stuck := [], tutor := { k.tutor with running := false, waiting := false } }).fput
    (.lsnStatus c) LSN_STATUS_LAST_STATUS (r.w0 % 256)).lsnState c 0

/-- LESSON_COMPLETE (R158, R161, R162). -/
def execLessonComplete (c : Nat) (s : State) : Host.Outcome State Fault Refusal :=
  let k := s.core c
  match k.lesson with
  | none => .next s
  | some l => .next (if (k.ended || k.fail.isSome) && k.quiet && decide (s.coreState c = 0) then s.endLesson c l k.fail else s)

/-! ### Steps at the issue point (R121, R153 to R158) -/

/-- The step at the issue point of a stream. -/
def CoreSt.point (k : CoreSt) (post : Bool) : Option PointStep := if post then k.pointPost else k.pointLesson

/-- Put a step at the issue point of a stream, or none. -/
def State.setPoint (s : State) (c : Nat) (post : Bool) (p : Option PointStep) : State :=
  s.modCore c fun k => if post then { k with pointPost := p } else { k with pointLesson := p }

/-- The step of opcode `op` at the issue point of a stream of a core in service; a SYNC must have the mode given. -/
def State.pointStep (s : State) (c : Nat) (post : Bool) (op : Nat) (mode : Option Nat) : Option PointStep :=
  match (s.core c).point post with
  | none => none
  | some p =>
    if decide (s.coreState c = 0) && decide (p.step.op = op) &&
        (match mode with | none => true | some m => decide (bitsOf p.step.w0 16 4 = m)) then some p
    else none

/-- A step at the issue point completes (R124, R126). -/
def State.pointDone (s : State) (c : Nat) (t : StepRec) : State := (s.setPoint c t.post none).signalDone c t

/-- A step at the issue point waits. -/
def State.pointWait (s : State) (c : Nat) (t : StepRec) : State := s.setPoint c t.post (some ⟨t, true⟩)

/-- A step at the issue point fails (R161). -/
def State.pointFail (s : State) (c : Nat) (t : StepRec) (e : LStatus) : State := s.stepFails c (t.failure e 0)

/-- NOP (R127). -/
def execNopStep (c : Nat) (post : Bool) (s : State) : Host.Outcome State Fault Refusal :=
  match s.pointStep c post 0x00 none with
  | some p => .next (s.pointDone c p.step)
  | none => .next s

/-- END (R158, R171): the lesson stream issues no more, and the lesson is ending. -/
def execEndStep (c : Nat) (s : State) : Host.Outcome State Fault Refusal :=
  match s.pointStep c false 0x01 none with
  | some p => .next (((s.pointDone c p.step).modCore c fun k => { k with ended := true, fetched := [] }).lsnState c 2)
  | none => .next s

/-- EVT of a SYNC (R153). -/
def StepRec.syncEvt (t : StepRec) : Nat := bitsOf t.w0 20 4
/-- ADDR of a SYNC (R153). -/
def StepRec.syncAddr (t : StepRec) : Nat := bitsOf t.w1 0 48
/-- TIMEOUT of a SYNC (R153). -/
def StepRec.syncTimeout (t : StepRec) : Nat := bitsOf t.w3 0 32

/-- A local wait of a SYNC is satisfied (R152, R154). -/
def State.syncMet (s : State) (c : Nat) (t : StepRec) : Bool := satisfies 16 (s.evt c t.syncEvt) (bitsOf t.w2 0 16)

/-- SYNC mode 0 (R154): the stream is held until the counter satisfies VALUE. -/
def execSyncWaitLocal (c : Nat) (post : Bool) (s : State) : Host.Outcome State Fault Refusal :=
  match s.pointStep c post 0x08 (some 0) with
  | some p => .next (if s.syncMet c p.step then s.pointDone c p.step else s.pointWait c p.step)
  | none => .next s

/-- SYNC mode 1 (R154). -/
def execSyncSignalLocal (c : Nat) (post : Bool) (s : State) : Host.Outcome State Fault Refusal :=
  match s.pointStep c post 0x08 (some 1) with
  | some p => .next ((s.evtAdd c p.step.syncEvt (bitsOf p.step.w2 0 16)).pointDone c p.step)
  | none => .next s

/-- ADDR of a remote SYNC is aligned and in far memory (R130, R153). -/
def State.syncAddrOk (s : State) (c : Nat) (t : StepRec) : Bool :=
  decide (t.syncAddr % 8 = 0) && s.rangeOk c .farOnly t.syncAddr 8

/-- Perform a step at the issue point: none says that it goes on waiting. -/
def State.performPoint (s : State) (c : Nat) (t : StepRec) (act : StepM Bool) : State :=
  match act.run (s.atWork c t) with
  | (.ok true, u) => (u.workDone c (t.order + 1)).pointDone c t
  | (.ok false, u) => (u.workDone c (t.order + 1)).pointWait c t
  | (.error (.waits w), u) => (s.workWaits u c (t.order + 1) w).pointWait c t
  | (.error (.fails e), u) => (u.workDone c (t.order + 1)).pointFail c t e

/-- One shared-cache operation of a step, in the lesson's homeroom (R217, R220): offset in the grain and operand of each element. -/
def stepCombine (c a : Nat) (op : AtomOp) (width : Nat) (elems : List (Nat × Nat × Nat)) : StepM Unit := do
  let _ ← stepAccess fun s =>
    match coreSpace c a with
    | .far x => s.farCombine (.core c) (s.lessonHr c) x op width elems
    | _ => (s, .error .unbacked)
  pure ()

/-- A shared-cache operation of a step on one element (R217). -/
def stepAtomic (c a : Nat) (op : AtomOp) (width v : Nat) : StepM Unit := stepCombine c a op width [(a % 256, v, 0)]

/-- SYNC mode 2 (R153, R154): after the implicit FENCE of its stream, a 64-bit add at ADDR. -/
def execSyncSignalRemote (c : Nat) (post : Bool) (s : State) : Host.Outcome State Fault Refusal :=
  match s.pointStep c post 0x08 (some 2) with
  | none => .next s
  | some p =>
    if !s.syncAddrOk c p.step then .next (s.pointFail c p.step .badOperand)
    else if !(s.core c).streamDone post then .next (s.pointWait c p.step)
    else .next (s.performPoint c p.step do
      stepAtomic c p.step.syncAddr .add 8 p.step.w2
      pure true)

/-- Read the word of a mode-3 SYNC and test it (R154). -/
def syncTest (c : Nat) (t : StepRec) : StepM Bool := do
  let w ← stepRead c .farOnly t.syncAddr 8
  pure (satisfies 64 (leNat w) t.w2)

/-- SYNC mode 3 (R153, R154): the stream is held until the far word satisfies VALUE. -/
def execSyncWaitRemote (c : Nat) (post : Bool) (s : State) : Host.Outcome State Fault Refusal :=
  match s.pointStep c post 0x08 (some 3) with
  | none => .next s
  | some p =>
    if !s.syncAddrOk c p.step then .next (s.pointFail c p.step .badOperand)
    else .next (s.performPoint c p.step (syncTest c p.step))

/-- SYNC_POLL (R154): a waiting mode-3 SYNC reads its word again. -/
def execSyncPoll (c : Nat) (post : Bool) (s : State) : Host.Outcome State Fault Refusal :=
  match s.pointStep c post 0x08 (some 3) with
  | some p => .next (if p.waiting then s.performPoint c p.step (syncTest c p.step) else s)
  | none => .next s

/-- SYNC_TIMEOUT (R153, R154): a TIMEOUT of 0 is no limit. -/
def execSyncTimeout (c : Nat) (post : Bool) (s : State) : Host.Outcome State Fault Refusal :=
  match s.pointStep c post 0x08 (some 3) with
  | some p => .next (if p.waiting && decide (p.step.syncTimeout ≠ 0) then s.pointFail c p.step .syncTimeout else s)
  | none => .next s

/-- The HANDOFF whose routine runs. -/
def CoreSt.handoff (k : CoreSt) : Option StepRec :=
  if k.tutor.running then (((k.running.getD Engine.tutor.idx []).find? fun r => !r.performed).map Running.step) else none

/-- A SYNC of mode 0 in a stream has waited too long (R155). -/
def State.localExpiry (s : State) (c : Nat) (post : Bool) : State :=
  match s.pointStep c post 0x08 (some 0) with
  | some p => if p.waiting && !s.syncMet c p.step then s.pointFail c p.step .syncTimeout else s
  | none => s

/-- WAIT_LIMIT_EXPIRY (R155, R171): a WAIT_LIMIT of 0 disables the limit. -/
def execWaitLimitExpiry (c : Nat) (who : Waiter) (s : State) : Host.Outcome State Fault Refusal :=
  if s.fget (.lsnCtl c) LSN_CTL_WAIT_LIMIT = 0 then .next s
  else match who with
    | .lessonSync => .next (s.localExpiry c false)
    | .postSync => .next (s.localExpiry c true)
    | .tutor =>
      match (s.core c).handoff with
      | some t => .next (if (s.core c).tutor.waiting then s.stepDone c .tutor t .syncTimeout 0 else s)
      | none => .next s

/-- FENCE (R156): the stream is held until its earlier steps are complete. In the model a write is visible when its step is
performed, and a host-window write is sent then too (log 10). -/
def execFenceStep (c : Nat) (post : Bool) (s : State) : Host.Outcome State Fault Refusal :=
  match s.pointStep c post 0x09 none with
  | some p => .next (if (s.core c).streamDone post then s.pointDone c p.step else s.pointWait c p.step)
  | none => .next s

/-! ### Work that waits for memory that is gone (R33, R66, R397) -/

/-- A piece of a core's work that waits ends with a status: a preload as its lesson, else the step that it is. -/
def State.failWait (s : State) (c key : Nat) (e : LStatus) : State :=
  let k := s.core c
  let s := s.modCore c fun k => k.wait key none
  if key = 0 then s.stepFails c ⟨0, e, false, 0, 0⟩
  else
    let at_ := fun (en : Engine) => ((k.running.getD en.idx []).find? fun r => decide (r.step.order + 1 = key) && !r.performed).map fun r => (en, r.step)
    match [Engine.arrayA, .arrayB, .skim, .mover, .tutor].findSome? at_ with
    | some (en, t) => s.stepDone c en t e 0
    | none =>
      match [k.pointLesson, k.pointPost].findSome? fun p => p.filter fun p => decide (p.step.order + 1 = key) with
      | some p => s.pointFail c p.step e
      | none => s

/-- The requests that cores hold outstanding to memory that is gone complete (R33, R66, R397), and the steps that made them end. -/
def State.failWaits (s : State) (gone : WaitsOn → Bool) (e : LStatus) : State :=
  s.cores.foldl (fun s x => ((s.core x.1).stuck.filter fun w => gone w.2).foldl (fun s w => s.failWait x.1 w.1 e) s) s

/-! ### The slice's part in a launch (R190 to R192, R198) -/

/-- SLICE_FILL_COMPLETE (R190 to R192, R198, R587): the slice holds zeros with valid check bits and is ready; a waiting launch starts, and a
core that moves, its desk and arrays cleared, is reached again. -/
def execSliceFillComplete (c : Nat) (s : State) : Host.Outcome State Fault Refusal :=
  let st := s.fget (.nearStatus c) NEAR_STATUS_STATE
  if st ≠ 1 ∧ st ≠ 3 then .next s
  else
    let t := { s with slice := smClear s.slice (sliceKey c 0) (sliceKey (c + 1) 0),
                      sliceChk := smClear s.sliceChk (sliceKey c 0 / 16) (sliceKey (c + 1) 0 / 16) }
    let t := ((t.fput (.nearErr c) NEAR_ERR_RETRIED 0).fput (.nearErr c) NEAR_ERR_FAILED 0).fput (.nearStatus c) NEAR_STATUS_STATE 2
    let t := (t.setNear c { t.near c with clearPending := false }).modCore c fun k =>
      { k with failCount := 0, movingTo := if (s.near c).clearPending then k.movingTo else none }
    match (t.core c).waitingLaunch with
    | some l => .next (if t.coreState c = 0 then t.startLesson c l else t)
    | none => .next t

/-- SLICE_CLEAR (R190): the clear of a core that moves to another homeroom begins once no lesson runs. -/
def execSliceClear (c : Nat) (s : State) : Host.Outcome State Fault Refusal :=
  if (s.near c).clearPending && (s.core c).lesson.isNone && decide (s.fget (.nearStatus c) NEAR_STATUS_STATE = 2) then
    .next (s.fput (.nearStatus c) NEAR_STATUS_STATE 3)
  else .next s

end Sys2Proof.Machine
end

