-- ==== Sys2Proof/Machine/Loss.lean ====
section
/-! DEFINITION. The loss of a far stack, and what was outstanding to memory that is lost (R33, R260, R397, R627, R628). -/

namespace Sys2Proof.Machine

/-- Every copy of a line is lost (R33, R627). -/
def State.farLost (s : State) (pa : Nat) : Bool :=
  let c := s.lineAt pa
  s.farGone c.loc.site && (match c.mirror with | none => true | some m => s.farGone m.site)

/-- Requests outstanding to far memory that is lost complete with an error, and the steps that wait for it with a status; its lines go (R33,
R397, R627). What waited in a home slice for one of their fills goes on. -/
def State.farDies (s : State) (e : AccErr) (st : LStatus) : State :=
  let lost := fun (q : ScReq) => s.farLost q.pa
  let fills := s.fills.filter fun f => s.farLost (f.grain * 256)
  let dead := fills.flatMap Fill.queue ++ s.fillWaits.filter lost ++ s.heldAccess.filter lost
  let t := { s with fills := s.fills.filter fun f => !s.farLost (f.grain * 256), fillWaits := s.fillWaits.filter fun q => !lost q,
                    heldAccess := s.heldAccess.filter fun q => !lost q, lines := s.lines.filter fun l => !s.farLost (l.1 * 256) }
  let t := dead.foldl (fun t q => t.emit (.replyError q.rq e)) t
  let t := t.failWaits (fun w => match w with | .far g => s.farLost (g * 256) | _ => false) st
  fills.foldl (fun t f => t.popMiss f.slice) t

/-- The far port of a site that is lost serves nothing more: fills of mirrored lines go to the other copy (R627). -/
def State.movePort (s : State) (f : Nat) : State :=
  let p := s.farPort f
  let s := s.setFarPort f { p with waiting := [], outside := [] }
  let s := (List.range 64).foldl (fun s pc => s.arbCounts (f / 3) (farQueue f pc) (List.replicate 16 0)) s
  (p.waiting ++ p.outside).foldl (fun s w =>
    if w.read && s.fills.any fun g => decide (g.grain = w.id) then
      let c := s.lineAt (w.id * 256)
      s.askPort (s.fillSite c) (s.fillReq c w.hr w.left w.tagged)
    else s) s

/-- End what a lost far stack was doing for its ladles (R260, R628), with DIE_LOST or FENCED (R397). -/
def State.ladleLost (s : State) (f status : Nat) : State :=
  let p := s.ladle f
  let lost := fun (c : LadleCmd) => (s.ladleCopies c).isEmpty
  let asking := p.asking.filter fun c => !lost c
  let t := s.setLadle f { p with seqs := [], halves := p.halves.filter fun h => !lost h.cmd, queue := p.queue.filter fun c => !lost c, asking := asking }
  let t := t.arbCounts (f / 3) (ladlePort f)
    ((List.range 16).map fun r => (asking.filter fun c => decide (ladleRequester c.issuer = some r)).length)
  let t := ((p.queue ++ p.asking).filter lost).foldl (fun t c => t.ladleEnd f c status 0) t
  (p.seqs.map LadleSeq.cmd).eraseDups.foldl (fun t c =>
    let other := (List.range 12).any fun g => (t.ladle g).seqs.any fun q => decide (q.cmd = c)
    let half := (List.range 12).findSome? fun g => ((t.ladle g).halves.find? fun h => decide (h.cmd = c)).map fun h => (g, h)
    if other then t
    else match half with
      | some (g, h) => (t.setLadle g { t.ladle g with halves := (t.ladle g).halves.erase h }).ladleEnd (t.ladleHome c) c h.status h.rows
      | none =>
        t.ladleEnd (t.ladleHome c) c status ((p.seqs.find? fun q => decide (q.cmd = c)).elim 0 fun q => if q.cmd.op = 7 then 0 else q.row)) t

/-- A far stack is lost (R33, R260, R627): `LOST` is set, requests for unmirrored data complete with DIE_LOST, ladle commands end, its
unmirrored lines go, and a mirrored pair sets `SINGLE` and raises an event. -/
def State.loseFarStack (s : State) (f : Nat) : State :=
  if !farPresent s.variant f ∨ s.fget (.farStatus f) FAR_STATUS_LOST = 1 then s
  else
    let s := (((s.fput (.farStatus f) FAR_STATUS_LOST 1).farDies .dieLost .dieLost).movePort f).ladleLost f 6
    (if (List.range 128).any fun n => (s.mirrorOf n).isSome then (s.fput .relStatus REL_STATUS_SINGLE 1).relEvent else s)

end Sys2Proof.Machine
end

