-- ==== Sys2Proof/Machine/Matrix.lean ====
section
/-! DEFINITION. Matrix steps (R34 to R61, R81 to R148): LOAD_SLATE, STREAM, GATHER, SKIM and CONVERT, and the stalls of the arrays. -/

namespace Sys2Proof.Machine

/-! ### Tiles (R36, R37, R87, R95 to R100, R144, R145) -/

/-- The format in which elements of a format sit in a class (R88, R144). -/
def storedFmt (c : FmtClass) (f : Fmt) : Fmt :=
  match c with
  | .bit4 => .fp4
  | .bit8 => match f with
    | .fp4 | .mxfp4 | .split | .mxE3m2 | .mxE2m3 => .e4m3
    | g => g
  | .bit16 => match f with
    | .fp16 => .fp16
    | _ => .bf16
  | .multi => .bf16

/-- The class-width bits of an element (R88, R144): narrower elements widen exactly. -/
def widenElem (c : FmtClass) (f : Fmt) (bits : Nat) : Nat :=
  if fmtBits (storedFmt c f) = fmtBits f then bits
  else match floatFmt (storedFmt c f) with
    | some ff => encodeIeee ff .nearest (decElem f bits)
    | none => bits

/-- A tile from the class-width bits at (k, n), the scale of block b of column n, and the side entries 2n and 2n + 1 (R87, R144, R145). -/
def mkTile (c : FmtClass) (f : Fmt) (elem : Nat → Nat → Nat) (scale : Nat → Nat → Nat) (side : Nat → List Nat) : Tile :=
  ⟨c, f, (List.range (tileK c)).flatMap fun k => packElems (storedFmt c f) ((List.range 128).map (elem k)),
    if isMx f then (List.range 128).flatMap fun n => (List.range (tileK c / 32)).map fun b => BitVec.ofNat 8 (scale b n) else [],
    if f = .split then (List.range 128).flatMap side else []⟩

/-- The weight at (k, n) of a tile, with its scale (R84, R144). -/
def Tile.elem (t : Tile) (k n : Nat) : Num :=
  let x := decElem (storedFmt t.cls t.fmt) (packedElem (storedFmt t.cls t.fmt) t.data (k * 128 + n))
  if isMx t.fmt then applyScale (t.scales.getD (n * (tileK t.cls / 32) + k / 32) 0x7F#8).toNat x else x

/-- The outlier values at (k, n) of a tile (R98, R100, R145). -/
def Tile.outliers (t : Tile) (k n : Nat) : List Num :=
  [2 * n, 2 * n + 1].flatMap fun i =>
    let e := t.side.getD i 0
    if bitsOf e 16 7 = k ∧ bitsOf e 0 15 ≠ 0 then [decFloat bf16Fmt (bitsOf e 0 16)] else []

/-- A side entry (R145) of a value at a position of its group, for a tile whose rows lo to lo + len − 1 of the group it covers; the
position is kept relative to the tile, and an entry outside it is not loaded (R100). -/
def sideEntry (lo len pos v : Nat) : Nat := if lo ≤ pos ∧ pos < lo + len then v + (pos - lo) * 2 ^ 16 else 0

/-- The two side entries of a record for a tile (R96, R145). -/
def sideEntries (lo len : Nat) (r : SplitRecord) : List Nat := [sideEntry lo len r.pos0 r.val0, sideEntry lo len r.pos1 r.val1]

/-- Read side-table records of one column from a bit stream (R97): `count` records from an index upward. -/
def readSplit (c : Nat) (role : Role) (base idx count : Nat) : StepM (List SplitRecord) := do
  let lo := 46 * idx
  let bs ← stepRead c role (base + lo / 8) ((lo % 8 + 46 * count + 7) / 8)
  pure ((List.range count).map fun g => splitRecord (bitsOf (leNat bs) (lo % 8 + 46 * g) 46))

/-! ### LOAD_SLATE (R142 to R145, R733) -/

/-- The class of a CLASS field; 3 names none (R142). -/
def classOf : Nat → Option FmtClass
  | 0 => some .bit4 | 1 => some .bit8 | 2 => some .bit16 | _ => none

/-- The weight formats that a class accepts (R733). -/
def loadable (c : FmtClass) (f : Fmt) : Bool :=
  match c, f with
  | .bit4, .fp4 => true | .bit4, .mxfp4 => true | .bit4, .split => true
  | .bit8, .bf16 => false | .bit8, .fp16 => false | .bit8, .fp32 => false
  | .bit8, _ => true
  | .bit16, .int8 => false | .bit16, .mxint8 => false | .bit16, .fp32 => false
  | .bit16, _ => true
  | _, _ => false

/-- Read a tile from lines (R132, R142, R143). -/
def tileFromLines (c : Nat) (cls : FmtClass) (r : MatRec) (k0 n0 klen nlen ktotal : Nat) (noSide : Bool) : StepM Tile := do
  let cols := rangeFrom n0 nlen
  let lines ← readEach c .ownMem (packedBytes r.fmt klen) (cols.map fun n => r.base + n * r.lineStride + packedBytes r.fmt k0)
  let scales ← if isMx r.fmt then readEach c .ownMem (klen / 32) (cols.map fun n => r.scaleBase + n * r.scaleStride + k0 / 32) else pure []
  let side ← if r.fmt = .split ∧ !noSide then
      cols.mapM fun n => readSplit c .ownMem r.sideBase (splitIndex n (k0 / 128) ktotal) 1
    else pure []
  pure (mkTile cls r.fmt
    (fun k n => if k < klen ∧ n < nlen then widenElem cls r.fmt (packedElem r.fmt (lines.getD n []) k) else 0)
    (fun b n => if 32 * b < klen ∧ n < nlen then ((scales.getD n []).getD b 0#8).toNat else 0x7F)
    (fun n => match (side.getD n []).head? with
      | some x => sideEntries (k0 % 128) klen x
      | none => [0, 0]))

/-- Read a tile from a slate image (R143, R145). -/
def tileFromImage (c : Nat) (cls : FmtClass) (r : MatRec) (k0 klen nlen : Nat) (noSide : Bool) : StepM Tile := do
  let split := decide (r.fmt = .split) && !noSide
  let data ← stepRead c .ownMem r.base 8192
  let scales ← if isMx r.fmt then stepRead c .ownMem (r.base + 8192) 512 else pure []
  let side ← if split then stepRead c .ownMem (r.base + 8704) 1024 else pure []
  let entry := fun (i : Nat) =>
    let e := leNat ((side.drop (4 * i)).take 4)
    sideEntry (k0 % 128) klen (bitsOf e 16 7) (bitsOf e 0 16)
  pure (mkTile cls r.fmt
    (fun k n => if k < klen ∧ n < nlen then packedElem (storedFmt cls r.fmt) data (k * 128 + n) else 0)
    (fun b n => if 32 * b < klen ∧ n < nlen then (scales.getD (n * (tileK cls / 32) + b) 0#8).toNat else 0x7F)
    (fun n => if n < nlen ∧ split then [entry (2 * n), entry (2 * n + 1)] else [0, 0]))

/-- LOAD_SLATE's checks and its tile (R142, R143, R733). -/
def slateTile (c : Nat) (t : StepRec) : StepM Tile := do
  stepNeed (decide (t.engine < 2)) .badOperand
  match classOf (bitsOf t.w0 19 2) with
  | none => stepFail .badFormat
  | some cls => do
    let image := t.transpose
    let k0 := bitsOf t.w1 0 20
    let n0 := bitsOf t.w1 20 20
    let klen := bitsOf t.w1 40 8
    let nlen := bitsOf t.w1 48 8
    let ktotal := bitsOf t.w3 0 20
    stepNeed (decide (1 ≤ klen) && decide (klen ≤ tileK cls) && decide (1 ≤ nlen) && decide (nlen ≤ 128) && decide (k0 % tileK cls = 0)) .badShape
    let r ← readRec c (bitsOf t.w2 0 18)
    stepNeed (loadable cls r.fmt) .badFormat
    let side := decide (r.fmt = .split) && !image && !t.noSide
    stepNeed (!(isMx r.fmt && decide (klen % 32 ≠ 0)) &&
      (if side then decide (ktotal % 128 = 0) && decide (k0 + klen ≤ ktotal) else decide (ktotal = 0))) .badShape
    let s ← get
    stepNeed (if image then decide (r.base % 32 = 0) && s.rangeOk c .ownMem r.base
          (8192 + if r.fmt = .split ∧ !t.noSide then 1536 else if isMx r.fmt then 512 else 0)
        else r.shaped (k0 + klen) (isMx r.fmt) side && r.linesOk s c .ownMem (rangeFrom n0 nlen) k0 klen (isMx r.fmt) &&
          (!side || r.sideOk s c .ownMem n0 nlen (ktotal / 128))) .badOperand
    if image then tileFromImage c cls r k0 klen nlen t.noSide else tileFromLines c cls r k0 n0 klen nlen ktotal t.noSide

/-- LOAD_SLATE (R38, R142): the tile goes to the shadow half, where it loads. -/
def execLoadSlate (c : Nat) (arrayB : Bool) (s : State) : Host.Outcome State Fault Refusal :=
  match s.toPerform c (arrEngine arrayB) 0x10 with
  | none => .next s
  | some t => .next (s.performStep c (arrEngine arrayB) t do
      let tile ← slateTile c t
      modify fun s => s.modArr c arrayB fun a => { a with loading := some tile })

/-- SLATE_LOAD_COMPLETE (R39, R40): the loaded tile is pending. -/
def execSlateLoadComplete (c : Nat) (arrayB : Bool) (s : State) : Host.Outcome State Fault Refusal :=
  match ((s.core c).arr arrayB).loading with
  | some tile =>
    if s.coreState c = 0 then .next (s.modArr c arrayB fun a => { a with loading := none, pendingTile := some tile }) else .next s
  | none => .next s

/-! ### Products (R90 to R94, R101 to R103) -/

/-- A product to form: its rows are those of the activations, `red` is the reduction length, `outs` the outputs of a row, `glen` the
group length; `multi` is FP32 by eight passes. -/
structure Product where
  red : Nat
  glen : Nat
  multi : Bool
  act : Nat → Nat → Num
  wt : Nat → Nat → Num
  extra : Nat → Nat → List Num

/-- The group sums that group g adds to output o of row m (R91, R100, R102). -/
def Product.sums (p : Product) (m o g : Nat) : List Nat :=
  let ks := rangeFrom (g * p.glen) (min p.glen (p.red - g * p.glen))
  if p.multi then fp32TileSums (ks.map fun r => (p.act m r, p.wt r o))
  else [groupFp32 (ks.flatMap fun r => numMul (p.act m r) (p.wt r o) :: (p.extra r o).map (numMul (p.act m r)))]

/-- The accumulator of output o of row m (R92). -/
def Product.acc (p : Product) (init m o : Nat) : Nat :=
  (List.range (ceilDiv p.red p.glen)).foldl (fun a g => (p.sums m o g).foldl fp32Add a) init

/-! ### Generators (R112 to R116) -/

/-- The state of a generator: as last left, or as loaded from the seed (R114). -/
def genState (seed : Nat) (gens : SMap Nat) (j : Nat) : Nat := (smFind gens j).getD (lfsrLoad seed j)

/-- The generator's state after i draws (R113). -/
def genAfter (seed : Nat) (gens : SMap Nat) (j i : Nat) : Nat := Nat.repeat lfsrNext i (genState seed gens j)

/-- How one element rounds (R105, R112, R115): its draw is the i-th of generator j. -/
def rounding (rnd : Bool) (seed : Nat) (gens : SMap Nat) (j i : Nat) : Rnd :=
  if rnd then .stoch (genAfter seed gens j i % 2 ^ 16) else .nearest

/-- The generators after each of the first `n` has given a number of draws. -/
def gensAfter (seed : Nat) (gens : SMap Nat) (n : Nat) (count : Nat → Nat) : SMap Nat :=
  (List.range n).foldl (fun g j => if count j = 0 then g else smPut g j (genAfter seed gens j (count j))) gens

/-- Load a set of generators whose seed register has been written (R116). -/
def State.loadSeed (s : State) (c : Nat) (g : GenSet) : State :=
  let load := fun (b : Bool) (s : State) =>
    if ((s.core c).arr b).reload then
      s.modArr c b fun a => { a with reload := false, gens := [], seed := s.fget (.arrSrndSeed c (b2n b)) ARR_SRND_SEED_SEED }
    else s
  match g with
  | .arrayA => load false s
  | .arrayB => load true s
  | .skim =>
    if (s.core c).skimReload then
      s.modCore c fun k => { k with skimReload := false, skimGens := [], skimSeed := s.fget (.coreSkimSeed c) CORE_SKIM_SEED_SEED }
    else s

/-! ### Pail lists (R296 to R298) -/

/-- A pail-list record (R296) with the addresses of the gathered lines' segments. -/
structure PailList where
  tree : Tree
  part : Bool
  segs : List (List Nat)

/-- What a pail-list gather of an array has fetched, if it is for this range (R298): it stays in force whatever commands come meanwhile. -/
def State.keptList (s : State) (d c : Nat) (b : Bool) (n seq first count : Nat) : Option PailGather :=
  ((s.pail d).gather c b).filter fun g => decide (g.tree = n) && decide (g.seq = seq) && decide (g.first = first) && decide (g.count = count)

/-- The entries of a pail-list gather (R298): those that it has fetched, or those fetched now. -/
def listEntries (d c : Nat) (b : Bool) (n seq first count : Nat) : StepM (List PailEntry) := do
  let s ← get
  match s.keptList d c b n seq first count with
  | some g => pure (g.words.map entryOf)
  | none =>
    match (fetchEntries d c b n seq first count).run s with
    | (.error (0xFF, _), u) => do
      set u
      throw (.waits (.pail d))
    | (.error _, u) => do
      set u
      stepFail .busError
    | (.ok es, u) => do
      set u
      pure es

/-- The list of a pail-list GATHER (R297, R298). The gather is in force until the step has been performed (R275). -/
def pailList (c : Nat) (b : Bool) (t : StepRec) (fetch : Bool) : StepM PailList := do
  let w := wordAt (leWords 4 (← stepRead c .ownDesk (deskBase + c * 0x1000000 + 32 * bitsOf t.w3 18 18) 32))
  let seq := bitsOf (w 0) 0 12
  let n := bitsOf (w 0) 12 4
  let d := bitsOf (w 0) 16 2
  let part := bitAt (w 0) 18
  let layer := bitsOf (w 0) 24 8
  let head := bitsOf (w 0) 32 6
  let first := bitsOf (w 1) 0 32
  stepNeed (t.listSide && decide (t.transpose = part) && decide (w 2 = 0) && decide (w 3 = 0)) .badOperand
  let s ← get
  match smFind (s.pail d).trees n with
  | some tr => do
    let inSeq := match smFind (s.pail d).seqs seq with
      | some q => decide (q.tree = n) && decide (first + t.n ≤ q.len)
      | none => false
    stepNeed (s.dieUp d && ((s.keptList d c b n seq first t.n).isSome || inSeq) && decide (tr.hr = s.lessonHr c) && decide (layer < tr.layers) &&
      decide (head < tr.heads)) .badOperand
    if !fetch then pure ⟨tr, part, []⟩
    else do
      let es ← listEntries d c b n seq first t.n
      stepNeed (es.all fun e => e.valid && !e.lost) .busError
      let u ← get
      pure ⟨tr, part, (rangeFrom first t.n).map fun tok =>
        (List.range (lineSegments tr)).map fun g =>
          u.segmentAddr d tr (es.getD (tok / 64 - first / 64) .none) layer head tok g part⟩
  | none => stepFail .badOperand

/-- Read a pail line from its segments. -/
def readSegments (c n : Nat) (segs : List Nat) : StepM (List Byte) := do
  let parts ← segs.zipIdx.mapM fun e => stepRead c .gathered e.1 (min 256 (n - 256 * e.2))
  pure parts.flatten

/-! ### STREAM, GATHER and SKIM (R133 to R141) -/

/-- The step names a slate tile as its weight (R133). -/
def StepRec.slate (t : StepRec) : Bool := t.wSlate

/-- The step has no rows or no columns (R119). -/
def StepRec.empty (t : StepRec) : Bool := decide (t.m = 0) || decide (t.n = 0)

/-- Reduction length of a step: K in normal reading, N in transposed (R43, R85). -/
def StepRec.red (t : StepRec) : Nat := if t.transpose then t.n else t.k
/-- Outputs of a row. -/
def StepRec.outs (t : StepRec) : Nat := if t.transpose then t.k else t.n

/-- What a step's checks leave: its records, its class, the slate tile, and the pail list. -/
structure Checked where
  a : MatRec
  w : Option MatRec
  o : MatRec
  init : Option MatRec
  cls : FmtClass
  tile : Option Tile
  list : Option PailList

/-- The weight format of a checked step. -/
def weightFmt (tile : Option Tile) (w : Option MatRec) : Fmt :=
  match tile, w with
  | some x, _ => x.fmt
  | none, some r => r.fmt
  | none, none => .fp32

/-- The tile that a step with W_SLATE runs on (R133, R137): the active one with REUSE, else the pending or the loading one. A step that uses
the tile waits for its load (R41). -/
def slateOf (a : ArrayState) (reuse : Bool) : StepM Tile :=
  match (if reuse then a.active else a.pendingTile.or a.loading) with
  | some y => pure y
  | none => stepFail .badOperand

/-- The checks of a STREAM, GATHER or SKIM (R81, R89, R93, R130 to R140, R297), before any operand is fetched: fields, records and
formats, shapes, then operands. -/
def checkStep (c : Nat) (t : StepRec) (arr : Option Bool) : StepM Checked := do
  let gather := decide (t.op = 0x12)
  stepNeed (decide (t.engine ≠ 3) && !(decide (t.op = 0x13) && decide (t.engine ≠ 0)) && decide (t.init ≠ 3) &&
    !(gather && decide (t.listMode = 3))) .badOperand
  stepNeed (!(decide (t.op = 0x13) && decide (4 < t.m))) .badShape
  stepNeed (!(gather && t.wSlate && t.listSide)) .badOperand
  let pail := gather && decide (t.listMode = 2)
  let list ← stepWhen pail (pailList c (arr.getD false) t false)
  let a ← readRec c (bitsOf t.w2 0 18)
  stepNeed (!(t.wSlate && decide (a.fmt = .fp32))) .badOperand
  let w ← stepWhen (!t.wSlate) (readRec c (bitsOf t.w2 18 18))
  let o ← readRec c (bitsOf t.w2 36 18)
  let init ← stepWhen (decide (t.init ≠ 0)) (readRec c (bitsOf t.w3 0 18))
  let s ← get
  let tile ← stepWhen t.wSlate (slateOf ((s.core c).arr (arr.getD false)) t.reuse)
  let wf := weightFmt tile w
  stepNeed (decide (a.fmt ≠ .split) && isStreamOut o.fmt && (match init with | some r => isInit r.fmt | none => true)) .badFormat
  match pairClass wf a.fmt with
  | none => stepFail .badFormat
  | some cls => do
    stepNeed (!(t.wSlate && decide (cls = .multi))) .badOperand
    stepNeed (match tile with | some x => decide (x.cls = cls) | none => true) .badFormat
    stepNeed (match list with | some l => decide (fmtOf l.tree.fmt = some wf) | none => true) .badFormat
    stepNeed (match list with | some l => decide (t.k = l.tree.hdim) | none => true) .badShape
    stepNeed (!t.wSlate || (decide (t.k ≤ tileK cls) && decide (t.n ≤ 128))) .badShape
    stepNeed (!(isMx a.fmt && decide (t.red % 32 ≠ 0)) && !(isMx wf && !t.transpose && decide (t.k % 32 ≠ 0)) &&
      !(decide (wf = .split) && decide (t.k % 128 ≠ 0))) .badShape
    let wOk := match w with
      | none => true
      | some r =>
        let side := decide (r.fmt = .split) && !t.noSide
        if pail then { r with base := 0, lineStride := roundUp (packedBytes r.fmt t.k) 32 }.shaped t.k (isMx r.fmt) side
        else if gather ∧ t.listSide then r.shaped t.k (isMx r.fmt) side
        else r.ok s c .ownMem t.n t.k (isMx r.fmt) side
    let aOk := if gather ∧ !t.listSide then a.shaped t.red (isMx a.fmt) false else a.ok s c .ownDesk t.m t.red (isMx a.fmt) false
    stepNeed (aOk && wOk && o.ok s c .ownDesk t.m t.outs false false &&
      (match init with | some r => r.ok s c .ownDesk (if t.init = 2 then 1 else t.m) t.outs false false | none => true)) .badOperand
    pure ⟨a, w, o, init, cls, tile, list⟩

/-- A gathered line of `len` elements, its scales and the `gs` records of its column lie in spaces that the gathered side may name (R130). -/
def MatRec.gatheredOk (r : MatRec) (s : State) (c len gs : Nat) (e : Nat × Nat) : Bool :=
  s.rangeOk c .gathered e.1 (packedBytes r.fmt len) &&
    (!isMx r.fmt || s.rangeOk c .gathered (r.scaleBase + e.2 * r.scaleStride) (ceilDiv len 32)) && r.sideOk s c .gathered e.2 1 gs

/-- The entries of an address or index list (R140) of lines of `len` elements: each gathered line's address and line number. -/
def readList (c : Nat) (t : StepRec) (r : MatRec) (count len : Nat) : StepM (List (Nat × Nat)) := do
  let size := if t.listMode = 0 then 8 else 4
  let bs ← stepRead c .ownDesk (deskBase + c * 0x1000000 + 32 * bitsOf t.w3 18 18) (size * count)
  let es := (blocksOf size count bs).map leNat
  let lines := if t.listMode = 0 then es.zipIdx else es.map fun l => (r.base + l * r.lineStride, l)
  let s ← get
  stepNeed (lines.all (r.gatheredOk s c len (if t.listSide ∧ r.fmt = .split ∧ !t.noSide then len / 128 else 0))) .badOperand
  pure lines

/-- The operands of a step as fetched: activations, weights (none for a slate tile), and the side records of each weight column. -/
structure Fetched where
  act : Operand
  wt : Option Operand
  side : List (List SplitRecord)

/-- Fetch the operands of a step (R132, R140, R298). DEDUCED: where weight lines are gathered, column n of the side table is that of the line
number, as scales are taken at it (R97, R140; log 64). -/
def fetchStep (c : Nat) (t : StepRec) (arr : Option Bool) (k : Checked) : StepM Fetched := do
  let gather := decide (t.op = 0x12)
  let all := fun (r : MatRec) (n : Nat) => (List.range n).map fun l => (r.base + l * r.lineStride, l)
  let aLines ← if gather ∧ !t.listSide then readList c t k.a t.m t.red else pure (all k.a t.m)
  let act ← readOperand c (if gather ∧ !t.listSide then .gathered else .ownDesk) k.a t.red (aLines.map Prod.fst) (aLines.map Prod.snd)
  match k.w with
  | none => pure ⟨act, none, []⟩
  | some r =>
    let role : Role := if gather ∧ t.listSide then .gathered else .ownMem
    let nums ← match k.list with
      | some _ => pure ((List.range t.n).map fun l => (0, l))
      | none => if gather ∧ t.listSide then readList c t r t.n t.k else pure (all r t.n)
    let wt ← match k.list with
      | some _ => do
        let l ← pailList c (arr.getD false) t true
        let lines ← l.segs.mapM (readSegments c (packedBytes r.fmt t.k))
        pure (⟨r.fmt, lines, []⟩ : Operand)
      | none => readOperand c role r t.k (nums.map Prod.fst) (nums.map Prod.snd)
    let side ← if r.fmt = .split ∧ !t.noSide then
        nums.mapM fun e => readSplit c role r.sideBase (splitIndex e.2 0 t.k) (t.k / 128)
      else pure []
    pure ⟨act, some wt, side⟩

/-- The weight at (k, n), and its outliers (R95, R98). -/
def Fetched.weight (f : Fetched) (tile : Option Tile) (k n : Nat) : Num :=
  match f.wt, tile with
  | some o, _ => o.elem n k
  | none, some x => x.elem k n
  | none, none => .zero

/-- The outlier values at (k, n) (R95, R98, R99). -/
def Fetched.outliers (f : Fetched) (tile : Option Tile) (noSide : Bool) (k n : Nat) : List Num :=
  if noSide then []
  else match f.wt, tile with
    | some _, _ => match (f.side.getD n [])[k / 128]? with
      | some r => splitValues r (k % 128)
      | none => []
    | none, some x => x.outliers k n
    | none, none => []

/-- The initialiser of output o of row m in FP32 (R82, R133). -/
def readInit (c : Nat) (t : StepRec) (r : Option MatRec) : StepM (Nat → Nat → Nat) :=
  match r with
  | none => pure fun _ _ => 0
  | some r => do
    let lines ← readEach c .ownDesk (packedBytes r.fmt t.outs) (r.addrs (if t.init = 2 then 1 else t.m))
    pure fun m o => widenInit r.fmt (packedElem r.fmt (lines.getD (if t.init = 2 then 0 else m) []) o)

/-- The last tile of a self-tiling step (R734), whose first weight row and column are k0 and n0. -/
def lastTile (cls : FmtClass) (t : StepRec) (o : Operand) (side : List (List SplitRecord)) (k0 n0 : Nat) : Tile :=
  let inside := fun (k n : Nat) => decide (k0 + k < t.k) && decide (n0 + n < t.n)
  mkTile cls o.fmt
    (fun k n => if !inside k n then 0
      else if cls = .multi then encodeIeee bf16Fmt .nearest (splitFp32 (o.elem (n0 + n) (k0 + k))).hi
      else widenElem cls o.fmt (packedElem o.fmt (o.lines.getD (n0 + n) []) (k0 + k)))
    (fun b n => if inside (32 * b) n then ((o.scales.getD (n0 + n) []).getD (k0 / 32 + b) 0x7F#8).toNat else 0x7F)
    (fun n => match (side.getD (n0 + n) [])[k0 / 128]? with
      | some r => if n0 + n < t.n then sideEntries (k0 % 128) (tileK cls) r else [0, 0]
      | none => [0, 0])

/-- Where output o of row m takes its draw: the generator and the number of its draw within the step (R115). On an array, output
position j of a tile draws from generator j, tile after tile and row after row; on the skim path, lane j mod 256 draws in
increasing j and then by vector, j being m where N = 1 exchanges the operands (R60). DESIGN CHOICE: where that lane serves several outputs
of a row, a TRANSPOSE step, they draw in increasing output number; R115 gives them no order (log 65). -/
def drawPlace (t : StepRec) (arr : Option Bool) (tout lo m o : Nat) : Nat × Nat :=
  match arr with
  | some _ => (o % tout, (o / tout - lo) * t.m + m)
  | none => if t.op = 0x11 ∧ t.n = 1 then (m % 256, m / 256 * t.outs + o) else (o % 256, o / 256 * t.m + m)

/-- How many draws generator j gives in a step that writes outputs o0 to o1 − 1 of each row (R115). -/
def drawCount (t : StepRec) (arr : Option Bool) (tout o0 o1 j : Nat) : Nat :=
  match arr with
  | some _ => ((rangeFrom o0 (o1 - o0)).filter fun o => decide (o % tout = j)).length * t.m
  | none =>
    if t.op = 0x11 ∧ t.n = 1 then ((List.range t.m).filter fun m => decide (m % 256 = j)).length * t.outs
    else ((List.range t.outs).filter fun o => decide (o % 256 = j)).length * t.m

/-- Seed and generators of the engine of a step. -/
def CoreSt.genSet (k : CoreSt) (arr : Option Bool) : Nat × SMap Nat :=
  match arr with
  | some b => ((k.arr b).seed, (k.arr b).gens)
  | none => (k.skimSeed, k.skimGens)

/-- Replace the generators of the engine of a step. -/
def CoreSt.setGens (k : CoreSt) (arr : Option Bool) (g : SMap Nat) : CoreSt :=
  match arr with
  | some b => k.setArr b { k.arr b with gens := g }
  | none => { k with skimGens := g }

/-- What an array keeps of a pass that formed products (R34, R39, R41, R64, R75, R734): the tile left active, the rows of the last
chunk of each bank, the array steps; a self-tiling step has waited for its first tile, and perhaps for others (log 24). -/
def State.arrayRan (s : State) (c : Nat) (b : Bool) (t : StepRec) (k : Checked) (f : Fetched) (tout lo hi : Nat) (accs : List (List Nat)) : State :=
  let rt := ceilDiv t.red (groupLen k.cls t.transpose)
  let chunks := (hi - lo) * ceilDiv t.m 512
  let chunk := fun (i : Nat) =>
    ((accs.drop (i % ceilDiv t.m 512 * 512)).take 512).map fun row => (row.drop (i / ceilDiv t.m 512 * tout)).take tout
  let last := match f.wt with
    | some o =>
      some (if t.transpose then lastTile k.cls t o f.side ((hi - 1) * tileK k.cls) ((ceilDiv t.n 128 - 1) * 128)
        else lastTile k.cls t o f.side ((ceilDiv t.k (tileK k.cls) - 1) * tileK k.cls) ((hi - 1) * 128))
    | none => k.tile
  let loads := (if k.cls = .multi then 3 else 1) * chunks * rt
  let (extra, u) := if t.wSlate then (0, s) else s.draw loads
  let u := if t.wSlate then u else u.fadd (.arrStat c (b2n b)) ARR_STAT_FREEZES (1 + extra)
  u.modArr c b fun a =>
    { a with active := last, pendingTile := if t.wSlate && t.reuse then a.pendingTile else none, used := true,
             steps := a.steps + (if k.cls = .multi then 8 else 1) * (hi - lo) * rt * t.m,
             bank0 := if 2 ≤ chunks then chunk (if chunks % 2 = 0 then chunks - 2 else chunks - 1) else chunk 0,
             bank1 := if 2 ≤ chunks then chunk (if chunks % 2 = 0 then chunks - 1 else chunks - 2) else a.bank1 }

/-- A STREAM, GATHER or SKIM on an array or on the skim path (R89 to R108, R112 to R141, R734). DESIGN CHOICE: the no-op of R119 comes before
every check of the step's fields, records and formats; the spec does not order R119 against R81, R133 and R139 (log 66). -/
def matrixStep (c : Nat) (t : StepRec) (arr : Option Bool) : StepM Unit := do
  if t.empty then pure ()
  else
    let k ← checkStep c t arr
    let tout := if arr.isNone then max 1 t.outs else if t.transpose then tileK k.cls else 128
    let tiles := ceilDiv t.outs tout
    let half := ceilDiv tiles 2
    let (lo, hi) := match arr with
      | some b => if t.engine = 2 then (if b then (half, tiles) else (0, half)) else (0, tiles)
      | none => (0, tiles)
    let o0 := lo * tout
    let o1 := min (hi * tout) t.outs
    modify fun s => if t.k = 0 then s.setKEmpty c else s
    if o1 ≤ o0 then pure ()
    else
      let f := (← stepWhen (decide (t.k ≠ 0)) (fetchStep c t arr k)).getD ⟨⟨k.a.fmt, [], []⟩, none, []⟩
      let init ← readInit c t k.init
      modify fun s => s.loadSeed c (match arr with | some false => .arrayA | some true => .arrayB | none => .skim)
      let wt := fun (kk n : Nat) => f.weight k.tile kk n
      let out := fun (kk n : Nat) => f.outliers k.tile t.noSide kk n
      let p : Product :=
        { red := if t.k = 0 then 0 else t.red, glen := groupLen k.cls t.transpose, multi := decide (k.cls = .multi), act := f.act.elem,
          wt := if t.transpose then fun r o => wt o r else wt,
          extra := if t.transpose then fun r o => out o r else out }
      let accs := (List.range t.m).map fun m => (rangeFrom o0 (o1 - o0)).map fun o => p.acc (init m o) m o
      let (seed, gens) := ((← get).core c).genSet arr
      (List.range t.m).forM fun m =>
        stepWrite c .ownDesk (k.o.base + m * k.o.lineStride + packedBytes k.o.fmt o0)
          (packElems k.o.fmt ((accs.getD m []).zipIdx.map fun e =>
            let (j, i) := drawPlace t arr tout lo m (o0 + e.2)
            convertOut k.o.fmt (rounding t.rnd seed gens j i) t.sat e.1))
      modify fun s => if t.rnd then
          s.modCore c fun x => x.setGens arr (gensAfter seed gens (if arr.isSome then 128 else 256) (drawCount t arr tout o0 o1))
        else s
      modify fun s => match arr with
        | some b => if t.k = 0 then s else s.arrayRan c b t k f tout lo hi accs
        | none => s

/-! ### Stalls (R41, R48 to R52, R75) -/

/-- An array freezes (R41, R48, R51, R80): each freeze counts once. -/
def State.freeze (s : State) (c : Nat) (b : Bool) : State :=
  if ((s.core c).arr b).frozen then s
  else (s.modArr c b fun a => { a with frozen := true }).fadd (.arrStat c (b2n b)) ARR_STAT_FREEZES 1

/-- A pass that takes the pending tile finds it still loading (R41). -/
def State.tileLate (s : State) (c : Nat) (b : Bool) (t : StepRec) : Bool :=
  let a := (s.core c).arr b
  t.wSlate && !t.reuse && !t.empty && decide (t.k ≠ 0) && a.pendingTile.isNone && a.loading.isSome

/-- A row of an array waits for its data, or a column for its destination (R50, R51). -/
def ArrayState.stalled (a : ArrayState) : Bool := !a.lateRows.isEmpty || !a.heldCols.isEmpty || a.frozen

/-- A pail-list gather of an array has completed (R275). -/
def State.gatherEnds (s : State) (c : Nat) (b : Bool) : State := (List.range 4).foldl (fun s d => s.gatherDone d c b) s

/-- STREAM (R48, R59, R133): on an array the step freezes while its tile loads or where the feeder or a bank is not ready; on the skim
path it runs as R59 to R61 say. -/
def execStream (c : Nat) (e : Engine) (ready : Bool) (s : State) : Host.Outcome State Fault Refusal :=
  match s.toPerform c e 0x11 with
  | none => .next s
  | some t =>
    match e with
    | .skim => .next (s.performStep c .skim t (matrixStep c t none))
    | .arrayA =>
      if ((s.core c).arr false).stalled then .next s
      else if !ready ∨ s.tileLate c false t then .next (s.freeze c false)
      else .next (s.performStep c .arrayA t (matrixStep c t (some false)))
    | .arrayB =>
      if ((s.core c).arr true).stalled then .next s
      else if !ready ∨ s.tileLate c true t then .next (s.freeze c true)
      else .next (s.performStep c .arrayB t (matrixStep c t (some true)))
    | _ => .next s

/-- A row's data for a vector is late, and `n` partial sums wait at it so far (R50): of those that come, rows before it send four at most and
then hold; a buffer that fills is counted. -/
def State.rowLate (s : State) (c : Nat) (b : Bool) (t : StepRec) (x : Nat × Nat) : State :=
  let row := x.1 % 64
  let old := smGet 0 ((s.core c).arr b).lateRows row
  let n := max old (min x.2 (min 4 t.m))
  let u := s.modArr c b fun a => { a with lateRows := smPut a.lateRows row n }
  if old < 4 ∧ n = 4 then u.fadd (.arrStat c (b2n b)) ARR_STAT_SKID_FULLS 1 else u

/-- A column's destination refuses results, of which `n` wait so far (R51): when its buffer holds four the array freezes. -/
def State.colHeld (s : State) (c : Nat) (b : Bool) (t : StepRec) (x : Nat × Nat) : State :=
  let col := x.1 % 128
  let n := max (smGet 0 ((s.core c).arr b).heldCols col) (min x.2 (min 4 t.m))
  let u := s.modArr c b fun a => { a with heldCols := smPut a.heldCols col n }
  if n = 4 then u.freeze c b else u

/-- The pail list of a GATHER that is at work on an array is fetched at the step's start (R298); where an access of the fetch is held, or the
step will fail, nothing comes of it. -/
def State.startList (s : State) (c : Nat) (b : Bool) : State :=
  match s.toPerform c (arrEngine b) 0x12 with
  | some t =>
    if t.listMode = 2 ∧ !t.empty ∧ t.k ≠ 0 then
      match (pailList c b t true).run s with
      | (.ok _, u) => u
      | (.error _, _) => s
    else s
  | none => s

/-- STEP_START (R123, R298, R734). -/
def execStepStart (c : Nat) (e : Engine) (s : State) : Host.Outcome State Fault Refusal :=
  .next (match e with
    | .arrayA => (s.startStep c e).startList c false
    | .arrayB => (s.startStep c e).startList c true
    | _ => s.startStep c e)

/-- GATHER (R49 to R52, R140): rows whose data is late and columns that refuse results hold what R50 and R51 say, each by itself, and the
step is performed, with the same result, once none does. -/
def execGather (c : Nat) (arrayB ready : Bool) (late held : List (Nat × Nat)) (s : State) : Host.Outcome State Fault Refusal :=
  match s.toPerform c (arrEngine arrayB) 0x12 with
  | none => .next s
  | some t =>
    if ((s.core c).arr arrayB).frozen then .next s
    else if !ready ∨ s.tileLate c arrayB t then .next (s.freeze c arrayB)
    else
      let u := held.foldl (fun s x => s.colHeld c arrayB t x) (late.foldl (fun s x => s.rowLate c arrayB t x) s)
      if ((u.core c).arr arrayB).stalled then .next u
      else
        let u := (s.startList c arrayB).performStep c (arrEngine arrayB) t (matrixStep c t (some arrayB))
        .next (if (u.toPerform c (arrEngine arrayB) 0x12) = some t then u else u.gatherEnds c arrayB)

/-- FREEZE_RELEASE (R48, R51): the array's wait ends, unless its tile still loads; destinations take what columns hold. DESIGN CHOICE: they
take all of it at once, which changes no result (R52; log 68). -/
def execFreezeRelease (c : Nat) (arrayB : Bool) (s : State) : Host.Outcome State Fault Refusal :=
  let late := match ((s.core c).running.getD (arrEngine arrayB).idx []).find? fun r => !r.performed with
    | some r => r.step.isPass && s.tileLate c arrayB r.step
    | none => false
  .next (if late then s else s.modArr c arrayB fun a => { a with frozen := false, heldCols := [] })

/-- GATHER_ROW_DATA (R50): the late row fires, and its skid buffer drains. -/
def execGatherRowData (c : Nat) (arrayB : Bool) (row : Nat) (s : State) : Host.Outcome State Fault Refusal :=
  .next (s.modArr c arrayB fun a => { a with lateRows := smDel a.lateRows row })

/-- ARRAY_HUNG (R75): the lesson ends with ARRAY_HUNG; at three hangs the core is fenced with cause 0x05. A limit of 0 disables the
check. DESIGN CHOICE: HANGS still reads 3 after the core has recovered, and what a further hang does to the 2-bit field is not stated: it
stays 3, and the core is fenced again (log 69). -/
def execArrayHung (c : Nat) (arrayB : Bool) (s : State) : Host.Outcome State Fault Refusal :=
  if ((s.core c).arr arrayB).frozen && (s.core c).lesson.isSome && decide (s.fget (.arrCtl c (b2n arrayB)) ARR_CTL_WDOG_LIMIT ≠ 0) &&
      decide (s.coreState c = 0) then
    let u := (s.modArr c arrayB fun a => { a with frozen := false, heldCols := [], lateRows := [] }).fadd
      (.arrStat c (b2n arrayB)) ARR_STAT_HANGS 1
    let u := match ((u.core c).running.getD (arrEngine arrayB).idx []).find? fun r => !r.performed && r.step.isPass with
      | some r => u.stepDone c (arrEngine arrayB) r.step .arrayHung 0
      | none => u
    .next (if u.fget (.arrStat c (b2n arrayB)) ARR_STAT_HANGS = 3 then u.beginFence c 0x05 else u)
  else .next s

/-- SKIM (R56 to R58, R139). -/
def execSkim (c : Nat) (s : State) : Host.Outcome State Fault Refusal :=
  match s.toPerform c .skim 0x13 with
  | some t => .next (s.performStep c .skim t (matrixStep c t none))
  | none => .next s

/-! ### CONVERT (R109 to R111, R147, R148) -/

/-- The bits of element i of a line of values, converted to a plain format (R106, R107, R110). -/
def convertElem (f : Fmt) (r : Rnd) (sat : Bool) (acc : Nat) : Nat :=
  match f with
  | .int8 => convertInt8 r acc
  | .fp4 => convertFp4 r acc
  | _ => convertOut f r sat acc

/-- The 32 values of the MX block to which element e of line l belongs (R85, R148). -/
def blockValues (axis : Bool) (vals : Nat → Nat → Num) (l e : Nat) : List Num :=
  (List.range 32).map fun i => if axis then vals (l / 32 * 32 + i) e else vals l (e / 32 * 32 + i)

/-- CONVERT's work (R109 to R111, R115, R148). DESIGN CHOICE: elements are written line by line, also where BLOCK_AXIS is 1, and each takes
its draw in that order; R115 speaks of the order of writing, which the spec does not give for CONVERT (log 67). -/
def convertStep (c : Nat) (t : StepRec) : StepM Unit := do
  let lines := t.m
  let len := t.k
  if lines = 0 ∨ len = 0 then pure ()
  else
    let axis := t.noSide
    let src ← readRec c (bitsOf t.w2 0 18)
    let dst ← readRec c (bitsOf t.w2 18 18)
    stepNeed (decide (src.fmt ≠ .split) && isConvertOut dst.fmt) .badFormat
    stepNeed (!(isMx dst.fmt && decide ((if axis then lines else len) % 32 ≠ 0))) .badShape
    let s ← get
    stepNeed (src.ok s c .ownDesk lines len (isMx src.fmt) false && dst.ok s c .ownDesk lines len (isMx dst.fmt && !axis) false &&
      (!(isMx dst.fmt && axis) || (decide (dst.scaleBase % 32 = 0) &&
        (List.range (lines / 32)).all fun b => s.rangeOk c .ownDesk (dst.scaleBase + b * dst.scaleStride) len)) &&
      !(isMx dst.fmt && axis && decide (dst.scaleStride < len))) .badOperand
    let o ← readOperand c .ownDesk src len (src.addrs lines) (List.range lines)
    modify fun s => s.loadSeed c .skim
    let (seed, gens) := ((← get).core c).genSet none
    let acc := fun (l e : Nat) => rneFp32 (o.elem l e)
    let vals := fun (l e : Nat) => fp32Num (acc l e)
    let rnd := fun (l e : Nat) => rounding t.rnd seed gens ((l * len + e) % 256) ((l * len + e) / 256)
    (List.range lines).forM fun l =>
      stepWrite c .ownDesk (dst.base + l * dst.lineStride) (packElems dst.fmt ((List.range len).map fun e =>
        if isMx dst.fmt then
          let xs := blockValues axis vals l e
          mxElem dst.fmt (mxAllZero xs) (mxScale dst.fmt xs) (rnd l e) (vals l e)
        else convertElem dst.fmt (rnd l e) t.sat (acc l e)))
    if isMx dst.fmt then
      (List.range (if axis then lines / 32 else lines)).forM fun b =>
        stepWrite c .ownDesk (dst.scaleBase + b * dst.scaleStride) ((List.range (if axis then len else len / 32)).map fun i =>
          BitVec.ofNat 8 (mxScale dst.fmt (if axis then blockValues true vals (32 * b) i else blockValues false vals b (32 * i))))
    else pure ()
    if (decide (dst.fmt = .int8) || decide (dst.fmt = .fp4)) && (List.range lines).any fun l => (List.range len).any fun e =>
        decide (vals l e = .nan) then modify fun s => s.setNanCleared c
    else pure ()
    if t.rnd then
      modify fun s => s.modCore c fun x => x.setGens none (gensAfter seed gens 256 fun j => ((List.range (lines * len)).filter fun i => decide (i % 256 = j)).length)
    else pure ()

/-- CONVERT (R147). -/
def execConvert (c : Nat) (s : State) : Host.Outcome State Fault Refusal :=
  match s.toPerform c .skim 0x14 with
  | some t => .next (s.performStep c .skim t (convertStep c t))
  | none => .next s

end Sys2Proof.Machine
end

