-- ==== Sys2Proof/Machine/Movers.lean ====
section
/-! DEFINITION. The mover's steps (R149 to R151): LOAD, STORE, MOVE and REDUCE. -/

namespace Sys2Proof.Machine

/-- An address with an alias replaced by the full address (R129). -/
def fullAddr (c a : Nat) : Nat :=
  match spaceOf a with
  | .sliceAlias o => sliceBase + c * 0x20000000 + o
  | .deskAlias o => deskBase + c * 0x1000000 + o
  | _ => a

/-- Two byte ranges of a length overlap. -/
def rangesMeet (n a b : Nat) : Bool := decide (a < b + n) && decide (b < a + n)

/-- Bytes of a copy whose regions overlap (R150): each destination byte keeps its old value or takes the byte copied to it, as free
values say (log 5). -/
def mixBytes (pick old new : List Byte) : List Byte :=
  new.zipIdx.map fun e => if (pick.getD e.2 0#8).getLsbD 0 then e.1 else old.getD e.2 e.1

/-- Copy rows in increasing order (R149, R150). -/
def copyRows (c : Nat) (rs rd : Role) (n : Nat) (overlap : Bool) : List (Nat × Nat) → StepM Unit
  | [] => pure ()
  | r :: rest => do
    let bs ← stepRead c rs r.1 n
    if overlap then do
      let old ← stepRead c rd r.2 n
      let (pick, s) := (← get).drawBytes n
      set s
      stepWrite c rd r.2 (mixBytes pick old bs)
    else stepWrite c rd r.2 bs
    copyRows c rs rd n overlap rest

/-- Bytes of a row of a copy (R149). -/
def StepRec.rowBytes (t : StepRec) : Nat := bitsOf t.w0 32 32

/-- The rows of a copy, source and destination, in order (R149). -/
def StepRec.copyRows (t : StepRec) : List (Nat × Nat) :=
  (List.range (bitsOf t.w1 48 16)).map fun i => (bitsOf t.w1 0 48 + i * bitsOf t.w3 0 32, bitsOf t.w2 0 48 + i * bitsOf t.w3 32 32)

/-- The rows of a copy lie in the spaces of its roles (R130). -/
def State.copyOk (s : State) (c : Nat) (t : StepRec) (rs rd : Role) : Bool :=
  t.copyRows.all fun r => s.rangeOk c rs r.1 t.rowBytes && s.rangeOk c rd r.2 t.rowBytes

/-- A LOAD, STORE or MOVE (R130, R149, R150). -/
def copyStep (c : Nat) (t : StepRec) (rs rd : Role) : StepM Unit := do
  let n := t.rowBytes
  let rows := t.copyRows
  if n = 0 ∨ rows.isEmpty then pure ()
  else
    let s ← get
    stepNeed (s.copyOk c t rs rd) .badOperand
    let overlap := rows.any fun a => rows.any fun b => rangesMeet n (fullAddr c a.1) (fullAddr c b.2)
    copyRows c rs rd n overlap rows

/-- LOAD (R130, R149). -/
def execLoadStep (c : Nat) (s : State) : Host.Outcome State Fault Refusal :=
  match s.toPerform c .mover 0x20 with
  | some t => .next (s.performStep c .mover t (copyStep c t .loadSrc .ownDesk))
  | none => .next s

/-- STORE (R130, R149): its destinations are those that LOAD may read. -/
def execStoreStep (c : Nat) (s : State) : Host.Outcome State Fault Refusal :=
  match s.toPerform c .mover 0x21 with
  | some t => .next (s.performStep c .mover t (copyStep c t .ownDesk .loadSrc))
  | none => .next s

/-- MOVE (R130, R149). -/
def execMoveStep (c : Nat) (s : State) : Host.Outcome State Fault Refusal :=
  match s.toPerform c .mover 0x22 with
  | some t => .next (s.performStep c .mover t (copyStep c t .moveEnd .moveEnd))
  | none => .next s

/-- Operation and element bytes of a REDUCE's OP (R151); other values do not decode. -/
def reduceOp : Nat → AtomOp × Nat
  | 0 => (.fp32Add, 4) | 1 => (.bf16Add, 2) | 2 => (.add, 4) | 3 => (.add, 8) | 4 => (.smin, 4) | 5 => (.smax, 4)
  | 6 => (.and, 8) | 7 => (.or, 8) | _ => (.xor, 8)

/-- A REDUCE (R151, R220): the elements of each line in one operation through the shared cache. DESIGN CHOICE: a BYTES of 0 is a no-op
before DST is judged; R151 does not say which comes first (log 70). -/
def reduceStep (c : Nat) (t : StepRec) : StepM Unit := do
  let (op, w) := reduceOp (bitsOf t.w0 16 4)
  let src := bitsOf t.w1 0 48
  let dst := bitsOf t.w2 0 48
  let n := bitsOf t.w3 0 32
  if n = 0 then pure ()
  else
    let s ← get
    stepNeed (decide (dst % w = 0) && decide (n % w = 0) && s.rangeOk c .ownDesk src n && s.rangeOk c .farOnly dst n) .badOperand
    let bs ← stepRead c .ownDesk src n
    (pieces dst n).forM fun p => stepCombine c p.1 op w
      ((blocksOf w (p.2 / w) ((bs.drop (p.1 - dst)).take p.2)).zipIdx.map fun e => (p.1 % 256 + w * e.2, leNat e.1, 0))

/-- REDUCE (R151). -/
def execReduce (c : Nat) (s : State) : Host.Outcome State Fault Refusal :=
  match s.toPerform c .mover 0x23 with
  | some t => .next (s.performStep c .mover t (reduceStep c t))
  | none => .next s

end Sys2Proof.Machine
end

