-- ==== Sys2Proof/Machine/Cores.lean ====
section
/-! DEFINITION. Cores beside their lessons (R62 to R80, R113 to R118, R680): rate windows, fences and recovery, seeds, statistics. -/

namespace Sys2Proof.Machine

/-- RATE_WINDOW (R64, R78): the counts of the window that closes are shown, and a new window starts. -/
def execRateWindow (c : Nat) (s : State) : Host.Outcome State Fault Refusal :=
  let k := s.core c
  .next ((((s.fput (.coreRate c) CORE_RATE_STEPS_A k.arrA.steps).fput (.coreRate c) CORE_RATE_STEPS_B k.arrB.steps).modArr c false
    fun a => { a with steps := 0 }).modArr c true fun a => { a with steps := 0 })

/-- CORE_FENCE (R65, R66 step 1, R732): one of the causes of R65 arrives. -/
def execCoreFence (c cause : Nat) (s : State) : Host.Outcome State Fault Refusal :=
  .next (if 1 ≤ cause ∧ cause ≤ 9 then s.beginFence c cause else s)

/-- An unfence is honoured from a writer for a cause (R65). -/
def unfenceHonoured (m : Master) (cause : Nat) : Bool :=
  match m with
  | .vf _ => false
  | .office => decide (causeClass cause ≤ 2)
  | _ => decide (causeClass cause = 1)

/-- Warm recovery begins (R190, R368, R680): STATE reads recovering, the island of the slice's controller is reset, and the slice is
filled. -/
def State.beginRecovery (s : State) (c : Nat) : State :=
  ((s.fput (.coreStatus c) CORE_STATUS_STATE 3).fput (.nearStatus c) NEAR_STATUS_STATE 1).resetIslands (c / 64) (islandSel 3 (c % 64))

/-- A write of `CORE_FENCE_CTL` (R73, R77): FENCE alone where both bits are set; an unfence that its writer may not ask for is ignored;
one that arrives while the core is fencing is queued. -/
def State.fenceCtl (s : State) (c : Nat) (w : RegWrite) : State :=
  let x := s.written (.coreFenceCtl c) w
  if x.hit CORE_FENCE_CTL_FENCE then s.beginFence c (if w.master = .office then 0x04 else 0x03)
  else if x.hit CORE_FENCE_CTL_UNFENCE && unfenceHonoured w.master (s.fget (.coreStatus c) CORE_STATUS_CAUSE) then
    if s.coreState c = 2 then s.beginRecovery c
    else if s.coreState c = 1 then
      (s.fput (.coreStatus c) CORE_STATUS_ENABLE_PENDING 1).modCore c fun k =>
        { k with unfenceBy := if k.unfenceBy = some .office then k.unfenceBy else some w.master }
    else s
  else s

/-- CORE_FENCE_REQUEST (R74, R77). -/
def execCoreFenceRequest (c : Nat) (w : RegWrite) (s : State) : Host.Outcome State Fault Refusal :=
  .next (s.guarded w.master (.coreFenceCtl c) fun s => s.fenceCtl c w)

/-- UNFENCE (R73, R74, R77). -/
def execUnfence (c : Nat) (w : RegWrite) (s : State) : Host.Outcome State Fault Refusal :=
  .next (s.guarded w.master (.coreFenceCtl c) fun s => s.fenceCtl c w)

/-- Empty a core's desk and slice (R72): every byte reads zero, with valid check bits. -/
def State.emptyCore (s : State) (c : Nat) : State :=
  { s with slice := smClear s.slice (sliceKey c 0) (sliceKey (c + 1) 0),
           sliceChk := smClear s.sliceChk (sliceKey c 0 / 16) (sliceKey (c + 1) 0 / 16),
           desk := smClear s.desk (deskKey c 0) (deskKey (c + 1) 0),
           deskChk := smClear s.deskChk (deskKey c 0 / 16) (deskKey (c + 1) 0 / 16) }

/-- An array with nothing in its slate or banks and nothing stalled (R72); its generators and its open rate window stay. -/
def ArrayState.emptied (a : ArrayState) : ArrayState :=
  { ArrayState.init with seed := a.seed, gens := a.gens, reload := a.reload, steps := a.steps }

/-- Empty the slates and accumulator banks of a core (R72). -/
def State.emptyArrays (s : State) (c : Nat) : State := (s.modArr c false ArrayState.emptied).modArr c true ArrayState.emptied

/-- End what a core runs with a status (R66 step 4, R164): a lesson, or a launch that waits. -/
def State.cutLesson (s : State) (c : Nat) (e : LStatus) : State :=
  match (s.core c).lesson, (s.core c).waitingLaunch with
  | some l, _ => s.endLesson c l (some ⟨0, e, false, 0, 0⟩)
  | none, some l => (s.modCore c fun k => { k with waitingLaunch := none }).refuseLaunch c l e
  | none, none => s

/-- What the mover of a core that is fencing has read of a source (R70): its own memories are no longer backed for anyone else. -/
def State.cutRead (s : State) (c : Nat) (role : Role) (a n : Nat) : State × Res (List Byte) :=
  match coreSpace c a with
  | .desk d o => if d = c then s.nearRead (.core c) .desk c o n 0 else (s, .error .unbacked)
  | .slice d o => if d = c then s.nearRead (.core c) .slice c o n 0 else (s, .error .unbacked)
  | _ => s.readAt (.core c) (s.lessonHr c) (some c) (s.roleAllows c role) a n

/-- A grain of the destination of a copy that a fence cuts off (R70): as a free value says (log 5), it is written whole or not at all. -/
def State.cutGrain (s : State) (c src dst n : Nat) (rs rd : Role) : State :=
  let (pick, s) := s.draw 2
  if pick = 0 then s
  else match s.cutRead c rs src n with
    | (t, .ok bs) => (t.writeAt (.core c) (s.lessonHr c) (some c) (s.roleAllows c rd) dst bs).1
    | (t, .error _) => t

/-- A copy that a fence cuts off may have written any subset of its 256-byte destination grains (R70). DEDUCED: a MOVE, which stores as
well, as a STORE (log 71). -/
def State.cutCopy (s : State) (c : Nat) : State :=
  let cut := fun (t : StepRec) (rs rd : Role) =>
    if !s.copyOk c t rs rd then s
    else t.copyRows.foldl (fun s r => (pieces r.2 t.rowBytes).foldl (fun s p => s.cutGrain c (r.1 + (p.1 - r.2)) p.1 p.2 rs rd) s) s
  match ((s.core c).running.getD Engine.mover.idx []).find? fun r => !r.performed with
  | some r => match r.step.op with
    | 0x21 => cut r.step .ownDesk .loadSrc
    | 0x22 => cut r.step .moveEnd .moveEnd
    | _ => s
  | none => s

/-- Requests that units hold outstanding to a core's desk or slice complete (R66 step 3), and writes and updates of the core that no home
slice has accepted are not performed (R69). -/
def State.cutRequests (s : State) (c : Nat) (e : LStatus) : State :=
  let err := if e = .dieLost then AccErr.dieLost else .fenced
  let mine := fun (q : ScReq) => decide (q.rq = .core c) || decide (q.rq = .tutor c)
  let s := { s with heldAccess := s.heldAccess.filter fun q => q.kind.isRead || !mine q }
  let waiting := (s.near c).outstanding
  let s := waiting.foldl (fun s q => s.emit (.replyError (q.src.requester c) err)) (s.setNear c { s.near c with outstanding := [] })
  s.failWaits (fun w => decide (w = .near c)) e

/-- What a fence takes from a core (R66, R72, R190, R275): its lesson, its memories, its gathers; its slice stops. -/
def State.stopCore (s : State) (c : Nat) (e : LStatus) : State :=
  let t := ((((s.cutCopy c).cutLesson c e).cutRequests c e).emptyCore c).emptyArrays c
  let t := (t.gatherEnds c false).gatherEnds c true
  (t.fput (.nearStatus c) NEAR_STATUS_STATE 0).setNear c { t.near c with poweredDown := 2 ^ 16 - 1, owed := [], clearPending := false }

/-- A fence completes (R66 steps 2 to 5, R72, R73): commands on the core complete with a status, its contents are gone, the grade and
the event follow, STATE reads fenced, and a queued unfence is judged again. -/
def State.completeFence (s : State) (c : Nat) (e : LStatus) : State :=
  let t := ((s.stopCore c e).regrade).fenceEvent c
  let t := (t.fput (.coreStatus c) CORE_STATUS_STATE 2).fput (.coreStatus c) CORE_STATUS_ENABLE_PENDING 0
  match (s.core c).unfenceBy with
  | none => t
  | some m =>
    let u := t.modCore c fun k => { k with unfenceBy := none }
    if unfenceHonoured m (u.fget (.coreStatus c) CORE_STATUS_CAUSE) then u.beginRecovery c else u

/-- FENCE_COMPLETE (R66, R72, R73). -/
def execFenceComplete (c : Nat) (s : State) : Host.Outcome State Fault Refusal :=
  .next (if s.coreState c = 1 then s.completeFence c .fenced else s)

/-- LATE_REPLY (R68, R76). -/
def execLateReply (c : Nat) (s : State) : Host.Outcome State Fault Refusal :=
  .next (if s.coreState c = 0 then s else s.fadd (.coreStatus c) CORE_STATUS_LATE_DROPS 1)

/-- Seeds loaded at release or at the end of recovery (R116). -/
def State.loadSeeds (s : State) (c : Nat) : State :=
  let t := s.modCore c fun k =>
    { k with arrA := { k.arrA with reload := true }, arrB := { k.arrB with reload := true }, skimReload := true }
  ((t.loadSeed c .arrayA).loadSeed c .arrayB).loadSeed c .skim

/-- A core returns to service (R76, R116, R198, R635, R680): filled, seeded, its late drops cleared, the grade computed again. -/
def State.enterService (s : State) (c : Nat) : State :=
  let t := ((s.emptyCore c).emptyArrays c).loadSeeds c
  let t := ((t.fput (.nearErr c) NEAR_ERR_RETRIED 0).fput (.nearErr c) NEAR_ERR_FAILED 0).fput (.nearStatus c) NEAR_STATUS_STATE 2
  let t := (t.setNear c { t.near c with poweredDown := 0 }).modCore c fun k => { k with failCount := 0 }
  ((t.fput (.coreStatus c) CORE_STATUS_LATE_DROPS 0).fput (.coreStatus c) CORE_STATUS_STATE 0).regrade

/-- WARM_RECOVERY_COMPLETE (R680): a core that fails its roll call is entered in the defect list and fenced with cause 0x02; a checker that
fails its self-test is shown as well (R640, R646). -/
def execWarmRecoveryComplete (c : Nat) (found : RollResult) (s : State) : Host.Outcome State Fault Refusal :=
  if s.coreState c ≠ 3 then .next s
  else
    match found with
    | .pass => .next (s.enterService c)
    | .fail => .next ((s.addDefect ⟨1, c, 0, 2⟩).beginFence c 0x02)
    | .selfTest => .next ((s.addDefect ⟨1, c, 0, 2⟩).beginFence c 0x02).failSelfTest

/-- The seed register of a generator set (R117, R118). -/
def seedReg (c : Nat) : GenSet → Reg
  | .arrayA => .arrSrndSeed c 0 | .arrayB => .arrSrndSeed c 1 | .skim => .coreSkimSeed c

/-- A write of a seed register (R116): its set is reloaded between the conversions of two steps. -/
def State.seedWrite (s : State) (c : Nat) (gen : GenSet) (w : RegWrite) : State :=
  (s.put (seedReg c gen) (s.written (seedReg c gen) w).new).modCore c fun k =>
    match gen with
    | .arrayA => { k with arrA := { k.arrA with reload := true } }
    | .arrayB => { k with arrB := { k.arrB with reload := true } }
    | .skim => { k with skimReload := true }

/-- SEED_WRITE (R116 to R118). -/
def execSeedWrite (c : Nat) (gen : GenSet) (w : RegWrite) (s : State) : Host.Outcome State Fault Refusal :=
  .next (s.guarded w.master (seedReg c gen) fun s => s.seedWrite c gen w)

/-- SEED_LOAD (R116). -/
def execSeedLoad (c : Nat) (gen : GenSet) (s : State) : Host.Outcome State Fault Refusal := .next (s.loadSeed c gen)

/-- A write of `ARR_CTL` (R79): WDOG_LIMIT takes its value; CLEAR clears FREEZES and SKID_FULLS. -/
def State.arrCtlWrite (s : State) (c a : Nat) (w : RegWrite) : State :=
  (s.put (.arrCtl c a) (s.written (.arrCtl c a) w).new |> fun t =>
    if (s.written (.arrCtl c a) w).hit ARR_CTL_CLEAR then
      (t.fput (.arrStat c a) ARR_STAT_FREEZES 0).fput (.arrStat c a) ARR_STAT_SKID_FULLS 0
    else t)

/-- ARR_STAT_CLEAR (R79). -/
def execArrStatClear (c : Nat) (arrayB : Bool) (w : RegWrite) (s : State) : Host.Outcome State Fault Refusal :=
  .next (s.guarded w.master (.arrCtl c (b2n arrayB)) fun s => s.arrCtlWrite c (b2n arrayB) w)

end Sys2Proof.Machine
end

