-- ==== Sys2Proof/Machine/RingOps.lean ====
section
/-! DEFINITION. Rings and completions (R458 to R465, R481, R488 to R493), and what becomes of a fabric request (R428, R477, R305, R310). -/

namespace Sys2Proof.Machine

/-! ### Rings -/

/-- A ring beside its registers. -/
def State.sq (s : State) (n : Nat) : RingSt := smGet RingSt.init s.rings n
/-- Replace a ring. -/
def State.setSq (s : State) (n : Nat) (r : RingSt) : State := { s with rings := smPut s.rings n r }

/-- STATE of a ring (R509). -/
def State.ringState (s : State) (n : Nat) : Nat := s.fget (.ringStatus n) RING_STATUS_STATE
/-- Entries of a ring (R459). -/
def State.ringSize (s : State) (n : Nat) : Nat := 2 ^ s.fget (.ringCfg n) RING_CFG_LOG2SIZE
/-- The function that owns a ring (R458). -/
def State.ringFunc (s : State) (n : Nat) : Nat := s.fget (.ringCfg n) RING_CFG_FUNC
/-- The homeroom for which a ring's commands act (R453). -/
def State.ringHr (s : State) (n : Nat) : Nat := s.funcHr (s.ringFunc n)
/-- A ring is confidential (R493). -/
def State.ringConf (s : State) (n : Nat) : Bool := decide (s.fget (.ringCfg n) RING_CFG_CONF = 1)

/-- The registrar runs (R501, R503, R673). -/
def State.registrarUp (s : State) : Bool := s.hostLink && decide (s.fget .hostStatus HOST_STATUS_REG_STATE = 1)

/-- The error state of a ring and its cause (R509). -/
def State.ringError (s : State) (n cause : Nat) : State :=
  if s.ringState n = 1 then (s.fput (.ringStatus n) RING_STATUS_STATE 4).fput (.ringStatus n) RING_STATUS_CAUSE cause else s

/-- The command key of a ring's homeroom (R593). -/
def State.ringKey (s : State) (n : Nat) : List Byte := ((s.hr (s.ringHr n)).keys.command).getD (List.replicate 16 0#8)

/-- The nonce of a confidential ring (R595): 0x01 for a descriptor, 0x02 for a completion. -/
def ringNonce (n seq kind epoch : Nat) : List Byte := leBytes 4 seq ++ leBytes 1 n ++ leBytes 1 kind ++ leBytes 4 epoch ++ [0#8, 0#8]

/-- The 64 bytes of a completion entry (R488, R493, R595). -/
def State.entryBytes (s : State) (n : Nat) (e : CqEntry) : List Byte :=
  let q := s.sq n
  let w0 := leBytes 8 (e.seq % 2 ^ 32 + s.fget (.ringStatus n) RING_STATUS_SQ_HEAD * 2 ^ 32 + b2n q.phase * 2 ^ 48 + b2n e.clear * 2 ^ 49)
  let text := leBytes 8 e.w1 ++ leBytes 8 e.tag ++ leBytes 8 e.r0 ++ leBytes 8 e.r1 ++ leBytes 8 0
  if s.ringConf n && !e.clear then
    let nonce := ringNonce n e.seq 2 q.epoch
    let c := gcmCrypt (s.ringKey n) nonce text
    w0 ++ c ++ gcmTag (s.ringKey n) nonce w0 c
  else w0 ++ text ++ List.replicate 16 0#8

/-- Write the completions that are held, while a slot is free (R464, R488, R491, R492). -/
def State.drainCq : Nat → State → Nat → State
  | 0, s, _ => s
  | k + 1, s, n =>
    let q := s.sq n
    match q.held with
    | [] => s
    | e :: rest =>
      let size := s.ringSize n
      let tail := s.fget (.ringStatus n) RING_STATUS_CQ_TAIL
      if (tail + 1) % size = q.cqHead % size then s
      else
        let t := s.hostWrite (s.fget (.ringCqBase n) RING_SQ_BASE_BASE * 4096 + 64 * tail) (s.entryBytes n e)
        let next := (tail + 1) % size
        let t := t.setSq n { q with held := rest, phase := if next = 0 then !q.phase else q.phase }
        let t := (t.fput (.ringStatus n) RING_STATUS_CQ_TAIL next).fput (.ringStatus n) RING_STATUS_HELD (min 31 rest.length)
        (if e.irq then t.msix (s.ringFunc n) (s.fget (.ringCfg n) RING_CFG_VECTOR) else t).drainCq k n

/-- Add a completion to those held, and write what can be written. -/
def State.pushCq (s : State) (n : Nat) (e : CqEntry) : State :=
  let q := s.sq n
  let t := (s.setSq n { q with held := q.held ++ [e] }).fput (.ringStatus n) RING_STATUS_HELD (min 31 (q.held.length + 1))
  t.drainCq (q.held.length + 1) n

/-- `DONE_BELOW` (R510): the lowest sequence number not yet completed. -/
def State.updateDone (s : State) (n : Nat) : State :=
  s.fput (.ringSeq n) RING_SEQ_DONE_BELOW (((s.sq n).descs.head?.map Desc.seq).getD (s.fget (.ringSeq n) RING_SEQ_NEXT))

/-- A descriptor of a ring by its sequence number. -/
def State.desc (s : State) (n seq : Nat) : Option Desc := (s.sq n).descs.find? fun d => decide (d.seq = seq)

/-- Replace a descriptor. -/
def State.setDesc (s : State) (n : Nat) (d : Desc) : State :=
  s.setSq n { s.sq n with descs := (s.sq n).descs.map fun x => if x.seq = d.seq then d else x }

/-- Word `i` of a descriptor. -/
def Desc.w (d : Desc) (i : Nat) : Nat := wordAt d.words i
/-- TYPE (R466). -/
def Desc.type (d : Desc) : Nat := bitsOf (d.w 0) 0 8
/-- BARRIER. -/
def Desc.barrier (d : Desc) : Bool := bitAt (d.w 0) 8

/-- Release a descriptor's reservation (R484). -/
def State.release (s : State) (d : Desc) : State :=
  let r := s.registrar
  let perStack := match d.core with
    | some c => r.resStack.modify (c / 64) (· - d.power)
    | none => r.resStack
  { s with registrar := { r with resPkg := r.resPkg - d.power, resStack := perStack } }

/-- A descriptor completes (R481, R488, R491): its reservation is released and its entry is written, unless it is discarded (R500). -/
def State.finish (s : State) (n : Nat) (d : Desc) (status unit flags r0 r1 : Nat) : State :=
  let q := s.sq n
  let t := ((s.release d).setSq n { q with descs := q.descs.filter fun x => decide (x.seq ≠ d.seq) }).updateDone n
  if d.discard then t
  else t.pushCq n ⟨d.seq, status + d.type * 2 ^ 8 + (d.core.getD 0) * 2 ^ 16 + flags * 2 ^ 24 + unit * 2 ^ 32, d.w 1, r0 % 2 ^ 64, r1 % 2 ^ 64,
    false, bitAt (d.w 0) 9 || decide (status ≠ 0)⟩

/-- STATUS for a unit's status (R489), given the unit's codes for FENCED and DIE_LOST. -/
def statusOf (fenced : Nat) (lost : List Nat) (u : Nat) : Nat := if u = 0 then 0 else if u = fenced then 6 else if lost.contains u then 7 else 5

/-! ### Accesses of the registrar itself -/

/-- STATUS for the failure of an access that the registrar makes (R489). -/
def accessCode : AccErr → Nat
  | .fenced => 6
  | .dieLost => 7
  | _ => 4

/-- The memory that an access of the registrar waits for has gone (R33, R66, R397): STATUS for it. -/
def State.goneStatus (s : State) : WaitsOn → Option Nat
  | .near c => if s.coreUsable c then none else some (if s.dieUp (c / 64) || s.goodbyed (c / 64) then 6 else 7)
  | .far g => if s.farLost (g * 256) then some (if s.goodbyed ((s.lineAt (g * 256)).loc.site / 3) then 6 else 7) else none
  | .pail _ => none

/-- An attempt `u` at an access for a descriptor is held: it is made again (R210, R254, R255). -/
def State.descWaits (s u : State) (n : Nat) (d : Desc) (on : WaitsOn) : State := (s.keepHeld u).setDesc n { d with stuck := some on }

/-- The registrar keeps no grant or turn once none of its own work waits. -/
def State.registrarDone (s : State) : State :=
  if s.rings.any fun e => e.2.descs.any fun d => d.stuck.isSome then s else (s.settle .registrar).settle .scrub

/-! ### FABRIC descriptors (R476, R477) -/

/-- KIND of a FABRIC descriptor. -/
def Desc.fabKind (d : Desc) : Nat := bitsOf (d.w 2) 28 4

/-- The requests of a FABRIC descriptor: REMOTE address and length of each. -/
def Desc.fabParts (d : Desc) : List (Nat × Nat) :=
  if d.fabKind = 3 then [(bitsOf (d.w 4) 0 48, 8)] else pieces (bitsOf (d.w 4) 0 48) (bitsOf (d.w 5) 0 32)

/-- A FABRIC descriptor ends (R477, R489, R490). -/
def State.fabFinish (s : State) (n : Nat) (d : Desc) : State :=
  match d.failed with
  | some (status, u) => (s.finish n d status u 0 (if d.fabKind = 3 then 0 else d.good) 0).registrarDone
  | none => (s.finish n d 0 0 0 d.good 0).registrarDone

/-- A request of a FABRIC descriptor has failed: the first failure says how it completes. -/
def Desc.fail (d : Desc) (status unit : Nat) : Desc := { d with failed := d.failed <|> some (status, unit) }

/-- Go on with a FABRIC descriptor (R477, R603): it ends once every request that it issued is answered, where a request has failed or none
is left to issue; else requests go out in address order, at least one of them outstanding; how many more is a free value (log 79). -/
def State.fabNext (n : Nat) : Nat → State → Desc → State
  | 0, s, _ => s
  | k + 1, s, d =>
  let hr := s.ringHr n
  match if d.failed.isSome then none else d.fabParts[d.next]? with
  | none => if d.waiting = 0 then s.fabFinish n d else s.setDesc n d
  | some (a, len) =>
    let (more, s) := if d.waiting = 0 then (1, s) else s.draw 2
    if more = 0 then s.setDesc n d
    else
    let src := bitsOf (d.w 3) 0 48 + (a - bitsOf (d.w 4) 0 48)
    let pkt := fun (data : List Byte) => mkPacket d.fabKind (bitsOf (d.w 2) 25 2) (bitAt (d.w 2) 12) (bitsOf (d.w 2) 0 12) s.deviceId
      (bitsOf (d.w 2) 17 8) (bitsOf (d.w 2) 13 4) 0 a len 0 data
    let (t, r) := if d.fabKind = 1 then s.readAt .registrar hr none allowFar src len
      else (s, .ok (if d.fabKind = 3 then leBytes 8 (d.w 5) else []))
    match r with
    | .error (.held w) => s.descWaits t n d w
    | .error e => State.fabNext n k t (d.fail (accessCode e) 0)
    | .ok data =>
      let data := if d.fabKind = 1 then t.fabCrypt true hr (pkt data) false 0 a data else data
      match t.fabIssue (pkt data) (2 ^ 24 - 1) (.descriptor n d.seq) d.next with
      | (u, .none st) => State.fabNext n k u (d.fail (statusOf 1 [2, 3, 5] st) st)
      | (u, _) => State.fabNext n k u { d with waiting := d.waiting + 1, next := d.next + 1, stuck := none }

/-- Go on with a FABRIC descriptor as far as it goes. -/
def State.fabMore (s : State) (n : Nat) (d : Desc) : State := State.fabNext n (d.fabParts.length + 2) s d

/-- A reply reaches a FABRIC descriptor (R477): GET data and ADD64's old value go to LOCAL; where that write is held, the reply is kept. -/
def State.fabAnswer (s : State) (n seq : Nat) (req : FabReq) (status : Nat) (data : List Byte) : State :=
  match s.desc n seq with
  | none => s
  | some d0 =>
    let d := { d0 with waiting := d0.waiting - 1, stuck := none }
    if status ≠ 0 then s.fabMore n (d.fail (statusOf 1 [2, 3, 5] status) status)
    else
      let hr := s.ringHr n
      let off := req.pkt.addr - bitsOf (d.w 4) 0 48
      let plain := if d.fabKind = 2 then s.fabCrypt false hr req.pkt true 0 req.pkt.addr data else data
      let (t, r) := if d.fabKind = 1 then (s, .ok ())
        else s.writeAt .registrar hr none allowFar (bitsOf (d.w 3) 0 48 + off) plain
      match r with
      | .error (.held w) =>
        let u := s.descWaits t n d0 w
        { u with fabReqs := u.fabReqs ++ [{ req with answer := some (status, data) }] }
      | .error e => t.fabMore n (d.fail (accessCode e) 0)
      | .ok _ => t.fabMore n { d with good := if d.fabKind = 3 then leNat (data.take 8) else d.good + req.pkt.len }

/-- A message of a pail manager has been answered (R305, R310, R417): a refused HELLO is remembered; a neighbour or twin that does not
answer, or a shadow transfer that is refused, ends the run or the sync with PEER_LOST. -/
def State.pailAnswer (s : State) (d msg key : Nat) (req : FabReq) (status : Nat) : State :=
  if status = 0 then s
  else
    let m := s.pail d
    if msg ≤ 6 then
      match smFind m.rings key with
      | none => s
      | some r =>
        if status = 4 then
          if msg = 1 then
            let r := { r with refusedNext := r.refusedNext || decide (req.pkt.dst = r.nextDev),
                              refusedPrev := r.refusedPrev || decide (req.pkt.dst = r.prevDev) }
            s.setPail d { m with rings := smPut m.rings key r }
          else s
        else (s.ringLost d key).pailRetry d
    else
      match m.syncs.find? fun y => decide (y.seq = key) && decide (msg = 8) with
      | none => s
      | some y => ((s.setPail d { m with syncs := m.syncs.erase y }).pailEnd d y.tag 0x0A 0).pailRetry d

/-- A fabric request is answered (R415, R428): it is no longer outstanding. -/
def State.fabDone (s : State) (req : FabReq) (status : Nat) (data : List Byte) : State :=
  let t := { s with fabReqs := s.fabReqs.erase req }
  match req.issuer with
  | .descriptor n seq => if t.registrarUp then t.fabAnswer n seq req status data else t
  | .pail d msg key => t.pailAnswer d msg key req status

/-- The outstanding request of a tag. -/
def State.fabReq (s : State) (tag : Nat) : Option FabReq := s.fabReqs.find? fun r => decide (r.tag = tag) && r.answer.isNone

/-- Go on with a FABRIC descriptor: with the write of a reply that was held, or further requests. -/
def State.fabGoOn (s : State) (n : Nat) (d : Desc) : State :=
  match s.fabReqs.find? fun r => decide (r.issuer = .descriptor n d.seq) && r.answer.isSome with
  | some r => match r.answer with
    | some (st, data) => s.fabDone r st data
    | none => s
  | none => s.fabMore n d

/-- The local memory of a FABRIC descriptor has gone: replies whose writes were held are dropped, and no further request is issued. -/
def State.fabGone (s : State) (n : Nat) (d : Desc) (status : Nat) : State :=
  let kept := fun (r : FabReq) => decide (r.issuer = .descriptor n d.seq) && r.answer.isSome
  { s with fabReqs := s.fabReqs.filter fun r => !kept r }.fabMore n
    ({ d with waiting := d.waiting - (s.fabReqs.filter kept).length, stuck := none }.fail status 0)

end Sys2Proof.Machine
end

