-- ==== Sys2Proof/Machine/Fabric.lean ====
section
/-! DEFINITION. The Nirsavor fabric (R407 to R450): serving requests, replies, arrivals, flits, ports and training. -/

namespace Sys2Proof.Machine

/-! ### Replies (R414, R422, R428) -/

/-- A reply reaches this part (R393, R428): one that matches no outstanding request is dropped and counted, and one that no path leads on to
its issuer is lost. -/
def State.replyArrives (s : State) (d : Nat) (k : Packet) : State :=
  match s.fabReq k.tag with
  | some r => if s.diesLinked r.issuer.die (4 + d) then s.fabDone r (bitsOf k.w1 0 8) k.data else s.fabDone r 2 []
  | none => s.fadd (.linkStat d) LINK_STAT_LATE_DROPS 1

/-- The reply to a request (R414, R422): routed back to its source; one that cannot be routed is dropped and counted, and none is sent
for a reply. -/
def State.fabReply (s : State) (d : Nat) (req : Packet) (kind status : Nat) (data : List Byte) (cameX : Bool) : State :=
  if req.isReply then s
  else
    let k := mkPacket kind req.vc cameX req.src s.deviceId req.flow 0 req.tag status data.length (s.fget (.linkCtl 0) LINK_CTL_MAX_HOPS) data
    match s.routeOut k (2 ^ 24 - 1) with
    | .port e p up => s.enqueue e p k up
    | .deliver => s.replyArrives d k
    | .none _ => s.fadd (.linkStat d) LINK_STAT_LATE_DROPS 1

/-- Answer a packet with UNREACH (R415); a reply that cannot be routed is dropped and counted (R422). -/
def State.unreachable (s : State) (d : Nat) (k : Packet) (status : Nat) : State :=
  if k.isReply then s.fadd (.linkStat d) LINK_STAT_LATE_DROPS 1 else s.fabReply d k 0x43 status [] k.x

/-! ### Serving a request (R414, R416, R417, R602, R603) -/

/-- A homeroom's fabric policy admits a request (R602). -/
def State.fabAdmits (s : State) (k : Packet) : Bool := decide (k.rhr = 0) || (s.hr k.rhr).fabricSet.contains (k.src, k.x)

/-- The homeroom of a request has PROTECT set (R603). -/
def State.fabProtected (s : State) (k : Packet) : Bool := decide (k.rhr ≠ 0) && (s.hr k.rhr).protect

/-- The status of a failed access of a request (R416, R634): an address outside the homeroom's regions is refused. -/
def fabStatus : AccErr → Nat
  | .outside => 4 | .translation => 4 | .misaligned => 4 | .window => 4
  | _ => 6

/-- What a request is answered with: KIND, STATUS and data; none where its access is held, which leaves it undone. -/
abbrev FabAnswer := Option (Nat × Nat × List Byte)

/-- The answer to an access. -/
def fabResult {α : Type} (kind : Nat) (data : α → List Byte) : Res α → FabAnswer
  | .ok a => some (kind, 0, data a)
  | .error (.held _) => none
  | .error e => some (0x43, fabStatus e, [])

/-- A length that R414 allows for PUT and GET: 1 to 256, within one grain. -/
def fabLenOk (k : Packet) : Bool := decide (1 ≤ k.len) && decide (k.addr % 256 + k.len ≤ 256)

/-- The refusal of a request (R416). -/
def fabRefuse : FabAnswer := some (0x43, 4, [])

/-- Perform a PUT (R414, R603). -/
def State.servePut (s : State) (d : Nat) (k : Packet) : State × FabAnswer :=
  if !s.fabAdmits k || !fabLenOk k || decide (k.data.length ≠ k.len) || (s.fabProtected k && decide (k.len < 16)) then (s, fabRefuse)
  else
    let data := if s.fabProtected k then s.fabCrypt false k.rhr k false 0 k.addr k.data else k.data
    let (t, r) := s.writeAt (.fabric d) k.rhr none allowFar k.addr data
    (t, fabResult 0x41 (fun _ => []) r)

/-- Perform a GET (R414, R603). -/
def State.serveGet (s : State) (d : Nat) (k : Packet) : State × FabAnswer :=
  if !s.fabAdmits k || !fabLenOk k || !k.data.isEmpty || (s.fabProtected k && decide (k.len < 16)) then (s, fabRefuse)
  else
    let (t, r) := s.readAt (.fabric d) k.rhr none allowFar k.addr k.len
    (t, fabResult 0x42 (fun bs => if s.fabProtected k then s.fabCrypt true k.rhr k true 0 k.addr bs else bs) r)

/-- Perform an ADD64 (R414, R603). -/
def State.serveAdd64 (s : State) (d : Nat) (k : Packet) : State × FabAnswer :=
  if !s.fabAdmits k || s.fabProtected k || decide (k.len ≠ 8) || decide (k.data.length ≠ 8) || decide (k.addr % 8 ≠ 0) then (s, fabRefuse)
  else
    let (t, r) := s.farAtomic (.fabric d) k.rhr k.addr .add 8 (leNat k.data) 0
    (t, fabResult 0x42 (leBytes 8) r)

/-- The pail manager that takes a message from an I/O die (R417), and the tree that it concerns. -/
def State.pailTaker (s : State) (io : Nat) (k : Packet) : Option (Nat × Tree) :=
  let msg := bitsOf k.addr 0 4
  let id := bitsOf k.addr 6 16
  if 1 ≤ msg ∧ msg ≤ 6 then
    (List.range 4).findSome? fun d =>
      if s.dieUp d && s.diesLinked io d then
        ((s.pail d).ringOf id).bind fun e => (smFind (s.pail d).trees e.2.tree).map fun t => (d, t)
      else none
  else if 8 ≤ msg ∧ msg ≤ 10 then
    let d := bitsOf k.addr 4 2
    if s.dieUp d && s.diesLinked io d then (smFind (s.pail d).trees (id % 16)).map fun t => (d, t) else none
  else none

/-- The bytes of a whole message, as far as those that have arrived tell (R302, R310, R417; log 23). -/
def State.msgBytes (s : State) (d : Nat) (t : Tree) (k : Packet) (sofar : List Byte) : Nat :=
  match bitsOf k.addr 0 4 with
  | 3 => (((s.pail d).ringOf (bitsOf k.addr 6 16)).map fun e => 256 * (churnPlaces t 0 e.2.c).length).getD 0
  | 4 => (((s.pail d).ringOf (bitsOf k.addr 6 16)).map fun e => e.2.riderBytes).getD 0
  | 8 =>
    if sofar.length < 56 then 56
    else
      let w := wordAt (leWords 7 sofar)
      let a := 56 + 16 * w 5
      if sofar.length < a + 8 then a + 8
      else a + 8 + 8 * leNat ((sofar.drop a).take 8) + 256 * (shadowPlaces t (min (w 4) (w 3)) (w 3)).length
  | _ => 0

/-- Deliver a PAIL packet (R417, R603): the grains of a message gather until it is whole. -/
def State.servePail (s : State) (io : Nat) (k : Packet) : State × FabAnswer :=
  if !s.fabAdmits k || decide (k.data.length ≠ k.len) then (s, fabRefuse)
  else match s.pailTaker (4 + io) k with
    | none => (s, fabRefuse)
    | some (d, t) =>
      if t.hr ≠ k.rhr then (s, fabRefuse)
      else
        let m := s.pail d
        let msg := bitsOf k.addr 0 4
        let old := ((m.parts.find? fun p => decide (p.dev = k.src) && decide (p.addr = k.addr)).map PailPart.data).getD []
        let plain := if s.fabProtected k && (decide (msg = 3) || decide (msg = 4) || decide (msg = 8)) then
            s.fabCrypt false k.rhr k false (old.length / 256) k.addr k.data
          else k.data
        let now := old ++ plain
        let rest := m.parts.filter fun p => !(decide (p.dev = k.src) && decide (p.addr = k.addr))
        if now.length < s.msgBytes d t k now then (s.setPail d { m with parts := rest ++ [⟨k.src, k.addr, now⟩] }, some (0x41, 0, []))
        else
          let id := bitsOf k.addr 6 16
          ((s.setPail d { m with parts := rest }).pailDeliver d msg
            ⟨k.src, k.x, id, bitsOf k.addr 22 6, bitsOf k.addr 28 7, bitsOf k.addr 35 8, id % 16, leNat (now.take 8), leNat ((now.drop 8).take 8), now⟩,
           some (0x41, 0, []))

/-- Serve a request by its KIND (R414). -/
def State.fabServe (s : State) (d : Nat) (k : Packet) : State × FabAnswer :=
  match k.kind with
  | 0x01 => s.servePut d k
  | 0x02 => s.serveGet d k
  | 0x03 => s.serveAdd64 d k
  | _ => s.servePail d k

/-- Return the credits of a packet that leaves a port's buffer (R414, R418). -/
def State.returnCredits (s : State) (d p : Nat) (k : Packet) : State :=
  s.sendControl d p ([if k.isReply then 0xF3#8 else 0xF2#8, 0#8] ++
    ((List.range 4).flatMap fun v => leBytes 2 (if v = k.vc then k.credits else 0)) ++ List.replicate 6 0#8)

/-- A packet leaves the buffer of the port that it came by, if any (R418). -/
def State.leavePort (s : State) (d : Nat) (port : Option Nat) (k : Packet) : State :=
  match port with
  | some p => s.returnCredits d p k
  | none => s

/-- Serve a request and answer it (R414): it waits behind one of its flow that waits, and where its access is held (R210, R254, R255). -/
def State.serveFab (s : State) (w : FabWait) : State :=
  if s.fabWaits.any fun x => decide (x.pkt.src = w.pkt.src) && decide (x.pkt.flow = w.pkt.flow) then { s with fabWaits := s.fabWaits ++ [w] }
  else match s.fabServe w.d w.pkt with
    | (u, none) =>
      let t := s.keepHeld u
      { t with fabWaits := t.fabWaits ++ [w] }
    | (u, some (kind, status, data)) =>
      let t := (u.fabReply w.d w.pkt kind status data w.pkt.x).leavePort w.d w.port w.pkt
      if t.fabWaits.any fun x => decide (x.d = w.d) then t else t.settle (.fabric w.d)

/-- Requests that wait are served again, in order. -/
def State.fabWork (s : State) : State := s.fabWaits.foldl State.serveFab { s with fabWaits := [] }

/-- A packet is delivered on this part (R414); `port` is the one that it came by. -/
def State.fabDeliver (s : State) (d : Nat) (port : Option Nat) (k : Packet) : State :=
  if k.isReply then (s.replyArrives d k).leavePort d port k else s.serveFab ⟨d, port, k⟩

/-- PUT (R414, R416). -/
def execPut (d : Nat) (pkt : Packet) (s : State) : Host.Outcome State Fault Refusal := .next (s.serveFab ⟨d, none, pkt⟩)
/-- GET (R414, R416). -/
def execGet (d : Nat) (pkt : Packet) (s : State) : Host.Outcome State Fault Refusal := .next (s.serveFab ⟨d, none, pkt⟩)
/-- ADD64 (R414, R416). -/
def execAdd64 (d : Nat) (pkt : Packet) (s : State) : Host.Outcome State Fault Refusal := .next (s.serveFab ⟨d, none, pkt⟩)
/-- PAIL (R414, R417). -/
def execFabricPail (d : Nat) (pkt : Packet) (s : State) : Host.Outcome State Fault Refusal := .next (s.serveFab ⟨d, none, pkt⟩)
/-- ACK (R414, R428). -/
def execFabricAck (d : Nat) (pkt : Packet) (s : State) : Host.Outcome State Fault Refusal := .next (s.replyArrives d pkt)
/-- DATA (R414, R428). -/
def execFabricData (d : Nat) (pkt : Packet) (s : State) : Host.Outcome State Fault Refusal := .next (s.replyArrives d pkt)
/-- UNREACH (R415, R428). -/
def execUnreach (d : Nat) (pkt : Packet) (s : State) : Host.Outcome State Fault Refusal := .next (s.replyArrives d pkt)

/-! ### Routing (R422) -/

/-- PACKET_ORIGINATE (R422): a packet made on this part leaves by a port, is delivered here, or is answered at its issuer. -/
def execPacketOriginate (d : Nat) (pkt : Packet) (s : State) : Host.Outcome State Fault Refusal :=
  .next (match s.routeOut pkt (2 ^ 24 - 1) with
    | .port e p up => s.enqueue e p pkt up
    | .deliver => s.fabDeliver d none pkt
    | .none st =>
      if pkt.isReply then s.fadd (.linkStat d) LINK_STAT_LATE_DROPS 1
      else match s.fabReq pkt.tag with
        | some r => s.fabDone r st []
        | none => s)

/-- A packet arrives at a port (R413, R422, R431). DEDUCED: one that is forwarded leaves the receiving port's buffer, and its credits return,
as it is queued at its outgoing port (R440, log 78). -/
def State.packetArrives (s : State) (d p : Nat) (k : Packet) : State :=
  if !(s.ioUp d && decide (p < 6)) then s
  else if s.portState d p = 7 ∨ s.portState d p = 8 then s.fadd (.linkStat d) LINK_STAT_LATE_DROPS 1
  else if s.portState d p ≠ 2 ∧ s.portState d p ≠ 9 then s
  else if k.malformed then (s.fadd (.linkStat d) LINK_STAT_MALFORMED 1).returnCredits d p k
  else
    if k.dst = s.deviceId && (!k.x || bitAt (s.twinPorts d) p) then s.fabDeliver d (some p) k
    else
      let t := if k.x && !bitAt (s.twinPorts d) p then s.unreachable d k 4
        else if k.hops = 0 then (s.fadd (.linkStat d) LINK_STAT_HOP_EXPIRED 1).unreachable d k 5
        else
          let j := { k with w0 := putBits k.w0 10 1 0 }
          let j := { j with w1 := putBits k.w1 57 6 (k.hops - 1) }
          let e := s.get (.linkRouteData d k.dst)
          let ports := fldGet e LINK_ROUTE_DATA_PORTS
          match pickPort 6 (ports &&& s.upPorts d) j with
          | some o => s.enqueue d o j (fldGet e LINK_ROUTE_DATA_VC_UP == 1)
          | none => s.unreachable d k (s.noRoute d ports)
      t.returnCredits d p k

/-- PACKET_ARRIVAL (R422). -/
def execPacketArrival (d p : Nat) (pkt : Packet) (s : State) : Host.Outcome State Fault Refusal := .next (s.packetArrives d p pkt)

/-! ### Ports -/

/-- The event of a port (R433, R438, R443, R496). -/
def State.portEvent (s : State) (d p : Nat) : State :=
  if s.fget (.linkCtl 0) LINK_CTL_INT_EN = 1 then s.raise .link (4 + d) (0x108 + 0x40 * p) (.linkPortStatus d p) else s

/-- Put STATE of a port. -/
def State.setPort (s : State) (d p v : Nat) : State := s.fput (.linkPortStatus d p) LINK_PORT_STATUS_STATE v

/-- A packet from the front of a stream of bytes (R411): none where the bytes do not hold it whole. -/
def packetOf (bs : List Byte) : Option (Packet × List Byte) :=
  if bs.length < 16 then none
  else
    let k : Packet := ⟨leNat (bs.take 8), leNat ((bs.drop 8).take 8), []⟩
    let n := if k.kind = 0x02 ∨ 0xF0 ≤ k.kind then 0 else k.len
    if bs.length < 16 + n then none else some ({ k with data := (bs.drop 16).take n }, bs.drop (16 + n))

/-- Answer what a port holds for a peer that is gone (R429, R430): requests with UNREACH; replies are dropped. -/
def State.answerHeld (s : State) (d : Nat) (ks : List Packet) (status : Nat) : State :=
  ks.foldl (fun s k =>
    if k.isReply then s
    else if k.src = s.deviceId then
      match s.fabReq k.tag with
      | some r => s.fabDone r status []
      | none => s
    else s.unreachable d k status) s

/-- No up twin port of a set of package ports is left (R312, R425). -/
def State.twinsGone (s : State) (ports : Nat) : Bool :=
  (List.range 4).all fun d => decide (s.upPorts d &&& s.twinPorts d &&& bitsOf ports (6 * d) 6 = 0)

/-- A twin may have been lost (R312): the transfers to it end with PEER_LOST, and the grains of one that was cut off are dropped and
counted. -/
def State.twinLoss (s : State) : State :=
  (List.range 4).foldl (fun s d =>
    let m := s.pail d
    let ends := m.syncs.filter fun y => match smFind m.trees y.tree with | some t => s.twinsGone t.twinPorts | none => false
    let cut := m.parts.filter fun p => decide (p.addr % 16 = 8) && s.twinsGone (2 ^ 24 - 1)
    if ends.isEmpty && cut.isEmpty then s
    else
      let s := s.setPail d { m with syncs := m.syncs.filter fun y => !ends.contains y, parts := m.parts.filter fun p => !cut.contains p }
      let s := cut.foldl (fun s _ => s.pailDrop d) s
      (ends.foldl (fun s y => s.pailEnd d y.tag 0x0A 0) s).pailRetry d) s

/-- A port goes down with a STATE (R312, R429, R430): what it holds is answered with a status, the replay buffer too where `replay` says so. -/
def State.portDown (s : State) (d p st status : Nat) (replay : Bool) : State :=
  let f := s.fab d p
  let sent := if replay then f.sent.map Prod.snd else []
  ((s.setPort d p st).setFab d p { FabPort.init with laneCounts := f.laneCounts, codewords := f.codewords, expected := f.expected, part := f.part }).answerHeld d (sent ++ f.queue) status |>.twinLoss

/-- A GOODBYE arrives (R429). -/
def State.portGoodbye (s : State) (d p : Nat) : State :=
  if s.ioUp d ∧ (s.portState d p = 2 ∨ s.portState d p = 9) then (s.portDown d p 8 1 false).portEvent d p else s

/-- LINK_GOODBYE (R429); every cause has the same effect at the receiver. -/
def execLinkGoodbye (d p _cause : Nat) (s : State) : Host.Outcome State Fault Refusal := .next (s.portGoodbye d p)

/-- PORT_WATCHDOG (R430). -/
def execPortWatchdog (d p : Nat) (s : State) : Host.Outcome State Fault Refusal :=
  .next (if s.ioUp d ∧ (s.portState d p = 2 ∨ s.portState d p = 9) then (s.portDown d p 7 2 true).portEvent d p else s)

/-- Resend from a flit of the replay buffer (R412). -/
def State.replayPort (s : State) (d p i : Nat) : State :=
  let f := s.fab d p
  if f.unacked.isEmpty ∨ s.portState d p ≠ 2 then s
  else (f.unacked.drop i).foldl (fun s u => s.sendFlit d p u.1 u.2) (s.fadd (.linkPortStat d p) LINK_PORT_STAT_REPLAYS 1)

/-- A NAK arrives (R412, R414): the sender resends from the named flit, which acknowledges those before it. -/
def State.portNak (s : State) (d p seq : Nat) : State :=
  let f := s.fab d p
  match f.unacked.findIdx? fun u => decide (u.1 = seq % 4096) with
  | some i => ((s.setFab d p (f.acked (f.unacked.drop i))).replayPort d p 0).pumpPort d p
  | none => s

/-- LINK_NAK (R412, R414). -/
def execLinkNak (d p seq : Nat) (s : State) : Host.Outcome State Fault Refusal := .next (s.portNak d p seq)

/-- LINK_REPLAY_TIMEOUT (R412). -/
def execLinkReplayTimeout (d p : Nat) (s : State) : Host.Outcome State Fault Refusal := .next (s.replayPort d p 0)

/-- Credits arrive (R414, R418): for request VCs, or for reply VCs from place 4. -/
def State.portCredits (s : State) (d p base : Nat) (cs : List Nat) : State :=
  let f := s.fab d p
  let credits := (List.range 8).map fun i =>
    if base ≤ i ∧ i < base + 4 then min 1024 (wordAt f.credits i + wordAt cs (i - base)) else wordAt f.credits i
  if s.portState d p = 2 then (s.setFab d p { f with credits := credits }).pumpPort d p else s.setFab d p { f with credits := credits }

/-- CREDIT (R414, R418). -/
def execLinkCredit (d p : Nat) (credits : List Nat) (s : State) : Host.Outcome State Fault Refusal := .next (s.portCredits d p 0 credits)

/-- CREDIT_R (R414, R418). -/
def execCreditR (d p : Nat) (credits : List Nat) (s : State) : Host.Outcome State Fault Refusal := .next (s.portCredits d p 4 credits)

/-- E2E_TIMEOUT (R428): the request completes with DIE_LOST, and its tag is kept from reuse. -/
def execE2eTimeout (_d tag : Nat) (s : State) : Host.Outcome State Fault Refusal :=
  match s.fabReq tag with
  | some r => .next ({ s with fabQuarantine := s.fabQuarantine ++ [tag] }.fabDone r 2 [])
  | none => .next s

/-! ### Flits (R409 to R412, R438) -/

/-- SEQ of a received flit. -/
def LinkFlit.seq (flit : LinkFlit) : Nat := bitsOf (leNat (flit.bytes.take 2)) 0 12

/-- A flit that the FEC could correct and whose CRC holds (R412). -/
def LinkFlit.whole (flit : LinkFlit) : Bool :=
  flit.correctable && decide (flit.bytes.length = 640) && decide (leNat (flit.bytes.drop 636) = crc32c (flit.bytes.take 636))

/-- A link control packet acts (R414). -/
def State.portControl (s : State) (d p : Nat) (bs : List Byte) : State :=
  let b := fun i => (bs.getD i 0#8).toNat
  let cs := (List.range 4).map fun v => b (2 + 2 * v) + 256 * b (3 + 2 * v)
  match b 0 with
  | 0xF1 => s.portNak d p (b 2 + 256 * (b 3 % 16))
  | 0xF2 => s.portCredits d p 0 cs
  | 0xF3 => s.portCredits d p 4 cs
  | 0xF4 => s.portGoodbye d p
  | _ => s

/-- Take the packets of a stream of bytes (R411): 0x00 at a boundary is padding; what is not whole is kept. Fuel is the bytes. -/
def State.takePackets (d p : Nat) : Nat → State → List Byte → State
  | 0, s, _ => s
  | _ + 1, s, [] => s
  | n + 1, s, b :: bs =>
    if b = 0#8 then s.takePackets d p n bs
    else match packetOf (b :: bs) with
      | none => s.setFab d p { s.fab d p with part := b :: bs }
      | some (k, rest) =>
        if 0xF0 ≤ k.kind then (s.portControl d p ((b :: bs).take 16)).takePackets d p n rest
        else (s.packetArrives d p k).takePackets d p n rest

/-- The whole packets of a stream of bytes, but for link control, and what is left of it (R411). Fuel is the bytes. -/
def streamPackets : Nat → List Byte → Nat × List Byte
  | 0, bs => (0, bs)
  | _ + 1, [] => (0, [])
  | n + 1, b :: bs =>
    if b = 0#8 then streamPackets n bs
    else match packetOf (b :: bs) with
      | none => (0, b :: bs)
      | some (k, rest) => ((if 0xF0 ≤ k.kind then 0 else 1) + (streamPackets n rest).1, (streamPackets n rest).2)

/-- The packets that arrive in a flit from a part whose port is lost are dropped and counted (R431). -/
def State.lateLinkFlit (s : State) (d p : Nat) (flit : LinkFlit) : State :=
  let f := s.fab d p
  if !(flit.whole && decide (flit.seq = f.expected)) then s
  else
    let stream := f.part ++ (flit.bytes.drop 4).take 632
    let r := streamPackets (stream.length + 1) stream
    (s.setFab d p { f with expected := (f.expected + 1) % 4096, part := r.2 }).fadd (.linkStat d) LINK_STAT_LATE_DROPS r.1

/-- The fault code of a physical lane (R448). -/
def State.laneFault (s : State) (d p i : Nat) : Nat := bitsOf (s.fget (.linkPortStatus d p) LINK_PORT_STATUS_LANE_FAULT) (3 * i) 3

/-- The physical lanes that carry the logical lanes, in their order (R436). -/
def State.portLanes (s : State) (d p : Nat) : List Nat :=
  let l := (List.range 8).filter fun i => decide (s.laneFault d p i = 0)
  if s.fget (.linkPortStatus d p) LINK_PORT_STATUS_REVERSED = 1 ∧ s.fget (.linkPortPeer d p) LINK_PORT_PEER_PEER_ID < s.deviceId then l.reverse else l

/-- Mark the lanes whose count has passed the limit as failed in the field (R438): the port retrains without them, or is held down. -/
def State.fieldLanes (s : State) (d p : Nat) : State :=
  let f := s.fab d p
  let lanes := s.portLanes d p
  let bad := (List.range lanes.length).filter fun l => decide (s.fget (.linkPortCtl d p) LINK_PORT_CTL_LANE_LIMIT < wordAt f.laneCounts l)
  if bad.isEmpty then s
  else
    let faults := bad.foldl (fun w l => putBits w (3 * lanes.getD l 0) 3 7) (s.fget (.linkPortStatus d p) LINK_PORT_STATUS_LANE_FAULT)
    let t := (s.fput (.linkPortStatus d p) LINK_PORT_STATUS_LANE_FAULT faults).setFab d p { f with laneCounts := List.replicate 8 0 }
    if lanes.length - bad.length < 2 then ((t.portDown d p 6 2 true).fput (.linkPortStatus d p) LINK_PORT_STATUS_WIDTH 0).portEvent d p
    else (t.setPort d p 9).portEvent d p

/-- LINK_FLIT_RECEIVE (R409 to R412, R431, R438). -/
def execLinkFlitReceive (d p : Nat) (flit : LinkFlit) (s : State) : Host.Outcome State Fault Refusal :=
  if !(s.ioUp d && decide (p < 6)) then .next s
  else if s.portState d p = 7 ∨ s.portState d p = 8 then .next (s.lateLinkFlit d p flit)
  else if s.portState d p ≠ 2 then .next s
  else
    let f := s.fab d p
    let n := flit.corrected.sum
    let counts := (List.range 8).map fun i => wordAt f.laneCounts i + wordAt flit.corrected i
    let s := if !flit.correctable then s.fadd (.linkPortStat d p) LINK_PORT_STAT_UNCORRECTED 1
      else if n = 0 then s else s.fadd (.linkPortStat d p) LINK_PORT_STAT_CORRECTED 1
    let f := if flit.correctable then { f with laneCounts := counts } else f
    if !flit.whole || decide (flit.seq ≠ f.expected) then
      let t := s.setFab d p { f with naking := true }
      .next ((if flit.whole && f.naking then t
        else t.sendControl d p ([0xF1#8, 0#8] ++ leBytes 2 f.expected ++ List.replicate 12 0#8)).fieldLanes d p)
    else
      let ack := bitsOf (leNat ((flit.bytes.drop 2).take 2)) 0 12
      let left := match f.unacked.findIdx? fun u => decide (u.1 = ack) with
        | some i => f.unacked.drop (i + 1)
        | none => f.unacked
      let t := s.setFab d p { f.acked left with expected := (f.expected + 1) % 4096, naking := false, part := [] }
      let stream := f.part ++ (flit.bytes.drop 4).take 632
      .next (((t.takePackets d p (stream.length + 1) stream).pumpPort d p).fieldLanes d p)

/-- FEC_ERROR_WINDOW (R438). -/
def execFecErrorWindow (d p : Nat) (s : State) : Host.Outcome State Fault Refusal :=
  .next (s.setFab d p { s.fab d p with laneCounts := List.replicate 8 0 })

/-! ### Port control and training (R432 to R437, R447) -/

/-- Begin to train a port (R432, R433): an empty replay buffer, SEQ at 0; packets that wait go on waiting. -/
def State.trainPort (s : State) (d p : Nat) : State :=
  let q := (s.fab d p).queue
  (((s.put (.linkPortStatus d p) 0#64).setPort d p 1).put (.linkPortPeer d p) 0#64).setFab d p { FabPort.init with queue := q }

/-- A write of `LINK_PORT_CTL` (R432, R433, R447): TWIN and LANE_OFF stay while ENABLE is 1; a LANE_LIMIT of 0 is taken as 1. A write of
ENABLE or RETRAIN trains a port that is lost; 0 in ENABLE sends GOODBYE and stops it. -/
def State.portCtlWrite (s : State) (d p : Nat) (w : RegWrite) : State :=
  if !(diePresent s.variant (4 + d) && decide (d < 4)) then s
  else
    let r := Reg.linkPortCtl d p
    let x := s.written r w
    let was := fldGet x.old LINK_PORT_CTL_ENABLE
    let v := if was = 1 then
        fldSet (fldSet x.new LINK_PORT_CTL_TWIN (fldGet x.old LINK_PORT_CTL_TWIN)) LINK_PORT_CTL_LANE_OFF (fldGet x.old LINK_PORT_CTL_LANE_OFF)
      else x.new
    let s := s.put r (fldSet v LINK_PORT_CTL_LANE_LIMIT (max 1 (fldGet v LINK_PORT_CTL_LANE_LIMIT)))
    let st := s.portState d p
    if fldGet v LINK_PORT_CTL_ENABLE = 1 then
      if was = 0 ∨ x.hit LINK_PORT_CTL_RETRAIN ∨ (x.hit LINK_PORT_CTL_ENABLE ∧ (st = 7 ∨ st = 8)) then s.trainPort d p else s
    else if was = 1 then
      let (c, t) := s.draw 3
      let t := if st = 2 then t.sendControl d p ([0xF4#8, 0#8, BitVec.ofNat 8 c] ++ List.replicate 13 0#8) else t
      ((t.portDown d p 0 1 false).fput (.linkPortStatus d p) LINK_PORT_STATUS_WIDTH 0).portEvent d p
    else s

/-- PORT_ENABLE (R433, R447). -/
def execPortEnable (d p : Nat) (w : RegWrite) (s : State) : Host.Outcome State Fault Refusal :=
  .next (s.guarded w.master (.linkPortCtl d p) fun s => s.portCtlWrite d p w)
/-- PORT_DISABLE (R447). -/
def execPortDisable (d p : Nat) (w : RegWrite) (s : State) : Host.Outcome State Fault Refusal :=
  .next (s.guarded w.master (.linkPortCtl d p) fun s => s.portCtlWrite d p w)
/-- RETRAIN (R432, R447). -/
def execRetrain (d p : Nat) (w : RegWrite) (s : State) : Host.Outcome State Fault Refusal :=
  .next (s.guarded w.master (.linkPortCtl d p) fun s => s.portCtlWrite d p w)

/-- Numbers that rise strictly. -/
def rising : List Nat → Bool
  | a :: b :: l => decide (a < b) && rising (b :: l)
  | _ => true

/-- The fault code of each lane after a training (R433, R434, R437, R448). -/
def laneCodes (off kept own port : Nat) (t : Training) : List Nat :=
  let f := fun i => t.lanes.getD i ⟨false, false, false, false, 0, false, 0, 0, 0, 0⟩
  let one := fun i =>
    let x := f i
    if bitAt off i then 5 else if bitAt kept i then 7 else if x.shorted then 2 else if !x.signal then 1
    else if x.driven || (x.locked && decide (x.dev = own) && decide (x.port = port)) then 4
    else if !x.locked then 3 else 0
  let codes := (List.range 8).map one
  let good := (List.range 8).filter fun i => decide (wordAt codes i = 0)
  (List.range 8).map fun i =>
    if wordAt codes i ≠ 0 then wordAt codes i
    else if good.any fun j => decide (j ≠ i) && decide ((f j).lane = (f i).lane) then 2
    else if !bitAt t.peerGood (f i).lane then 6 else 0

/-- Lane i of what a training finds. -/
def Training.lane (t : Training) (i : Nat) : LaneFinding := t.lanes.getD i ⟨false, false, false, false, 0, false, 0, 0, 0, 0⟩

/-- The lowest lane that has locked: its marker names the peer (R433). -/
def Training.peer (t : Training) : Option LaneFinding := ((List.range 8).find? fun i => (t.lane i).locked).map t.lane

/-- The peer is one that the port may link to (R424, R433): another device of the same domain, or across a TWIN port the other domain. -/
def State.peerMatches (s : State) (d p : Nat) (t : Training) : Bool :=
  let dom := s.fget (.linkId 0) LINK_ID_DOMAIN
  let twin := s.fget (.linkId 0) LINK_ID_TWIN_DOMAIN
  match t.peer with
  | none => true
  | some x =>
    !(decide (x.dev = s.deviceId) && decide (x.domain = dom)) &&
    (if s.fget (.linkPortCtl d p) LINK_PORT_CTL_TWIN = 1 then decide (x.domain = twin) && decide (x.twinDomain = dom) && decide (dom ≠ twin)
     else decide (x.domain = dom))

/-- The lane fault codes of a training of a port (R433, R437): a repair keeps the lanes it has dropped. -/
def State.trainingCodes (s : State) (d p : Nat) (t : Training) : List Nat :=
  let kept := if s.portState d p = 9 then maskOf ((List.range 8).filter fun i => decide (s.laneFault d p i = 7)) else 0
  laneCodes (s.fget (.linkPortCtl d p) LINK_PORT_CTL_LANE_OFF) kept s.deviceId (6 * d + p) t

/-- The markers of the lanes in use. -/
def trainingPeers (codes : List Nat) (t : Training) : List Nat :=
  ((List.range 8).filter fun i => decide (wordAt codes i = 0)).map fun i => (t.lane i).lane

/-- The STATE that a training ends in (R433 to R435, R437). -/
def State.trainingState (s : State) (d p : Nat) (t : Training) : Nat :=
  let codes := s.trainingCodes d p t
  let peers := trainingPeers codes t
  if codes.contains 4 then 3 else if !s.peerMatches d p t then 4 else if !(rising peers || rising peers.reverse) then 5
  else if peers.length < 2 then 6 else 2

/-- `LINK_PORT_STATUS` after a training (R433, R448). -/
def State.trainingStatus (s : State) (d p : Nat) (t : Training) : W64 :=
  let codes := s.trainingCodes d p t
  let peers := trainingPeers codes t
  let state := s.trainingState d p t
  fldSet (fldSet (fldSet (fldSet (fldSet 0#64 LINK_PORT_STATUS_STATE state)
    LINK_PORT_STATUS_WIDTH (if state = 2 then peers.length else 0)) LINK_PORT_STATUS_REVERSED (b2n (!rising peers && rising peers.reverse)))
    LINK_PORT_STATUS_POL_FIX
      (maskOf ((List.range 8).filter fun i => (t.lane i).locked && (t.lane i).inverted && (wordAt codes i == 0 || wordAt codes i == 6))))
    LINK_PORT_STATUS_LANE_FAULT ((List.range 8).foldl (fun a i => a + wordAt codes i * 8 ^ i) 0)

/-- The peer's identity as a training leaves it in `LINK_PORT_PEER` (R450). -/
def State.notePeer (s : State) (d p : Nat) (t : Training) : State :=
  match t.peer with
  | some x => s.put (.linkPortPeer d p) (fldSet (fldSet (fldSet 0#64 LINK_PORT_PEER_PEER_ID x.dev) LINK_PORT_PEER_PEER_PORT x.port)
      LINK_PORT_PEER_PEER_DOMAIN x.domain)
  | none => s

/-- What follows the training of a port: flits not acknowledged are sent again after a repair, and waiting packets go out (R433, R438). -/
def State.portTrained (s : State) (d p state : Nat) (again : Bool) : State :=
  if state = 2 then (if again then (s.fab d p).unacked.foldl (fun s u => s.sendFlit d p u.1 u.2) s else s).pumpPort d p
  else s.portDown d p state 2 again

/-- PORT_TRAINING_COMPLETE (R424, R433 to R438): the port comes up at its usable width, or is held down. -/
def execPortTrainingComplete (d p : Nat) (t : Training) (s : State) : Host.Outcome State Fault Refusal :=
  if !(s.ioUp d && decide (p < 6) && (decide (s.portState d p = 1) || decide (s.portState d p = 9))) then .next s
  else
    .next ((((s.put (.linkPortStatus d p) (s.trainingStatus d p t)).notePeer d p t).portTrained d p (s.trainingState d p t)
      (decide (s.portState d p = 9))).portEvent d p)

/-- A write of a package-wide register reaches every instance (R441). -/
def State.putAll (s : State) (r : Nat → Reg) (v : W64) : State :=
  (List.range 4).foldl (fun s d => if diePresent s.variant (4 + d) then s.put (r d) v else s) s

/-- A write of `LINK_CTL` (R443): the limits that are taken as others. -/
def State.linkCtlWrite (s : State) (d : Nat) (w : RegWrite) : State :=
  let v := (s.written (.linkCtl d) w).new
  let e := fldGet v LINK_CTL_E2E_LIMIT
  s.putAll .linkCtl (fldSet (fldSet v LINK_CTL_E2E_LIMIT (if e = 0 then 0x64 else e)) LINK_CTL_WDOG (max 0xA (fldGet v LINK_CTL_WDOG)))

/-- A write of `LINK_ID` (R442). -/
def State.linkIdWrite (s : State) (d : Nat) (w : RegWrite) : State := s.putAll .linkId (s.written (.linkId d) w).new

/-- A LINK block that the variant carries. -/
def State.linkPresent (s : State) (d : Nat) : Bool := decide (d < 4) && diePresent s.variant (4 + d)

/-- ROUTE_DATA_WRITE (R423, R445). -/
def execRouteDataWrite (d dst : Nat) (w : RegWrite) (s : State) : Host.Outcome State Fault Refusal :=
  .next (s.guarded w.master (.linkRouteData d dst) fun s =>
    if s.linkPresent d then s.put (.linkRouteData d dst) (s.written (.linkRouteData d dst) w).new else s)

/-- LINK_STAT_CLEAR (R446). -/
def execLinkStatClear (d : Nat) (w : RegWrite) (s : State) : Host.Outcome State Fault Refusal :=
  .next (s.guarded w.master (.linkStat d) fun s =>
    s.clearStat (.linkStat d) w LINK_STAT_CLEAR [LINK_STAT_LATE_DROPS, LINK_STAT_HOP_EXPIRED, LINK_STAT_MALFORMED])

/-- LINK_PORT_STAT_CLEAR (R449). -/
def execLinkPortStatClear (d p : Nat) (w : RegWrite) (s : State) : Host.Outcome State Fault Refusal :=
  .next (s.guarded w.master (.linkPortStat d p) fun s =>
    s.clearStat (.linkPortStat d p) w LINK_PORT_STAT_CLEAR [LINK_PORT_STAT_CORRECTED, LINK_PORT_STAT_UNCORRECTED, LINK_PORT_STAT_REPLAYS])

end Sys2Proof.Machine
end

