-- ==== Sys2Proof/Machine/Rings.lean ====
section
/-! DEFINITION. Descriptors, the registrar's admission, resets of rings and functions, doorbells and BAR4 (R451 to R513, R636 to R639). -/

namespace Sys2Proof.Machine

/-! ### Doorbells and fetches (R458 to R466) -/

/-- DOORBELL (R458, R460, R463, R464, R731): `off` is the offset in BAR2 of function f. -/
def execDoorbell (f off size value : Nat) (s : State) : Host.Outcome State Fault Refusal :=
  if !s.hostLink then .next s
  else if 0x40000 ≤ off then .next (s.emit (.unsupportedRequest f))
  else
    let n := off / 4096
    if size ≠ 8 ∨ off % 4096 ≠ 0 ∨ s.ringFunc n ≠ f then .next (s.fadd .hostErr HOST_ERR_DROPPED_DB 1)
    else
      let st := s.ringState n
      let m := s.ringSize n
      let head := s.fget (.ringStatus n) RING_STATUS_SQ_HEAD
      let s := if bitAt value 16 ∧ st = 1 then
          let new := bitsOf value 0 16 % m
          if (new + m - head % m) % m < ((s.sq n).tail + m - head % m) % m then s.ringError n 1
          else s.setSq n { s.sq n with tail := new }
        else s
      if bitAt value 48 ∧ st ≠ 0 then
        let q := s.sq n
        .next ((s.setSq n { q with cqHead := bitsOf value 32 16 % m }).drainCq (q.held.length + 1) n)
      else .next s

/-- The fields that a type uses are the only ones set (R466, R467, R468, R474 to R479). -/
def descOk (conf : Bool) (words : List Nat) : Bool :=
  let w := wordAt words
  let ty := bitsOf (w 0) 0 8
  let zero := fun i lo n => decide (bitsOf (w i) lo n = 0)
  let head := fun (launch pail : Bool) =>
    zero 0 11 1 && zero 0 18 14 && (launch || (zero 0 10 1 && zero 0 12 4 && zero 0 32 32)) && (pail || zero 0 16 2)
  let auth := conf || (decide (w 6 = 0) && decide (w 7 = 0))
  let none5 := decide (w 5 = 0)
  auth && (match ty with
    | 0x00 => head false false && decide (w 2 = 0) && decide (w 3 = 0) && decide (w 4 = 0) && none5
    | 0x01 => head true false && zero 2 48 16 && zero 3 58 6 && zero 4 12 52 &&
        (bitAt (w 0) 10 || (zero 4 8 4 && none5))
    | 0x02 => head false false && zero 2 48 16 && zero 3 48 16 && zero 4 32 32 && none5
    | 0x03 => head false false && zero 2 32 32 && decide (bitsOf (w 2) 0 4 ≠ 7)
    | 0x04 => head false true && zero 2 32 32
    | 0x05 => head false false && zero 2 27 1 && zero 2 32 32 && zero 3 48 16 && zero 4 48 16 &&
        decide (1 ≤ bitsOf (w 2) 28 4) && decide (bitsOf (w 2) 28 4 ≤ 3) && (decide (bitsOf (w 2) 28 4 = 3) || zero 5 32 32)
    | 0x06 => head false false && zero 2 48 16 && zero 3 48 16 && zero 4 48 16 && none5
    | 0x08 => head false false && decide (w 2 = 0) && decide (w 3 = 0) && decide (w 4 = 0) && none5
    | 0x09 => head false false && zero 2 6 58 && zero 3 32 32 && zero 4 32 32 && none5
    | _ => false)

/-- The clear bytes 0 to 47 of a confidential descriptor, where its tag holds (R493, R595). -/
def State.unseal (s : State) (n seq : Nat) (bs : List Byte) : Option (List Byte) :=
  let nonce := ringNonce n seq 1 (s.sq n).epoch
  let key := s.ringKey n
  let c := bs.take 48
  if gcmTag key nonce [] c = bs.drop 48 then some (gcmCrypt key nonce c) else none

/-- A descriptor whose tag fails (R493): its entry is in clear, TYPE and TAG being free, and its ring is in error. -/
def State.authFail (s : State) (n seq : Nat) : State :=
  let (ty, s) := s.draw (2 ^ 8)
  let (tag, s) := s.draw (2 ^ 64)
  let s := (s.updateDone n).pushCq n ⟨seq, 2 + ty * 2 ^ 8, tag, 0, 0, true, true⟩
  let s := s.ringError n 3
  s.raiseOffice (s.eventOf .ring 0 (0x100 * n + 0x20) (.ringStatus n))

/-- DESCRIPTOR_ARRIVAL (R465 to R467, R492, R493): the next slot's data arrives and takes a number; a fetch that fails puts the ring
into error; a descriptor that breaks the form completes with BAD_DESCRIPTOR. -/
def execDescriptorArrival (ring : Nat) (s : State) : Host.Outcome State Fault Refusal :=
  let n := ring
  let head := s.fget (.ringStatus n) RING_STATUS_SQ_HEAD
  if !(s.registrarUp && decide (n < 64) && decide (s.ringState n = 1) && decide (head ≠ (s.sq n).tail)) then .next s
  else match s.hostRead (s.fget (.ringSqBase n) RING_SQ_BASE_BASE * 4096 + 64 * head) 64 with
    | none => .next (s.ringError n 2)
    | some bs =>
      let seq := s.fget (.ringSeq n) RING_SEQ_NEXT
      let conf := s.ringConf n
      let clear := if conf then s.unseal n seq bs else some bs
      let s := (s.fput (.ringSeq n) RING_SEQ_NEXT ((seq + 1) % 2 ^ 32)).fput (.ringStatus n) RING_STATUS_SQ_HEAD ((head + 1) % s.ringSize n)
      match clear with
      | none => .next (s.authFail n seq)
      | some cs =>
        let d := Desc.init seq (leWords (if conf then 6 else 8) cs)
        let s := (s.setSq n { s.sq n with descs := (s.sq n).descs ++ [d] }).updateDone n
        .next (if descOk conf d.words then s else s.finish n d 1 0 0 0 0)

/-! ### Admission (R482 to R485) -/

/-- What admission says of a descriptor: it waits, completes at once with STATUS and UNIT_STATUS, or starts on a core with power. -/
inductive Verdict
  | defer
  | done (status unit : Nat)
  | go (core : Option Nat) (power : Nat)
  deriving DecidableEq, Repr

/-- fenced(c) of R484. -/
def State.coreFenced (s : State) (c : Nat) : Bool := decide (s.coreState c = 1) || decide (s.coreState c = 2)

/-- in_homeroom(c) of R484: a core on the move belongs to none (R587). -/
def State.coreIn (s : State) (hr c : Nat) : Bool := decide (s.coreHr c = hr) && (s.core c).movingTo.isNone

/-- A started descriptor holds a core. -/
def State.coreClaimed (s : State) (c : Nat) : Bool := s.rings.any fun e => e.2.descs.any fun d => d.started && decide (d.core = some c)

/-- idle(c) of R484. -/
def State.coreIdle (s : State) (c : Nat) : Bool :=
  (s.core c).lesson.isNone && (s.core c).waitingLaunch.isNone && !s.coreClaimed c && decide (s.fget (.nearStatus c) NEAR_STATUS_STATE ≠ 3)

/-- The forecast temperature of a core, in units of 0.5 °C (R558). -/
def State.coreFc (s : State) (c : Nat) : Int := (s.registrar.fc[c]?).getD 0

/-- The admission of R484; power in half watts. Without a fresh forecast both allowances are 0 (R486). -/
def State.admitOn (s : State) (hr core power : Nat) (rotate : Bool) (perStack positions preload : Nat) : Verdict :=
  let r := s.registrar
  if !s.coreIn hr core || (rotate && decide (preload = 0)) then .done 3 0
  else if !rotate && s.coreFenced core then .done 6 0x0B
  else
    let named := if rotate then (List.range 256).filter fun c => bitAt perStack (c / 64) && bitAt positions (c % 64) else [core]
    let live := named.filter fun c => s.coreIn hr c && !s.coreFenced c
    if live.isEmpty then .done 6 0x0B
    else
      let set := live.filter fun c => decide (s.coreState c = 0) && s.coreIdle c && !bitAt r.warm c
      match set with
      | [] => .defer
      | c0 :: rest =>
        let cool := rest.foldl (fun m c => min m (s.coreFc c)) (s.coreFc c0)
        let sticky : Int := 2 * s.fget .ringAdmit RING_ADMIT_STICKY
        let c := if set.contains core && decide (s.coreFc core ≤ cool + sticky) then core
          else (set.find? fun c => decide (s.coreFc c = cool)).getD c0
        let allow := if r.fresh then r.allowPkg else 0
        let allowS := if r.fresh then wordAt r.allowStack (c / 64) else 0
        if allow < r.resPkg + power ∨ allowS < wordAt r.resStack (c / 64) + power then .defer else .go (some c) power

/-- The core of a slice that an address names. -/
def sliceCore (a : Nat) : Option Nat := match spaceOf a with | .slice c _ => some c | _ => none

/-- What a MOVE's end names that its homeroom may not (R471): a core of another. -/
def State.endDenied (s : State) (hr a : Nat) : Bool :=
  match spaceOf a with
  | .slice c _ => !s.coreIn hr c
  | .desk c _ => !s.coreIn hr c
  | _ => false

/-- An end that a slice may pair with (R472). -/
def slicePartner (c a : Nat) : Bool :=
  match spaceOf a with
  | .far _ => true
  | .window _ => true
  | .desk d _ => decide (d = c)
  | _ => false

/-- Admission of a descriptor by its type (R469, R471, R472, R474, R479, R484). -/
def State.verdict (s : State) (n : Nat) (d : Desc) : Verdict :=
  let hr := s.ringHr n
  match d.type with
  | 0x01 =>
    s.admitOn hr (bitsOf (d.w 4) 0 8) (bitsOf (d.w 0) 12 4 + 1) (bitAt (d.w 0) 10) (bitsOf (d.w 4) 8 4) (d.w 5) (bitsOf (d.w 3) 41 17)
  | 0x02 =>
    let src := bitsOf (d.w 2) 0 48
    let dst := bitsOf (d.w 3) 0 48
    if bitsOf (d.w 4) 0 32 = 0 then .go none 0
    else if s.endDenied hr src || s.endDenied hr dst then .done 3 0
    else match sliceCore src, sliceCore dst with
      | some _, some _ => .done 3 0
      | some c, none => if slicePartner c dst then s.admitOn hr c 1 false 0 0 0 else .done 3 0
      | none, some c => if slicePartner c src then s.admitOn hr c 1 false 0 0 0 else .done 3 0
      | none, none => .go none 0
  | 0x03 => if bitsOf (d.w 2) 8 4 ≠ hr then .done 3 0 else .go none 0
  | 0x09 => if s.ringFunc (bitsOf (d.w 2) 0 6) ≠ s.ringFunc n then .done 3 0 else .go none 0
  | _ => .go none 0

/-- `RING_ADMIT.LOOKAHEAD` (R511). -/
def State.lookahead (s : State) : Nat :=
  let k := s.fget .ringAdmit RING_ADMIT_LOOKAHEAD
  if 1 ≤ k ∧ k ≤ 16 then k else 16

/-- The descriptors of a ring at which the registrar looks (R483). -/
def State.candidates (s : State) (n : Nat) : List Desc := ((s.sq n).descs.filter fun d => !d.started).take s.lookahead

/-- The order of a ring lets a descriptor start (R466, R479, R481, R483). -/
def State.orderOk (s : State) (n : Nat) (d : Desc) : Bool :=
  let earlier := (s.sq n).descs.takeWhile fun x => decide (x.seq ≠ d.seq)
  (earlier.all fun x => decide (x.type ≠ 0x08) && decide (x.type ≠ 0x09)) &&
  ((!d.barrier && decide (d.type ≠ 0x08)) || earlier.isEmpty)

/-- PRIO of a ring (R507). -/
def State.ringPrio (s : State) (n : Nat) : Nat := s.fget (.ringCfg n) RING_CFG_PRIO

/-- No LAUNCH held first keeps a descriptor from starting (R485); one that is itself held first may start. -/
def State.notHeld (s : State) (n : Nat) (d : Desc) : Bool :=
  d.first || !s.rings.any fun e => decide (s.ringPrio n ≤ s.ringPrio e.1) && e.2.descs.any fun x => x.first && !x.started

/-- The limits on started and held descriptors (R464, R482). -/
def State.slotFree (s : State) (n : Nat) : Bool :=
  let started := fun (q : RingSt) => (q.descs.filter Desc.started).length
  decide ((s.sq n).held.length < 16) && decide (started (s.sq n) < 16) && decide ((s.rings.map fun e => started e.2).sum < 1024)

/-- Count a start against the deferred LAUNCHes that it passes (R485): of lower or equal priority, and of its own ring those before it. -/
def State.passOver (s : State) (n : Nat) (d : Desc) : State :=
  let limit := s.fget .ringAdmit RING_ADMIT_DEFER_LIMIT
  let passed := fun (m : Nat) (q : RingSt) (x : Desc) =>
    x.deferred && !x.started && decide (s.ringPrio m ≤ s.ringPrio n) &&
    (decide (m ≠ n) || (q.descs.takeWhile fun y => decide (y.seq ≠ d.seq)).contains x)
  let firsts := (s.rings.map fun e => (e.2.descs.filter fun x => passed e.1 e.2 x && !x.first && decide (limit < x.passes + 1)).length).sum
  let count := fun (m : Nat) (q : RingSt) (x : Desc) =>
    if passed m q x then { x with passes := x.passes + 1, first := x.first || decide (limit < x.passes + 1) } else x
  let t := { s with rings := s.rings.map (fun e => (e.1, { e.2 with descs := e.2.descs.map (count e.1 e.2) })) }
  if firsts = 0 then t else t.fadd .ringAdmitStat RING_ADMIT_STAT_HELD_FIRST firsts

/-- Mark a descriptor started, with its core, its power and its tag (R484, R485, R512). -/
def State.markStarted (s : State) (n : Nat) (d : Desc) (core : Option Nat) (power tag : Nat) : State :=
  let s := s.passOver n d
  let r := s.registrar
  let perStack := match core with
    | some c => r.resStack.modify (c / 64) (· + power)
    | none => r.resStack
  let t := { s with registrar := { r with resPkg := r.resPkg + power, resStack := perStack } }
  let t := if d.type = 0x01 ∧ core ≠ some (bitsOf (d.w 4) 0 8) then t.fadd .ringAdmitStat RING_ADMIT_STAT_ROTATIONS 1 else t
  t.setDesc n { d with started := true, core := core, power := power, tag := tag, deferred := false, first := false }

/-- A fresh tag of the registrar (R474). -/
def State.newTag (s : State) : Nat × State :=
  let t := (s.registrar.tag + 1) % 2 ^ 32
  (t, { s with registrar := { s.registrar with tag := t } })

/-! ### Starting each type (R468 to R479) -/

/-- Drop completion records that no descriptor waits for, as a core takes its next lesson. -/
def State.dropRecords (s : State) (c : Nat) : State := { s with records := s.records.filter fun r => decide (r.unit ≠ .core c) }

/-- Start a LAUNCH on a core (R468). -/
def State.startLaunch (s : State) (n : Nat) (d : Desc) (c power : Nat) : State :=
  ((s.markStarted n d (some c) power 0).dropRecords c).launch c
    ⟨bitsOf (d.w 3) 0 23, bitsOf (d.w 3) 23 18, bitsOf (d.w 2) 0 48, bitsOf (d.w 3) 41 17, s.ringHr n, d.w 1⟩

/-- Start a MOVE that names a slice (R472): a lesson of one LOAD, STORE or MOVE step and an END, which lies nowhere in memory. -/
def State.startSliceMove (s : State) (n : Nat) (d : Desc) (c power : Nat) : State :=
  let src := bitsOf (d.w 2) 0 48
  let dst := bitsOf (d.w 3) 0 48
  let desk := fun a => match spaceOf a with | .desk _ _ => true | _ => false
  let op := if desk dst then 0x20 else if desk src then 0x21 else 0x22
  let move : StepRec := ⟨op + bitsOf (d.w 4) 0 32 * 2 ^ 32, src + 2 ^ 48, dst, 0, false, 0, 0, false⟩
  let fin : StepRec := ⟨0x01, 0, 0, 0, false, 1, 0, false⟩
  (((s.markStarted n d (some c) power 0).dropRecords c).startLesson c ⟨deskBytes, 0, 0, 0, s.ringHr n, d.w 1⟩).modCore c fun k =>
    { k with fetched := [move, fin] }

/-- What MOVE descriptors may name beside slices (R471). -/
def allowMove : Space → Bool
  | .far _ => true | .window _ => true | .desk _ _ => true | _ => false

/-- A protected range that an end of a MOVE lies in (R599): its window, host base, offset and length; an end that is not in whole
aligned records of it is a bus error. -/
def State.protectedEnd (s : State) (hr a n : Nat) : Res (Option (Nat × Nat × Nat × Nat)) :=
  match spaceOf a with
  | .window x =>
    if hr = 0 then .ok none
    else match s.windowAt hr x with
      | some (w, hb, wo, len, true) =>
        if (x - wo) % 4096 = 0 ∧ n % 4096 = 0 ∧ x + n ≤ wo + len then .ok (some (w, hb, x - wo, len)) else .error .window
      | _ => .ok none
  | _ => .ok none

/-- The nonce of a record (R599). -/
def recordNonce (counter w i : Nat) : List Byte := leBytes 8 counter ++ leBytes 4 (w * 2 ^ 29 + i)

/-- Read record `i` of a protected range (R599): its tag is checked first. -/
def State.readRecord (s : State) (hr w hb len i : Nat) : Res (List Byte) :=
  match (s.hr hr).keys.transport, s.hostRead (hb + 4096 * i) 4096, s.hostRead (hb + len + 32 * i) 32 with
  | some key, some c, some t =>
    let nonce := recordNonce (leNat ((t.drop 16).take 8)) w i
    if gcmTag key nonce [] c = t.take 16 then .ok (gcmCrypt key nonce c) else .error .check
  | _, _, _ => .error .hostFail

/-- Write record `i` of a protected range under its egress counter (R599). -/
def State.writeRecord (s : State) (hr w hb len i : Nat) (data : List Byte) : State × Res Unit :=
  let h := s.hr hr
  match h.keys.transport with
  | none => (s, .error .window)
  | some key =>
    let n := wordAt h.egress w
    let nonce := recordNonce n w i
    let c := gcmCrypt key nonce data
    let t := (s.hostWrite (hb + 4096 * i) c).hostWrite (hb + len + 32 * i)
      (gcmTag key nonce [] c ++ leBytes 8 n ++ List.replicate 8 0#8)
    (t.setHr hr { h with egress := h.egress.set w ((n + 1) % 2 ^ 64) }, .ok ())

/-- A host write of a discarded descriptor goes nowhere (R500 step 4). -/
def Desc.drops (d : Desc) (a : Nat) : Bool := d.discard && (match spaceOf a with | .window _ => true | _ => false)

/-- One part of a MOVE: `o` bytes from its start, `n` long; `drop` says that its writes are discarded. -/
def State.movePart (s : State) (hr src dst o n : Nat) (ps pd : Option (Nat × Nat × Nat × Nat)) (overlap drop : Bool) : State × Res Unit :=
  let (s, r) := match ps with
    | some (w, hb, base, len) => (s, s.readRecord hr w hb len ((base + o) / 4096))
    | none => s.readAt .registrar hr none allowMove (src + o) n
  match r with
  | .error e => (s, .error e)
  | .ok data =>
    if drop then (s, .ok ())
    else match pd with
    | some (w, hb, base, len) => s.writeRecord hr w hb len ((base + o) / 4096) data
    | none =>
      if overlap then
        match s.readAt .registrar hr none allowMove (dst + o) n with
        | (t, .error e) => (t, .error e)
        | (t, .ok old) =>
          let (pick, u) := t.drawBytes n
          u.writeAt .registrar hr none allowMove (dst + o) (mixBytes pick old data)
      else s.writeAt .registrar hr none allowMove (dst + o) data

/-- The parts of a MOVE in order, with the bytes copied before a failure. -/
def State.moveParts (hr src dst step : Nat) (ps pd : Option (Nat × Nat × Nat × Nat)) (overlap drop : Bool) (total : Nat) :
    Nat → State → Nat → State × Nat × Option AccErr
  | 0, s, done => (s, done, none)
  | k + 1, s, done =>
    if total ≤ done then (s, done, none)
    else
      let n := min step (total - done)
      match s.movePart hr src dst done n ps pd overlap drop with
      | (t, .ok _) => State.moveParts hr src dst step ps pd overlap drop total k t (done + n)
      | (t, .error e) => (t, done, some e)

/-- A MOVE on the registrar's mover (R471, R473, R489, R599): where an access is held, it is made again. -/
def State.runMove (s : State) (n : Nat) (d : Desc) : State :=
  let hr := s.ringHr n
  let src := bitsOf (d.w 2) 0 48
  let dst := bitsOf (d.w 3) 0 48
  let len := bitsOf (d.w 4) 0 32
  match s.protectedEnd hr src len, s.protectedEnd hr dst len with
  | .ok ps, .ok pd =>
    let step := if ps.isSome || pd.isSome then 4096 else 256
    match State.moveParts hr src dst step ps pd (rangesMeet len src dst) (d.drops dst) len (ceilDiv len step) s 0 with
    | (t, _, some (.held w)) => s.descWaits t n d w
    | (t, done, some e) => (t.finish n d (accessCode e) 0 0 done 0).registrarDone
    | (t, done, none) => (t.finish n d 0 0 0 done 0).registrarDone
  | _, _ => (s.finish n d 4 0 0 0 0).registrarDone

/-- Start a LADLE (R242, R474): an address that does not translate is refused before issue. -/
def State.startLadle (s : State) (n : Nat) (d : Desc) : State :=
  let hr := s.ringHr n
  let op := bitsOf (d.w 2) 0 4
  let used := [3] ++ (if op = 1 ∨ (3 ≤ op ∧ op ≤ 6) then [4] else []) ++ (if 4 ≤ op ∧ op ≤ 6 then [5] else [])
  let tr := fun i => s.translate hr (bitsOf (d.w i) 0 48)
  if used.any fun i => match tr i with | .error _ => true | .ok _ => false then s.finish n d 5 3 0 0 0
  else
    let word := fun i => if used.contains i then
        match tr i with | .ok p => d.w i / 2 ^ 48 * 2 ^ 48 + p | .error _ => d.w i
      else d.w i
    let (tag, t) := s.newTag
    let site := (t.farLoc (bitsOf (word 3) 0 48)).site
    (t.markStarted n d none 0 tag).ladleSubmit site op [bitsOf (d.w 2) 0 32 + tag * 2 ^ 32, word 3, word 4, word 5] .registrar

/-- Start a PAIL (R475): its command goes to the manager of DIE, which translates each address as it uses it; a die that is lost
answers DIE_LOST (R33). -/
def State.startPail (s : State) (n : Nat) (d : Desc) : State :=
  let die := bitsOf (d.w 0) 16 2
  if !s.dieUp die then s.finish n d 7 0x0C 0 0 0
  else
    let (tag, t) := s.newTag
    (t.markStarted n d none 0 tag).pailCommand die (bitsOf (d.w 2) 0 8)
      ⟨s.ringHr n, bitsOf (d.w 2) 8 4, bitsOf (d.w 2) 12 12, bitsOf (d.w 2) 24 8, tag, d.w 3, d.w 4, d.w 5⟩

/-- The target of a WAIT is met (R479). -/
def State.waitMet (s : State) (d : Desc) : Bool :=
  decide ((s.fget (.ringSeq (bitsOf (d.w 2) 0 6)) RING_SEQ_DONE_BELOW + 2 ^ 32 - bitsOf (d.w 3) 0 32) % 2 ^ 32 < 2 ^ 31)

/-! ### Scrubbing (R636 to R639) -/

/-- The counts of a scrub (R638), the status that has ended it, and what it waits for. -/
structure ScrubTally where
  checked : Nat
  retried : Nat
  repaired : Nat
  failed : Nat
  cache : Nat
  first : Nat
  last : Nat
  done : Nat
  lost : Option Nat
  stuck : Option WaitsOn
  deriving DecidableEq, Repr

/-- A granule that fails without recovery. -/
def ScrubTally.fail (t : ScrubTally) (addr : Nat) : ScrubTally :=
  { t with failed := t.failed + 1, first := if t.failed + t.cache = 0 then addr else t.first, last := addr }

/-- Check one granule of far memory at the controllers (R629, R636): both copies of a mirrored set. -/
def State.scrubGranule (c : LineAt) (home g : Nat) (x : State × ScrubTally) : State × ScrubTally :=
  let (s, t) := x
  let addr := home + 16 * g
  let up := !s.farGone c.loc.site
  let bad := up && decide (s.farDiff c.loc g ≠ 0)
  let once := up && !bad && decide (s.slips.count (farSlip c.loc g) = 1)
  let copy := match c.mirror with | some m => !s.farGone m.site | none => false
  let (u, r) := s.fetchGranule .scrub c 0 g
  let t := { t with checked := t.checked + b2n up + b2n copy, retried := t.retried + b2n once }
  match r with
  | none => (u, t.fail addr)
  | some data =>
    let t := if bad then { t with repaired := t.repaired + 1 } else t
    match c.mirror with
    | some m =>
      if up && copy && !bad && decide (s.farDiff m g ≠ 0) then
        ((u.farPut m g data 0).repaired (u.farEntry .scrub m (u.farAddr m + 16 * g) 0 m.site 2 1), { t with repaired := t.repaired + 1 })
      else (u, t)
    | none => (u, t)

/-- The granules of a line that the cache holds, tested where they lie (R638). -/
def State.scrubCached (c : LineAt) (a : Nat) (x : State × ScrubTally) : State × ScrubTally :=
  (List.range 16).foldl (fun (x : State × ScrubTally) g =>
    match x.1.testLine .scrub c [g] with
    | (u, true) => (u, x.2)
    | (u, false) =>
      let addr := a + 16 * g
      (u, { x.2 with cache := x.2.cache + 1, first := if x.2.failed + x.2.cache = 0 then addr else x.2.first, last := addr })) x

/-- The granules of a line in far memory (R636, R637). -/
def State.scrubFar (c : LineAt) (a : Nat) (x : State × ScrubTally) : State × ScrubTally :=
  (List.range 16).foldl (fun x g => State.scrubGranule c a g x) x

/-- Check one grain of far memory, and its line where the cache holds it (R631, R636), with a grant that is charged (R637); it waits where
the port does not give one, or where a ladle or a change of its set holds its reads (R210, R254). -/
def State.scrubGrain (hr a : Nat) (x : State × ScrubTally) : State × ScrubTally :=
  if x.2.lost.isSome || x.2.stuck.isSome then x
  else match x.1.translate hr a with
    | .error _ => x
    | .ok pa =>
      let c := x.1.lineAt pa
      if x.1.farGone c.loc.site && (match c.mirror with | none => true | some m => x.1.farGone m.site) then
        (x.1, { x.2 with lost := some (if x.1.goodbyed (c.loc.site / 3) then 6 else 7) })
      else if x.1.farBlocked pa false then (x.1, { x.2 with stuck := some (.far c.grain) })
      else match x.1.takeGrants .scrub hr c (if c.narrow then 8 else 1) with
        | none => (x.1, { x.2 with stuck := some (.far c.grain) })
        | some s =>
          let y := State.scrubFar c a (State.scrubCached c a (s, x.2))
          (y.1, { y.2 with done := y.2.done + 256 })

/-- Check one grain of a core's memory (R632, R636). -/
def State.scrubNear (m : NearMem) (c off a : Nat) (x : State × ScrubTally) : State × ScrubTally :=
  let (s, t) := x
  if t.lost.isSome || t.stuck.isSome then x
  else if m = .desk ∧ s.nearHeld m c off 256 then (s, { t with stuck := some (.near c) })
  else if !s.coreUsable c then (s, { t with lost := some (if s.dieUp (c / 64) || s.goodbyed (c / 64) then 6 else 7) })
  else
    let (s, t) := (List.range 16).foldl (fun (x : State × ScrubTally) g =>
      let k := nearSlip m c (off / 16 + g)
      let once := decide (x.1.nearDiff m c (off / 16 + g) = 0) && decide (x.1.slips.count k = 1)
      match x.1.nearTest .scrub m c 0 [off / 16 + g] with
      | (u, true) => (u, { x.2 with checked := x.2.checked + 1, retried := x.2.retried + b2n once })
      | (u, false) => (u, ({ x.2 with checked := x.2.checked + 1 }).fail (a + 16 * g))) (s.nearReach m c off 256, t)
    (s, { t with done := t.done + 256 })

/-- The summary record (R638). -/
def ScrubTally.record (t : ScrubTally) : List Byte :=
  leBytes 8 t.checked ++ leBytes 4 t.retried ++ leBytes 4 t.repaired ++ leBytes 4 t.failed ++ leBytes 4 t.cache ++ leBytes 8 t.first ++
    leBytes 8 t.last ++ leBytes 8 t.done ++ List.replicate 16 0#8

/-- The grains of a SCRUB read one after another (R636 to R639): none where its range is not one that it may scrub. -/
def State.scrubPass (s : State) (n : Nat) (d : Desc) : Option (State × ScrubTally) :=
  let hr := s.ringHr n
  let base := bitsOf (d.w 2) 0 48
  let len := bitsOf (d.w 3) 0 48
  let grains := (List.range (len / 256)).map fun i => 256 * i
  let start : State × ScrubTally := (s, ⟨0, 0, 0, 0, 0, 0, 0, 0, none, none⟩)
  if base % 256 ≠ 0 ∨ len % 256 ≠ 0 then none
  else if len = 0 then some start
  else match spaceOf base with
    | .far _ =>
      if grains.all fun o => match s.translate hr (base + o) with | .ok _ => true | .error _ => false then
        some (grains.foldl (fun x o => State.scrubGrain hr (base + o) x) start)
      else none
    | .slice c off =>
      if s.coreIn hr c ∧ off + len ≤ sliceBytes then
        some (grains.foldl (fun x o => State.scrubNear .slice c (off + o) (base + o) x) start)
      else none
    | .desk c off =>
      if s.coreIn hr c ∧ off + len ≤ deskBytes then
        some (grains.foldl (fun x o => State.scrubNear .desk c (off + o) (base + o) x) start)
      else none
    | _ => none

/-- SCRUB (R636 to R639): where a read of it or the write of its record is held, it is made again. -/
def State.runScrub (s : State) (n : Nat) (d : Desc) : State :=
  match s.scrubPass n d with
  | none => (s.finish n d 3 0 0 0 0).registrarDone
  | some (t, x) =>
    let written := if d.drops (bitsOf (d.w 4) 0 48) then (t, .ok ())
      else t.writeAt .registrar (s.ringHr n) none allowMove (bitsOf (d.w 4) 0 48) x.record
    match x.stuck, written with
    | some w, _ => s.descWaits t n d w
    | none, (u, .error (.held w)) => s.descWaits u n d w
    | none, (u, .error _) => (u.finish n d 4 0 0 (x.failed + x.cache) x.repaired).registrarDone
    | none, (u, .ok _) => (u.finish n d (x.lost.getD 0) 0 0 (x.failed + x.cache) x.repaired).registrarDone

/-- Go on with a descriptor that the registrar carries out itself (R471, R477, R478, R479): a MOVE or a SCRUB that waited, a FABRIC with
nothing outstanding, a WAIT whose target is met; one whose memory has gone completes with the status for that (R33, R66, R397). -/
def State.goOn (s : State) (n : Nat) (d : Desc) : State :=
  if !(s.registrarUp && d.started) then s
  else match d.type, (if d.type = 0x06 then none else d.stuck.bind s.goneStatus) with
    | 0x05, some st => s.fabGone n d st
    | _, some st => (s.finish n d st 0 0 0 0).registrarDone
    | 0x02, none => if d.core.isNone then s.runMove n d else s
    | 0x05, none => s.fabGoOn n d
    | 0x06, none => s.runScrub n d
    | 0x09, none => if s.waitMet d then s.finish n d 0 0 0 0 0 else s
    | _, none => s

/-- Start a descriptor that the registrar carries out itself. -/
def State.startOwn (s : State) (n : Nat) (d : Desc) : State :=
  let t := s.markStarted n d none 0 0
  match t.desc n d.seq with
  | some e => t.goOn n e
  | none => t

/-! ### Visits (R481 to R485) -/

/-- Start a descriptor that admission lets go. -/
def State.startDesc (s : State) (n : Nat) (d : Desc) (core : Option Nat) (power : Nat) : State :=
  match d.type, core with
  | 0x01, some c => s.startLaunch n d c power
  | 0x02, some c => s.startSliceMove n d c power
  | 0x02, none => s.startOwn n d
  | 0x03, _ => s.startLadle n d
  | 0x04, _ => s.startPail n d
  | 0x05, _ => s.startOwn n d
  | 0x06, _ => s.startOwn n d
  | 0x09, _ => s.startOwn n d
  | _, _ => (s.passOver n d).finish n d 0 0 0 0 0

/-- Start a descriptor, or complete it at once, where everything lets it (R464, R482 to R485). -/
def State.tryStart (s : State) (n : Nat) (d : Desc) : Option State :=
  if !s.orderOk n d then none
  else match s.verdict n d with
    | .defer => none
    | .done status unit => some (s.finish n d status unit 0 (if unit = 0 then 0 else unit + 2 ^ 11) 0)
    | .go core power => if s.slotFree n && s.notHeld n d then some (s.startDesc n d core power) else none

/-- A ring from which the registrar may start descriptors. -/
def State.ringRuns (s : State) (n : Nat) : Bool := s.registrarUp && decide (n < 64) && decide (s.ringState n = 1)

/-- The first descriptor of a ring that can start, and the state in which it has (R483). -/
def State.firstStart (s : State) (n : Nat) : Option (Nat × State) :=
  if s.ringRuns n then (s.candidates n).findSome? fun d => (s.tryStart n d).map fun t => (d.seq, t) else none

/-- A MOVE that names a slice, which waits like a LAUNCH (R472). -/
def Desc.sliceMove (d : Desc) : Bool :=
  decide (d.type = 0x02) && ((sliceCore (bitsOf (d.w 2) 0 48)).isSome || (sliceCore (bitsOf (d.w 3) 0 48)).isSome)

/-- Note the LAUNCHes of a ring that are deferred (R484, R512), and the MOVEs that wait like one (R472): each LAUNCH is counted once. -/
def State.noteDeferred (s : State) (n : Nat) : State :=
  let late := (s.candidates n).filter fun d => (decide (d.type = 0x01) || d.sliceMove) && !d.deferred && s.orderOk n d
  let t := late.foldl (fun s d => s.setDesc n { d with deferred := true }) s
  let launches := (late.filter fun d => decide (d.type = 0x01)).length
  if launches = 0 then t else t.fadd .ringAdmitStat RING_ADMIT_STAT_DEFERRALS launches

/-- Visit a ring: start what can start, in order. -/
def State.visitRing (n : Nat) : Nat → State → State
  | 0, s => s
  | k + 1, s =>
    match s.firstStart n with
    | some (_, t) => State.visitRing n k t
    | none => if s.ringRuns n then s.noteDeferred n else s

/-- ADMISSION_VISIT (R483): every ring is visited in decreasing priority, round robin among equals: the next visit begins after the ring at
which this one began. -/
def execAdmissionVisit (s : State) : Host.Outcome State Fault Refusal :=
  if !s.registrarUp then .next s
  else
    let order := [3, 2, 1, 0].flatMap fun p =>
      ((List.range 64).map fun i => (wordAt s.registrar.rr p + i) % 64).filter fun n => decide (s.ringPrio n = p)
    let s := order.foldl (fun s n => (s.sq n).descs.foldl (fun s d => match s.desc n d.seq with | some e => s.goOn n e | none => s) s) s
    let s := order.foldl (fun s n => State.visitRing n ((s.sq n).descs.length + 1) s) s
    let rr := (List.range 4).map fun p =>
      match order.find? fun n => decide (s.ringPrio n = p) with
      | some n => (n + 1) % 64
      | none => wordAt s.registrar.rr p
    .next { s with registrar := { s.registrar with rr := rr } }

/-- A descriptor of a ring of higher priority can start (R483). -/
def State.higherStarts (s : State) (n : Nat) : Bool := s.rings.any fun e => decide (s.ringPrio n < s.ringPrio e.1) && (s.firstStart e.1).isSome

/-- The row of one descriptor: it starts where it is the first of its ring that can and no ring of higher priority has one, or goes on. -/
def State.descRow (s : State) (n seq type : Nat) : State :=
  match s.desc n seq with
  | none => s
  | some d =>
    if d.type ≠ type then s
    else if d.started then s.goOn n d
    else if s.higherStarts n then s
    else match s.firstStart n with
      | some (q, t) => if q = seq then t else s
      | none => if s.ringRuns n then s.noteDeferred n else s

/-- NOP_DESCRIPTOR (R479). -/
def execNopDescriptor (ring seq : Nat) (s : State) : Host.Outcome State Fault Refusal := .next (s.descRow ring seq 0x00)
/-- LAUNCH_DESCRIPTOR (R468, R469, R484). -/
def execLaunchDescriptor (ring seq : Nat) (s : State) : Host.Outcome State Fault Refusal := .next (s.descRow ring seq 0x01)
/-- MOVE_DESCRIPTOR (R471 to R473). -/
def execMoveDescriptor (ring seq : Nat) (s : State) : Host.Outcome State Fault Refusal := .next (s.descRow ring seq 0x02)
/-- LADLE_DESCRIPTOR (R474). -/
def execLadleDescriptor (ring seq : Nat) (s : State) : Host.Outcome State Fault Refusal := .next (s.descRow ring seq 0x03)
/-- PAIL_DESCRIPTOR (R475). -/
def execPailDescriptor (ring seq : Nat) (s : State) : Host.Outcome State Fault Refusal := .next (s.descRow ring seq 0x04)
/-- FABRIC_DESCRIPTOR (R476, R477). -/
def execFabricDescriptor (ring seq : Nat) (s : State) : Host.Outcome State Fault Refusal := .next (s.descRow ring seq 0x05)
/-- SCRUB (R478, R636 to R639). -/
def execScrub (ring seq : Nat) (s : State) : Host.Outcome State Fault Refusal := .next (s.descRow ring seq 0x06)
/-- FENCE_DESCRIPTOR (R479). -/
def execFenceDescriptor (ring seq : Nat) (s : State) : Host.Outcome State Fault Refusal := .next (s.descRow ring seq 0x08)
/-- WAIT (R479). -/
def execWaitDescriptor (ring seq : Nat) (s : State) : Host.Outcome State Fault Refusal := .next (s.descRow ring seq 0x09)

/-- WAIT_TIMEOUT (R479): a TIMEOUT of 0 is no limit. -/
def execWaitTimeout (ring seq : Nat) (s : State) : Host.Outcome State Fault Refusal :=
  match s.desc ring seq with
  | some d => .next (if s.registrarUp ∧ d.type = 0x09 ∧ d.started ∧ bitsOf (d.w 4) 0 32 ≠ 0 then s.finish ring d 8 0 0 0 0 else s)
  | none => .next s

/-! ### Completions and the forecast (R486 to R490, R559) -/

/-- A record answers a started descriptor. -/
def Desc.answered (d : Desc) (r : UnitRecord) : Bool :=
  d.started && (match d.type, r.unit with
    | 0x01, .core c => decide (d.core = some c)
    | 0x02, .core c => decide (d.core = some c)
    | 0x03, .ladle _ => decide (d.tag = r.tag)
    | 0x04, .pail _ => decide (d.tag = r.tag)
    | _, _ => false)

/-- A LAUNCH that ran past its time (R487), `elapsed` in ticks of the registrar's reference. -/
def Desc.overrun (d : Desc) (elapsed : Nat) : Bool := decide (400 * bitsOf (d.w 0) 32 32 < elapsed * d.power)

/-- Complete a descriptor with a unit's record (R488 to R490); a MOVE lesson that fails has copied a free number of bytes (log 5). -/
def State.recordDone (s : State) (n : Nat) (d : Desc) (r : UnitRecord) (elapsed : Nat) : State :=
  let u := r.w0 % 256
  match d.type with
  | 0x01 => s.finish n d (statusOf 0x0B [0x0C] u) u (bitsOf r.w0 8 3 + b2n (d.overrun elapsed) * 8) r.w0 r.w1
  | 0x02 =>
    let len := bitsOf (d.w 4) 0 32
    let (v, t) := s.draw (len + 1)
    if u = 0 then s.finish n d 0 0 0 len 0 else t.finish n d (statusOf 0x0B [0x0C] u) u 0 v 0
  | 0x03 => s.finish n d (statusOf 7 [6] u) u 0 (bitsOf r.w0 8 9) 0
  | _ => s.finish n d (statusOf 0x0B [0x0C] u) u 0 r.w1 0

/-- UNIT_COMPLETION (R487 to R492, R501): a halted registrar discards the record. -/
def execUnitCompletion (ring seq elapsed : Nat) (s : State) : Host.Outcome State Fault Refusal :=
  match s.desc ring seq with
  | none => .next s
  | some d =>
    match s.records.find? d.answered with
    | none => .next s
    | some r =>
      let t := { s with records := s.records.erase r }
      .next (if t.registrarUp then t.recordDone ring d r elapsed else t)

/-- A forecast message arrives (R484, R486, R559): reservations are the base and the power of what runs. -/
def State.onForecast (s : State) (msg : Forecast) : State :=
  if !s.registrarUp then s
  else
    let run := s.rings.flatMap fun e => e.2.descs.filter Desc.started
    let on := fun k => ((run.filter fun d => decide (d.core.map (· / 64) = some k)).map Desc.power).sum
    let r := s.registrar
    { s with registrar := { r with allowPkg := 2 * msg.allowPkg, allowStack := msg.allowStack.map (2 * ·),
                                   resPkg := 2 * msg.basePkg + (run.map Desc.power).sum,
                                   resStack := (List.range 4).map fun k => 2 * wordAt msg.baseStack k + on k,
                                   warm := msg.warm, fc := msg.fc, fresh := true } }.fput .ringAdmitStat RING_ADMIT_STAT_STALE 0

/-- FORECAST_MESSAGE (R484, R486, R559). -/
def execForecastMessage (msg : Forecast) (s : State) : Host.Outcome State Fault Refusal := .next (s.onForecast msg)

/-- FORECAST_STALE (R486). -/
def execForecastStale (s : State) : Host.Outcome State Fault Refusal :=
  .next (if s.registrarUp then { s with registrar := { s.registrar with fresh := false } }.fput .ringAdmitStat RING_ADMIT_STAT_STALE 1 else s)

/-! ### Enabling, draining, resets and halts (R498 to R501) -/

/-- Enable a ring (R499, R595). -/
def State.enableRing (s : State) (n : Nat) : State :=
  let q := s.sq n
  ((((s.setSq n { RingSt.init with epoch := (q.epoch + 1) % 2 ^ 32 }).put (.ringStatus n) 0#64).put (.ringSeq n) 0#64).fput
    (.ringStatus n) RING_STATUS_STATE 1).fput (.ringCtl n) RING_CTL_ENABLE 1

/-- Begin to drain a ring (R498): descriptors that have not started complete with ABORTED. -/
def State.drainRing (s : State) (n : Nat) : State :=
  let t := (s.setSq n { s.sq n with draining := true }).fput (.ringStatus n) RING_STATUS_STATE 2
  (((t.sq n).descs.filter fun d => !d.started).foldl (fun s d => s.finish n d 9 0 0 0 0) t).fput (.ringStatus n) RING_STATUS_CAUSE 0

/-- A write of `RING_CTL` (R498, R499): an enable of a draining ring, or before the registrar runs, is queued. -/
def State.ringCtlWrite (s : State) (n : Nat) (w : RegWrite) : State :=
  if w.half = .hi then s
  else
    let t := s.put (.ringCtl n) (s.written (.ringCtl n) w).new
    let st := s.ringState n
    if t.fget (.ringCtl n) RING_CTL_ENABLE = 1 then
      if st = 0 then (if t.registrarUp then t.enableRing n else t.fput (.ringStatus n) RING_STATUS_STATE 3)
      else if st = 2 then t.fput (.ringStatus n) RING_STATUS_STATE 3
      else t
    else if st = 1 ∨ st = 4 then t.drainRing n
    else if st = 3 then t.fput (.ringStatus n) RING_STATUS_STATE (if (t.sq n).draining then 2 else 0)
    else t

/-- RING_ENABLE (R499, R508). -/
def execRingEnable (ring : Nat) (w : RegWrite) (s : State) : Host.Outcome State Fault Refusal :=
  .next (s.guarded w.master (.ringCtl ring) fun s => s.ringCtlWrite ring w)
/-- RING_DISABLE (R498, R508). -/
def execRingDisable (ring : Nat) (w : RegWrite) (s : State) : Host.Outcome State Fault Refusal :=
  .next (s.guarded w.master (.ringCtl ring) fun s => s.ringCtlWrite ring w)

/-- RING_DRAIN_COMPLETE (R498, R499): nothing started is left and every entry is written. -/
def execRingDrainComplete (ring : Nat) (s : State) : Host.Outcome State Fault Refusal :=
  let q := s.sq ring
  if !(q.draining && q.descs.isEmpty && q.held.isEmpty) then .next s
  else
    let t := s.setSq ring { q with draining := false }
    .next (if s.ringState ring = 3 then t.enableRing ring
      else (t.fput (.ringStatus ring) RING_STATUS_STATE 0).fput (.ringCtl ring) RING_CTL_ENABLE 0)

/-- End the lessons of a homeroom without records (R500 step 3): the descriptors that launched them are gone. -/
def State.endLessons (s : State) (hr : Nat) : State :=
  let cores := (List.range 256).filter fun c => decide (s.coreHr c = hr) && ((s.core c).lesson.isSome || (s.core c).waitingLaunch.isSome)
  let s := cores.foldl (fun s c =>
    (s.modCore c fun k => { k with discard := k.lesson.isSome, waitingLaunch := none }).stepFails c ⟨0, .ok, false, 0, 0⟩) s
  let gone := fun (d : Desc) => d.started && (match d.core with | some c => cores.contains c | none => false)
  let s := s.rings.foldl (fun s e => (e.2.descs.filter gone).foldl State.release s) s
  let t := { s with rings := s.rings.map (fun (e : Nat × RingSt) => (e.1, { e.2 with descs := e.2.descs.filter (fun d => !gone d) })) }
  t.rings.foldl (fun (s : State) (e : Nat × RingSt) => s.updateDone e.1) t

/-- A function-level reset (R500). -/
def State.functionReset (s : State) (f : Nat) : State :=
  let mine := (List.range 64).filter fun n => decide (s.ringFunc n = f) && decide (s.ringState n ≠ 0)
  let s := mine.foldl (fun s n =>
    let q := s.sq n
    let t := s.setSq n { q with descs := (q.descs.filter Desc.started).map (fun d => { d with discard := true }), held := [],
                                draining := q.draining || decide (s.ringState n ≠ 3) }
    let t := (t.fput (.ringStatus n) RING_STATUS_HELD 0).fput (.ringCtl n) RING_CTL_ENABLE 0
    (t.fput (.ringStatus n) RING_STATUS_STATE (if (t.sq n).draining then 2 else 0)).updateDone n) s
  let s := s.endLessons (s.funcHr f)
  let s := { s with msixUnmasked := s.msixUnmasked.filter (fun e => decide (e.1 ≠ f)), msixPending := s.msixPending.filter (fun e => decide (e.1 ≠ f)),
                    bar4Size := smDel s.bar4Size f }
  s.fput (.hostFunc f) HOST_FUNC_OFFSET 0

/-- FUNCTION_LEVEL_RESET (R500). -/
def execFunctionLevelReset (f : Nat) (s : State) : Host.Outcome State Fault Refusal :=
  .next (if s.hostLink ∧ f ≤ 16 then s.functionReset f else s)

/-- LOCKSTEP_HALT (R501). -/
def execLockstepHalt (s : State) : Host.Outcome State Fault Refusal :=
  if !s.registrarUp then .next s
  else
    let s := s.fput .hostStatus HOST_STATUS_REG_STATE 2
    let s := (List.range 64).foldl (fun s n => s.ringError n 4) s
    .next (s.raiseOffice (s.eventOf .host 0 0x000 .hostStatus))

/-! ### BAR4 (R455, R456, R600, R731) -/

/-- Log a host error (R504). -/
def State.hostError (s : State) (f off cause : Nat) : State :=
  (((s.fput .hostErr HOST_ERR_ADDR off).fput .hostErr HOST_ERR_FUNC f).fput .hostErr HOST_ERR_CAUSE cause).fput .hostErr HOST_ERR_VALID 1

/-- CAUSE of a failed BAR4 access (R455, R504, R634). -/
def hostCause : AccErr → Nat
  | .outside => 1 | .translation => 2 | .encrypted => 2 | _ => 4

/-- The present size of a function's BAR4 (R452). -/
def State.bar4 (s : State) (f : Nat) : Nat := smGet (2 ^ 36) s.bar4Size f

/-- The CAUSE for which BAR4 may not reach a grain (R455, R504): it lies outside the homeroom's far memory, or in an encrypted set of a
sealed homeroom (R600). -/
def State.barCause (s : State) (hr a : Nat) : Option Nat :=
  match spaceOf a with
  | .far x => match s.translate hr x with
    | .error _ => some 1
    | .ok pa => if hr ≠ 0 ∧ s.hrState hr = 2 ∧ (s.setKey (setOf s.variant pa)).isSome then some 2 else none
  | _ => some 1

/-- A host access waits (R210, R254, R255): what its attempt `u` has obtained is kept. -/
def State.hostHeld (s u : State) (w : HostWait) : State :=
  let t := s.keepHeld u
  { t with hostWaits := t.hostWaits ++ [w] }

/-- Make a BAR4 access (R455, R456, R600, R634). -/
def State.hostDo (s : State) (w : HostWait) : State :=
  let hr := s.funcHr w.f
  let a := s.fget (.hostFunc w.f) HOST_FUNC_OFFSET * 2 ^ 30 + w.off
  let bad := fun n => (pieces a n).findSome? fun p => s.barCause hr p.1
  match w.acc with
  | .read n =>
    match bad n with
    | some cause => (s.hostError w.f w.off cause).emit (.completerAbort w.f)
    | none => match s.readAt (.host w.f) hr none allowFar a n with
      | (t, .error (.held _)) => s.hostHeld t w
      | (t, .error e) => (t.hostError w.f w.off (hostCause e)).emit (.completerAbort w.f)
      | (t, .ok bs) => t.emit (.hostData w.f bs)
  | .write bs poisoned =>
    if poisoned then s.hostError w.f w.off 3
    else match bad bs.length with
    | some cause => s.hostError w.f w.off cause
    | none => match s.writeAt (.host w.f) hr none allowFar a bs with
      | (t, .error (.held _)) => s.hostHeld t w
      | (t, .error e) => t.hostError w.f w.off (hostCause e)
      | (t, .ok _) => t

/-- A host access is made once none of its function waits before it; it keeps nothing when it is done. -/
def State.hostServe (s : State) (w : HostWait) : State :=
  if s.hostWaits.any fun x => decide (x.f = w.f) then { s with hostWaits := s.hostWaits ++ [w] }
  else
    let t := s.hostDo w
    if t.hostWaits.any fun x => decide (x.f = w.f) then t else t.settle (.host w.f)

/-- Host accesses that wait are made again, in order; those of a link that is down are gone. -/
def State.hostWork (s : State) : State :=
  if s.hostLink then s.hostWaits.foldl State.hostServe { s with hostWaits := [] } else { s with hostWaits := [] }

/-- BAR4_ACCESS (R452, R455, R456, R634, R731). -/
def execBar4Access (f off : Nat) (acc : HostAccess) (s : State) : Host.Outcome State Fault Refusal :=
  let len := match acc with | .read n => n | .write bs _ => bs.length
  if !s.hostLink || decide (16 < f) then .next s
  else if s.bar4 f < off + len then .next (s.emit (.unsupportedRequest f))
  else .next (s.hostServe ⟨f, off, acc⟩)

/-! ### Ring registers (R506, R507, R511 to R513) -/

/-- A write of `RING_CFG` (R507, R597): by the physical function, or the office acting as it, while the ring is disabled. -/
def State.ringCfgWrite (s : State) (n : Nat) (w : RegWrite) : State :=
  let vf := match w.master with | .vf _ => true | _ => false
  if vf || decide (s.ringState n ≠ 0) then s
  else
    let v := (s.written (.ringCfg n) w).new
    let k := fldGet v RING_CFG_LOG2SIZE
    let v := fldSet v RING_CFG_LOG2SIZE (if 4 ≤ k ∧ k ≤ 16 then k else 4)
    s.put (.ringCfg n) (if fldGet v RING_CFG_FUNC = s.ringFunc n then v else fldSet v RING_CFG_CONF 0)

/-- A write of `RING_SQ_BASE` or `RING_CQ_BASE` (R506). -/
def State.ringBaseWrite (s : State) (n : Nat) (r : Reg) (w : RegWrite) : State :=
  if s.ringState n = 0 then s.put r (s.written r w).new else s

/-- A write of `RING_EVQ_CFG` (R513): enabling resets the tail and PHASE. -/
def State.evqCfgWrite (s : State) (w : RegWrite) : State :=
  let t := s.put .ringEvqCfg (s.written .ringEvqCfg w).new
  if s.fget .ringEvqCfg RING_EVQ_CFG_ENABLE = 0 ∧ t.fget .ringEvqCfg RING_EVQ_CFG_ENABLE = 1 then
    ({ t with evqPhase := true }).fput .ringEvqStatus RING_EVQ_STATUS_TAIL 0
  else t

/-- A write of `RING_ADMIT` (R511). -/
def State.ringAdmitWrite (s : State) (w : RegWrite) : State :=
  let v := (s.written .ringAdmit w).new
  let k := fldGet v RING_ADMIT_LOOKAHEAD
  s.put .ringAdmit (fldSet v RING_ADMIT_LOOKAHEAD (if 1 ≤ k ∧ k ≤ 16 then k else 16))

/-- RING_ADMIT_STAT_CLEAR (R512). -/
def execRingAdmitStatClear (w : RegWrite) (s : State) : Host.Outcome State Fault Refusal :=
  .next (s.guarded w.master .ringAdmitStat fun s => s.clearStat .ringAdmitStat w RING_ADMIT_STAT_CLEAR
    [RING_ADMIT_STAT_DEFERRALS, RING_ADMIT_STAT_ROTATIONS, RING_ADMIT_STAT_HELD_FIRST])

end Sys2Proof.Machine
end

