-- ==== Sys2Proof/Machine/FarEvents.lean ====
section
/-! DEFINITION. Events of far memory and the ladles that may let go what waits for an access (R210, R214, R224, R242, R250, R261, R627). -/

namespace Sys2Proof.Machine

/-- What waits for an access that may have been let go is tried again: pail managers, fabric requests, host accesses. -/
def State.rouse (s : State) : State := s.wake.fabWork.hostWork

/-- SC_FILL_COMPLETE (R214, R629): a fill whose request has been granted; failing granules are read once more first. -/
def execScFillComplete (grain transient : Nat) (s : State) : Host.Outcome State Fault Refusal :=
  match s.fills.find? fun f => decide (f.grain = grain) with
  | none => .next s
  | some f =>
    if (s.farPort (s.fillSite (s.lineAt (grain * 256)))).awaits grain || decide (f.reread ≠ 0) then .next s
    else
      let m := s.firstFails f transient
      if m = 0 then .next (s.finishFill f 0).rouse
      else .next { s with fills := s.fills.map fun g => if g.grain = grain then { g with reread := m } else g }

/-- GRANULE_REREAD (R629): the second read of the failing granules arrives; bit g of `transient` says that a well-stored granule
fails it too. -/
def execGranuleReread (grain transient : Nat) (s : State) : Host.Outcome State Fault Refusal :=
  match s.fills.find? fun f => decide (f.grain = grain) && decide (f.reread ≠ 0) with
  | none => .next s
  | some f => .next (s.finishFill f (f.reread + (f.reread &&& transient) * 2 ^ 16)).rouse

/-- FAR_GRANT (R223 to R229): the waiting request with this identifier is granted where the port's mode admits it. -/
def execFarGrant (f id : Nat) (s : State) : Host.Outcome State Fault Refusal :=
  let p := s.farPort f
  match p.waiting.find? fun r => decide (r.id = id) with
  | none => .next s
  | some r => .next (if s.mayGrant f p r then (s.setFarPort f ((p.grant r).served r)).rouse else s)

/-- FAR_WINDOW_CLOSE (R223, R225, R236, R237): new shares and a new mode take effect, tokens are refilled, and FAR_USE takes the bytes
charged in the window. -/
def execFarWindowClose (f : Nat) (s : State) : Host.Outcome State Fault Refusal :=
  let p := s.farPort f
  let shares := (List.range 16).map (s.farShareOf f)
  let mode := s.fget (.farMode f) FAR_MODE_MODE
  let tokens := (List.range 16).map fun h =>
    if mode ≠ p.mode then wordAt shares h * 4096
    else if mode = 0 then min (wordAt p.tokens h + wordAt shares h * 4096) (2 * (wordAt shares h * 4096)) else wordAt p.tokens h
  let use := fun j => (List.range 4).foldl (fun a k => a + min (wordAt p.charged (4 * j + k) / 4096) 0xFFFF * 2 ^ (16 * k)) 0
  let t := s.setFarPort f { p with tokens := tokens, charged := List.replicate 16 0, mode := mode, shares := shares }
  .next ((List.range 4).foldl (fun s j => s.put (.farUse f j) (BitVec.ofNat 64 (use j))) t).rouse

/-- SEP_CHANGE_COMPLETE (R210). -/
def execSepChangeComplete (set : Nat) (s : State) : Host.Outcome State Fault Refusal :=
  if s.setChanges.contains set then
    let left := s.setChanges.filter (· ≠ set)
    let t := { s with setChanges := left }.fput .sepStatus SEP_STATUS_BUSY (b2n (!left.isEmpty))
    .next t.releaseHeld.rouse
  else .next s

/-- LADLE_SEQUENCE_START (R242, R251). -/
def execLadleSequenceStart (port : Nat) (s : State) : Host.Outcome State Fault Refusal := .next (s.ladleStart port).rouse

/-- ROW_STEP (R250 to R256): the next row step of the sequence on a pseudo-channel completes. -/
def execRowStep (port pc : Nat) (s : State) : Host.Outcome State Fault Refusal :=
  match (s.ladle port).seqs.find? fun q => decide (q.pc = pc) && q.flushed with
  | none => .next s
  | some q => .next (if s.stepReady port q then (s.ladleStep port q).rouse else s)

/-- A write of `LDL_CTL` (R261): ignored on an unpopulated site. -/
def State.ldlCtlWrite (s : State) (port : Nat) (w : RegWrite) : State :=
  if farPresent s.variant port then (s.put (.ldlCtl port) (s.written (.ldlCtl port) w).new).rouse else s

/-- LDL_DRAIN_WRITE (R261). -/
def execLdlDrainWrite (port : Nat) (w : RegWrite) (s : State) : Host.Outcome State Fault Refusal :=
  .next (s.guarded w.master (.ldlCtl port) fun s => s.ldlCtlWrite port w)

/-- FAR_STACK_LOSS (R33, R260, R627). -/
def execFarStackLoss (f : Nat) (s : State) : Host.Outcome State Fault Refusal := .next (s.loseFarStack f).rouse

end Sys2Proof.Machine
end

