-- ==== Sys2Proof/Machine/Security.lean ====
section
/-! DEFINITION. Homerooms, their commands and their teardown, the homeroom mailbox, and debug (R573 to R617). -/

namespace Sys2Proof.Machine

/-! ### Keys of the part -/

/-- The identity key's seed (R580). -/
def State.idSeed (s : State) : List Byte := hmacSm3 (leBytes 32 (s.fuseField 0 256)) (asciiBytes "B44 id")

/-- The private identity key (R580). -/
def State.idKey (s : State) : Nat := sm2Private s.idSeed

/-- The private alias key (R580): none before an image runs. -/
def State.aliasKey (s : State) : Option Nat :=
  s.boot.image.map fun i => sm2Private (hmacSm3 s.idSeed (i.digest ++ leBytes 4 i.svn))

/-- A public key, x then y. -/
def pubBytes (d : Nat) : List Byte := beBytes 32 (sm2Public d).1 ++ beBytes 32 (sm2Public d).2

/-- An SM2 signature, r then s, under a fresh nonce (R576, log 5), and the state that has taken the nonce. -/
def State.sign (s : State) (key : Nat) (msg : List Byte) : List Byte × State :=
  let (k, t) := s.draw (sm2N - 1)
  let sig := sm2Sign key (k + 1) msg
  (beBytes 32 sig.1 ++ beBytes 32 sig.2, t)

/-! ### The configuration of a homeroom -/

/-- The configuration record (R589). -/
def State.configRecord (s : State) (h : Nat) : List Byte :=
  leBytes 1 h ++ leBytes 1 (s.hrState h) ++ [0#8, 0#8] ++ leBytes 4 (fldGet (s.view (.secHrCtl h)) SEC_HR_CTL_FUNCS) ++
    ((List.range 4).flatMap fun i => leBytes 8 (s.view (.secHrCores h i)).toNat) ++
    ((List.range 16).flatMap fun i => leBytes 8 (s.view (.secHrMap h i)).toNat) ++
    ((List.range 8).flatMap fun w => leBytes 8 (s.view (.secHrWinHost h w)).toNat ++ leBytes 8 (s.view (.secHrWinMap h w)).toNat)

/-- CONFIG_DIGEST (R589). -/
def State.configDigest (s : State) (h : Nat) : List Byte := sm3 (s.configRecord h)

/-- A write that moves a resource wrongly is ignored (R587). -/
def State.refuseMove (s : State) : State := s.fput .secStatus SEC_STATUS_REFUSED 1

/-! ### Teardown -/

/-- Discard what a homeroom has on a pail manager (R604 step 3): its commands complete with FENCED, and its trees go. -/
def State.dropTrees (s : State) (h d : Nat) : State :=
  let m := s.pail d
  let mine := fun (t : Nat) => match smFind m.trees t with | some x => decide (x.hr = h) | none => false
  let s := ((m.waiting ++ m.outside).filter fun e => decide (e.2.hr = h)).foldl (fun s e => s.pailEnd d e.2.tag 0x0B 0) s
  let s := (m.syncs.filter fun y => mine y.tree).foldl (fun s y => s.pailEnd d y.tag 0x0B 0) s
  let s := (m.rings.filter fun e => mine e.2.tree).foldl (fun s e => s.churnEnd d e.1 0x0B) s
  let q := s.pail d
  let part := fun (p : PailPart) =>
    let id := bitsOf p.addr 6 16
    if p.addr % 16 ≤ 6 then (match q.ringOf id with | some e => mine e.2.tree | none => false) else mine (id % 16)
  s.setPail d { q with
    trees := q.trees.filter fun e => decide (e.2.hr ≠ h)
    seqs := q.seqs.filter fun e => !mine e.2.tree
    rings := q.rings.filter fun e => !mine e.2.tree
    pushes := q.pushes.filter fun e => !mine e.tree
    gathers := q.gathers.filter fun e => !mine e.tree
    syncs := q.syncs.filter fun e => !mine e.tree
    nodes := q.nodes.filter fun e => !mine e.tree
    parts := q.parts.filter fun p => !part p
    outside := q.outside.filter fun e => decide (e.2.hr ≠ h)
    waiting := q.waiting.filter fun e => decide (e.2.hr ≠ h) }

/-- The functions of a homeroom (R453). -/
def State.hrFuncs (s : State) (h : Nat) : List Nat := (List.range 17).filter fun f => decide (s.funcHr f = h)

/-- Clear CONF of every ring of a function (R597). -/
def State.clearConf (s : State) (f : Nat) : State :=
  ((List.range 64).filter fun n => decide (s.ringFunc n = f)).foldl (fun s n => s.fput (.ringCfg n) RING_CFG_CONF 0) s

/-- Zeroise every key of a homeroom (R604 step 1): its encrypted sets stay encrypted, under no key. -/
def HrKeys.zeroised (k : HrKeys) : HrKeys := ⟨k.region.map (fun e => (e.1, [])), .none, .none, .none⟩

/-- Ladle commands of a homeroom that wait to start have lost it (R247). -/
def State.cutLadles (s : State) (h : Nat) : State :=
  let cut := fun (c : LadleCmd) => if c.hr = h then { c with cut := true } else c
  { s with ladles := s.ladles.map fun e => (e.1, { e.2 with queue := e.2.queue.map cut, asking := e.2.asking.map cut }) }

/-- The cores of a homeroom (R586). -/
def State.hrCores (s : State) (h : Nat) : List Nat := (List.range 256).filter fun c => decide (s.coreHr c = h)

/-- The slice of a core is to be cleared for another homeroom, once no lesson runs (R190). -/
def State.wantClear (s : State) (c : Nat) : State := s.setNear c { s.near c with clearPending := true }

/-- Start a teardown (R604 steps 1 to 3) of a homeroom that is OPEN or SEALED. -/
def State.beginTeardown (s : State) (h : Nat) : State :=
  if !s.hrActive h then s
  else
    let s := s.fput (.secHrCtl h) SEC_HR_CTL_STATE 3
    let s := s.setHr h { s.hr h with keys := (s.hr h).keys.zeroised }
    let s := (s.hrFuncs h).foldl (fun s f => (s.clearConf f).functionReset f) s
    let s := (s.endLessons h).cutLadles h
    let s := (s.hrCores h).foldl State.wantClear { s with sessions := s.sessions.filter fun x => decide (x.owner ≠ h) }
    ((List.range 4).foldl (fun s d => s.dropTrees h d) s).rouse

/-- Fill a core's desk, slates and banks, and begin to clear its slice, with valid code words (R190, R587, R643): NEAR_STATUS reads clearing
until SLICE_FILL_COMPLETE, from which the core's new homeroom reaches it; a slice that is stopped, or has just been cleared, needs
no clear. -/
def State.clearCore (s : State) (c : Nat) : State :=
  let t := (s.emptyCore c).emptyArrays c
  let st := s.fget (.nearStatus c) NEAR_STATUS_STATE
  let t := if st = 2 ∧ (s.near c).clearPending then t.fput (.nearStatus c) NEAR_STATUS_STATE 3 else t
  let reached := decide (st = 0) || (decide (st = 2) && !(s.near c).clearPending)
  (t.setNear c { t.near c with clearPending := false }).modCore c fun k =>
    { k with failCount := 0, movingTo := if reached then none else k.movingTo }

/-- The clear of a core is complete (R190, R198, R587, R643): its memories, slates and banks hold valid code words. -/
def State.clearedCore (s : State) (c : Nat) : State :=
  let t := (s.emptyCore c).emptyArrays c
  let t := (t.fput (.nearErr c) NEAR_ERR_RETRIED 0).fput (.nearErr c) NEAR_ERR_FAILED 0
  let t := if s.fget (.nearStatus c) NEAR_STATUS_STATE = 3 then t.fput (.nearStatus c) NEAR_STATUS_STATE 2 else t
  (t.setNear c { t.near c with clearPending := false }).modCore c fun k => { k with failCount := 0, movingTo := none }

/-- Open a homeroom (R586). -/
def State.openHr (s : State) (h : Nat) : State :=
  ((s.setHr h Homeroom.init).fput (.secHrCtl h) SEC_HR_CTL_STATE 1).fput (.secHrCtl h) SEC_HR_CTL_PENDING 0

/-- The rest of a teardown (R604 steps 4 to 6, R605): purges, clears, the return of every resource, the event, and a queued OPEN. -/
def State.endTeardown (s : State) (h : Nat) : State :=
  let s := { s with lines := s.lines.filter fun e => decide (e.2.hr ≠ h) }
  let sets := (List.range 128).filterMap fun v => s.mapEntry h v
  let s := sets.foldl State.clearRows s
  let s := (s.hrCores h).foldl State.clearedCore s
  let s := (List.range 4).foldl (fun s i => s.put (.secHrCores h i) 0#64) s
  let s := (List.range 16).foldl (fun s i => s.put (.secHrMap h i) 0#64) s
  let s := (List.range 8).foldl (fun s w => (s.put (.secHrWinHost h w) 0#64).put (.secHrWinMap h w) 0#64) s
  let pend := s.fget (.secHrCtl h) SEC_HR_CTL_PENDING
  let s := ((s.setHr h Homeroom.init).put (.secHrCtl h) 0#64).releaseHeld
  let s := s.raise .sec h 0x000 .secStatus
  if pend = 1 then s.openHr h else s

/-- TEARDOWN_COMPLETE (R604, R605). -/
def execTeardownComplete (hr : Nat) (s : State) : Host.Outcome State Fault Refusal :=
  .next (if s.hrState hr = 3 then (s.endTeardown hr).rouse else s)

/-! ### Moves of resources -/

/-- A homeroom may take or give resources (R587): it is OPEN, and not homeroom 0. -/
def State.hrMovable (s : State) (h : Nat) : Bool := decide (h ≠ 0) && decide (s.hrState h = 1)

/-- One function moves between homeroom 0 and `h` (R587, R597): its rings lose CONF and it is reset first. -/
def State.moveFunc (s : State) (h f : Nat) : State :=
  let bit : Fld := ⟨8 + f, 1⟩
  let held := s.fget (.secHrCtl h) bit
  if f = 0 ∨ (held = 0 ∧ s.funcHr f ≠ 0) then s.refuseMove
  else ((s.clearConf f).functionReset f).fput (.secHrCtl h) bit (1 - held)

/-- A write of `SEC_HR_CTL` (R586, R587, R605, R610, R659): OPEN, then the moves of functions, then TEARDOWN (log 26). -/
def State.hrCtlWrite (s : State) (h : Nat) (w : RegWrite) : State :=
  if h = 0 then s
  else
    let x := s.written (.secHrCtl h) w
    let s := if !x.hit SEC_HR_CTL_OPEN then s
      else if s.phase ≠ 4 then s.refuseMove
      else if s.hrState h = 3 then s.fput (.secHrCtl h) SEC_HR_CTL_PENDING 1
      else if s.hrState h = 0 ∧ s.activeHrs < s.hrMax then s.openHr h
      else s
    let changed := (List.range 17).filter fun f =>
      bitAt (fldGet x.old SEC_HR_CTL_FUNCS) f != bitAt (fldGet x.new SEC_HR_CTL_FUNCS) f
    let s := if changed.isEmpty then s else if s.hrMovable h then changed.foldl (fun s f => s.moveFunc h f) s else s.refuseMove
    if x.hit SEC_HR_CTL_TEARDOWN then s.beginTeardown h else s

/-- HR_OPEN (R586, R605). -/
def execHrOpen (hr : Nat) (w : RegWrite) (s : State) : Host.Outcome State Fault Refusal :=
  .next (s.guarded w.master (.secHrCtl hr) fun s => s.hrCtlWrite hr w)

/-- TEARDOWN_WRITE (R604). -/
def execTeardownWrite (hr : Nat) (w : RegWrite) (s : State) : Host.Outcome State Fault Refusal :=
  .next (s.guarded w.master (.secHrCtl hr) fun s => s.hrCtlWrite hr w)

/-- HR_FUNCS_WRITE (R587, R597). -/
def execHrFuncsWrite (hr : Nat) (w : RegWrite) (s : State) : Host.Outcome State Fault Refusal :=
  .next (s.guarded w.master (.secHrCtl hr) fun s => s.hrCtlWrite hr w)

/-- One core moves between homeroom 0 and `h` (R587): the register changes at once, and the core is reached again when its clear is
done. -/
def State.moveCore (s : State) (h c : Nat) : State :=
  let r := Reg.secHrCores h (c / 64)
  let held := s.fget r ⟨c % 64, 1⟩
  if (s.core c).movingTo.isSome ∨ (held = 0 ∧ s.coreHr c ≠ 0) then s.refuseMove
  else
    let t := (s.fput r ⟨c % 64, 1⟩ (1 - held)).modCore c fun k => { k with movingTo := some (if held = 0 then h else 0) }
    t.wantClear c

/-- A write of `SEC_HR_CORES` i (R587, R590, R611): of a SEALED homeroom every write is refused. -/
def State.hrCoresWrite (s : State) (h i : Nat) (w : RegWrite) : State :=
  let x := s.written (.secHrCores h i) w
  let changed := (List.range 64).filter (x.old ^^^ x.new).getLsbD
  if h = 0 ∨ (changed = [] ∧ s.hrState h ≠ 2) then s
  else if s.hrMovable h then changed.foldl (fun s k => s.moveCore h (64 * i + k)) s else s.refuseMove

/-- HR_CORES_WRITE (R587, R611). -/
def execHrCoresWrite (hr i : Nat) (w : RegWrite) (s : State) : Host.Outcome State Fault Refusal :=
  .next (s.guarded w.master (.secHrCores hr i) fun s => s.hrCoresWrite hr i w)

/-- CORE_MOVE_CLEAR (R190, R587): the clear of a core that moves begins once no lesson runs. -/
def execCoreMoveClear (c : Nat) (s : State) : Host.Outcome State Fault Refusal :=
  .next (if (s.core c).movingTo.isSome ∧ (s.core c).lesson.isNone then s.clearCore c else s)

/-- Entry v of a homeroom's map changes to a byte (R587, R625): the set that leaves and the set that comes are cleared; a set that
homeroom 0 does not hold does not come. -/
def State.moveSet (s : State) (h v b : Nat) : State :=
  let fld : Fld := ⟨8 * (v % 8), 8⟩
  if bitAt b 7 ∧ s.setOwner (b % 128) ≠ some 0 ∧ s.mapEntry h v ≠ some (b % 128) then s.refuseMove
  else
    let gone := s.mapEntry h v
    let s := match gone with | some n => s.clearSet n | none => s
    let s := s.setHr h { s.hr h with keys := { (s.hr h).keys with region := smDel (s.hr h).keys.region v } }
    let s := s.fput (.secHrMap h (v / 8)) fld b
    if bitAt b 7 then s.clearSet (b % 128) else s

/-- A write of `SEC_HR_MAP` i (R587, R590, R612, R625): of a SEALED homeroom every write is refused. -/
def State.hrMapWrite (s : State) (h i : Nat) (w : RegWrite) : State :=
  let x := s.written (.secHrMap h i) w
  let changed := (List.range 8).filter fun k => decide (bitsOf x.old.toNat (8 * k) 8 ≠ bitsOf x.new.toNat (8 * k) 8)
  if h = 0 ∨ (changed = [] ∧ s.hrState h ≠ 2) then s
  else if s.hrMovable h then (changed.foldl (fun s k => s.moveSet h (8 * i + k) (bitsOf x.new.toNat (8 * k) 8)) s).rouse else s.refuseMove

/-- HR_MAP_WRITE (R587, R612). -/
def execHrMapWrite (hr i : Nat) (w : RegWrite) (s : State) : Host.Outcome State Fault Refusal :=
  .next (s.guarded w.master (.secHrMap hr i) fun s => s.hrMapWrite hr i w)

/-- A write of a window register (R587, R613). -/
def State.hrWindowWrite (s : State) (h : Nat) (r : Reg) (w : RegWrite) : State :=
  if s.hrMovable h then s.put r (s.written r w).new else s.refuseMove

/-- HR_WINDOW_WRITE (R587, R613). -/
def execHrWindowWrite (hr win : Nat) (map : Bool) (w : RegWrite) (s : State) : Host.Outcome State Fault Refusal :=
  let r := if map then Reg.secHrWinMap hr win else Reg.secHrWinHost hr win
  .next (s.guarded w.master r fun s => s.hrWindowWrite hr r w)

/-! ### Homeroom commands (R591, R592) -/

/-- The response to a homeroom command, inside the homeroom's session (R591). -/
def State.hrAnswer (s : State) (code status : Nat) (rest : List Byte) : State :=
  s.emit (.office 0x06 (leBytes 1 code ++ leBytes 1 status ++ rest))

/-- A session is established on a homeroom's responder (R584). -/
def State.hrSession (s : State) (h : Nat) : Bool := s.sessions.any fun x => decide (x.owner = h) && x.established

/-- A homeroom command: it comes only inside a session of a homeroom of 1 to 15; the checks answer a status, and on OK the act answers
with its payload (R591, R592). A SEAL or KEY_SET that arrives during the teardown, which has ended the session, answers STATE (R605). -/
def State.hrCommand (s : State) (h code : Nat) (check : Option Nat) (act : State → State × List Byte) : State :=
  if !(decide (1 ≤ h) && decide (h ≤ 15)) then s
  else if s.hrState h = 3 ∧ (code = 0x02 ∨ code = 0x03) then s.hrAnswer code 0x02 []
  else if !s.hrSession h then s
  else match check with
    | some e => s.hrAnswer code e []
    | none => (act s).1.hrAnswer code 0x00 (act s).2

/-- STATE unless the homeroom is OPEN or SEALED. -/
def State.needActive (s : State) (h : Nat) : Option Nat := if s.hrActive h then none else some 0x02

/-- STATE unless the homeroom is SEALED. -/
def State.needSealed (s : State) (h : Nat) : Option Nat := if s.hrState h = 2 then none else some 0x02

/-- HR_QUERY (R589). -/
def execHrQuery (hr : Nat) (s : State) : Host.Outcome State Fault Refusal :=
  .next (s.hrCommand hr 0x01 (s.needActive hr) fun s => (s, s.configRecord hr ++ s.configDigest hr))

/-- Install a key (R593): a region key first clears its set and then enables encryption for it. -/
def State.installKey (s : State) (h kind v : Nat) (key : List Byte) : State :=
  let k16 := key.take 16
  let put := fun (s : State) (f : HrKeys → HrKeys) => s.setHr h { s.hr h with keys := f (s.hr h).keys }
  match kind with
  | 0 =>
    let s := match s.mapEntry h v with | some n => s.clearSet n | none => s
    put s fun k => { k with region := smPut k.region v key }
  | 1 => put s fun k => { k with command := some k16 }
  | 2 => put s fun k => { k with transport := some k16 }
  | _ => put s fun k => { k with fabric := some k16 }

/-- KEY_SET (R593): a command key carries zero in its last 16 bytes. -/
def execKeySet (hr kind v : Nat) (key : List Byte) (s : State) : Host.Outcome State Fault Refusal :=
  let bad := decide (3 < kind) || decide (key.length ≠ 32) || (decide (kind = 0) && (s.mapEntry hr v).isNone) ||
    (decide (kind = 1) && (key.drop 16).any fun b => decide (b ≠ 0#8))
  .next (s.hrCommand hr 0x02 (if bad then some 0x01 else s.needActive hr) fun s => ((s.installKey hr kind v key).rouse, []))

/-- SEAL is forbidden (R581, R606): the entropy source has failed, debug is open, or it has been unlocked. -/
def State.sealDenied (s : State) : Bool :=
  decide (s.fget .secStatus SEC_STATUS_RNG_FAIL = 1) || decide (s.fuseField 1284 4 = 0) || decide (s.fget .secStatus SEC_STATUS_DEBUG_ON = 1)

/-- Seal a homeroom (R590, R595, R599, R601): the epochs of its rings and its egress counters start, and it takes a random salt where
it has none. -/
def State.seal (s : State) (h : Nat) : State :=
  let (salt, t) := match (s.hr h).salt with
    | some x => (x, s)
    | none => s.drawBytes 16
  let t := t.setHr h { t.hr h with salt := some salt, egress := List.replicate 8 (2 ^ 63) }
  let mine := (List.range 64).filter fun n => decide (t.funcHr (t.ringFunc n) = h)
  (mine.foldl (fun s n => s.setSq n { s.sq n with epoch := 0 }) t).fput (.secHrCtl h) SEC_HR_CTL_STATE 2

/-- SEAL (R590, R606). -/
def execSealHomeroom (hr : Nat) (digest : List Byte) (s : State) : Host.Outcome State Fault Refusal :=
  let check := if digest.length ≠ 32 then some 0x01 else if s.hrState hr ≠ 1 then some 0x02 else if s.sealDenied then some 0x03
    else if digest ≠ s.configDigest hr then some 0x04 else none
  .next (s.hrCommand hr 0x03 check fun s => (s.seal hr, []))

/-- A ring may take a new CONF for a homeroom (R596): none where it may. -/
def State.confCheck (s : State) (h ring : Nat) : Option Nat :=
  if 64 ≤ ring ∨ h = 0 then some 0x01
  else if s.funcHr (s.ringFunc ring) ≠ h then some 0x03
  else if s.ringState ring ≠ 0 ∨ (s.hr h).keys.command = none then some 0x02
  else none

/-- RING_CONF (R596). -/
def execRingConf (hr ring conf : Nat) (s : State) : Host.Outcome State Fault Refusal :=
  let check := if 64 ≤ ring then some 0x01 else (s.needSealed hr).or (s.confCheck hr ring)
  .next (s.hrCommand hr 0x04 check fun s => (s.fput (.ringCfg ring) RING_CFG_CONF (conf % 2), []))

/-- RING_QUERY (R591, R595). -/
def execRingQuery (hr ring : Nat) (s : State) : Host.Outcome State Fault Refusal :=
  let check := if 64 ≤ ring then some 0x01 else (s.needSealed hr).or (if s.funcHr (s.ringFunc ring) = hr then none else some 0x03)
  .next (s.hrCommand hr 0x05 check fun s => (s, leBytes 4 (s.sq ring).epoch ++ leBytes 4 (s.fget (.ringSeq ring) RING_SEQ_NEXT)))

/-- A tree of a homeroom is open on some pail manager (R601). -/
def State.treesOpen (s : State) (h : Nat) : Bool := (List.range 4).any fun d => (s.pail d).trees.any fun e => decide (e.2.hr = h)

/-- SALT_SET (R601). -/
def execSaltSet (hr : Nat) (salt : List Byte) (s : State) : Host.Outcome State Fault Refusal :=
  let check := if salt.length ≠ 16 then some 0x01 else (s.needActive hr).or (if s.treesOpen hr then some 0x02 else none)
  .next (s.hrCommand hr 0x06 check fun s => (s.setHr hr { s.hr hr with salt := some salt }, []))

/-- SALT_EXPORT (R601): a SEALED homeroom has a salt. -/
def execSaltExport (hr : Nat) (s : State) : Host.Outcome State Fault Refusal :=
  let check := (s.needSealed hr).or (if s.fuseBit 1293 then none else some 0x03)
  .next (s.hrCommand hr 0x07 check fun s => (s, (s.hr hr).salt.getD []))

/-- FABRIC_SET (R602, R603): a later one replaces the entries. -/
def execFabricSet (hr : Nat) (protect : Bool) (entries : List (Nat × Bool)) (s : State) : Host.Outcome State Fault Refusal :=
  let check := if 16 < entries.length then some 0x01 else s.needSealed hr
  .next (s.hrCommand hr 0x08 check fun s =>
    (s.setHr hr { s.hr hr with fabricSet := entries.map (fun e => (e.1 % 2 ^ 12, e.2)), fabricSeen := true, protect := protect }, []))

/-- TEARDOWN from the tenant (R604): the answer leaves before the session ends. -/
def execTenantTeardown (hr : Nat) (s : State) : Host.Outcome State Fault Refusal :=
  if !(decide (1 ≤ hr) && decide (hr ≤ 15) && s.hrSession hr) then .next s
  else match s.needActive hr with
    | some e => .next (s.hrAnswer 0x09 e [])
    | none => .next ((s.hrAnswer 0x09 0x00 []).beginTeardown hr)

/-! ### The mailbox, the entropy source and debug -/

/-- The end of a mailbox exchange (R584, R614). -/
def State.mboxEnd (s : State) (result len : Nat) : State :=
  let t := (s.fput .secMboxCtl SEC_MBOX_CTL_RESULT result).fput .secMboxCtl SEC_MBOX_CTL_RESP_LEN len
  if result = 0 then t.fput .secMboxCtl SEC_MBOX_CTL_DONE 1 else t

/-- An exchange (R582, R584): the request is read from the buffer; an identity certificate is accepted where its key is the part's; the
response of a homeroom's responder is written into the buffer. -/
def State.mboxRun (s : State) (resp : List Byte) : State :=
  let base := s.fget .secMboxAddr SEC_MBOX_ADDR_BASE * 4096
  let len := s.fget .secMboxCtl SEC_MBOX_CTL_REQ_LEN
  let hr := s.fget .secMboxCtl SEC_MBOX_CTL_HR
  if len = 0 ∨ 4096 < len then s.mboxEnd 1 0
  else match s.hostRead base len with
    | none => s.mboxEnd 2 0
    | some req =>
      if s.fget .secMboxCtl SEC_MBOX_CTL_KIND = 1 then
        if Config.certificateKey req = pubBytes s.idKey then { s with idCert := some req }.mboxEnd 0 0 else s.mboxEnd 3 0
      else if hr = 0 ∨ (req.headD 0#8 ≠ 0x05#8 ∧ req.headD 0#8 ≠ 0x06#8) then s.mboxEnd 3 0
      else (s.hostWrite base (resp.take 4096)).mboxEnd 0 (min 4096 resp.length)

/-- A write of `SEC_MBOX_CTL` (R584, R614). -/
def State.mboxCtlWrite (s : State) (w : RegWrite) (resp : List Byte) : State :=
  let x := s.written .secMboxCtl w
  let t := s.put .secMboxCtl x.new
  if x.hit SEC_MBOX_CTL_GO then t.mboxRun resp else t

/-- MAILBOX_GO (R584). -/
def execMailboxGo (w : RegWrite) (resp : MailboxReply) (s : State) : Host.Outcome State Fault Refusal :=
  .next (s.guarded w.master .secMboxCtl fun s => s.mboxCtlWrite w resp.bytes)

/-- RNG_HEALTH_FAIL (R581). -/
def execRngHealthFail (s : State) : Host.Outcome State Fault Refusal := .next (s.fput .secStatus SEC_STATUS_RNG_FAIL 1)

/-- Unlock debug (R606): only where the policy is Unlockable; every homeroom is torn down. -/
def State.unlockDebug (s : State) : State :=
  if s.fuseField 1284 4 ≠ 5 then s
  else (rangeFrom 1 15).foldl (fun s h => s.beginTeardown h) (s.fput .secStatus SEC_STATUS_DEBUG_ON 1)

/-- A write of `SEC_DEBUG` (R606, R615): host writes are dropped. -/
def State.debugWrite (s : State) (w : RegWrite) (authorised : Bool) : State :=
  if w.master = .office ∧ authorised ∧ (s.written .secDebug w).hit SEC_DEBUG_UNLOCK then s.unlockDebug else s

/-- DEBUG_UNLOCK (R606, R615). -/
def execDebugUnlock (w : RegWrite) (authorised : Bool) (s : State) : Host.Outcome State Fault Refusal :=
  .next (s.guarded w.master .secDebug fun s => s.debugWrite w authorised)

end Sys2Proof.Machine
end

