-- ==== Sys2Proof/Machine/Mesh.lean ====
section
/-! DEFINITION. The mesh, the I/O ring and the common arbiter (R318 to R357). -/

namespace Sys2Proof.Machine

/-! ### Commands of the common arbiter (R337 to R346) -/

/-- The resource of an instance has no room, so its grants are withheld (R225, R241, R339). -/
def State.arbFull (s : State) (d sel : Nat) : Bool :=
  let i := bitsOf sel 8 12
  match bitsOf sel 0 4 with
  | 3 => decide (32 ≤ ((s.farPort (3 * d + i / 64)).waiting.filter fun w => decide (w.pc = i % 64)).length)
  | 5 => decide (16 ≤ (s.ladle (3 * d + i)).queue.length)
  | _ => false

/-- What a grant admits (R337): a request to its pseudo-channel's queue, a command to its ladle port's queue. The accesses of the other
types are made when they are asked for, unless their instance is frozen (log 30). -/
def State.arbEnter (s : State) (d sel r : Nat) : State :=
  let i := bitsOf sel 8 12
  match bitsOf sel 0 4 with
  | 3 => s.enterFar (3 * d + i / 64) (i % 64) r
  | 5 => s.enterLadle (3 * d + i) r
  | _ => s

/-- What an instance lets go as its freeze ends (R342): requests that wait at a bank of the shared cache or at a slice's port. -/
def State.arbThaw (s : State) (d sel : Nat) : State :=
  match bitsOf sel 0 4 with
  | 1 => s.sliceDrain (64 * d + bitsOf sel 8 12)
  | 2 => s.releaseHeld
  | _ => s

/-- ARB_GRANT (R337 to R345): requests arrive, and one pending requester is granted. -/
def execArbGrant (d sel : Nat) (arrivals : List Nat) (s : State) : Host.Outcome State Fault Refusal :=
  if !(arbPresent sel && decide (d < 4) && s.dieUp d) then .next s
  else
    let n := arbRequesters sel
    let a := s.arb d sel
    let s := s.setArb d sel { a with counts := arrivals.foldl (fun c i => if i < n then c.modify i (· + 1) else c) a.counts }
    let s := s.arbPending d sel (s.arbMask d sel)
    if !arbGrants s.variant d sel || (s.arbFull d sel && !s.arbFrozen d sel) then .next s
    else
      match s.arbServe d sel with
      | (t, none) => .next t
      | (t, some r) => .next (t.arbEnter d sel r).rouse

/-- A write of `ARB_CTL` (R342, R353): a LIMIT of 0 is taken as 1; a freeze gives every pending requester a hint of 0xF; as it ends, what it
held goes on. -/
def State.arbCtlWrite (s : State) (d sel : Nat) (w : RegWrite) : State :=
  if !arbPresent sel then s
  else
    let x := s.written (.arbCtl d sel) w
    let t := s.put (.arbCtl d sel) (fldSet x.new ARB_CTL_LIMIT (max 1 (x.field ARB_CTL_LIMIT)))
    if t.arbFrozen d sel ∧ !s.arbFrozen d sel then t.arbFrozenHints d sel (t.fget (.arbStarve d sel) ARB_STARVE_PENDING)
    else if s.arbFrozen d sel ∧ !t.arbFrozen d sel then (t.arbThaw d sel).rouse
    else t

/-- ARB_FREEZE (R342, R353). -/
def execArbFreeze (d sel : Nat) (w : RegWrite) (s : State) : Host.Outcome State Fault Refusal :=
  .next (s.guarded w.master (.arbCtl d sel) fun s => s.arbCtlWrite d sel w)

/-- ARB_DRAIN_COMPLETE (R342, R353): granted work has run to completion. -/
def execArbDrainComplete (d sel : Nat) (s : State) : Host.Outcome State Fault Refusal :=
  .next (if arbPresent sel then s.fput (.arbCtl d sel) ARB_CTL_BUSY 0 else s)

/-- ARB_STAT_CLEAR (R356). -/
def execArbStatClear (d sel : Nat) (w : RegWrite) (s : State) : Host.Outcome State Fault Refusal :=
  .next (s.guarded w.master (.arbStat d sel) fun s =>
    if arbPresent sel then s.clearStat (.arbStat d sel) w ARB_STAT_CLEAR [ARB_STAT_GRANTS, ARB_STAT_MAX_LOSSES] else s)

/-! ### Routers (R318 to R324) -/

/-- A router. -/
def State.router (s : State) (d node : Nat) : RouterSt := smGet RouterSt.init s.routers (64 * d + node)
/-- Replace a router. -/
def State.setRouter (s : State) (d node : Nat) (r : RouterSt) : State := { s with routers := smPut s.routers (64 * d + node) r }

/-- A ring stop. -/
def State.stop (s : State) (d stop : Nat) : StopSt := smGet StopSt.init s.stops (64 * d + stop)
/-- Replace a ring stop. -/
def State.setStop (s : State) (d stop : Nat) (t : StopSt) : State := { s with stops := smPut s.stops (64 * d + stop) t }

/-- Flits in a buffer. -/
def flitsIn (l : List MeshPkt) : Nat := (l.map MeshPkt.flits).sum

/-- A buffer of 8 flits has room for a packet (R321). -/
def bufferRoom (l : List MeshPkt) (p : MeshPkt) : Bool := decide (flitsIn l + p.flits ≤ 8)

/-- The number of a side. -/
def sideIdx : Side → Nat
  | .north => 0 | .east => 1 | .south => 2 | .west => 3

/-- The number of an output. -/
def outIdx : RouterOut → Nat
  | .side s => sideIdx s | .core => 4

/-- The input buffer of a port for a class. -/
def bufferIdx (port : Nat) (cls : PacketClass) : Nat := 2 * port + (if cls = .reply then 1 else 0)

/-- The router beyond a side; none on an outward side (R318). -/
def beyond (node : Nat) : Side → Option Nat
  | .north => if node < 8 then none else some (node - 8)
  | .east => if node % 8 = 7 then none else some (node + 1)
  | .south => if 56 ≤ node then none else some (node + 8)
  | .west => if node % 8 = 0 then none else some (node - 1)

/-- The column or row of a gateway on a side of a router (R323). -/
def gatewayAt (node : Nat) (s : Side) : Side × Nat :=
  match s with
  | .north => (s, node % 8) | .south => (s, node % 8) | _ => (s, node / 8)

/-- Where a packet leaves the mesh (R322, R324): a core's router, or the home gateway of its source core. -/
def meshExit (p : MeshPkt) : Nat × RouterOut :=
  if p.dst < 64 then (p.dst, .core)
  else
    let g := homeGateway (p.src % 64 / 8) (p.src % 8)
    let r := gatewayRouter (gatewayStop g)
    (r.1 * 8 + r.2, .side g.1)

/-- The output that a packet takes at a router (R322): along the row, then along the column. -/
def routerOut (node : Nat) (p : MeshPkt) : RouterOut :=
  let (t, o) := meshExit p
  if node = t then o
  else if node % 8 < t % 8 then .side .east
  else if t % 8 < node % 8 then .side .west
  else if node / 8 < t / 8 then .side .south
  else .side .north

/-- The side opposite to a side. -/
def opposite : Side → Side
  | .north => .south | .south => .north | .east => .west | .west => .east

/-- What lies beyond an output has room for a packet (R321): the next router's input, the gateway's buffer, or the core. -/
def State.meshRoom (s : State) (d node : Nat) (out : RouterOut) (p : MeshPkt) : Bool :=
  match out with
  | .core => true
  | .side e => match beyond node e with
    | some n => bufferRoom ((s.router d n).inputs.getD (bufferIdx (sideIdx (opposite e)) p.cls) []) p
    | none => bufferRoom ((s.stop d (gatewayStop (gatewayAt node e))).waiting.filter fun q => decide (q.cls = p.cls)) p

/-- Send a packet through an output. -/
def State.meshSend (s : State) (d node : Nat) (out : RouterOut) (p : MeshPkt) : State :=
  match out with
  | .core =>
    let r := s.router d node
    (if p.cls = .reply then s.setRouter d node { r with owed := r.owed - p.flits } else s).emit (.deliver d node p.bytes)
  | .side e => match beyond node e with
    | some n =>
      let r := s.router d n
      s.setRouter d n { r with inputs := r.inputs.modify (bufferIdx (sideIdx (opposite e)) p.cls) (· ++ [p]) }
    | none =>
      let g := gatewayStop (gatewayAt node e)
      s.setStop d g { s.stop d g with waiting := (s.stop d g).waiting ++ [p] }

/-- The die passes packets: it is up and no node has failed (R336). -/
def State.meshUp (s : State) (d : Nat) : Bool := decide (d < 4) && s.dieUp d && decide (s.fget (.meshStatus d) MESH_STATUS_FAILED = 0)

/-- Packets that fit a buffer, taken in order (R321). -/
def fill8 (l : List MeshPkt) : List MeshPkt → List MeshPkt
  | [] => l
  | p :: ps => if bufferRoom l p then fill8 (l ++ [p]) ps else l

/-- A packet that a unit may send (R320, R321): of at most four flits, and only a request expects a reply. -/
def MeshPkt.sound (p : MeshPkt) : Bool := decide (p.flits ≤ 4) && decide (p.bytes.length ≤ 64 * p.flits) && (decide (p.cls = .request) || decide (p.reply = 0))

/-- Packets that a node's unit sends, taken in order (R320, R321): each class has room for 8 flits, and a request waits until its sender
holds space for the reply, 8 flits in all (log 75). The buffered packets, and the flits of the replies for which space is held. -/
def enterNode (l : List MeshPkt) (owed : Nat) : List MeshPkt → List MeshPkt × Nat
  | [] => (l, owed)
  | p :: ps =>
    if p.sound && bufferRoom (l.filter fun q => decide (q.cls = p.cls)) p && decide (owed + p.reply ≤ 8) then enterNode (l ++ [p]) (owed + p.reply) ps
    else enterNode l owed ps

/-- ROUTER_PACKET (R320 to R322): the core's packets enter the local port's buffers, and the output is granted to the next input, in
round-robin order, with a packet for it that fits what lies beyond; between the classes of one input a free value decides (log 5). -/
def execRouterPacket (d node : Nat) (out : RouterOut) (inject : List MeshPkt) (s : State) : Host.Outcome State Fault Refusal :=
  if !(s.meshUp d && decide (node < 64)) then .next s
  else
    let r := s.router d node
    let (l, owed) := enterNode (r.inputs.getD (bufferIdx 4 .request) [] ++ r.inputs.getD (bufferIdx 4 .reply) []) r.owed inject
    let of := fun (cls : PacketClass) => l.filter fun p => decide (p.cls = cls)
    let r := { r with owed := owed, inputs := (r.inputs.set (bufferIdx 4 .request) (of .request)).set (bufferIdx 4 .reply) (of .reply) }
    let (first, s) := (s.setRouter d node r).draw 2
    let start := wordAt r.ptrs (outIdx out)
    let pick := ((List.range 5).flatMap fun i => [2 * ((start + i) % 5) + first, 2 * ((start + i) % 5) + (1 - first)]).findSome? fun i =>
      match r.inputs.getD i [] with
      | p :: _ => if routerOut node p = out ∧ s.meshRoom d node out p then some (i, p) else none
      | [] => none
    match pick with
    | none => .next s
    | some (i, p) =>
      .next ((s.setRouter d node { r with inputs := r.inputs.modify i List.tail, ptrs := r.ptrs.set (outIdx out) ((i / 2 + 1) % 5) }).meshSend d node out p)

/-! ### The ring (R325 to R330) -/

/-- The key of a lane's slot at a stop. -/
def slotKey (d : Nat) (clockwise : Bool) (lane stop : Nat) : Nat := ((2 * d + b2n (!clockwise)) * 16 + lane % 16) * 64 + stop

/-- The next stop in a direction (R325 to R327): positions without a stop only pass traffic. -/
def nextStop (v : Variant) (d stop : Nat) (clockwise : Bool) : Option Nat :=
  (stopPosition d stop).bind fun p =>
    (rangeFrom 1 47).findSome? fun k =>
      let q := if clockwise then (p + k) % 48 else (p + 48 - k) % 48
      (List.range 41).find? fun t => stopPresent v t && decide (stopPosition d t = some q)

/-- The stop at which a packet leaves the ring (R324): its own, or the home gateway of the core it goes to. -/
def ringExit (p : MeshPkt) : Nat := if p.dst < 64 then gatewayStop (homeGateway (p.dst / 8) (p.dst % 8)) else p.dst - 64

/-- The lane and direction of a packet that enters the ring at a stop (R328). -/
def ringWay (d stop : Nat) (p : MeshPkt) : Nat × Bool :=
  (ringLane p.cls p.far stop (ringExit p),
    ringClockwise ((stopPosition d stop).getD 0) ((stopPosition d (ringExit p)).getD 0))

/-- Hand over what a stop's input buffers hold (R321, R323): a gateway passes packets to its router's input as far as they fit; a unit
takes replies, for which it holds space, and requests unless it is busy. -/
def State.stopDrain (s : State) (d stop : Nat) (busy : Bool) : State :=
  let t := s.stop d stop
  if stop < 32 then
    let node := (gatewayRouter stop).1 * 8 + (gatewayRouter stop).2
    let port := stop / 8
    let r := s.router d node
    let move := fun (cls : PacketClass) (l : List MeshPkt) =>
      let old := r.inputs.getD (bufferIdx port cls) []
      let new := fill8 old l
      (new, l.drop (new.length - old.length))
    let a := move .request t.req
    let b := move .reply t.rep
    (s.setRouter d node { r with inputs := (r.inputs.set (bufferIdx port .request) a.1).set (bufferIdx port .reply) b.1 }).setStop d stop
      { t with req := a.2, rep := b.2 }
  else ((if busy then [] else t.req) ++ t.rep).foldl (fun s p => s.emit (.deliver d (64 + stop) p.bytes))
    (s.setStop d stop { t with req := if busy then t.req else [], rep := [], owed := t.owed - flitsIn t.rep })

/-- The packet on a lane at its destination enters the stop's buffer, or is held there, which counts once (R329). -/
def State.eject (s : State) (d stop key : Nat) : State :=
  match smFind s.ringSlots key with
  | some x =>
    let t := s.stop d stop
    let l := if x.pkt.cls = PacketClass.request then t.req else t.rep
    if ringExit x.pkt ≠ stop then s
    else if bufferRoom l x.pkt then
      ({ s with ringSlots := smDel s.ringSlots key }).setStop d stop
        (if x.pkt.cls = PacketClass.request then { t with req := t.req ++ [x.pkt] } else { t with rep := t.rep ++ [x.pkt] })
    else if x.held then s
    else ({ s with ringSlots := smPut s.ringSlots key { x with held := true } }).fadd (.meshStat d) MESH_STAT_EJECT_HOLDS 1
  | none => s

/-- The packet that passes a stop on a lane. -/
def State.through (s : State) (d stop lane : Nat) (clockwise : Bool) : Option MeshPkt :=
  match smFind s.ringSlots (slotKey d clockwise lane stop) with
  | some x => if ringExit x.pkt = stop then none else some x.pkt
  | none => none

/-- Show which requesters of a stop's arbiter have a packet pending on any lane of its direction (R355). -/
def State.stopPending (s : State) (d stop : Nat) (clockwise : Bool) : State :=
  s.arbPending d (arbSelOf 4 (stop * 2 + b2n (!clockwise)))
    (b2n ((List.range 16).any fun l => (s.through d stop l clockwise).isSome) +
      2 * b2n ((s.stop d stop).waiting.any fun p => decide ((ringWay d stop p).2 = clockwise)))

/-- A unit's packets wait at its stop, as far as there is room (R320, R321, R343). -/
def State.stopEnter (s : State) (d stop : Nat) (inject : List MeshPkt) : State :=
  let t := s.stop d stop
  let (l, owed) := enterNode t.waiting t.owed inject
  if stop < 32 then s else s.setStop d stop { t with waiting := l, owed := owed }

/-- The decision of a stop's arbiter for a lane (R329, R342): the packet that is granted moves to the lane's slot at the next stop. -/
def State.stopGrant (s : State) (d stop next lane : Nat) (clockwise : Bool) : State :=
  let ahead := slotKey d clockwise lane next
  let through := s.through d stop lane clockwise
  let loc := (s.stop d stop).waiting.find? fun p => decide (ringWay d stop p = (lane % 16, clockwise))
  let mask := b2n through.isSome + 2 * b2n loc.isSome
  let sel := arbSelOf 4 (stop * 2 + b2n (!clockwise))
  if mask = 0 || ((smFind s.ringSlots ahead).isSome && !s.arbFrozen d sel) then s
  else match s.arbDecide d sel mask (fun r => mask - 2 ^ r), through, loc with
    | (t, some 0), some p, _ => { t with ringSlots := smPut (smDel t.ringSlots (slotKey d clockwise lane stop)) ahead ⟨p, false⟩ }
    | (t, some 1), _, some p =>
      { t with ringSlots := smPut t.ringSlots ahead ⟨p, false⟩ }.setStop d stop { t.stop d stop with waiting := (t.stop d stop).waiting.erase p }
    | (t, _), _, _ => t

/-- RING_STOP_PACKET (R328, R329): what has arrived at the stop is handed over, its unit's packets wait for their lanes, a packet at
its destination is ejected, and the stop's arbiter decides between a through and a local packet for the lane ahead. -/
def execRingStopPacket (d stop lane : Nat) (clockwise busy : Bool) (inject : List MeshPkt) (s : State) : Host.Outcome State Fault Refusal :=
  if !(s.meshUp d && stopPresent s.variant stop) then .next s
  else
    let s := ((s.stopDrain d stop busy).stopEnter d stop inject).eject d stop (slotKey d clockwise lane stop)
    match nextStop s.variant d stop clockwise with
    | none => .next s
    | some n => .next ((s.stopGrant d stop n lane clockwise).stopPending d stop clockwise)

/-- MESH_STAT_CLEAR (R351). -/
def execMeshStatClear (d : Nat) (w : RegWrite) (s : State) : Host.Outcome State Fault Refusal :=
  .next (s.guarded w.master (.meshStat d) fun s => s.clearStat (.meshStat d) w MESH_STAT_CLEAR [MESH_STAT_EJECT_HOLDS])

end Sys2Proof.Machine
end

