-- ==== Sys2Proof/Machine/Crossings.lean ====
section
/-! DEFINITION. Crossings between clocked islands and the handshake world (R358 to R375). -/

namespace Sys2Proof.Machine

/-- A crossing. -/
def State.xing (s : State) (d sel : Nat) : XingSt := smGet XingSt.init s.xings (selKey d sel)
/-- Replace a crossing. -/
def State.setXing (s : State) (d sel : Nat) (x : XingSt) : State := { s with xings := smPut s.xings (selKey d sel) x }

/-- A crossing of a kind exists on a die that is up (R358). -/
def State.xingIs (s : State) (d sel : Nat) (k : XingKind) : Bool := decide (xingKind s.variant d sel = some k) && s.dieUp d

/-- The event of a crossing (R364, R369, R496). -/
def State.xingEvent (s : State) (d : Nat) : State :=
  if s.fget (.xingCtl d) XING_CTL_INT_EN = 1 then s.raise .xing d 0x018 (.xingSum d) else s

/-- Record a delivery latency of a crossing (R366, R374): from `lo` to `lo + n − 1` clocks, as a free value says (log 5). -/
def State.xingLatency (s : State) (d sel lo n : Nat) : State :=
  let (v, t) := s.draw n
  t.fput (.xingStatus d sel) XING_STATUS_LAT_MAX (min 0xFFFF (max (lo + v) (t.fget (.xingStatus d sel) XING_STATUS_LAT_MAX)))

/-- SIGNAL_RAISE (R360, R361): an event begins a round trip, or adds to the pending count; at 15 its producer is held. -/
def execSignalRaise (d sel : Nat) (s : State) : Host.Outcome State Fault Refusal :=
  if !s.xingIs d sel .single then .next s
  else
    let x := s.xing d sel
    .next (s.setXing d sel (if !x.trip then { x with trip := true }
      else if x.events < 15 then { x with events := x.events + 1 } else { x with producers := x.producers + 1 }))

/-- SIGNAL_ROUND_TRIP (R360, R361): the round trip carries its event; the next begins where one is pending, and a held producer's event
then takes the place that falls free. -/
def execSignalRoundTrip (d sel : Nat) (s : State) : Host.Outcome State Fault Refusal :=
  let x := s.xing d sel
  if !(s.xingIs d sel .single && x.trip) then .next s
  else
    let t := (s.emit (.crossing d sel 1)).xingLatency d sel 2 2
    .next (t.setXing d sel (if x.events = 0 then { x with trip := false }
      else if x.producers = 0 then { x with events := x.events - 1 } else { x with producers := x.producers - 1 }))

/-- The entries of a crossing's queue (R364, R365): 4 after a fallback, else 4 to 32 (log 72). -/
def State.xingDepth (s : State) (d sel : Nat) : Nat :=
  if xingKind s.variant d sel = some .queue then 4 + Config.xingDepth (selKey d sel) % 29 else 4

/-- Values enter a crossing's queue in their order, each available to the other side within 3 to `3 + n − 1` clocks, while there is room;
a full queue holds the rest (R365). -/
def State.xingEnter (s : State) (d sel n : Nat) (vs : List Nat) : State :=
  let x := s.xing d sel
  let room := s.xingDepth d sel - x.queue.length
  let t := s.setXing d sel { x with queue := x.queue ++ vs.take room, waiting := vs.drop room }
  (vs.take room).foldl (fun s v => (s.emit (.crossing d sel v)).xingLatency d sel 3 n) t

/-- A value is written to a crossing's queue (R365). Its reader has meanwhile taken as many as a free value says (log 72). -/
def State.xingWrite (s : State) (d sel v : Nat) : State :=
  let (n, s) := s.draw ((s.xing d sel).queue.length + 1)
  let x := s.xing d sel
  (s.setXing d sel { x with queue := x.queue.drop n }).xingEnter d sel 4 (x.waiting ++ [v])

/-- Put an agreed-sample crossing into queue mode (R364, R366): the value under transfer passes through the queue once, with the delay of
the changeover, and then those behind it. -/
def State.xingFallback (s : State) (d sel : Nat) (forced : Bool) : State :=
  let x := s.xing d sel
  let t := (s.fput (.xingStatus d sel) XING_STATUS_FALLBACK 1).fput (.xingStatus d sel) XING_STATUS_FORCED (b2n forced)
  let t := (t.setXing d sel { x with failing := none, waiting := [] }).xingEnter d sel 13 x.failing.toList
  (x.waiting.foldl (fun s v => s.xingWrite d sel v) t).xingEvent d

/-- SAMPLE_PRESENT (R362 to R366): a value of 64 bits is accepted at the `attempts`-th attempt and delivered within 2 to 4 clocks, or is
written to the queue in queue mode; where eight attempts have failed it waits for the changeover, and later values wait behind it. The
command ends when acceptance has been returned, so the next value finds the crossing free (log 73). -/
def execSamplePresent (d sel value attempts : Nat) (s : State) : Host.Outcome State Fault Refusal :=
  if !s.xingIs d sel .sample then .next s
  else
    let v := value % 2 ^ 64
    let x := s.xing d sel
    if s.fget (.xingStatus d sel) XING_STATUS_FALLBACK = 1 then .next (s.xingWrite d sel v)
    else if x.failing.isSome then .next (s.setXing d sel { x with waiting := x.waiting ++ [v] })
    else if attempts ≤ 8 then
      .next ((((s.fadd (.xingStatus d sel) XING_STATUS_DISAGREE (attempts - 1)).fput (.xingStatus d sel) XING_STATUS_RUN 0).emit
        (.crossing d sel v)).xingLatency d sel (min 4 (max 2 (attempts + 1))) (5 - min 4 (max 2 (attempts + 1))))
    else
      .next (((s.fadd (.xingStatus d sel) XING_STATUS_DISAGREE 8).fput (.xingStatus d sel) XING_STATUS_RUN 8).setXing d sel { x with failing := some v })

/-- SAMPLE_FALLBACK (R364). -/
def execSampleFallback (d sel : Nat) (s : State) : Host.Outcome State Fault Refusal :=
  .next (if s.xingIs d sel .sample && (s.xing d sel).failing.isSome then s.xingFallback d sel false else s)

/-- QUEUE_WRITE (R365): the value is available to the other side, in order; a full queue holds it. -/
def execQueueWrite (d sel value : Nat) (s : State) : Host.Outcome State Fault Refusal :=
  .next (if s.xingIs d sel .queue then s.xingWrite d sel value else s)

/-- CROSSING_STALL (R369, R373): a STALL_LIMIT of 0 disables the check. -/
def execCrossingStall (d sel : Nat) (s : State) : Host.Outcome State Fault Refusal :=
  .next (if (xingKind s.variant d sel).isSome && s.dieUp d && decide (s.fget (.xingCtl d) XING_CTL_STALL_LIMIT ≠ 0) then
      (s.fput (.xingStatus d sel) XING_STATUS_STALLED 1).xingEvent d
    else s)

/-- A write of `XING_CTL` (R370, R373): FORCE acts on the agreed-sample crossing that the master's `XING_SEL` names. -/
def State.xingCtlWrite (s : State) (d : Nat) (w : RegWrite) : State :=
  let x := s.written (.xingCtl d) w
  let t := s.put (.xingCtl d) x.new
  let sel := bitsOf (t.get (.xingSel d w.master.copy)).toNat 0 20
  if x.hit XING_CTL_FORCE && decide (xingKind t.variant d sel = some .sample) && decide (t.fget (.xingStatus d sel) XING_STATUS_FALLBACK = 0) then
    t.xingFallback d sel true
  else t

/-- XING_FORCE (R370, R373). -/
def execXingForce (d : Nat) (w : RegWrite) (s : State) : Host.Outcome State Fault Refusal :=
  .next (s.guarded w.master (.xingCtl d) fun s => s.xingCtlWrite d w)

end Sys2Proof.Machine
end

