-- ==== Sys2Proof/Machine/D2D.lean ====
section
/-! DEFINITION. Die-to-die links, heartbeats and the loss of dies (R30, R33, R335, R336, R376 to R406). -/

namespace Sys2Proof.Machine

/-! ### Ends and modules -/

/-- Count an end's modules by width (R404). -/
def State.countModules (s : State) (d e : Nat) : State :=
  let n := fun w => ((List.range (edgeModules s.variant d e)).filter fun m => decide (s.moduleWidth d e m = w)).length
  ((s.fput (.d2dEdgeStatus d e) D2D_EDGE_STATUS_FULL (n 0)).fput (.d2dEdgeStatus d e) D2D_EDGE_STATUS_HALF (n 1)).fput
    (.d2dEdgeStatus d e) D2D_EDGE_STATUS_RETIRED (n 2)

/-- Put a field of a module's register at both ends, and count again. -/
def State.putBoth (s : State) (d e m : Nat) (f : Fld) (v : Nat) : State :=
  let t := (s.fput (.d2dModule d e m) f v).countModules d e
  match otherEnd s.variant d e with
  | some (p, g) => (t.fput (.d2dModule p g m) f v).countModules p g
  | none => t

/-- The event of a module (R390, R496). -/
def State.moduleEvent (s : State) (d e m : Nat) : State :=
  if s.fget (.d2dCtl d) D2D_CTL_INT_EN = 1 then
    let ev : Event := ⟨blockCode .d2d, d, 0x018, (s.get (.d2dModule d e m)).toNat + e * 2 ^ 48 + m * 2 ^ 56⟩
    (s.raiseHost ev).raiseOffice ev
  else s

/-! ### Flits (R377 to R386) -/

/-- A link flit with its CRC (R377). -/
def dieFlit (seq ack : Nat) (content : List Byte) : List Byte :=
  let body := leBytes 1 seq ++ leBytes 1 ack ++ content ++ List.replicate (250 - content.length) 0#8
  body ++ leBytes 4 (crc32c body)

/-- A link control packet (R382). -/
def linkControl (kind : Nat) (rest : List Byte) : LinkPkt :=
  ⟨0, .request, 96, 0, [0xFF#8, BitVec.ofNat 8 kind] ++ rest ++ List.replicate (14 - rest.length) 0#8⟩

/-- A ROUTE (R382, R386), which goes in its place among the packets of its key's class. -/
def linkRoute (key m : Nat) : LinkPkt :=
  { linkControl 0x04 (leBytes 2 key ++ leBytes 1 m) with cls := if key < 48 then .request else .reply }

/-- A packet that no packet of its class holds up (R383): link control but for ROUTE. -/
def LinkPkt.free (p : LinkPkt) : Bool := decide (p.key = 96) && decide (p.bytes.getD 1 0#8 ≠ 0x04#8)

/-- Send a flit of a module's end. -/
def State.sendDieFlit (s : State) (d e m seq : Nat) (content : List Byte) : State :=
  s.emit (.die d e m (dieFlit seq ((s.module d e m).expected + 255) content))

/-- Send the next flit of a module's end, which its replay buffer keeps with the packets that end in it (R377, R380). -/
def State.putDieFlit (s : State) (d e m : Nat) (content : List Byte) (ends : List LinkPkt) : State :=
  let x := s.module d e m
  (s.setModule d e m { x with next := (x.next + 1) % 256, unacked := x.unacked ++ [⟨x.next, content, ends⟩] }).sendDieFlit d e m x.next content

/-- The division of the clock of an edge's module islands (R439, R553). -/
def State.dieDivider (s : State) (d e : Nat) : Nat := s.divider (768 + 4 * d + e)

/-- Send content (R378, R553): while the island's clock is divided by n, in one flit of every n, and padding in the others. -/
def State.sendStream (d e m : Nat) : State → List (List Byte × List LinkPkt) → State
  | s, [] => s
  | s, c :: cs =>
    (Nat.repeat (fun s => if 128 ≤ (s.module d e m).unacked.length then s else s.putDieFlit d e m [] []) (s.dieDivider d e - 1)
      (s.putDieFlit d e m c.1 c.2)).sendStream d e m cs

/-- Credits of a class at a module's end. -/
def ModuleSt.credit (x : ModuleSt) (cls : PacketClass) : Nat := match cls with | .request => x.credReq | .reply => x.credRep

/-- The waiting packets that a module can send now, in order (R380, R383): a packet of a class without credit holds those behind it of its
class; no more than `room` flits go. -/
def linkTake (room : Nat) : Nat → Nat → Nat → List PacketClass → List LinkPkt → List LinkPkt
  | _, _, _, _, [] => []
  | n, cq, cr, held, p :: ps =>
    let credit := match p.cls with | .request => cq | .reply => cr
    let spent := if p.key = 96 then 0 else 1
    if !p.free && (held.contains p.cls || decide (credit < spent)) then linkTake room n cq cr (p.cls :: held) ps
    else if room < ceilDiv (n + p.bytes.length) 250 then []
    else match p.cls with
      | .request => p :: linkTake room (n + p.bytes.length) (cq - spent) cr held ps
      | .reply => p :: linkTake room (n + p.bytes.length) cq (cr - spent) held ps

/-- Packets of a class that take a credit. -/
def spends (ps : List LinkPkt) (cls : PacketClass) : Nat := (ps.filter fun p => decide (p.key ≠ 96) && decide (p.cls = cls)).length

/-- Send what a module can send (R378, R380, R383): it is in use, and its edge is up and itself not under repair. -/
def State.pumpModule (s : State) (d e m : Nat) : State :=
  let x := s.module d e m
  let go := linkTake (ceilDiv (128 - x.unacked.length) (s.dieDivider d e)) 0 x.credReq x.credRep [] x.queue
  if !s.edgeUp d e || !s.moduleActive d e m || x.repairing || go.isEmpty then s
  else
    (s.setModule d e m { x with queue := go.foldl List.erase x.queue, credReq := x.credReq - spends go .request,
                                credRep := x.credRep - spends go .reply }).sendStream d e m (packStream 250 LinkPkt.bytes go)

/-- Send a link control packet of a module ahead of what waits. -/
def State.linkControlSend (s : State) (d e m : Nat) (p : LinkPkt) : State :=
  (s.setModule d e m { s.module d e m with queue := p :: (s.module d e m).queue }).pumpModule d e m

/-- Resend the unacknowledged flits of a module's end from a number of its replay buffer (R380, R390), while its edge is up (R398). -/
def State.resend (s : State) (d e m from' : Nat) : State :=
  if s.edgeUp d e then ((s.module d e m).unacked.drop from').foldl (fun s r => s.sendDieFlit d e m r.seq r.content) s else s

/-- A resend under R380 counts (R405). -/
def State.resendCounted (s : State) (d e m from' : Nat) : State :=
  if (s.module d e m).unacked.isEmpty then s else (s.fadd (.d2dModule d e m) D2D_MODULE_RESENDS 1).resend d e m from'

/-- The check field of a packet's data (R378): the check bits of each whole aligned granule, as the mesh header sideband brought them. -/
def checkField (off : Nat) (data : List Byte) (chk : List Nat) : List Byte :=
  (List.range (wholeGranules off data.length).length).flatMap fun i => leBytes 2 (wordAt chk i)

/-- A packet cannot be delivered (R393, R397): the request that it carries or answers completes with DIE_LOST at its requester, which its
header names. -/
def State.linkLost (s : State) (p : LinkPkt) : State := s.emit (.message "DIE_LOST" (p.bytes.map BitVec.toNat))

/-- A packet waits at the module that its flow key's entry names, on the first edge of the path to its die (R30, R383, R384, R393). -/
def State.sendLink (s : State) (d : Nat) (p : LinkPkt) : State :=
  match s.firstHop d p.dst with
  | none => s.linkLost p
  | some e =>
    let g := s.edge d e
    let m := wordAt g.mapTx p.key
    let x := s.module d e m
    ((s.setEdge d e { g with nextId := g.nextId + 1 }).setModule d e m { x with queue := x.queue ++ [{ p with id := g.nextId }] }).pumpModule d e m

/-- D2D_PACKET_SEND (R30, R378, R383, R384, R393). -/
def execD2dPacketSend (d dst : Nat) (cls : PacketClass) (lane srcStop : Nat) (hdr data : List Byte) (side : Sideband) (s : State) :
    Host.Outcome State Fault Refusal :=
  if !s.dieUp d ∨ hdr.length ≠ 16 ∨ hdr.getD 0 0#8 = 0#8 ∨ hdr.getD 0 0#8 = 0xFF#8 ∨ 256 < data.length then .next s
  else .next (s.sendLink d ⟨0, cls, flowKey cls (lane % 16) srcStop, dst, hdr ++ data ++ checkField side.off data side.chk⟩)

/-! ### Retirement (R386, R392, R393) -/

/-- An end moves the flows of a retired module to the next active one (R386): packets that it had not acknowledged go first, then a
ROUTE for each moved key, then what waited. With no active module left (R393), those in flight are lost, and what waited takes
another path. -/
def State.moveFlows (s : State) (d e m : Nat) : State :=
  let n := edgeModules s.variant d e
  let g := s.edge d e
  let old := s.module d e m
  let s := s.setModule d e m { old with unacked := [], queue := [], part := [], bad := none, naking := false, repairing := false }
  let again := (old.unacked.flatMap LinkFlitRec.pkts).filter fun p => decide (p.key < 96)
  let waited := old.queue.filter fun p => decide (p.key < 96)
  match ((rangeFrom 1 (n - 1)).map fun k => (m + k) % n).find? (s.moduleActive d e) with
  | none => waited.foldl (fun s p => s.sendLink d p) ((again ++ g.held).foldl State.linkLost (s.setEdge d e { g with held := [] }))
  | some t =>
    let routes := ((List.range 96).filter fun k => decide (wordAt g.mapTx k = m)).map fun k => linkRoute k t
    let x := s.module d e t
    ((s.setEdge d e { g with mapTx := g.mapTx.map fun j => if j = m then t else j }).setModule d e t
      { x with queue := again ++ routes ++ waited ++ x.queue }).pumpModule d e t

/-- Put an edge's STATE at both ends. -/
def State.edgeBoth (s : State) (d e v : Nat) : State :=
  let t := s.fput (.d2dEdgeStatus d e) D2D_EDGE_STATUS_STATE v
  match otherEnd s.variant d e with
  | some (p, g) => t.fput (.d2dEdgeStatus p g) D2D_EDGE_STATUS_STATE v
  | none => t

/-- Retire a module (R386, R392): its flows move at both ends and an event is raised; with its last module the edge is down (R393). -/
def State.retire (s : State) (d e m : Nat) : State :=
  if !s.moduleActive d e m then s
  else
    let t := s.putBoth d e m D2D_MODULE_WIDTH 2
    let t := if (List.range (edgeModules s.variant d e)).any (t.moduleActive d e) then t else t.edgeBoth d e 2
    let t := t.moveFlows d e m
    let t := match otherEnd s.variant d e with
      | some (p, g) => t.moveFlows p g m
      | none => t
    t.moduleEvent d e m

/-! ### Lanes (R379, R381, R388 to R391) -/

/-- The physical lanes of a direction that are good. -/
def goodLanes (failed : Nat) : List Nat := (List.range 18).filter fun p => !failed.testBit p

/-- The width for a number of good lanes in each direction (R388, R391, R392): 0 full, 1 half, 2 retired. -/
def widthFor (a b : Nat) : Nat := if min a b < 8 then 2 else if min a b < 16 then 1 else 0

/-- Count the errors of a flit against the lanes that carried it (R381). -/
def laneErrors (width failed : Nat) (errs : List Nat) (a b : List Byte) : List Nat :=
  let w := if width = 1 then 8 else 16
  (List.range 256).foldl (fun l i =>
    let n := popcount 8 (a.getD i 0#8 ^^^ b.getD i 0#8).toNat
    if n = 0 then l else l.modify ((goodLanes failed).getD (i % w) 0) (· + n)) errs

/-- A module takes the width that the good lanes of each direction allow (R388, R391), or is retired (R392). -/
def State.fitWidth (s : State) (d e m : Nat) : State :=
  match otherEnd s.variant d e with
  | none => s
  | some (p, g) =>
    let w := widthFor (goodLanes (s.module d e m).failed).length (goodLanes (s.module p g m).failed).length
    if w = 2 then s.retire d e m else s.putBoth d e m D2D_MODULE_WIDTH w

/-- Mark lanes that a module's end receives on as failed (R389, R405). -/
def State.failLanes (s : State) (d e m bad : Nat) : State :=
  let x := s.module d e m
  (s.setModule d e m { x with failed := x.failed ||| bad }).putBoth d e m D2D_MODULE_FAILED (s.fget (.d2dModule d e m) D2D_MODULE_FAILED ||| bad)

/-- The UNIT of a die-link lane in the defect list (R670). -/
def laneUnit (d e m p : Nat) : Nat := d + 8 * e + 32 * m + 1024 * p

/-- Mark the lanes that have reached the limit as failed, enter them in the defect list, and begin a repair (R389, R390, R667). -/
def State.markLanes (s : State) (d e m : Nat) : State :=
  let x := s.module d e m
  let bad := (goodLanes x.failed).filter fun p => decide (s.fget (.d2dCtl d) D2D_CTL_LANE_LIMIT ≤ wordAt x.laneErrs p)
  if bad.isEmpty then s
  else
    let t := bad.foldl (fun s p => s.addDefect ⟨5, laneUnit d e m p, 0, 3⟩) (s.failLanes d e m (maskOf bad))
    let t := t.setModule d e m { t.module d e m with repairing := true }
    match otherEnd s.variant d e with
    | some (p, g) =>
      let u := t.setModule p g m { t.module p g m with repairing := true }
      if widthFor (goodLanes (u.module d e m).failed).length (goodLanes (u.module p g m).failed).length = 2 then u.retire d e m else u
    | none => t

/-- A lane is found failed at training, or is named by the defect list (R389, R662, R666): at the receiving end of the die that its UNIT
names. DEDUCED (log 76). -/
def State.markLane (s : State) (unit : Nat) : State :=
  let d := bitsOf unit 0 3
  let e := bitsOf unit 3 2
  let m := bitsOf unit 5 5
  let p := bitsOf unit 10 5
  if edgeModules s.variant d e ≤ m ∨ 18 ≤ p then s else (s.failLanes d e m (2 ^ p)).fitWidth d e m

/-! ### Receiving (R380 to R383) -/

/-- Hand over a packet that has crossed; its credit returns as it enters its stop (R383). -/
def State.handOver (s : State) (d e m : Nat) (p : LinkPkt) : State :=
  (s.emit (.deliver d (99 + e) p.bytes)).linkControlSend d e m
    (linkControl 0x02 (leBytes 2 (b2n (decide (p.cls = .request))) ++ leBytes 2 (b2n (decide (p.cls = .reply)))))

/-- A NAK arrives (R380, R382): the sender resends from the named flit, which acknowledges those before it. -/
def State.nakArrives (s : State) (d e m seq : Nat) : State :=
  let x := s.module d e m
  match x.unacked.findIdx? fun r => decide (r.seq = seq % 256) with
  | some i =>
    let t := s.setModule d e m { x with unacked := x.unacked.drop i }
    if s.edgeUp d e && s.moduleActive d e m && !x.repairing then (t.resendCounted d e m 0).pumpModule d e m else s
  | none => s

/-- Credits arrive (R382, R383). -/
def State.creditArrives (s : State) (d e m req rep : Nat) : State :=
  let x := s.module d e m
  if s.edgeUp d e then
    (s.setModule d e m { x with credReq := min 32 (x.credReq + req), credRep := min 32 (x.credRep + rep) }).pumpModule d e m
  else s

/-- GOODBYE arrives (R395, R398): the peer has gone; nothing more is sent to it. -/
def State.goodbyeArrives (s : State) (d e : Nat) : State :=
  if (edgePeer s.variant d e).isSome && s.dieUp d then s.fput (.d2dEdgeStatus d e) D2D_EDGE_STATUS_STATE 4 else s

/-- A ROUTE arrives (R382, R386): the receiver releases packets of the key from the module named. -/
def State.routeArrives (s : State) (d e key newModule : Nat) : State :=
  if !(s.edgeUp d e && decide (key < 96) && decide (newModule < edgeModules s.variant d e)) then s
  else
    let g := s.edge d e
    let t := s.setEdge d e { g with mapRx := g.mapRx.set key newModule, held := g.held.filter fun p => decide (p.key ≠ key) }
    (g.held.filter fun p => decide (p.key = key)).foldl (fun s p => s.handOver d e newModule p) t

/-- A packet has crossed: a link control packet acts (R382), another is handed over, or held until its key's ROUTE arrives (R386). -/
def State.crossed (s : State) (d e m : Nat) (p : LinkPkt) : State :=
  let b := fun i => (p.bytes.getD i 0#8).toNat
  if p.key = 96 then
    match b 1 with
    | 0x01 => s.nakArrives d e m (b 2)
    | 0x02 => s.creditArrives d e m (b 2 + 256 * b 3) (b 4 + 256 * b 5)
    | 0x03 => s.goodbyeArrives d e
    | 0x04 => s.routeArrives d e (b 2 + 256 * b 3) (b 4)
    | _ => s
  else if wordAt (s.edge d e).mapRx p.key = m then s.handOver d e m p
  else s.setEdge d e { s.edge d e with held := (s.edge d e).held ++ [p] }

/-- A NAK for the flit expected (R380). -/
def State.sendNak (s : State) (d e m : Nat) : State :=
  let x := s.module d e m
  (s.setModule d e m { x with naking := true }).linkControlSend d e m (linkControl 0x01 (leBytes 1 x.expected))

/-- Drop what a flit acknowledges from the replay buffer (R377, R380). -/
def ackTrim (l : List LinkFlitRec) (ack : Nat) : List LinkFlitRec :=
  match l.findIdx? fun r => decide (r.seq = ack) with
  | some i => l.drop (i + 1)
  | none => l

/-- The record of a flit in the replay buffer of the end that sent it. -/
def State.sentFlit (s : State) (d e m seq : Nat) : Option LinkFlitRec :=
  (otherEnd s.variant d e).bind fun o => (s.module o.1 o.2 m).unacked.find? fun r => decide (r.seq = seq)

/-- Take the packets that end in a flit from the stream of bytes received (R378): 0x00 at a packet boundary is padding, and how long each
packet is, which its header says, is the sender's record's (log 22). What is not whole is kept. -/
def State.takeStream (d e m : Nat) : State → List Byte → List LinkPkt → State
  | s, bs, [] => s.setModule d e m { s.module d e m with part := bs.dropWhile (· == 0#8) }
  | s, bs, p :: ps =>
    let now := bs.dropWhile (· == 0#8)
    (s.crossed d e m { p with bytes := now.take p.bytes.length }).takeStream d e m (now.drop p.bytes.length) ps

/-- A flit of padding comes from a peer that has nothing to send (R377): its number is used. -/
def State.peerIdle (s : State) (d e m seq : Nat) : State :=
  match otherEnd s.variant d e with
  | some (p, g) =>
    let y := s.module p g m
    if y.next = seq ∧ y.unacked.length < 128 then s.setModule p g m { y with next := (seq + 1) % 256, unacked := y.unacked ++ [⟨seq, [], []⟩] }
    else s
  | none => s

/-- A flit that is the one expected is accepted (R377 to R381): it acknowledges, its errors are counted against lanes, and the packets that
end in it have crossed. -/
def State.acceptFlit (s : State) (d e m : Nat) (bytes : List Byte) : State :=
  let x := s.module d e m
  let seq := x.expected
  let errs := match x.bad with
    | some b => if b.1 = seq then laneErrors (s.moduleWidth d e m) x.failed x.laneErrs b.2 bytes else x.laneErrs
    | none => x.laneErrs
  let t := s.setModule d e m { x with expected := (seq + 1) % 256, naking := false, bad := if (x.bad.map Prod.fst) = some seq then none else x.bad,
                                      laneErrs := errs, unacked := ackTrim x.unacked (bytes.getD 1 0#8).toNat }
  let content := (bytes.drop 2).take 250
  let t := match s.sentFlit d e m seq with
    | some r => t.takeStream d e m (x.part ++ content) r.pkts
    | none => if content.all (· == 0#8) then t.peerIdle d e m seq else t
  (t.pumpModule d e m).markLanes d e m

/-- The packets of a flit that comes from a die that is lost are dropped and counted (R397). -/
def State.lateFlit (s : State) (d e m : Nat) (bytes : List Byte) : State :=
  match s.sentFlit d e m (bytes.getD 0 0#8).toNat with
  | some r => s.fadd (.d2dStat d) D2D_STAT_LATE_DROPS (r.pkts.filter fun p => decide (p.key < 96)).length
  | none => s

/-- D2D_FLIT_RECEIVE (R377 to R384, R389, R397): the flit is accepted whole and in order, or a NAK is sent: for each one that fails its CRC,
and for the first out of order; what arrives from a die that is lost is dropped and counted. -/
def execD2dFlitReceive (d e m : Nat) (bytes : List Byte) (s : State) : Host.Outcome State Fault Refusal :=
  if !(s.dieUp d && (edgePeer s.variant d e).isSome) ∨ bytes.length ≠ 256 then .next s
  else if s.edgeState d e = 3 ∨ s.edgeState d e = 4 then .next (s.lateFlit d e m bytes)
  else if !s.edgeUp d e || !s.moduleActive d e m || (s.module d e m).repairing then .next s
  else
    let x := s.module d e m
    let seq := (bytes.getD 0 0#8).toNat
    if leNat (bytes.drop 252) ≠ crc32c (bytes.take 252) then
      .next ((s.setModule d e m { x with bad := x.bad.or (some (if x.naking then seq else x.expected, bytes)) }).sendNak d e m)
    else if seq ≠ x.expected then .next (if x.naking then s else s.sendNak d e m)
    else .next (s.acceptFlit d e m bytes)

/-- LANE_ERROR_WINDOW (R381). -/
def execLaneErrorWindow (d e m : Nat) (s : State) : Host.Outcome State Fault Refusal :=
  .next (s.setModule d e m { s.module d e m with laneErrs := List.replicate 18 0 })

/-- D2D_REPAIR_COMPLETE (R390 to R392): the module resumes from its oldest unacknowledged flit at both ends, or is retired. -/
def execD2dRepairComplete (d e m : Nat) (trained : Bool) (s : State) : Host.Outcome State Fault Refusal :=
  match otherEnd s.variant d e with
  | none => .next s
  | some (p, g) =>
    if !((s.module d e m).repairing && s.moduleActive d e m) then .next s
    else if !trained then .next (s.retire d e m)
    else
      let x := s.module d e m
      let y := s.module p g m
      let t := s.putBoth d e m D2D_MODULE_WIDTH (widthFor (goodLanes x.failed).length (goodLanes y.failed).length)
      let t := (t.fadd (.d2dModule d e m) D2D_MODULE_REPAIRS 1).fadd (.d2dModule p g m) D2D_MODULE_REPAIRS 1
      let t := (t.setModule d e m { x with repairing := false }).setModule p g m { y with repairing := false }
      .next (((((t.resend d e m 0).resend p g m 0).pumpModule d e m).pumpModule p g m).moduleEvent d e m)

/-- D2D_NAK (R380, R382). -/
def execD2dNak (d e m seq : Nat) (s : State) : Host.Outcome State Fault Refusal := .next (s.nakArrives d e m seq)

/-- D2D_CREDIT (R382, R383). -/
def execD2dCredit (d e m req rep : Nat) (s : State) : Host.Outcome State Fault Refusal := .next (s.creditArrives d e m req rep)

/-- D2D_GOODBYE (R395, R398); every cause has the same effect at the receiver. -/
def execD2dGoodbye (d e : Nat) (_cause : Nat) (s : State) : Host.Outcome State Fault Refusal := .next (s.goodbyeArrives d e)

/-- ROUTE (R382, R386); the module it arrives on does not matter. -/
def execD2dRoute (d e _m key newModule : Nat) (s : State) : Host.Outcome State Fault Refusal := .next (s.routeArrives d e key newModule)

/-- D2D_REPLAY_TIMEOUT (R380). -/
def execD2dReplayTimeout (d e m : Nat) (s : State) : Host.Outcome State Fault Refusal :=
  .next (if s.edgeUp d e && s.moduleActive d e m && !(s.module d e m).repairing then s.resendCounted d e m 0 else s)

/-- D2D_WATCHDOG (R394): the module is retired; the edge is lost to its peer where `whole` says that every module of the edge has
expired within the period. -/
def execD2dWatchdog (d e m : Nat) (whole : Bool) (s : State) : Host.Outcome State Fault Refusal :=
  if !(s.dieUp d && decide (s.edgeState d e = 1) && s.moduleActive d e m) then .next s
  else
    let t := s.retire d e m
    .next (if whole && !(List.range (edgeModules s.variant d e)).any (t.moduleActive d e) then
        t.fput (.d2dEdgeStatus d e) D2D_EDGE_STATUS_STATE 3
      else t)

/-! ### Loss of a die (R33, R336, R395 to R399) -/

/-- Put STATE of a domain, with its event after READY (R686). -/
def State.setDomain (s : State) (d v : Nat) : State :=
  let t := s.fput .bootDomsum ⟨4 * d, 3⟩ v
  if s.phase = 4 ∧ s.domainState d ≠ v then t.raise .boot 0 0x038 .bootDomsum else t

/-- The far stacks, ladles and cache slices of a logic die go with it (R33, R260, R397, R627): what was outstanding there completes with
FENCED after GOODBYE, else with DIE_LOST. -/
def State.loseStack (s : State) (d : Nat) (goodbye : Bool) : State :=
  let sites := (rangeFrom (3 * d) 3).filter (farPresent s.variant)
  let s := s.farDies (if goodbye then .fenced else .dieLost) (if goodbye then .fenced else .dieLost)
  let s := sites.foldl (fun s f => (s.movePort f).ladleLost f (if goodbye then 7 else 6)) s
  { s with purges := s.purges.filter fun p => decide (p.slice / 3 ≠ d) }

/-- A pail manager is lost with its die (R33, R313, R397): every command that it holds ends, and so does what waits for it. -/
def State.losePail (s : State) (d : Nat) (goodbye : Bool) : State :=
  let status := if goodbye then 0x0B else 0x0C
  let m := s.pail d
  let s := (m.waiting ++ m.outside).foldl (fun s e => s.pailEnd d e.2.tag status 0) s
  let s := m.syncs.foldl (fun s y => s.pailEnd d y.tag status 0) s
  let s := (m.rings.foldl (fun s e => s.churnEnd d e.1 status) s).setPail d PailMgr.init
  { s with fabReqs := s.fabReqs.filter fun r => match r.issuer with | FabIssuer.pail x _ _ => decide (x ≠ d) | _ => true }.failWaits
    (fun w => decide (w = WaitsOn.pail d)) (if goodbye then .fenced else .dieLost)

/-- Requests that a die which has gone issued (R397, R398): a write or update that its home slice has accepted is performed; no other is. -/
def State.dropIssued (s : State) (d : Nat) : State :=
  let its := fun (rq : Requester) => decide (rq.die = some d)
  let keep := fun (q : ScReq) => !its q.rq || !q.kind.isRead
  { s with heldAccess := s.heldAccess.filter fun q => !its q.rq, fillWaits := s.fillWaits.filter keep,
           fills := s.fills.map fun f => { f with queue := f.queue.filter keep },
           paid := s.paid.filter fun e => !its e.1, turns := s.turns.filter fun e => !its e.1 }

/-- The fabric ports of an I/O die are lost with it (R33, R397): requests that left by them complete with DIE_LOST, or FENCED; with I/O
die 0 the host's accesses and the registrar's requests go. -/
def State.loseIo (s : State) (d : Nat) (goodbye : Bool) : State :=
  let s := { s with fabPorts := smClear s.fabPorts (6 * d) (6 * d + 6), fabWaits := s.fabWaits.filter fun w => decide (w.d ≠ d) }
  let s := if d = 0 then
      { s with records := [], hostWaits := [],
               fabReqs := s.fabReqs.filter fun r => match r.issuer with | .pail _ _ _ => true | _ => false }
    else s
  ((s.fabReqs.filter fun r => r.answer.isNone && decide (r.via.map (· / 6) = some d)).foldl (fun s r =>
    s.fabDone r (if goodbye then 1 else 2) []) s).twinLoss

/-- What a die held of the mesh, the ring and its edges goes (R368, R393); what its links still had under way may arrive (R397). -/
def State.loseTransport (s : State) (d : Nat) : State :=
  { s with routers := smClear s.routers (64 * d) (64 * d + 64), stops := smClear s.stops (64 * d) (64 * d + 64),
           ringSlots := smClear s.ringSlots (2 * d * 1024) ((2 * d + 2) * 1024),
           edges := smClear s.edges (d * 4) (d * 4 + 4),
           missed := smClear s.missed (128 * d) (128 * d + 128) }

/-- The compute stack whose control stop judges (R396): the deputy, or while its die is lost the lowest-numbered that is not. -/
def State.actingDeputy (s : State) : Nat := if s.dieUp s.deputy then s.deputy else ((List.range 4).find? s.dieUp).getD s.deputy

/-- A die goes down (R33, R397, R398, R399, R675): outstanding work on it ends with DIE_LOST, or FENCED after GOODBYE; its cores are fenced
with cause 0x08, the grade is computed again, and `DIES_LOST` and an event of the reporting die follow. -/
def State.dieDown (s : State) (d : Nat) (goodbye : Bool) : State :=
  if !(diePresent s.variant d && decide (s.domainState d ≠ 2)) then s
  else
    let s := (s.setDomain d 2).dropIssued d
    let s := if d < 4 then
        let s := (s.loseStack d goodbye).losePail d goodbye
        (dieCores d).foldl (fun s c =>
          let t := s.beginFence c 0x08
          if t.coreState c = 1 then t.completeFence c (if goodbye then .fenced else .dieLost) else t) s
      else s.loseIo (d - 4) goodbye
    let s := s.loseTransport d
    let up := ((List.range 8).filter s.dieUp)
    let s := up.foldl (fun s x => s.fput (.d2dStat x) D2D_STAT_DIES_LOST (s.fget (.d2dStat x) D2D_STAT_DIES_LOST ||| 2 ^ d)) s
    let r := if s.dieUp 4 then 4 else s.actingDeputy
    (if s.fget (.d2dCtl r) D2D_CTL_INT_EN = 1 then s.raise .d2d r 0x020 (.d2dStat r) else s).rouse

/-- Set STATE of every surviving end of the edges to a die. -/
def State.peersSee (s : State) (d v : Nat) : State :=
  (dieEdges s.variant d).foldl (fun s e =>
    match otherEnd s.variant d e with
    | some (p, g) => if s.dieUp p then s.fput (.d2dEdgeStatus p g) D2D_EDGE_STATUS_STATE v else s
    | none => s) s

/-- A die is taken out of service without GOODBYE (R336, R539). -/
def State.dieOut (s : State) (d : Nat) : State := (s.peersSee d 3).dieDown d false

/-- DIE_LOST_DECLARATION (R33, R395 to R397): by the sequencer on I/O die 0, or for I/O die 0 and while that is lost by a deputy on another
die, to every surviving die. -/
def execDieLostDeclaration (die : Nat) (s : State) : Host.Outcome State Fault Refusal :=
  let rs := s.reports die
  let bye := rs.any fun r => decide (r = 4)
  let judge := if die = 4 ∨ !s.dieUp 4 then (List.range 4).any fun x => decide (x ≠ die) && s.dieUp x else true
  if !(judge && s.dieUp die && !rs.isEmpty && (bye || rs.all fun r => decide (r = 3))) then .next s
  else .next ((if bye then s.peersSee die 4 else s).dieDown die bye)

/-- DEPUTY_TAKEOVER (R396): the control stop of the lowest-numbered compute stack whose logic die is not lost. -/
def execDeputyTakeover (stack : Nat) (s : State) : Host.Outcome State Fault Refusal :=
  .next (if (List.range 4).find? s.dieUp = some stack then { s with deputy := stack } else s)

/-- HEARTBEAT (R335, R336): the third miss in a row marks the node failed and takes its die out of service. -/
def execHeartbeat (d node : Nat) (missed : Bool) (s : State) : Host.Outcome State Fault Refusal :=
  if !(s.meshUp d && (decide (node < 64) || stopPresent s.variant (node - 64))) then .next s
  else
    let k := 128 * d + node
    let n := smGet 0 s.missed k + 1
    if !missed then .next { s with missed := smDel s.missed k }
    else if n < 3 then .next { s with missed := smPut s.missed k n }
    else .next ((((s.fput (.meshStatus d) MESH_STATUS_FAILED 1).fput (.meshStatus d) MESH_STATUS_NODE node)).dieOut d)

/-- A write of `D2D_CTL` (R403). -/
def State.d2dCtlWrite (s : State) (d : Nat) (w : RegWrite) : State :=
  let x := s.written (.d2dCtl d) w
  s.put (.d2dCtl d) (fldSet (fldSet x.new D2D_CTL_WDOG (max 5 (x.field D2D_CTL_WDOG))) D2D_CTL_LANE_LIMIT (max 1 (x.field D2D_CTL_LANE_LIMIT)))

/-- D2D_STAT_CLEAR (R406). -/
def execD2dStatClear (d : Nat) (w : RegWrite) (s : State) : Host.Outcome State Fault Refusal :=
  .next (s.guarded w.master (.d2dStat d) fun s => s.clearStat (.d2dStat d) w D2D_STAT_CLEAR [D2D_STAT_LATE_DROPS])

end Sys2Proof.Machine
end

