-- ==== Sys2Proof/Machine/Supply.lean ====
section
/-! DEFINITION. What loses the main side and what starts it again: GOODBYE, power off, the latched shutdown, and the cold start
(R530, R556, R674, R679, R697 to R703, R725). -/

namespace Sys2Proof.Machine

/-- Requests that an I/O die has taken and not answered are answered with FENCED before it goes (R429). -/
def State.fenceWaits (s : State) (d : Nat) : State :=
  (s.fabWaits.filter fun w => decide (w.d = d)).foldl (fun s w => (s.unreachable d w.pkt 1).leavePort d w.port w.pkt)
    { s with fabWaits := s.fabWaits.filter fun w => decide (w.d ≠ d) }

/-- Send GOODBYE on every edge of a die and, on an I/O die, on every fabric port that is up (R398, R429, R382). -/
def State.sendGoodbye (s : State) (cause d : Nat) : State :=
  let s := (dieEdges s.variant d).foldl (fun s e =>
    match (List.range (edgeModules s.variant d e)).find? (s.moduleActive d e) with
    | some m => if s.edgeState d e ≤ 1 then s.linkControlSend d e m (linkControl 0x03 (leBytes 1 cause)) else s
    | none => s) s
  if d < 4 then s
  else (List.range 6).foldl (fun s p =>
    if s.portState (d - 4) p = 2 then
      s.sendControl (d - 4) p ([0xF4#8, 0#8, BitVec.ofNat 8 cause] ++ List.replicate 13 0#8)
    else s) (s.fenceWaits (d - 4))

/-- Send GOODBYE from every die that is up. -/
def State.goodbyeAll (s : State) (cause : Nat) : State :=
  ((List.range 8).filter s.dieUp).foldl (fun s d => s.sendGoodbye cause d) s

/-- The registers of the OFFICE block and the straps, which a cold start keeps (R674, R715, R725). -/
def officeReg : Reg → Bool
  | .officeStatus | .officeCtl | .officeEvq | .officeCoolant | .topStraps => true
  | _ => false

/-- Every regulator domain and every die is off (R556, R702, R703): the contents of every memory, and everything that a die holds, are
lost; what the office holds stays. -/
def State.loseMain (s : State) : State :=
  { s with
    regs := s.regs.filter (fun e => decide (e.1.home.2 = 8) || officeReg e.1)
    power := { s.power with mainOn := false, armed := false }
    far := [], farChk := [], farEpoch := [], slice := [], sliceChk := [], desk := [], deskChk := []
    lines := [], lineAge := 0, fills := [], fillWaits := [], missRecent := [], paid := [], turns := [], slips := [], purges := [], frameFails := [], framesRetired := []
    setChanges := [], clears := [], heldAccess := []
    cores := [], slices := [], farPorts := [], ladles := [], pails := []
    fabPorts := [], fabReqs := [], fabQuarantine := [], fabTag := 0, fabWaits := [], hostWaits := []
    routers := [], ringSlots := [], stops := [], missed := [], arbs := [], xings := [], modules := [], edges := [], deputy := 0
    rings := [], registrar := .init, bar4Size := [], records := [], domains := [], evqPhase := true
    msixUnmasked := [], msixPending := [] }

/-- The package domain is reset (R674, R725): everything but the office returns to its reset state; homeroom 0 takes a random salt
(R601), and homeroom sessions end (R584). -/
def State.packageReset (s : State) : State :=
  let (salt, s) := s.drawBytes 16
  let t := s.loseMain
  ({ t with
     regs := t.regs.filter (fun e => officeReg e.1)
     homerooms := [(0, { Homeroom.init with salt := some salt })]
     sessions := t.sessions.filter (fun x => decide (x.owner = 0)), spdm := t.spdm.filter (fun x => decide (x.1 = 0))
     idCert := none, boot := .init, image := .init, thermal := .init, defects := [], relLog := [] })

/-- A cold start begins (R530, R656, R674, R701): the main side is on, in phase 0, and BOOTS counts it. -/
def State.coldStart (s : State) : State :=
  let t := s.packageReset
  { t with power := { t.power with mainOn := true, armed := true, pcieLost := false, boots := (t.power.boots + 1) % 2 ^ 32 } }

/-- A shutdown record (R530): cause, basis, the two sensors with their readings; TICKS is a free value, since no command gives the
office's time (log 5). -/
def State.shutdownRecord (s : State) (cause basis sa ta sb tb : Nat) : List Byte × State :=
  let (t, s) := s.draw (2 ^ 64)
  let le := fun n v => leBytes n v
  (le 1 cause ++ le 1 basis ++ le 2 sa ++ le 2 ta ++ le 2 sb ++ le 2 tb ++ le 2 (s.fget .officeCoolant OFFICE_COOLANT_INLET) ++
    le 2 (s.fget .officeCoolant OFFICE_COOLANT_FLOW) ++ le 2 0 ++ le 8 t ++ le 4 s.power.boots ++ le 4 0, s)

/-- The event of a shutdown (R526, R556). -/
def State.shutdownEvent (s : State) : State := s.raiseOffice (s.eventOf .office 0 0x000 .officeStatus)

/-- A latched shutdown (R531, R556): every domain is off, THRM_TRIP_N is asserted, the office keeps the record, of which it holds eight,
and its event. -/
def State.latchShutdown (s : State) (cause basis sa ta sb tb : Nat) : State :=
  if !s.power.mainOn then s
  else
    let (rec, t) := s.shutdownRecord cause basis sa ta sb tb
    let t := t.loseMain.emit (.pin "THRM_TRIP_N" false)
    { t with power := { t.power with latched := true, vauxCycled := false }, shutdowns := (rec :: t.shutdowns).take 8 }.shutdownEvent

end Sys2Proof.Machine
end

