-- ==== Sys2Proof/Machine/Bringup.lean ====
section
/-! DEFINITION. Bring-up: the image, the four steps, the defect list and its record, and reset domains (R527, R573 to R579,
R656 to R687). -/

namespace Sys2Proof.Machine

/-! ### The image (R527, R528, R576 to R579) -/

/-- The part awaits an image (R528): at cold start, in recovery, or while domain 4 waits. -/
def State.awaitsImage (s : State) : Bool := s.power.mainOn && (decide (s.phase = 0) || decide (s.phase = 5) || s.boot.awaiting)

/-- Release the image buffer (R527). -/
def State.releaseImage (s : State) : State := { s with image := { s.image with holder := none } }

/-- Store image bytes for a holder; its first bytes start a transfer into an empty buffer. -/
def State.storeImage (s : State) (host : Bool) (off : Nat) (bytes : List Byte) : State :=
  let b := if s.image.holder = some host then s.image else { ImageBuf.init with block := s.image.block }
  { s with image := { b with holder := some host, data := memWrite b.data off (bytes.take (2 ^ 23 - off)),
                             delivered := max b.delivered (off + bytes.length) } }

/-- IMAGE_WINDOW_WRITE (R527, R681, R525): a write of the physical function; it is dropped while the other path holds the buffer, and
while an image is being verified, when its delivery has ended. -/
def execImageWindowWrite (off : Nat) (bytes : List Byte) (s : State) : Host.Outcome State Fault Refusal :=
  if !s.hostLink then .next s
  else if s.hostBlocked .pf .boot then .next (s.fadd .officeCtl OFFICE_CTL_BLOCKED 1)
  else if s.image.holder = some false ∨ s.boot.step = 1 ∨ 2 ^ 23 ≤ off then .next s
  else .next (s.storeImage true off bytes)

/-- IMAGE_BUFFER_TIMEOUT (R527). -/
def execImageBufferTimeout (s : State) : Host.Outcome State Fault Refusal := .next s.releaseImage

/-- IMAGE_TRANSFER_CANCEL (R527): by the holder. -/
def execImageTransferCancel (host : Bool) (s : State) : Host.Outcome State Fault Refusal :=
  .next (if s.image.holder = some host then s.releaseImage else s)

/-- Bytes of the image. -/
def State.imageBytes (s : State) (off n : Nat) : List Byte := memRead s.image.data off n

/-- A little-endian number in the image. -/
def State.imageNat (s : State) (off n : Nat) : Nat := leNat (s.imageBytes off n)

/-- Every byte of a list is zero. -/
def allZero (bs : List Byte) : Bool := bs.all fun b => decide (b = 0#8)

/-- Check 1 (R577): length, MAGIC, FORMAT and the zero fields of R576. -/
def State.imageForm (s : State) (len : Nat) : Bool :=
  decide (len ≤ 2 ^ 23) && decide (256 + s.imageNat 16 4 = len) && decide (s.imageNat 0 4 = 0x44343442) && decide (s.imageNat 4 2 = 1) &&
    decide (s.imageNat 7 1 < 8) && allZero (s.imageBytes 24 40) && allZero (s.imageBytes 192 64)

/-- Check 2 (R577, R574). -/
def State.imageSlot (s : State) : Bool :=
  let k := s.imageNat 6 1
  decide (k ≤ 2) && !s.fuseBit (1280 + k) && decide (sm3 (s.imageBytes 64 64) = leBytes 32 (s.fuseField (256 + 256 * k) 256))

/-- Check 3 (R577). -/
def State.imageVersion (s : State) : Bool := decide (s.rollback ≤ s.imageNat 8 4) && decide (s.imageNat 12 4 ≤ s.imageNat 8 4)

/-- Check 4 (R577). -/
def State.imageSigned (s : State) (len : Nat) : Bool :=
  sm2Verify (beNat (s.imageBytes 64 32), beNat (s.imageBytes 96 32)) (s.imageBytes 0 128 ++ s.imageBytes 256 (len - 256))
    (beNat (s.imageBytes 128 32)) (beNat (s.imageBytes 160 32))

/-- The first check that the delivered image fails, 0 where it passes all (R577). -/
def State.imageCause (s : State) (len : Nat) : Nat :=
  if !s.imageForm len then 1 else if !s.imageSlot then 2 else if !s.imageVersion then 3 else if !s.imageSigned len then 4 else 0

/-- The image digest (R578). -/
def State.imageDigest (s : State) (len : Nat) : List Byte :=
  sm3 (s.imageBytes 0 128 ++ List.replicate 64 0#8 ++ s.imageBytes 192 (len - 192))

/-- What is recorded of a verified image (R578, R583). -/
def State.imageInfo (s : State) (len : Nat) : ImageInfo :=
  ⟨s.imageDigest len, s.imageNat 8 4, s.imageNat 12 4, s.imageNat 6 1, s.imageNat 7 1, s.imageNat 20 4⟩

/-- A domain's action ends (R677, R686): its STATE; the caller starts what was queued behind it. -/
def State.endAction (s : State) (d v : Nat) : State :=
  { s with domains := smDel s.domains d }.setDomain d v

/-- Begin an action on a domain that is neither going down nor coming up (R675, R676). -/
def State.beginAction (s : State) (d act : Nat) : State :=
  let st := s.domainState d
  if act = 1 ∧ st = 0 then
    ({ (s.sendGoodbye 0 d).peersSee d 4 with domains := smPut s.domains d ⟨1, 0⟩ }).setDomain d 1
  else if act = 2 ∧ st = 2 then { s with domains := smPut s.domains d ⟨2, 0⟩ }.setDomain d 3
  else s

/-- The bytes delivered (R577, R684): on the host's path `BOOT_IMG_LEN`. -/
def State.imageLength (s : State) (host : Bool) : Nat := if host then s.fget .bootImgLen BOOT_IMG_LEN_BYTES else s.image.delivered

/-- Verify the delivered image (R577, R578): it runs, or the part enters recovery; the buffer is released. -/
def State.verifyImage (s : State) (host : Bool) : State :=
  let len := s.imageLength host
  let c := s.imageCause len
  let s' := s.releaseImage.fput .secStatus SEC_STATUS_BOOT_CAUSE c
  if c = 0 then
    { s' with boot := { s'.boot with image := some (s.imageInfo len), next := 1, result := 0 } }
  else { s' with boot := { s'.boot with next := 5, result := 2 } }

/-- An image for I/O die 0 (R676): only that which runs is accepted; the registrar starts from it, else the domain stays down. -/
def State.reImage (s : State) (host : Bool) : State :=
  let len := s.imageLength host
  let ok := decide (s.imageCause len = 0) && decide (some (s.imageDigest len) = s.boot.image.map ImageInfo.digest)
  let t := { s.releaseImage with boot := { s.boot with awaiting := false } }
  let next := (smGet ⟨0, 0⟩ t.domains 4).queued
  (if ok then (t.fput .hostStatus HOST_STATUS_REG_STATE 1).endAction 4 0 else t.endAction 4 2).beginAction 4 next

/-! ### Steps (R657, R660) -/

/-- Refuse a step (R657). -/
def State.refuseStep (s : State) : State := s.fput .bootStatus BOOT_STATUS_RESULT 1

/-- The phases from which a step may be requested (R657). -/
def stepPhases : Nat → List Nat
  | 1 => [0, 5] | 2 => [1] | 3 => [2] | 4 => [3] | _ => []

/-- Begin a step (R657, R660): BUSY reads 1 while it runs. -/
def State.beginStep (s : State) (step : Nat) (work : State → State) : State :=
  if s.boot.step = 0 ∧ s.phase ∈ stepPhases step then
    work ({ s with boot := { s.boot with step := step, result := 0 } }.fput .bootStatus BOOT_STATUS_BUSY 1)
  else s.refuseStep

/-- The IMAGE step's work; while domain 4 waits, the image is for it (R676). -/
def State.stepImage (s : State) : State :=
  if s.boot.awaiting ∧ s.image.holder ≠ some false then s.reImage true
  else s.beginStep 1 fun s => (s.fput .secStatus SEC_STATUS_BOOT 1).verifyImage true

/-! ### Training (R662, R663) -/

/-- Fence a core that has not been released (R65, R665). -/
def State.preFence (s : State) (c cause : Nat) : State :=
  if s.coreState c = 2 then s
  else ((s.fput (.coreStatus c) CORE_STATUS_STATE 2).fput (.coreStatus c) CORE_STATUS_CAUSE cause).fput (.nearStatus c) NEAR_STATUS_STATE 0

/-- Take what an entry names out of use (R663, R665, R666); lanes take effect at the training of their module, and are left. -/
def State.applyDefect (s : State) (d : Defect) : State :=
  match d.kind with
  | 1 => s.preFence (d.unit % 256) (if s.fuseFenced (d.unit % 256) then 0x01 else 0x02)
  | 2 => (s.fput (.farStatus (d.unit % 16)) FAR_STATUS_LOST 1).fput (.farStatus (d.unit % 16)) FAR_STATUS_TRAINED 0
  | 3 => (dieCores (d.unit % 4)).foldl (fun s c => s.preFence c 0x08) ((s.peersSee (d.unit % 4) 3).setDomain (d.unit % 4) 2)
  | 4 => (dieCores (d.unit % 4)).foldl (fun s c => s.preFence c 0x07) s
  | 6 =>
    let k := frameKey (3 * bitsOf d.unit 0 2 + bitsOf d.unit 2 2) (bitsOf d.detail 0 14) (bitsOf d.detail 14 4)
    { s with framesRetired := smPut s.framesRetired k 1 }
  | _ => s

/-- The unit that an entry names is on the variant (R669). -/
def defectPresent (v : Variant) (d : Defect) : Bool :=
  match d.kind with
  | 2 => farPresent v d.unit
  | 5 => decide (bitsOf d.unit 5 5 < edgeModules v (bitsOf d.unit 0 3) (bitsOf d.unit 3 2)) && decide (bitsOf d.unit 10 5 < 18)
  | 6 => decide (bitsOf d.unit 2 2 < 3)
  | _ => true

/-- The bits that an entry's KIND names (R670). -/
def defectMask (kind : Nat) : Nat × Nat :=
  match kind with
  | 1 => (0xFF, 0) | 2 => (0xF, 0) | 3 => (3, 0) | 4 => (0xF, 0) | 5 => (0x7FFF, 0) | 6 => (0xF, 0x3FFFF) | _ => (0, 0)

/-- An entry is valid (R670). -/
def defectValid (d : Defect) : Bool :=
  decide (1 ≤ d.kind) && decide (d.kind ≤ 6) && decide (1 ≤ d.origin) && decide (d.origin ≤ 3) &&
    decide (d.unit &&& (defectMask d.kind).1 = d.unit) && decide (d.detail &&& (defectMask d.kind).2 = d.detail)

/-- What training and roll call find, as entries with origin roll call (R664, R665). -/
def foundDefects (v : Variant) (fs : List Finding) : List Defect :=
  (fs.map fun f => (⟨f.kind, f.unit, f.detail, 2⟩ : Defect)).filter fun d => defectValid d && defectPresent v d

/-- Show the self-tests that failed among the findings (R640, R646). -/
def State.selfTests (s : State) (fs : List Finding) : State :=
  (fs.filter fun f => f.selfTest && !(foundDefects s.variant [f]).isEmpty).foldl (fun s _ => s.failSelfTest) s

/-- An edge trains (R368, R376, R383, R384, R404): its module islands are reset and their state machines start afresh at both ends. -/
def State.trainEdge (s : State) (d e p g : Nat) : State :=
  let n := edgeModules s.variant d e
  let isle := fun (e sel : Nat) => decide (bitsOf sel 0 4 = 4) && decide (bitsOf sel 8 8 / 32 = e)
  let s := { s with modules := smClear (smClear s.modules ((d * 4 + e) * 32) ((d * 4 + e + 1) * 32)) ((p * 4 + g) * 32) ((p * 4 + g + 1) * 32),
                    edges := smDel (smDel s.edges (d * 4 + e)) (p * 4 + g) }
  let s := (s.resetIslands d (isle e)).resetIslands p (isle g)
  let s := (List.range n).foldl (fun s m => (s.put (.d2dModule d e m) 0#64).put (.d2dModule p g m) 0#64) s
  ((s.countModules d e).countModules p g).edgeBoth d e 1

/-- The edges of a die train with the dies at their other ends that are up or coming up, every lane that the list names marked failed
(R376, R662, R666). -/
def State.trainEdges (s : State) (d : Nat) : State :=
  let s := (dieEdges s.variant d).foldl (fun s e =>
    match otherEnd s.variant d e with
    | none => s
    | some (p, g) => if diePresent s.variant p ∧ s.domainState p ≠ 2 ∧ s.domainState p ≠ 1 then s.trainEdge d e p g else s) s
  (s.defects.filter fun x => decide (x.kind = 5) && (decide (bitsOf x.unit 0 3 = d) ||
    (match otherEnd s.variant (bitsOf x.unit 0 3) (bitsOf x.unit 3 2) with | some (p, _) => decide (p = d) | none => false))).foldl
      (fun s x => s.markLane x.unit) s

/-- A die's far stacks train, and its memories are filled (R199, R234, R662, R663, R635). -/
def State.trainMemories (s : State) (d : Nat) : State :=
  let sites := (rangeFrom (3 * d) 3).filter (farPresent s.variant)
  sites.foldl (fun s f => s.fput (.farStatus f) FAR_STATUS_TRAINED 1) s

/-- Findings of training take effect (R662, R663). -/
def State.trainFindings (s : State) (ds : List Defect) : State :=
  let s := ds.foldl State.applyDefect s
  (ds.filter fun d => decide (d.kind = 5)).foldl (fun s d => s.markLane d.unit) s

/-- Train a die (R662). -/
def State.trainDie (s : State) (d : Nat) : State := if d < 4 then (s.trainEdges d).trainMemories d else s.trainEdges d

/-- A compute stack is usable (R662): it keeps its logic die, a DRAM layer, and an edge to I/O die 0. -/
def State.stackUsable (s : State) (lost : List Defect) (d : Nat) : Bool :=
  decide (s.domainState d = 0) && decide ((lost.filter fun x => decide (x.kind = 4) && decide (x.unit % 4 = d)).length < 4) &&
    (match edgeTo s.variant d 4 with
     | some e => (List.range (edgeModules s.variant d e)).any (s.moduleActive d e)
     | none => false)

/-- No usable compute stack is left (R656, R662). -/
def State.noStack (s : State) (lost : List Defect) : Bool := !(List.range 4).any (s.stackUsable lost)

/-- Where a step leads unless no stack is left (R656, R683). -/
def State.stepLeads (s : State) (next : Nat) (lost : List Defect) : State :=
  if s.noStack lost then { s with boot := { s.boot with next := 6, result := 3 } } else { s with boot := { s.boot with next := next, result := 0 } }

/-- The TRAIN step's work (R640, R662, R663). -/
def State.trainAll (s : State) (findings : List Finding) : State :=
  let found := foundDefects s.variant findings
  let s := ((List.range 8).filter fun d => diePresent s.variant d && decide (s.domainState d = 0)).foldl State.trainDie s
  (({ s with boot := { s.boot with found := found } }.selfTests findings).trainFindings found).stepLeads 2 found

/-! ### Roll call, the list and the record (R664 to R671) -/

/-- The eight bytes of an entry (R670). -/
def defectBytes (d : Defect) : List Byte := leBytes 1 d.kind ++ leBytes 1 d.origin ++ leBytes 2 d.unit ++ leBytes 4 d.detail

/-- An entry from its bytes. -/
def defectOf (bs : List Byte) : Defect := ⟨leNat (bs.take 1), leNat ((bs.drop 2).take 2), leNat ((bs.drop 4).take 4), leNat ((bs.drop 1).take 1)⟩

/-- A record without its signature (R668). -/
def State.recordBody (s : State) : List Byte :=
  leBytes 4 0x52444C44 ++ leBytes 2 1 ++ leBytes 2 s.defects.length ++ leBytes 8 (s.fuseField 1792 64) ++ leBytes 8 (s.view .topId).toNat ++
    List.replicate 40 0#8 ++ s.defects.flatMap defectBytes

/-- The signed record (R668), and the state that has signed it. -/
def State.signedRecord (s : State) : List Byte × State :=
  let (sig, t) := s.sign s.idKey s.recordBody
  (s.recordBody ++ sig, t)

/-- Entries are in the order of R670. -/
def defectsRise : List Defect → Bool
  | a :: b :: l => decide (defectKey a < defectKey b) && defectsRise (b :: l)
  | _ => true

/-- The entries of a handed-back record. -/
def recordEntries (r : List Byte) : List Defect := (blocksOf 8 (leNat ((r.drop 6).take 2)) (r.drop 64)).map defectOf

/-- Judge a handed-back record (R669, R683): REC_RESULT. -/
def State.recordResult (s : State) (r : List Byte) : Nat :=
  let n := leNat ((r.drop 6).take 2)
  let es := recordEntries r
  if r.length ≠ 128 + 8 * n ∨ 512 < n ∨ leNat (r.take 4) ≠ 0x52444C44 ∨ leNat ((r.drop 4).take 2) ≠ 1 ∨ !allZero ((r.drop 24).take 40) ∨
      !(es.all defectValid && defectsRise es) then 2
  else if leNat ((r.drop 8).take 8) ≠ s.fuseField 1792 64 ∨ leNat ((r.drop 16).take 8) ≠ (s.view .topId).toNat then 3
  else if sm2Verify (sm2Public s.idKey) (r.take (64 + 8 * n)) (beNat ((r.drop (64 + 8 * n)).take 32)) (beNat ((r.drop (96 + 8 * n)).take 32)) then 1
  else 4

/-- Read the handed-back record (R669): its REC_RESULT and its entries for units of the variant. -/
def State.handedRecord (s : State) : Nat × List Defect :=
  let len := s.fget .bootRecLen BOOT_REC_LEN_BYTES
  if len = 0 then (0, [])
  else match s.hostRead (s.fget .bootRecBase BOOT_REC_BASE_BASE * 4096) len with
    | none => (5, [])
    | some r =>
      let v := s.recordResult r
      (v, if v = 1 then (recordEntries r).filter (defectPresent s.variant) else [])

/-- An entry of a later source joins only where no earlier source names its unit (R665). -/
def State.mergeOne (s : State) (d : Defect) : State :=
  if s.defects.any fun e => decide (defectKey e = defectKey d) then s else (s.addDefect d).applyDefect d

/-- The cores of a list of entries. -/
def coresOf (ds : List Defect) : List Nat := ((ds.filter fun d => decide (d.kind = 1)).map fun d => d.unit % 256).eraseDups

/-- Merge the list from its sources, in the order fuses, record, findings (R665, R687). -/
def State.merge (s : State) (rec found : List Defect) : State :=
  let f := coresOf s.factory
  let r := coresOf rec
  let n := coresOf found
  let t := (s.factory ++ rec ++ found).foldl State.mergeOne s
  ((t.fput .bootRoll BOOT_ROLL_FUSE_CORES f.length).fput .bootRoll BOOT_ROLL_ROLL_CORES
    (n.filter fun c => !f.contains c && !r.contains c).length).fput .bootRoll BOOT_ROLL_CARRIED_CORES
      (r.filter fun c => !f.contains c && !n.contains c).length

/-- The ROLLCALL step's work (R664, R665, R669). -/
def State.rollAll (s : State) (findings : List Finding) : State :=
  let found := s.boot.found ++ foundDefects s.variant findings
  let (v, rec) := s.handedRecord
  let t := (s.fput .bootStatus BOOT_STATUS_REC_RESULT v).merge rec found
  t.stepLeads 3 t.defects

/-! ### Ready (R579, R671 to R673) -/

/-- Write the record to the export buffer (R671): RESULT says EXPORT where the write cannot be sent (R492). -/
def State.exportRecord (s : State) : List Byte × State :=
  let (r, t) := s.signedRecord
  if t.hostLink then
    (r, (t.hostWrite (t.fget .bootExportBase BOOT_REC_BASE_BASE * 4096) r).fput .bootStatus BOOT_STATUS_RESULT 0)
  else (r, t.fput .bootStatus BOOT_STATUS_RESULT 4)

/-- Blow a logical bit of the fuses, all four of its fuses (R573, R575). -/
def State.blow (s : State) (i : Nat) : State := { s with fuses := s.fuses ||| BitVec.ofNat 32768 (15 * 2 ^ (4 * i)) }

/-- Advance ROLLBACK to FLOOR, in increasing order, and revoke the slots that the image names but its own (R579). -/
def State.advanceFuses (s : State) : State :=
  match s.boot.image with
  | none => s
  | some i =>
    let left := (rangeFrom 1536 256).filter fun b => !s.fuseBit b
    let t := (left.take (i.floor - s.rollback)).foldl State.blow s
    ((List.range 3).filter fun k => i.revoke.testBit k && decide (k ≠ i.slot)).foldl (fun s k => s.blow (1280 + k)) t

/-- Show the count and the grade (R672). -/
def State.showGrade (s : State) : State :=
  let n := s.enabledCores
  ((s.fput .bootStatus BOOT_STATUS_ENABLED n).fput .bootStatus BOOT_STATUS_GRADE (b2n (decide (n < 248)))).fput .bootStatus BOOT_STATUS_GRADE_VALID 1

/-- Let the queued enables of rings take effect (R659, R673). -/
def State.enableQueued (s : State) : State :=
  ((List.range 64).filter fun n => decide (s.ringState n = 3)).foldl (fun s n => s.enableRing n) s

/-- The READY step ends (R673): the grade, the record and its export, the fuses, the registrar, the cores, the rings. -/
def State.endReady (s : State) : State :=
  let (r, s) := s.showGrade.exportRecord
  let s := { s with boot := { s.boot with measure6 := sm3 r } }.advanceFuses
  let s := s.fput .hostStatus HOST_STATUS_REG_STATE 1
  let s := ((List.range 256).filter fun c => decide (s.coreState c = 0) && s.dieUp (c / 64)).foldl (fun s c => s.enterService c) s
  (s.fput .bootStatus BOOT_STATUS_PHASE 4).enableQueued

/-- BOOT_STEP_COMPLETE (R656, R660): the part enters the phase that the step leads to. -/
def execBootStepComplete (s : State) : Host.Outcome State Fault Refusal :=
  let b := s.boot
  let t := { s with boot := { b with step := 0 } }.fput .bootStatus BOOT_STATUS_BUSY 0
  if b.step = 0 then .next s
  else if b.step = 4 then .next (t.endReady)
  else
    let t := (t.fput .bootStatus BOOT_STATUS_PHASE b.next).fput .bootStatus BOOT_STATUS_RESULT b.result
    .next (if b.step = 1 then t.fput .secStatus SEC_STATUS_BOOT (if b.next = 1 then 2 else 3) else t)

/-- A write of `BOOT_CTL` (R657, R671, R679, R682): STEP, then EXPORT, then COLD with its key. -/
def State.bootCtlWrite (s : State) (w : RegWrite) (findings : List Finding) : State :=
  let x := s.written .bootCtl w
  let step := fldGet x.ones BOOT_CTL_STEP
  let s := match step with
    | 0 => s
    | 1 => s.stepImage
    | 2 => s.beginStep 2 fun s => s.trainAll findings
    | 3 => s.beginStep 3 fun s => s.rollAll findings
    | 4 => s.beginStep 4 id
    | _ => s.refuseStep
  let s := if x.hit BOOT_CTL_EXPORT ∧ s.phase = 4 then s.exportRecord.2 else s
  if x.hit BOOT_CTL_COLD ∧ fldGet x.ones BOOT_CTL_KEY = 0xC5 ∧ s.power.mainOn then (s.goodbyeAll 2).coldStart else s

/-- IMAGE (R577, R657). -/
def execBootImage (w : RegWrite) (s : State) : Host.Outcome State Fault Refusal :=
  .next (s.guarded w.master .bootCtl fun s => s.bootCtlWrite w [])
/-- TRAIN (R657, R662). -/
def execBootTrain (w : RegWrite) (findings : List Finding) (s : State) : Host.Outcome State Fault Refusal :=
  .next (s.guarded w.master .bootCtl fun s => s.bootCtlWrite w findings)
/-- ROLLCALL (R657, R664). -/
def execRollCall (w : RegWrite) (findings : List Finding) (s : State) : Host.Outcome State Fault Refusal :=
  .next (s.guarded w.master .bootCtl fun s => s.bootCtlWrite w findings)
/-- READY (R657, R673). -/
def execBootReady (w : RegWrite) (s : State) : Host.Outcome State Fault Refusal :=
  .next (s.guarded w.master .bootCtl fun s => s.bootCtlWrite w [])
/-- EXPORT (R671). -/
def execExportRecord (w : RegWrite) (s : State) : Host.Outcome State Fault Refusal :=
  .next (s.guarded w.master .bootCtl fun s => s.bootCtlWrite w [])
/-- COLD_RESTART (R679). -/
def execColdRestart (w : RegWrite) (s : State) : Host.Outcome State Fault Refusal :=
  .next (s.guarded w.master .bootCtl fun s => s.bootCtlWrite w [])

/-! ### Reset domains (R674 to R678) -/

/-- The registers of a die return to their reset values (R725 to R727): RWL fields keep theirs once READY has locked them, and `LINK_ID` and `LINK_CTL` are those of
the instances that stayed up. -/
def State.resetRegs (s : State) (d : Nat) : State :=
  { s with regs := s.regs.filterMap fun e =>
      if e.1.home.2 ≠ d then some e
      else match e.1 with
        | .topStraps => some e
        | .linkId _ => some e
        | .linkCtl _ => some e
        | r =>
          let m := rowsMask r.rows fun a => decide (a = .rwl)
          if m = 0#64 ∨ !s.locked then none else some (r, (s.resetOf r &&& ~~~m) ||| (e.2 &&& m)) }

/-- A stack comes up with everything in it at its reset state, its memories filled (R674, R676, R635, R540). -/
def State.resetStack (s : State) (d : Nat) : State :=
  let s := s.resetRegs d
  let s := { s with
    cores := smClear s.cores (64 * d) (64 * d + 64), slices := smClear s.slices (64 * d) (64 * d + 64)
    slice := smClear s.slice (sliceKey (64 * d) 0) (sliceKey (64 * d + 64) 0)
    sliceChk := smClear s.sliceChk (sliceKey (64 * d) 0 / 16) (sliceKey (64 * d + 64) 0 / 16)
    desk := smClear s.desk (deskKey (64 * d) 0) (deskKey (64 * d + 64) 0)
    deskChk := smClear s.deskChk (deskKey (64 * d) 0 / 16) (deskKey (64 * d + 64) 0 / 16)
    far := smClear s.far (3 * d * 2 ^ 37) ((3 * d + 3) * 2 ^ 37)
    farChk := smClear s.farChk (3 * d * 2 ^ 33) ((3 * d + 3) * 2 ^ 33)
    farEpoch := smClear s.farEpoch (3 * d * 128) ((3 * d + 3) * 128)
    missRecent := smClear s.missRecent (3 * d) (3 * d + 3)
    farPorts := smClear s.farPorts (3 * d) (3 * d + 3), ladles := smClear s.ladles (3 * d) (3 * d + 3), pails := smDel s.pails d
    arbs := smClear s.arbs (d * 2 ^ 20) ((d + 1) * 2 ^ 20), xings := smClear s.xings (d * 2 ^ 20) ((d + 1) * 2 ^ 20) }
  let s := (dieCores d).foldl (fun s c => if s.fget (.pwrDomain c) PWR_DOMAIN_OFF = 1 then s.fput (.pwrDomain c) PWR_DOMAIN_OFF 0 else s) s
  (if s.fget (.pwrDomain (256 + d)) PWR_DOMAIN_OFF = 1 then s.fput (.pwrDomain (256 + d)) PWR_DOMAIN_OFF 0 else s).loseTransport d

/-- An I/O die comes up at its reset state (R674, R676, R725); with I/O die 0, the rings and the registrar. -/
def State.resetIo (s : State) (d : Nat) : State :=
  let s := s.resetRegs d
  let s := { s with fabPorts := smClear s.fabPorts (6 * (d - 4)) (6 * (d - 4) + 6),
                    xings := smClear s.xings (d * 2 ^ 20) ((d + 1) * 2 ^ 20) }.loseTransport d
  if d = 4 then
    { s with rings := [], registrar := .init, bar4Size := [], records := [], fabReqs := [], evqPhase := true, msixUnmasked := [],
             msixPending := [] }.fput .bootImgLen BOOT_IMG_LEN_BYTES 0
  else s

/-- The cores of a stack that has come up return to service, those that the list names staying fenced (R665, R666, R676). -/
def State.returnCores (s : State) (d : Nat) : State :=
  let s := s.defects.foldl (fun s x =>
    if (x.kind = 1 ∧ x.unit % 256 / 64 = d) ∨ (x.kind = 4 ∧ x.unit % 4 = d) ∨ (x.kind = 2 ∧ x.unit % 16 / 3 = d) then s.applyDefect x else s) s
  (((dieCores d).filter fun c => decide (s.coreState c = 0)).foldl (fun s c => s.enterService c) s).regrade

/-- Bring a domain up (R676): training, roll call, merge, release. I/O die 0 then waits for its image. -/
def State.bringUp (s : State) (d : Nat) (findings : List Finding) : State :=
  let s := (if d < 4 then s.resetStack d else s.resetIo d).trainDie d
  let found := foundDefects s.variant findings
  let new := (coresOf found).filter fun c => !(coresOf s.defects).contains c
  let s := ((found.foldl State.mergeOne (s.selfTests findings)).trainFindings found).fadd .bootRoll BOOT_ROLL_ROLL_CORES new.length
  if s.defects.any fun x => decide (x.kind = 3) && decide (x.unit % 4 = d) && decide (d < 4) then s.endAction d 2
  else if d = 4 then { s with boot := { s.boot with awaiting := true } }
  else if d < 4 then (s.endAction d 0).returnCores d
  else s.endAction d 0

/-- An action arrives (R677): behind one that runs it is queued, and a second one replaces it. -/
def State.domainAction (s : State) (d act : Nat) : State :=
  if act ≠ 1 ∧ act ≠ 2 ∨ !diePresent s.variant d then s
  else match smFind s.domains d with
    | some a => { s with domains := smPut s.domains d { a with queued := act } }.setDomain d 4
    | none => s.beginAction d act

/-- DOMAIN_ACTION_COMPLETE (R675 to R677): the action that runs ends, and a queued one starts. -/
def execDomainActionComplete (d : Nat) (findings : List Finding) (s : State) : Host.Outcome State Fault Refusal :=
  match smFind s.domains d with
  | none => .next s
  | some a =>
    if d = 4 ∧ s.boot.awaiting then .next s
    else
      let t := if a.running = 1 then { s.dieDown d true with domains := smDel s.domains d } else s.bringUp d findings
      .next (if (smFind t.domains d).isSome then t else t.beginAction d a.queued)

/-- A write of `BOOT_DOMAIN` (R677, R678, R681, R686): the action is for the domain that SEL names after the write; of domain 4 only the
office's is taken, and another write of one is dropped. -/
def State.bootDomainWrite (s : State) (w : RegWrite) : State :=
  let r := Reg.bootDomain w.master.copy
  let x := s.written r w
  let d := x.field BOOT_DOMAIN_SEL
  let act := fldGet x.ones BOOT_DOMAIN_ACTION
  if d = 4 ∧ (act = 1 ∨ act = 2) ∧ w.master ≠ .office then s.fadd .officeCtl OFFICE_CTL_BLOCKED 1 else (s.put r x.new).domainAction d act

/-- DOMAIN_DOWN (R675, R677, R678). -/
def execDomainDown (w : RegWrite) (s : State) : Host.Outcome State Fault Refusal :=
  .next (s.guarded w.master (.bootDomain w.master.copy) fun s => s.bootDomainWrite w)
/-- DOMAIN_UP (R676 to R678). -/
def execDomainUp (w : RegWrite) (s : State) : Host.Outcome State Fault Refusal :=
  .next (s.guarded w.master (.bootDomain w.master.copy) fun s => s.bootDomainWrite w)

end Sys2Proof.Machine
end

