-- ==== Sys2Proof/Machine/Integrity.lean ====
section
/-! DEFINITION. Mirror pairing and the flip mask (R623 to R628, R641, R642, R655). -/

namespace Sys2Proof.Machine

/-- Entry `n` of `REL_MIRROR` as its byte. -/
def State.mirrorByte (s : State) (n : Nat) : Nat := bitsOf (s.get (.relMirror (n / 8))).toNat (8 * (n % 8)) 8

/-- Put a byte into entry `n`. -/
def State.setMirrorByte (s : State) (n b : Nat) : State := s.fput (.relMirror (n / 8)) ⟨8 * (n % 8), 8⟩ b

/-- A set lies in a region of an active homeroom (R586, R625). -/
def State.setActive (s : State) (n : Nat) : Bool :=
  match s.mapOwner n with
  | some (h, _) => s.hrActive h
  | none => false

/-- The pairing of sets `n` and `m` is refused (R625). -/
def State.pairingRefused (s : State) (n m : Nat) : Bool :=
  decide (m = n) || (match s.mirrorSource m with | some t => decide (t ≠ n) | none => false) || (s.mirrorOf m).isSome ||
    (s.mirrorSource n).isSome

/-- One entry of a write of `REL_MIRROR` (R625): refused, or stored; where it becomes valid or invalid, the sets it names are to be
cleared. -/
def State.mirrorEntry (s : State) (n b : Nat) : State :=
  let old := s.mirrorByte n
  let sets := n :: ((if bitAt b 7 then [b % 128] else []) ++ (if bitAt old 7 then [old % 128] else []))
  if b = old then s
  else if !(bitAt b 7 || bitAt old 7) then s.setMirrorByte n b
  else if sets.any s.setActive || (bitAt b 7 && s.pairingRefused n (b % 128)) then s.fput .relStatus REL_STATUS_REFUSED 1
  else { s.setMirrorByte n b with clears := (s.clears ++ sets).eraseDups }.fput .relStatus REL_STATUS_BUSY 1

/-- A write of `REL_MIRROR` i (R625, R655), entry by entry. -/
def State.mirrorWrite (s : State) (i : Nat) (w : RegWrite) : State :=
  let v := (s.written (.relMirror i) w).new.toNat
  (List.range 8).foldl (fun s k => s.mirrorEntry (8 * i + k) (bitsOf v (8 * k) 8)) s

/-- MIRROR_WRITE (R625, R655). -/
def execMirrorWrite (i : Nat) (w : RegWrite) (s : State) : Host.Outcome State Fault Refusal :=
  .next (s.guarded w.master (.relMirror i) fun s => s.mirrorWrite i w)

/-- MIRROR_CLEAR_COMPLETE (R259, R625): the sets read zero, and the accesses that were held proceed. -/
def execMirrorClearComplete (s : State) : Host.Outcome State Fault Refusal :=
  .next ({ s.clears.foldl State.clearRows s with clears := [] }.fput .relStatus REL_STATUS_BUSY 0).releaseHeld.rouse

/-- The homeroom whose memory a flip would reach (R642): a core's for a slice or a desk, the set's where an address is named. -/
def State.flipOwner (s : State) (v : W64) : Nat :=
  let unit := fldGet v REL_FLIP_SEL_UNIT
  match fldGet v REL_FLIP_SEL_MEM with
  | 1 => s.coreHr unit
  | 2 => s.coreHr unit
  | _ => if fldGet v REL_FLIP_SEL_MATCH = 1 then (s.setOwner (setOf s.variant (16 * s.fget .relFlipAddr REL_FLIP_ADDR_GRANULE))).getD 0 else 0

/-- A write of `REL_FLIP_SEL` (R642, R653): one that sets ARM is refused where the mask would leave a valid code word valid, or where
the memory is a SEALED homeroom's. -/
def State.flipSelWrite (s : State) (w : RegWrite) : State :=
  let x := s.written .relFlipSel w
  if x.hit REL_FLIP_SEL_ARM && (decide (s.flipDiff = 0) || decide (s.hrState (s.flipOwner x.new) = 2)) then
    (s.put .relFlipSel x.new |>.fput .relFlipSel REL_FLIP_SEL_ARM 0).fput .relFlipSel REL_FLIP_SEL_REFUSED 1
  else s.put .relFlipSel x.new

/-- FLIP_ARM (R641, R642). -/
def execFlipArm (w : RegWrite) (s : State) : Host.Outcome State Fault Refusal :=
  .next (s.guarded w.master .relFlipSel fun s => s.flipSelWrite w)

end Sys2Proof.Machine
end

