-- ==== Sys2Proof/Machine/Power.lean ====
section
/-! DEFINITION. Voltage domains, package power, sensors, throttling, shutdown and the forecast (R537 to R572). -/

namespace Sys2Proof.Machine

/-- Raise a power event (R564, R567). -/
def State.powerEvent (s : State) : State := if s.fget .pwrCtl PWR_CTL_INT_EN = 1 then s.raise .pwr 0 0x008 .pwrStatus else s

/-- Raise a thermal event (R564, R570). -/
def State.thermalEvent (s : State) : State := if s.fget .thmCtl THM_CTL_INT_EN = 1 then s.raise .thm 0 0x008 .thmStatus else s

/-! ### Domains and regulators -/

/-- A write of `PWR_DOMAIN` (R538, R569): codes above 60 are taken as 60, those of a die domain below 20 as 20. -/
def State.domainWrite (s : State) (i : Nat) (w : RegWrite) : State :=
  if 260 ≤ i then s
  else
    let v := (s.written (.pwrDomain i) w).new
    let c := min 60 (fldGet v PWR_DOMAIN_VSET)
    s.put (.pwrDomain i) (fldSet v PWR_DOMAIN_VSET (if 256 ≤ i then max 20 c else c))

/-- VSET_WRITE (R538, R569): the output is taken to follow at once (log 11). -/
def execVsetWrite (domain : Nat) (w : RegWrite) (s : State) : Host.Outcome State Fault Refusal :=
  .next (s.guarded w.master (.pwrDomain domain) fun s => s.domainWrite domain w)

/-- REGULATOR_FAULT (R539, R540): the domain is off; a core is fenced with cause 0x09 and its router is supplied by the die domain; a
logic die is out of service. -/
def execRegulatorFault (domain : Nat) (s : State) : Host.Outcome State Fault Refusal :=
  if !s.power.mainOn ∨ 260 ≤ domain then .next s
  else
    let t := ((s.fput (.pwrDomain domain) PWR_DOMAIN_OFF 1).fput .pwrStatus PWR_STATUS_REG_FAULT 1).fput .pwrStatus PWR_STATUS_FAULT_DOMAIN domain
    if domain < 256 then .next ((t.modCore domain fun k => { k with routerOnDie := true }).beginFence domain 0x09)
    else .next (t.dieOut (domain - 256))

/-- REGULATOR_OVERVOLTAGE (R541): the record's sensor fields are not stated for cause 0x07 and are free (log 5). -/
def execRegulatorOvervoltage (_domain : Nat) (s : State) : Host.Outcome State Fault Refusal :=
  let (a, s) := s.draw (2 ^ 16)
  let (ta, s) := s.draw (2 ^ 16)
  let (b, s) := s.draw (2 ^ 16)
  let (tb, s) := s.draw (2 ^ 16)
  .next (s.latchShutdown 0x07 0 a ta b tb)

/-! ### Package power (R542 to R544); power in units of 0.01 W -/

/-- The limit in force, in units of 0.01 W (R543). -/
def State.limitNow (s : State) : Nat := 100 * s.thermal.limit.getD (powerDefault s.variant)

/-- PWR_LIMIT_WRITE (R3, R543, R565): outside its range a value is refused with an event. -/
def State.limitWrite (s : State) (w : RegWrite) : State :=
  let x := s.written .pwrLimit w
  let v := x.field PWR_LIMIT_WATTS
  if 1400 ≤ v ∧ v ≤ powerDefault s.variant then s.put .pwrLimit x.new else (s.fput .pwrStatus PWR_STATUS_REFUSED 1).powerEvent

/-- PWR_LIMIT_WRITE (R543). -/
def execPwrLimitWrite (w : RegWrite) (s : State) : Host.Outcome State Fault Refusal :=
  .next (s.guarded w.master .pwrLimit fun s => s.limitWrite w)

/-- The mean of the newest samples, times their number, against a limit: the mean exceeds num / den of it. -/
def meanOver (l : List Nat) (limit num den : Nat) : Bool := decide (limit * num * l.length < l.sum * den)

/-- The back-stop after a sample (R544): its level, and the samples below 98 % in a row. -/
def backstopNext (history : List Nat) (limit level below : Nat) : Nat × Nat :=
  let ms := history.take 20
  let up := meanOver ms limit 1 1
  let lvl := min 7 (if up then level + 1 else level)
  if meanOver (history.take 2) limit 11 10 then (max 4 lvl, 0)
  else if up then (lvl, 0)
  else if decide (ms.sum * 100 < limit * 98 * ms.length) then if below = 3 then (level - 1, 0) else (level, below + 1)
  else (level, 0)

/-- POWER_SAMPLE (R542, R544): package power, power of each stack, and power of domains 0 to 263. -/
def execPowerSample (pkg : Nat) (perStack domains : List Nat) (s : State) : Host.Outcome State Fault Refusal :=
  if !s.power.mainOn then .next s
  else
    let h := s.thermal
    let history := (pkg :: h.history).take 20
    let level := s.fget .pwrStatus PWR_STATUS_BACKSTOP
    let (next, below) := backstopNext history s.limitNow level h.below
    let s := { s with thermal := { h with history := history, below := below, sumPkg := h.sumPkg + pkg, samples := h.samples + 1,
                                          sumStacks := (List.range 4).map fun k => wordAt h.sumStacks k + wordAt perStack k } }
    let s := (List.range 264).foldl (fun s i => match domains[i]? with
      | some p => s.fput (.pwrDomain i) PWR_DOMAIN_POWER (min p 0xFFFF)
      | none => s) s
    let s := s.fput .pwrStatus PWR_STATUS_BACKSTOP next
    .next (if level = 0 ∧ 0 < next then (s.fput .pwrStatus PWR_STATUS_BACKSTOP_HIT 1).powerEvent else s)

/-! ### Sensors (R545 to R549); temperatures in units of 0.125 °C -/

/-- The last reading of a sensor. -/
def State.temp (s : State) (k : Nat) : Int := asSigned 16 (s.fget (.thmSensor k) THM_SENSOR_TEMP)

/-- A sensor is suspect (R547). -/
def State.suspect (s : State) (k : Nat) : Bool := decide (s.fget (.thmSensor k) THM_SENSOR_SUSPECT = 1)

/-- Put a number in its place in a rising list. -/
def insertInt (x : Int) : List Int → List Int
  | [] => [x]
  | y :: l => if x ≤ y then x :: y :: l else y :: insertInt x l

/-- The median of readings (R547); of an even number, the mean of the middle two. -/
def median (l : List Int) : Option Int :=
  let m := l.foldr insertInt []
  let n := m.length
  if n = 0 then none
  else some ((m.getD ((n - 1) / 2) 0 + m.getD (n / 2) 0) / 2)

/-- Differs by more than 6 °C. -/
def farApart (a b : Int) : Bool := decide (48 < (a - b).natAbs)

/-- The nowcast at a sensor's place (R557); none before the first update. -/
def State.sensorNowcast (s : State) (k : Nat) : Option Int :=
  if s.thermal.update = 0 then none else some (Config.nowcast s.thermal.update (2 ^ 20 + k))

/-- A sample of a sensor is in doubt (R547): it differs from both references, or from the nowcast where no neighbour is left. -/
def State.doubtful (s : State) (k : Nat) : Bool :=
  let near := (sensorNeighbours k).filter fun j => sensorPresent s.variant j && !s.suspect j
  (match s.sensorNowcast k with | some n => farApart (s.temp k) n | none => false) &&
  (match median (near.map s.temp) with | some m => farApart (s.temp k) m | none => true)

/-- Judge a sensor at its sample (R547): the third doubtful sample in a row marks it. -/
def State.judge (s : State) (k : Nat) : State :=
  if s.suspect k then s
  else if !s.doubtful k then { s with thermal := { s.thermal with runs := smDel s.thermal.runs k } }
  else
    let n := smGet 0 s.thermal.runs k + 1
    let t := { s with thermal := { s.thermal with runs := smPut s.thermal.runs k n } }
    if n < 3 then t
    else (((t.fput (.thmSensor k) THM_SENSOR_SUSPECT 1).fput .thmStatus THM_STATUS_SUSPECT 1).fadd .thmStatus THM_STATUS_SUSPECTS 1).thermalEvent

/-- The governing reading of a core (R184, R546): none where no usable sensor is left. -/
def State.governingTemp (s : State) (c : Nat) : Option Int :=
  if !s.suspect (governing c) then some (s.temp (governing c))
  else
    (((nextNearest c).filter fun k => !s.suspect k).take 2).map s.temp |>.max?

/-- The estimate of a layer over a core (R184). -/
def State.layerEstimate (s : State) (c l : Nat) : Option Int :=
  (s.governingTemp c).map fun t => t - 8 * (s.fget (.nearLayerOffset c) ⟨4 * l, 4⟩ : Nat)

/-- The readings that make a hot spot's (R548): those of its sensors that are not suspect, and for a DRAM region its cores' estimates. -/
def State.hotReadings (s : State) (h : Nat) : List Int :=
  ((hotSensors h).filter fun k => !s.suspect k).map s.temp ++
    (if hotClass h = 1 then (hotCores h).filterMap fun c => s.layerEstimate c ((h % 64 - 20) / 8) else [])

/-- The reading of a hot spot (R548, R549): its nowcast plus 6 °C where no sensor is usable. -/
def State.hotReading (s : State) (h : Nat) : Int := ((s.hotReadings h).max?).getD (smGet 0 s.thermal.now h + 48)

/-! ### Throttle steps (R552, R553) -/

/-- Take one step: none where the unit has none left. -/
def ThrottleUnit.take (x : ThrottleUnit) (u : Nat) : Option ThrottleUnit :=
  if 512 ≤ u then if x.level < 3 then some { x with level := x.level + 1 } else none
  else if x.level < 7 then some { x with level := x.level + 1, held := 0 }
  else if u < 256 ∧ 8 ≤ x.held ∧ x.cap < 12 then some { x with cap := x.cap + 1 } else none

/-- Give one step back: the cap rises before recess falls. -/
def ThrottleUnit.give (x : ThrottleUnit) : ThrottleUnit :=
  if 0 < x.cap then { x with cap := x.cap - 1 } else { x with level := x.level - 1, held := 0 }

/-- The strongest step of a unit (R549). -/
def ThrottleUnit.strongest (u : Nat) : ThrottleUnit := ⟨if 512 ≤ u then 3 else 7, 8, if u < 256 then 12 else 0⟩

/-- A hot spot takes a step on a unit; it owns the steps that it took. -/
def Thermal.takeStep (t : Thermal) (h u : Nat) : Thermal :=
  match (smGet ⟨0, 0, 0⟩ t.units u).take u with
  | some y => { t with units := smPut t.units u y, taken := smMod 0 t.taken (h * 4096 + u) (· + 1) }
  | none => t

/-- A hot spot takes a step on each of its units. -/
def Thermal.takeSteps (t : Thermal) (h : Nat) : Thermal := (hotUnits h).foldl (fun t u => t.takeStep h u) t

/-- A hot spot gives back a step of each unit on which it owns one. -/
def Thermal.giveSteps (t : Thermal) (h : Nat) : Thermal :=
  (hotUnits h).foldl (fun t u =>
    if 0 < smGet 0 t.taken (h * 4096 + u) then
      { t with units := smPut t.units u (smGet ⟨0, 0, 0⟩ t.units u).give, taken := smMod 0 t.taken (h * 4096 + u) (· - 1) }
    else t) t

/-- The units of a hot spot without a usable sensor are held at their strongest step (R549). -/
def Thermal.forceSteps (t : Thermal) (h : Nat) : Thermal :=
  (hotUnits h).foldl (fun t u => { t with units := smPut t.units u (.strongest u) }) t

/-- One sample of the hot spots of a list: the recess-7 hold of every core domain that they throttle (R553). -/
def Thermal.hold (t : Thermal) (hot : List Nat) : Thermal :=
  let step := fun (e : Nat × ThrottleUnit) =>
    if e.1 < 256 ∧ e.2.level = 7 ∧ (hot.any fun h => (hotUnits h).contains e.1) then (e.1, { e.2 with held := e.2.held + 1 }) else e
  { t with units := t.units.map step }

/-! ### Levels, throttling and shutdown (R550 to R555) -/

/-- The agreement that a shutdown needs (R555): the hot sensor, its reading, the basis, and what agrees with it. -/
def State.shutdownFound (s : State) (h : Nat) : Option (Nat × Int × Nat × Nat × Int) :=
  let good := (hotSensors h).filter fun k => !s.suspect k
  let (_, _, lim) := hotLevels (hotClass h)
  (good.filter fun k => decide (lim ≤ s.temp k)).findSome? fun a =>
    match good.find? fun b => decide (b ≠ a) && decide ((s.temp a - s.temp b).natAbs ≤ 32) with
    | some b => some (a, s.temp a, 1, b, s.temp b)
    | none =>
      let n := smGet 0 s.thermal.now h
      if s.thermal.update ≠ 0 ∧ (s.temp a - n).natAbs ≤ 32 then some (a, s.temp a, 2, 0xF000, n) else none

/-- A sensor in the form of a shutdown record (R530). -/
def sensorWord (k : Nat) : Nat :=
  let (c, u, i) := sensorParts k
  c * 2 ^ 12 + u * 2 ^ 8 + i

/-- CAUSE of a shutdown by a class of sensor (R530). -/
def shutdownCause (cls : Nat) : Nat := if cls = 0 then 1 else if cls = 1 then 2 else if cls = 2 then 4 else if cls = 3 then 5 else 3

/-- The level that a hot spot stands at after a reading (R550). -/
def hotLevel (cls : Nat) (old : Nat) (t : Int) : Nat :=
  let (warn, thr, _) := hotLevels cls
  if thr < t ∨ (2 ≤ old ∧ thr - 40 ≤ t) then 2 else if warn < t ∨ (1 ≤ old ∧ warn - 40 ≤ t) then 1 else 0

/-- One sample of a hot spot (R549 to R552): where it has no usable reading, a DRAM region's estimates among them, its units are held at
their strongest step. -/
def State.sampleHot (s : State) (h : Nat) : State :=
  let cls := hotClass h
  let (_, thr, lim) := hotLevels cls
  let t := s.hotReading h
  let old := smGet 0 s.thermal.levels h
  let lvl := hotLevel cls old t
  let lone := (hotSensors h).any fun k => !s.suspect k && decide (lim ≤ s.temp k)
  let th := { s.thermal with levels := smSet 0 s.thermal.levels h (if lone then 3 else lvl) }
  let th := if 2 ≤ lvl then th.takeSteps h else if t < thr - 40 then th.giveSteps h else th
  let th := if (s.hotReadings h).isEmpty then th.forceSteps h else th
  let s := { s with thermal := th }
  let s := if old = 0 ∧ 1 ≤ lvl then (s.fput .thmStatus THM_STATUS_WARN 1).thermalEvent else s
  if old < 2 ∧ 2 ≤ lvl then (s.fput .thmStatus THM_STATUS_THROTTLE 1).thermalEvent else s

/-! ### The slice controllers' part (R180 to R186) -/

/-- The refresh code of a layer at a temperature (R180). -/
def refreshCode (old : Nat) (t : Int) : Nat :=
  if 760 < t ∨ (old = 2 ∧ 720 ≤ t) then 2 else if 680 < t ∨ (1 ≤ old ∧ 640 ≤ t) then 1 else 0

/-- The throttle level of a layer at a temperature (R182). -/
def layerLevel (old : Nat) (t : Int) : Nat :=
  if 808 < t ∨ (3 ≤ old ∧ 768 ≤ t) then 3 else if 784 < t ∨ (2 ≤ old ∧ 744 ≤ t) then 2
  else if 760 < t ∨ (1 ≤ old ∧ 720 ≤ t) then 1 else 0

/-- The hot spot of a DRAM layer's region over a core (R548). -/
def layerHot (c l : Nat) : Nat := 64 * coreStack c + 20 + 8 * l + coreRegion c

/-- A layer that has no estimate (R185): its strongest steps, with its own sensor's reading where that is usable (R197). As it leaves level 0
it raises a throttle request for the core's domain (R183). -/
def State.layerFallback (s : State) (c l : Nat) (own : Option Int) : State :=
  let thr : Fld := ⟨16 + 2 * l, 2⟩
  let t := ((s.fput (.nearStatus c) ⟨8 + 2 * l, 2⟩ 2).fput (.nearStatus c) thr 3).fput (.nearStatus c) NEAR_STATUS_FALLBACK 1
  let t := match own with | some o => t.fput (.nearTemp c) ⟨16 * l, 16⟩ (ofSigned 16 o) | none => t
  if s.fget (.nearStatus c) thr = 0 then { t with thermal := t.thermal.takeStep (layerHot c l) c } else t

/-- One sample of a layer over a core (R180 to R186, R197); `read` says that the layer's own sensor is among those sampled. DESIGN CHOICE:
`XCHK` is set, and its event raised, by the third such sample in a row and not again while the run goes on (log 74). -/
def State.sampleLayer (s : State) (c l : Nat) (read : Bool) : State :=
  let k := layerSensor c l
  let own := if s.suspect k then none else some (s.temp k)
  let refresh : Fld := ⟨8 + 2 * l, 2⟩
  let thr : Fld := ⟨16 + 2 * l, 2⟩
  match s.layerEstimate c l with
  | none => s.layerFallback c l own
  | some e =>
    let t := max e (own.getD e)
    let hot := match own with | some o => decide (48 < o - e) | none => false
    let old := (s.near c).xchkRun.getD l 0
    let run := if !read then old else if hot then old + 1 else 0
    let u := (((s.fput (.nearStatus c) refresh (refreshCode (s.fget (.nearStatus c) refresh) t)).fput (.nearStatus c) thr
      (layerLevel (s.fget (.nearStatus c) thr) t)).fput (.nearStatus c) NEAR_STATUS_FALLBACK 0).fput (.nearTemp c) ⟨16 * l, 16⟩ (ofSigned 16 t)
    let u := u.setNear c { u.near c with xchkRun := (u.near c).xchkRun.set l run }
    if read ∧ run = 3 then (u.fput (.nearStatus c) NEAR_STATUS_XCHK 1).raise .near c 0x008 (.nearStatus c) else u

/-- The cores whose slice controllers act on a sample: a governing sensor, one that may stand for it, or a layer's own was read. -/
def sampledCores (keys : List Nat) : List Nat :=
  (List.range 256).filter fun c =>
    (List.range 32).any (fun i => keys.contains (sensorKey 0 (coreStack c) i)) || (List.range 4).any (fun l => keys.contains (layerSensor c l))

/-- The hot spots that a sample reads: those of its sensors, and DRAM regions of a logic die whose sensors it reads (R548). -/
def sampledHot (v : Variant) (keys : List Nat) : List Nat :=
  (hotSpots v).filter fun h => (hotSensors h).any keys.contains ||
    (decide (hotClass h = 1) && (List.range 32).any fun i => keys.contains (sensorKey 0 (h / 64) i))

/-- A sample of sensors (R545 to R555). -/
def State.sampleSensors (s : State) (readings : List (Nat × Int)) : State :=
  let rs := readings.filter fun r => sensorPresent s.variant r.1 && s.dieUp (sensorDie r.1)
  let keys := rs.map Prod.fst
  if !s.power.mainOn ∨ rs.isEmpty then s
  else
    let s := rs.foldl (fun s r => s.fput (.thmSensor r.1) THM_SENSOR_TEMP (ofSigned 16 r.2)) s
    let s := keys.foldl State.judge s
    let hot := sampledHot s.variant keys
    let s := { s with thermal := s.thermal.hold hot }
    match hot.findSome? fun h => (s.shutdownFound h).map fun x => (h, x) with
    | some (h, a, ta, basis, b, tb) =>
      s.latchShutdown (shutdownCause (hotClass h)) basis (sensorWord a) (ofSigned 16 ta) (if basis = 2 then b else sensorWord b) (ofSigned 16 tb)
    | none =>
      let s := hot.foldl State.sampleHot s
      ((sampledCores keys).filter fun c => s.dieUp (coreStack c)).foldl (fun s c => (List.range 4).foldl (fun s l => s.sampleLayer c l (keys.contains (layerSensor c l))) s) s

/-- SENSOR_SAMPLE (R545 to R555). -/
def execSensorSample (readings : List (Nat × Int)) (s : State) : Host.Outcome State Fault Refusal := .next (s.sampleSensors readings)

/-- FAR_TEMP_READOUT (R199, R234, R545): the readout, in whole °C, of a stack that is present. -/
def execFarTempReadout (f : Nat) (temp : Int) (s : State) : Host.Outcome State Fault Refusal :=
  if s.farGone f then .next s
  else .next ((s.fput (.farStatus f) FAR_STATUS_TEMP (ofSigned 8 temp)).sampleSensors [(sensorKey 4 f 0, 8 * temp)])

/-! ### The forecast (R557 to R562) -/

/-- The forecast of a hot spot (R557): the model's, plus the present error, plus 10 ms of its rise over the last four updates where
that is positive; four updates take 0.8 ms. -/
def forecastOf (n h : Nat) (errs : List Int) : Int :=
  let e := errs.headD 0
  let rise := e - errs.getD (min 4 (errs.length - 1)) 0
  Config.forecast n h + e + max 0 (25 * rise / 2)

/-- The model's update of every hot spot. -/
def State.updateHot (s : State) : Thermal :=
  let n := s.thermal.update + 1
  (hotSpots s.variant).foldl (fun t h =>
    let now := Config.nowcast n h
    let errs := ((s.hotReading h - now) :: smGet [] t.errs h).take 5
    { t with now := smPut t.now h now, errs := smPut t.errs h errs, fore := smPut t.fore h (forecastOf n h errs) })
    { s.thermal with update := n }

/-- The forecast of a hot spot. -/
def State.fore (s : State) (h : Nat) : Int := smGet 0 s.thermal.fore h

/-- The throttle level of a hot spot. -/
def throttleLevel (h : Nat) : Int := (hotLevels (hotClass h)).2.1

/-- MARGIN in units of 0.125 °C (R570). -/
def State.margin (s : State) : Int := 8 * (s.fget .thmCtl THM_CTL_MARGIN : Nat)

/-- A core is warm (R558). -/
def State.coreWarm (s : State) (c : Nat) : Bool :=
  (hotSpots s.variant).any fun h => (hotCores h).contains c && decide (throttleLevel h - s.margin < s.fore h)

/-- The held readings lie outside their limits (R560). -/
def State.coolantBad (s : State) : Bool :=
  (s.thermal.flowHeld && decide (s.fget .officeCoolant OFFICE_COOLANT_FLOW < s.fget .thmCtl THM_CTL_FLOW_MIN)) ||
  (s.thermal.inletHeld && decide (asSigned 16 (s.fget .thmCtl THM_CTL_INLET_MAX) < asSigned 16 (s.fget .officeCoolant OFFICE_COOLANT_INLET)))

/-- A coolant fault begins (R560). -/
def State.coolantFault (s : State) : Bool :=
  s.coolantBad || (hotSpots s.variant).any fun h => decide (throttleLevel h < s.fore h)

/-- An update is good (R561): the readings are fresh and within their limits, and every forecast keeps its margin. -/
def State.coolantGood (s : State) : Bool :=
  decide (s.fget .officeCoolant OFFICE_COOLANT_WORST = 0) && !s.coolantBad &&
    (hotSpots s.variant).all fun h => decide (s.fore h ≤ throttleLevel h - s.margin)

/-- Watts of measured power, of a sum of samples (R542): the mean of the period; the last mean where it had no sample. -/
def State.meanWatts (s : State) (r : Reg) (sum : Nat) : Nat :=
  if s.thermal.samples = 0 then s.fget r PWR_PKG_MEAS_W else sum / (100 * s.thermal.samples)

/-- The input power, in watts, of the cores of a list that run lessons (R558). -/
def State.lessonWatts (s : State) (cores : List Nat) : Nat :=
  ((cores.filter fun c => (s.core c).lesson.isSome).map fun c => s.fget (.pwrDomain c) PWR_DOMAIN_POWER).sum / 100

/-- The power of the LAUNCHes that run on a stack, in watts (R487, R558). -/
def State.stackReserved (s : State) (k : Nat) : Nat :=
  ((s.rings.flatMap fun e => e.2.descs.filter fun d => d.started && decide (d.core.map (· / 64) = some k)).map Desc.power).sum / 2

/-- The watts that a stack may still take on (R558): the least headroom of its hot spots, divided by k(h), which the model takes in
units of 2^-16 of 0.125 °C per watt (log 15). -/
def State.stackRoom (s : State) (k : Nat) : Int :=
  ((rangeFrom (64 * k) 60).map fun h => (throttleLevel h - s.margin - s.fore h) * 65536 / (Config.coefficient 0 h : Int)).min?.getD 0

/-- The forecast message (R558, R561). -/
def State.forecastMsg (s : State) (fault : Bool) : Forecast :=
  let t := s.thermal
  let base := fun (r : Reg) (sum : Nat) (cores : List Nat) => s.meanWatts r sum - s.lessonWatts cores
  let bases := (List.range 4).map fun k => base (.pwrStack k) (wordAt t.sumStacks k) (dieCores k)
  let allow := (List.range 4).map fun k => (max 0 ((wordAt bases k + s.stackReserved k : Nat) + s.stackRoom k)).toNat
  { allowPkg := if fault then 0 else s.fget .pwrLimit PWR_LIMIT_WATTS - s.fget .pwrCtl PWR_CTL_GUARD
    basePkg := base .pwrPkg t.sumPkg (List.range 256)
    allowStack := if fault then [0, 0, 0, 0] else allow
    baseStack := bases
    warm := if fault then 2 ^ 256 - 1 else maskOf ((List.range 256).filter s.coreWarm)
    fc := (List.range 256).map fun c => s.fore (hotOf (governing c)) / 4 }

/-- The fault, the floor and the good updates after an update (R560, R561): the fault, the floor, good updates in a row, and whether the
fault begins. -/
def State.faultNext (s : State) : Bool × Nat × Nat × Bool :=
  let was := decide (s.fget .thmStatus THM_STATUS_FAULT = 1)
  let good := if s.coolantGood then s.thermal.good + 1 else 0
  if was then if good = 10 then (false, 6, 0, false) else (true, 6, good, false)
  else if s.coolantFault then (true, 6, 0, true)
  else (false, s.thermal.floor - 1, 0, false)

/-- Show one register of measured power (R568). -/
def State.showPower (s : State) (r : Reg) (meas base allow : Nat) : State :=
  ((s.fput r PWR_PKG_MEAS_W (min meas 0xFFFF)).fput r PWR_PKG_BASE_W (min base 0xFFFF)).fput r PWR_PKG_ALLOW_W (min allow 0xFFFF)

/-- FORECAST_UPDATE (R557 to R562, R568, R571): the message reaches the registrar. -/
def execForecastUpdate (s : State) : Host.Outcome State Fault Refusal :=
  if !s.power.mainOn then .next s
  else
    let s := { s with thermal := s.updateHot }
    let (fault, floor, good, begins) := s.faultNext
    let msg := s.forecastMsg fault
    let t := s.thermal
    let room := ((hotSpots s.variant).map fun h => throttleLevel h - s.fore h).min?.getD 0
    let u := s.showPower .pwrPkg (s.meanWatts .pwrPkg t.sumPkg) msg.basePkg msg.allowPkg
    let u := (List.range 4).foldl (fun u k =>
      u.showPower (.pwrStack k) (s.meanWatts (.pwrStack k) (wordAt t.sumStacks k)) (wordAt msg.baseStack k) (wordAt msg.allowStack k)) u
    let u := (u.fput .thmStatus THM_STATUS_FAULT (b2n fault)).fput .thmStatus THM_STATUS_HEADROOM (ofSigned 16 (max (-32768) (min 32767 room)))
    let u := { u with thermal := { t with floor := floor, good := good, sumPkg := 0, sumStacks := [0, 0, 0, 0], samples := 0,
                                          limit := some (s.fget .pwrLimit PWR_LIMIT_WATTS) } }
    .next ((if begins then u.thermalEvent else u).onForecast msg)

end Sys2Proof.Machine
end

