-- ==== Sys2Proof/Machine/Package.lean ====
section
/-! DEFINITION. Supply rails, PERST_N, reference clocks, straps, and losses that come from outside the dies (R33, R492, R556,
R697 to R708). -/

namespace Sys2Proof.Machine

/-- VAUX_POWER_ON (R515, R699, R703, R707, R708): straps carry OFFICE_ADDR in bits [1:0] and TEST_EN in bit 2; the office starts in SMBus
mode with nothing held, and the main side stays down. -/
def execVauxPowerOn (straps : Nat) (s : State) : Host.Outcome State Fault Refusal :=
  if s.power.vaux then .next s
  else
    let test := bitAt straps 2
    let hold := test && !s.fuseBit 1294
    let t := { s with power := { s.power with vaux := true, vauxCycled := s.power.latched, testHold := hold, boots := 0 } }
    .next (((t.fput .topStraps TOP_STRAPS_OFFICE_ADDR (straps % 4)).fput .topStraps TOP_STRAPS_TEST_EN (b2n test)).fput .topStraps
      TOP_STRAPS_TEST_ACTIVE (b2n hold))

/-- VAUX_LOSS (R531, R674, R703): everything is lost, the office's records too; with the main side up, that is released only as a latched
shutdown is. -/
def execVauxLoss (s : State) : Host.Outcome State Fault Refusal :=
  if !s.power.vaux then .next s
  else
    let latched := s.power.latched || s.power.mainOn
    let t := s.packageReset
    .next { t with regs := [], shutdowns := [], officeEvents := [], sessions := [], spdm := [],
                   power := { t.power with vaux := false, latched := latched, vauxCycled := false } }

/-- A rail that is monitored (R697): VIN_CORE, or a rail of an I/O die whose domain is up. -/
def State.railWatched (s : State) (rail die : Nat) : Bool :=
  s.power.armed && s.power.mainOn && (decide (rail = 1) || (decide (2 ≤ rail) && decide (rail ≤ 4) && decide (die < 4) && s.dieUp (4 + die)))

/-- The shutdown of a main rail (R697): the second sensor of its record is not stated, and is free (log 5). -/
def State.railShutdown (s : State) (rail die mv : Nat) : State :=
  let (b, s) := s.draw (2 ^ 16)
  let (tb, s) := s.draw (2 ^ 16)
  s.latchShutdown 0x06 0 (0xF000 + (if rail = 1 then 0 else die) * 256 + rail) (mv % 2 ^ 16) b tb

/-- MAIN_RAIL_FAULT (R541, R697). -/
def execMainRailFault (rail die mv : Nat) (s : State) : Host.Outcome State Fault Refusal :=
  .next (if s.railWatched rail die then s.railShutdown rail die mv else s)

/-- VIN_CORE_CYCLE (R556, R703): VIN_CORE is seen off and then on. With the monitors armed that is first a fault; after VAUX_1V8 was cycled
it ends a latched shutdown, and the main side starts where PERST_N is not asserted (R701). -/
def execVinCoreCycle (s : State) : Host.Outcome State Fault Refusal :=
  if s.railWatched 1 0 then
    let (mv, t) := s.draw (2 ^ 16)
    .next (t.railShutdown 1 0 mv)
  else if s.power.latched ∧ s.power.vaux ∧ s.power.vauxCycled then
    let t := { s with power := { s.power with latched := false, vauxCycled := false } }.emit (.pin "THRM_TRIP_N" true)
    .next (if t.power.perst ∨ t.power.testHold then t else t.coldStart)
  else .next s

/-- PERST_DEASSERT (R699, R701, R705, R707, R708): the effective deassertion arms the monitors, samples PCIE_SRIS and starts the main side,
unless a shutdown is latched or a test strap holds it. -/
def execPerstDeassert (sris : Bool) (s : State) : Host.Outcome State Fault Refusal :=
  if !s.power.perst then .next s
  else
    let t := ({ s with power := { s.power with perst := false } }).fput .topStraps TOP_STRAPS_PCIE_SRIS (b2n sris)
    .next (if t.power.vaux ∧ !t.power.latched ∧ !t.power.testHold then t.coldStart else t)

/-- PERST_ASSERT (R674, R701, R702). -/
def execPerstAssert (s : State) : Host.Outcome State Fault Refusal :=
  if s.power.perst then .next s
  else
    let t := if s.power.mainOn then (s.goodbyeAll 1).packageReset else s
    .next { t with power := { t.power with perst := true, armed := false } }

/-- REFCLK_LOSS (R704, R706): clocks 0 to 7 are SYS_REFCLK0 to 7, 8 to 11 FAB_REFCLK0 to 3, and 12 PCIE_REFCLK. -/
def execRefclkLoss (clk : Nat) (s : State) : Host.Outcome State Fault Refusal :=
  if clk < 8 then .next (s.dieOut clk)
  else if clk < 12 then
    .next ((List.range 6).foldl (fun s p =>
      if s.ioUp (clk - 8) ∧ s.portState (clk - 8) p ≠ 0 ∧ s.portState (clk - 8) p ≠ 7 then
        (s.portDown (clk - 8) p 7 2 true).portEvent (clk - 8) p else s) s)
  else if clk = 12 then .next { s with power := { s.power with pcieLost := s.power.mainOn }, hostWaits := if s.power.mainOn then [] else s.hostWaits }
  else .next s

/-- DRAM_LAYER_LOSS (R33, R65): the slices of the stack are lost, and its cores are fenced with cause 0x07. -/
def execDramLayerLoss (stack layer : Nat) (s : State) : Host.Outcome State Fault Refusal :=
  .next (if stack < 4 ∧ layer < 4 ∧ s.dieUp stack then (dieCores stack).foldl (fun s c => s.beginFence c 0x07) s else s)

/-- COMPLETION_TIMEOUT (R492): a failed fetch puts its ring into the error state with cause FETCH; another read ends its descriptor with
BUS_ERROR. -/
def execCompletionTimeout (ring seq : Nat) (fetch : Bool) (s : State) : Host.Outcome State Fault Refusal :=
  if !s.registrarUp then .next s
  else if fetch then .next (if s.ringState ring = 1 then s.ringError ring 2 else s)
  else match s.desc ring seq with
    | some d => .next (if d.started then s.finish ring d 4 0 0 0 0 else s)
    | none => .next s

/-- REFRESH_MANAGEMENT_REQUEST (R199): the controller honours it with an extra refresh of the bank. -/
def execRefreshManagementRequest (f bank : Nat) (s : State) : Host.Outcome State Fault Refusal :=
  .next (if s.farGone f then s
    else s.setFarPort f { s.farPort f with refreshes := smPut (s.farPort f).refreshes bank (smGet 0 (s.farPort f).refreshes bank + 1) })

end Sys2Proof.Machine
end

