-- ==== Sys2Proof/Machine/RegWrite.lean ====
section
/-! DEFINITION. Register accesses by offset: what a write does to every register, and requests that no BAR claims (R14 to R17, R524,
R719 to R731). -/

namespace Sys2Proof.Machine

/-- INLET_MAX as a write takes it (R570): above 85 °C it is 85 °C. -/
def inletMax (v : Nat) : Nat := if 680 < asSigned 16 v then 680 else v

/-- A write of `THM_CTL` (R570). -/
def State.thmCtlWrite (s : State) (w : RegWrite) : State :=
  let v := (s.written .thmCtl w).new
  s.put .thmCtl (fldSet (fldSet v THM_CTL_FLOW_MIN (max 1 (fldGet v THM_CTL_FLOW_MIN))) THM_CTL_INLET_MAX
    (inletMax (fldGet v THM_CTL_INLET_MAX)))

/-- A write of an ARB register of an instance that exists (R352 to R356). -/
def State.arbWrite (s : State) (sel : Nat) (r : Reg) (w : RegWrite) : State :=
  if arbPresent sel then s.put r (s.written r w).new else s

/-- A write of `ARB_WEIGHT` (R354): fields beyond the instance's last requester ignore it. -/
def State.arbWeightWrite (s : State) (d sel : Nat) (w : RegWrite) : State :=
  if arbPresent sel then s.put (.arbWeight d sel) ((s.written (.arbWeight d sel) w).new &&& BitVec.ofNat 64 (2 ^ (4 * arbRequesters sel) - 1)) else s

/-- A write by the access codes alone (R16). -/
def State.plainWrite (s : State) (r : Reg) (w : RegWrite) : State := s.put r (s.written r w).new

/-- A write of a register that is reached (R16): by its own rule where its chapter gives one, else by its access codes. -/
def State.performWrite (s : State) (r : Reg) (w : RegWrite) (env : WriteEnv) : State :=
  match r with
  | .coreFenceCtl c => s.fenceCtl c w
  | .arrCtl c a => s.arrCtlWrite c a w
  | .arrSrndSeed c a => s.seedWrite c (if a = 0 then .arrayA else .arrayB) w
  | .coreSkimSeed c => s.seedWrite c .skim w
  | .nearLayerOffset c => s.layerOffsetWrite c w
  | .sepScope i => s.sepWrite (.sepScope i) i w
  | .sepNarrow i => s.sepWrite (.sepNarrow i) i w
  | .farMode f => s.farModeWrite f w
  | .farShare f _ => if farPresent s.variant f then s.plainWrite r w else s
  | .scCtl f => s.scCtlWrite f w
  | .scStat f => s.clearStat (.scStat f) w SC_STAT_CLEAR [SC_STAT_MERGES, SC_STAT_ATOMICS]
  | .ldlCtl f => s.ldlCtlWrite f w
  | .ldlStat f => s.clearStat (.ldlStat f) w LDL_STAT_CLEAR [LDL_STAT_ROW_STEPS, LDL_STAT_REFRESH_INSERTS, LDL_STAT_FAILS, LDL_STAT_LATE_DROPS]
  | .pailCtl d => s.pailCtlWrite d w
  | .pailStat1 d => s.pailStatWrite d w
  | .meshCtl d =>
    let v := (s.written r w).new
    s.put (.meshCtl d) (fldSet v MESH_CTL_HB_TICKS (max 0x10 (fldGet v MESH_CTL_HB_TICKS)))
  | .meshStat d => s.clearStat (.meshStat d) w MESH_STAT_CLEAR [MESH_STAT_EJECT_HOLDS]
  | .arbCtl d sel => s.arbCtlWrite d sel w
  | .arbWeight d sel => s.arbWeightWrite d sel w
  | .arbStarve _ sel => s.arbWrite sel r w
  | .arbStat d sel => if arbPresent sel then s.clearStat (.arbStat d sel) w ARB_STAT_CLEAR [ARB_STAT_GRANTS, ARB_STAT_MAX_LOSSES] else s
  | .xingCtl d => s.xingCtlWrite d w
  | .d2dCtl d => s.d2dCtlWrite d w
  | .d2dStat d => s.clearStat (.d2dStat d) w D2D_STAT_CLEAR [D2D_STAT_LATE_DROPS]
  | .linkId d => s.linkIdWrite d w
  | .linkCtl d => s.linkCtlWrite d w
  | .linkRouteData d _ => if s.linkPresent d then s.plainWrite r w else s
  | .linkStat d => s.clearStat (.linkStat d) w LINK_STAT_CLEAR [LINK_STAT_LATE_DROPS, LINK_STAT_HOP_EXPIRED, LINK_STAT_MALFORMED]
  | .linkPortCtl d p => s.portCtlWrite d p w
  | .linkPortStat d p =>
    s.clearStat (.linkPortStat d p) w LINK_PORT_STAT_CLEAR [LINK_PORT_STAT_CORRECTED, LINK_PORT_STAT_UNCORRECTED, LINK_PORT_STAT_REPLAYS]
  | .ringSqBase n => s.ringBaseWrite n (.ringSqBase n) w
  | .ringCqBase n => s.ringBaseWrite n (.ringCqBase n) w
  | .ringCfg n => s.ringCfgWrite n w
  | .ringCtl n => s.ringCtlWrite n w
  | .ringAdmit => s.ringAdmitWrite w
  | .ringAdmitStat => s.clearStat .ringAdmitStat w RING_ADMIT_STAT_CLEAR
      [RING_ADMIT_STAT_DEFERRALS, RING_ADMIT_STAT_ROTATIONS, RING_ADMIT_STAT_HELD_FIRST]
  | .ringEvqCfg => s.evqCfgWrite w
  | .officeStatus => s
  | .officeCtl => if w.master = .office then s.plainWrite r w else s
  | .officeEvq => if w.master = .office then s.plainWrite r w else s
  | .officeCoolant => s
  | .pwrLimit => s.limitWrite w
  | .pwrDomain i => s.domainWrite i w
  | .thmCtl => s.thmCtlWrite w
  | .secHrCtl h => s.hrCtlWrite h w
  | .secHrCores h i => s.hrCoresWrite h i w
  | .secHrMap h i => s.hrMapWrite h i w
  | .secHrWinHost h _ => s.hrWindowWrite h r w
  | .secHrWinMap h _ => s.hrWindowWrite h r w
  | .secMboxCtl => s.mboxCtlWrite w env.resp
  | .secDebug => s.debugWrite w (decide (w.master = .office))
  | .relCtl =>
    let v := (s.written r w).new
    s.put .relCtl (fldSet v REL_CTL_CORE_LIMIT (max 1 (fldGet v REL_CTL_CORE_LIMIT)))
  | .relMirror i => s.mirrorWrite i w
  | .relFlipSel => s.flipSelWrite w
  | .bootCtl => s.bootCtlWrite w env.findings
  | .bootDomain _ => s.bootDomainWrite w
  | r => s.plainWrite r w

/-! ### Accesses by offset -/

/-- The function by which a host access comes. -/
def Master.func : Master → Option Nat
  | .pf => some 0 | .vf n => some n | .office => none | .registrar => none

/-- The offset in the physical function's BAR0 that an access reaches (R721): a virtual function's BAR0 holds the RING block; none
beyond BAR0 (R731). -/
def barOffset (m : Master) (off : Nat) : Option Nat :=
  match m with
  | .vf _ => if off < 0x10000 then some (0x10000 + off) else none
  | _ => if off < 0x4000000 then some off else none

/-- An access of a size and alignment that is taken (R14, R15). -/
def accessTaken (off size : Nat) : Bool := (decide (size = 4) || decide (size = 8)) && decide (off % size = 0)

/-- The register that a master's access reaches (R719, R723, R724). -/
def State.regFor (s : State) (m : Master) (off : Nat) : Option Reg := regAt s.get m.copy (off / 8 * 8)

/-- The value of a read at an offset (R15 to R17, R730). -/
def State.regReadAt (s : State) (m : Master) (off size : Nat) : Nat :=
  match s.regFor m off with
  | none => 0
  | some r =>
    let v := (s.regValue m r).toNat
    if size = 8 then v else if off % 8 = 4 then v / 2 ^ 32 else v % 2 ^ 32

/-- A write at an offset (R15 to R17, R525, R527, R730). -/
def State.regWriteAt (s : State) (m : Master) (off size v : Nat) (env : WriteEnv) : State :=
  match s.regFor m off with
  | some r => s.guarded m r fun s => s.performWrite r ⟨m, if size = 8 then .full else if off % 8 = 4 then .hi else .lo, v⟩ env
  | none =>
    match blockAt off with
    | none => s
    | some (b, _) =>
      if !s.pathUp m then s
      else if s.hostBlocked m b then s.fadd .officeCtl OFFICE_CTL_BLOCKED 1
      else if !inImageWindow off ∨ s.image.holder = some false ∨ s.boot.step = 1 then s
      else s.storeImage true (off - 0x3800000) (leBytes size v)

/-- A request that no BAR claims (R731). -/
def State.unclaimed (s : State) (f : Nat) : State := if s.hostLink then s.emit (.unsupportedRequest f) else s

/-- REGISTER_WRITE (R14 to R17, R524, R721 to R730): a read or a write of BAR0 by a host function, the office or the registrar. -/
def execRegisterWrite (m : Master) (off size : Nat) (acc : RegAccess) (env : WriteEnv) (s : State) : Host.Outcome State Fault Refusal :=
  match barOffset m off, acc with
  | none, _ => .next (match m.func with | some f => s.unclaimed f | none => s)
  | some o, .write v => .next (if accessTaken o size then s.regWriteAt m o size v env else s)
  | some o, .read =>
    if !s.pathUp m then .next s
    else if accessTaken o size then .next (s.emit (.regValue m (s.regReadAt m o size)))
    else .next (match m.func with | some f => s.emit (.completerAbort f) | none => s)

/-- UNCLAIMED_REQUEST (R731): a read completes with Unsupported Request, a write is dropped and reported as one; BAR sizes are those of
R452. -/
def execUnclaimedRequest (f bar off : Nat) (_write : Bool) (s : State) : Host.Outcome State Fault Refusal :=
  let size := match bar with
    | 0 => if f = 0 then 0x4000000 else 0x10000
    | 2 => 0x40000
    | 4 => smGet (2 ^ 36) s.bar4Size f
    | _ => 0
  .next (if off < size then s else s.unclaimed f)

end Sys2Proof.Machine
end

