-- ==== Sys2Proof/Machine/Office.lean ====
section
/-! DEFINITION. The office port: its bus, MCTP, PLDM and SPDM, and office commands (R514 to R532, R580 to R584, R596). The code points
of MCTP, PLDM and SPDM messages are those of the DMTF standards that the spec names (PRESUMED, log 60). -/

namespace Sys2Proof.Machine

/-- The office answers at all (R514), and answers more than GET_STATUS and MCTP control (R708). -/
def State.officeServes (s : State) : Bool := s.power.vaux && !s.power.testHold

/-- A meaning of a message that the office serves. -/
def State.served (s : State) (act : State → State) : State := if s.officeServes then act s else s

/-! ### The bus (R514, R515) -/

/-- Attention when the mode changes (R514): SMBALERT_N is asserted in SMBus mode while events wait. -/
def State.showAlert (s : State) : State :=
  if s.officeEvents.isEmpty then s else s.emit (.pin "SMBALERT_N" (decide (s.fget .officeStatus OFFICE_STATUS_MODE = 1)))

/-- Remove the n oldest events of the office's queue (R532); SMBALERT_N follows (R514). -/
def State.popEvents (s : State) (n : Nat) : State :=
  let t := { s with officeEvents := s.officeEvents.drop n }
  if !s.officeEvents.isEmpty && t.officeEvents.isEmpty && decide (s.fget .officeStatus OFFICE_STATUS_MODE = 0) then
    t.emit (.pin "SMBALERT_N" true)
  else t

/-- I3C_ADDRESS_ASSIGN (R515, R533): ENTDAA or SETDASA. -/
def execI3cAddressAssign (addr : Nat) (s : State) : Host.Outcome State Fault Refusal :=
  if !s.power.vaux then .next s
  else
    let t := (s.fput .officeStatus OFFICE_STATUS_MODE 1).fput .officeStatus OFFICE_STATUS_DYN_ADDR addr
    .next (if s.fget .officeStatus OFFICE_STATUS_MODE = 1 then t else t.showAlert)

/-- I3C_ADDRESS_RESET (R515): RSTDAA, which is an I3C code. -/
def execI3cAddressReset (s : State) : Host.Outcome State Fault Refusal :=
  if !s.power.vaux ∨ s.fget .officeStatus OFFICE_STATUS_MODE = 0 then .next s
  else .next ((s.fput .officeStatus OFFICE_STATUS_MODE 0).fput .officeStatus OFFICE_STATUS_DYN_ADDR 0).showAlert

/-! ### MCTP control (R516) -/

/-- Bytes of a constant that the spec leaves open (log 17). -/
def openBytes (kind n : Nat) : List Byte := (List.range n).map fun i => (Config.identity kind).getD i 0#8

/-- A response to an MCTP control message: command, completion code and the rest. -/
def State.mctpAnswer (s : State) (cmd cc : Nat) (rest : List Byte) : State :=
  if s.power.vaux then s.emit (.office 0x00 (leBytes 1 cmd ++ leBytes 1 cc ++ rest)) else s

/-- SET_ENDPOINT_ID (R516, R533): operations 0 and 1 set an ID from 1 to 254; the others are for endpoints of other kinds. -/
def execSetEndpointId (op eid : Nat) (s : State) : Host.Outcome State Fault Refusal :=
  if !s.power.vaux then .next s
  else if op ≤ 1 ∧ 1 ≤ eid ∧ eid < 0xFF then
    .next ((s.fput .officeStatus OFFICE_STATUS_EID eid).mctpAnswer 0x01 0x00 (0#8 :: leBytes 1 eid ++ [0#8]))
  else .next (s.mctpAnswer 0x01 0x02 [])

/-- GET_ENDPOINT_ID (R516). -/
def execGetEndpointId (s : State) : Host.Outcome State Fault Refusal :=
  .next (s.mctpAnswer 0x02 0x00 (leBytes 1 (s.fget .officeStatus OFFICE_STATUS_EID) ++ [0#8, 0#8]))

/-- GET_ENDPOINT_UUID (R516). -/
def execGetEndpointUuid (s : State) : Host.Outcome State Fault Refusal := .next (s.mctpAnswer 0x03 0x00 (openBytes 0 16))

/-- The message types of R516. -/
def messageTypes : List Nat := [0x00, 0x01, 0x05, 0x06, 0x7E]

/-- GET_MCTP_VERSION_SUPPORT (R516): the versions are the part's own; a type that it does not support has none. -/
def execGetMctpVersionSupport (ty : Nat) (s : State) : Host.Outcome State Fault Refusal :=
  .next (if messageTypes.contains ty ∨ ty = 0xFF then s.mctpAnswer 0x04 0x00 (Config.identity (0x200 + ty)) else s.mctpAnswer 0x04 0x80 [])

/-- GET_MESSAGE_TYPE_SUPPORT (R516). -/
def execGetMessageTypeSupport (s : State) : Host.Outcome State Fault Refusal :=
  .next (s.mctpAnswer 0x05 0x00 (leBytes 1 messageTypes.length ++ messageTypes.flatMap (leBytes 1)))

/-! ### PLDM (R518, R527, R528) -/

/-- A response to a PLDM message: type, command, completion code and the rest. -/
def State.pldmAnswer (s : State) (ty cmd cc : Nat) (rest : List Byte) : State :=
  s.emit (.office 0x01 (leBytes 1 ty ++ leBytes 1 cmd ++ leBytes 1 cc ++ rest))

/-- The sensors of a die (R518), with its die for R728. -/
def dieSensors (v : Variant) (d : Nat) : List Nat :=
  let l := if d < 4 then (List.range 48).map (sensorKey 0 d)
    else if d < 8 then (List.range 8).map (sensorKey 3 (d - 4))
    else if d < 12 then (List.range 8).map (sensorKey 2 (d - 8))
    else if d < 28 then (rangeFrom ((d - 12) % 4 * 8) 8).map (sensorKey 1 ((d - 12) / 4))
    else []
  l.filter (sensorPresent v)

/-- A numeric sensor of the repository (R518): none where there is no such sensor; its reading, none where it is unavailable. -/
def State.pldmReading (s : State) (k : PldmSensor) : Option (Option (List Byte)) :=
  match k with
  | .packagePower => some (some (leBytes 2 (s.fget .pwrPkg PWR_PKG_MEAS_W)))
  | .dieHottest d =>
    match dieSensors s.variant d with
    | [] => none
    | k :: l =>
      some (if s.dieUp (sensorDie k) then
        (((k :: l).filter fun j => !s.suspect j).map s.temp).max?.map fun t => leBytes 2 (ofSigned 16 t)
      else none)
  | .farReadout f =>
    if farPresent s.variant f then
      some (if s.dieUp (f / 3) ∧ s.fget (.farStatus f) FAR_STATUS_LOST = 0 then some (leBytes 2 (ofSigned 16 (s.temp (sensorKey 4 f 0)))) else none)
    else none
  | .coolantInlet => some (if s.thermal.inletHeld then some (leBytes 2 (s.fget .officeCoolant OFFICE_COOLANT_INLET)) else none)
  | .coolantFlow => some (if s.thermal.flowHeld then some (leBytes 2 (s.fget .officeCoolant OFFICE_COOLANT_FLOW)) else none)

/-- GET_SENSOR_READING (R518): operational state 0 is enabled, 2 unavailable. -/
def execGetSensorReading (sensor : PldmSensor) (s : State) : Host.Outcome State Fault Refusal :=
  .next (s.served fun s => match s.pldmReading sensor with
    | none => s.pldmAnswer 2 0x11 0x80 []
    | some none => s.pldmAnswer 2 0x11 0x00 [2#8]
    | some (some bs) => s.pldmAnswer 2 0x11 0x00 (0#8 :: bs))

/-- PLATFORM_EVENT_MESSAGE (R518, R532): a poll that acknowledges an event removes the oldest; the oldest that is left is returned, with
event ID 1, or event ID 0 where none waits. -/
def execPlatformEventMessage (ack : Nat) (s : State) : Host.Outcome State Fault Refusal :=
  .next (s.served fun s =>
    let t := if ack = 0 ∨ ack = 0xFFFF then s else s.popEvents 1
    match t.officeEvents with
    | [] => t.pldmAnswer 2 0x0B 0x00 (leBytes 2 0)
    | e :: _ => t.pldmAnswer 2 0x0B 0x00 (leBytes 2 1 ++ eventWords e false))

/-- REQUEST_UPDATE (R527, R528). -/
def execRequestUpdate (maxTransfer : Nat) (s : State) : Host.Outcome State Fault Refusal :=
  .next (s.served fun s =>
    if !s.awaitsImage ∨ s.boot.step ≠ 0 then s.pldmAnswer 5 0x10 0x8A []
    else if s.image.holder.isSome then s.pldmAnswer 5 0x10 0x81 []
    else { s with image := { ImageBuf.init with holder := some false, block := min 4096 maxTransfer } }.pldmAnswer 5 0x10 0x00 [])

/-- REQUEST_FIRMWARE_DATA (R528): the block that the office has asked for arrives. -/
def execRequestFirmwareData (off : Nat) (bytes : List Byte) (s : State) : Host.Outcome State Fault Refusal :=
  .next (s.served fun s => if s.image.holder = some false then s.storeImage false off (bytes.take s.image.block) else s)

/-- ACTIVATE_FIRMWARE (R528, R676): verification of the delivered image starts. -/
def execActivateFirmware (s : State) : Host.Outcome State Fault Refusal :=
  .next (s.served fun s =>
    if s.image.holder ≠ some false then s.pldmAnswer 5 0x1A 0x80 []
    else if s.boot.awaiting then (s.pldmAnswer 5 0x1A 0x00 []).reImage false
    else (s.pldmAnswer 5 0x1A 0x00 []).beginStep 1 fun s => (s.fput .secStatus SEC_STATUS_BOOT 1).verifyImage false)

/-! ### SPDM (R519, R580 to R584) -/

/-- The number of a responder: 0 for the office's own. -/
def Responder.owner : Responder → Nat
  | .office => 0
  | .homeroom h => h

/-- A responder exists (R519, R584). -/
def Responder.ok : Responder → Bool
  | .office => true
  | .homeroom h => decide (1 ≤ h) && decide (h ≤ 15)

/-- The version byte of a responder's messages: 1.0 before one is negotiated. -/
def State.spdmVersion (s : State) (r : Responder) : Nat := smGet 0x10 s.spdm r.owner

/-- An SPDM response: version, code, two parameters and the rest; inside a session it is a secured message (R516). -/
def State.spdmAnswer (s : State) (r : Responder) (secured : Bool) (code p1 p2 : Nat) (rest : List Byte) : State :=
  s.emit (.office (if secured then 0x06 else 0x05) ([BitVec.ofNat 8 (s.spdmVersion r), BitVec.ofNat 8 code, BitVec.ofNat 8 p1, BitVec.ofNat 8 p2] ++ rest))

/-- The ERROR response with an error code. -/
def State.spdmError (s : State) (r : Responder) (code : Nat) : State := s.spdmAnswer r false 0x7F code 0 []

/-- A meaning of a message to a responder that there is. -/
def State.spdmServed (s : State) (r : Responder) (act : State → State) : State := if s.officeServes && r.ok then act s else s

/-- GET_VERSION (R519): versions 1.2 and 1.3; the negotiation starts afresh. -/
def execGetVersion (rsp : Responder) (st : State) : Host.Outcome State Fault Refusal :=
  .next (st.spdmServed rsp fun t =>
    { t with spdm := smDel t.spdm rsp.owner }.spdmAnswer rsp false 0x04 0 0 ([0#8, 2#8] ++ leBytes 2 0x1200 ++ leBytes 2 0x1300))

/-- GET_CAPABILITIES (R519): in version 1.2 or 1.3; the capability fields are the part's own (log 17). -/
def execGetCapabilities (rsp : Responder) (version : Nat) (st : State) : Host.Outcome State Fault Refusal :=
  .next (st.spdmServed rsp fun t =>
    if version = 0x12 ∨ version = 0x13 then { t with spdm := smPut t.spdm rsp.owner version }.spdmAnswer rsp false 0x61 0 0 (openBytes 3 16)
    else t.spdmError rsp 0x41)

/-- NEGOTIATE_ALGORITHMS (R519): SM2 for signatures and key exchange, SM3 for hashes and measurements, SM4-GCM. -/
def execNegotiateAlgorithms (rsp : Responder) (st : State) : Host.Outcome State Fault Refusal :=
  .next (st.spdmServed rsp fun t =>
    t.spdmAnswer rsp false 0x63 0 0 (leBytes 4 0x80 ++ leBytes 4 0x200 ++ leBytes 4 0x40 ++ leBytes 2 0x40 ++ leBytes 2 0x08))

/-- The certificate chain (R582): the identity certificate that was accepted, else a self-signed one, and the alias certificate. -/
def State.certChain (s : State) : List Byte :=
  let id := pubBytes s.idKey
  s.idCert.getD (Config.certificate 0 (id ++ id)) ++
    (match s.aliasKey with | some k => Config.certificate 1 (pubBytes k ++ id) | none => [])

/-- GET_DIGESTS (R519, R582): slot 0 alone. -/
def execGetDigests (rsp : Responder) (st : State) : Host.Outcome State Fault Refusal :=
  .next (st.spdmServed rsp fun t => t.spdmAnswer rsp false 0x01 0 1 (sm3 t.certChain))

/-- GET_CERTIFICATE (R582): the portion asked for, its length and the length that remains. -/
def execGetCertificate (rsp : Responder) (off len : Nat) (st : State) : Host.Outcome State Fault Refusal :=
  .next (st.spdmServed rsp fun t =>
    let chain := t.certChain
    if chain.length ≤ off then t.spdmError rsp 0x01
    else
      let part := (chain.drop off).take len
      t.spdmAnswer rsp false 0x02 0 0 (leBytes 2 part.length ++ leBytes 2 (chain.length - off - part.length) ++ part))

/-- A signature by the alias key over what went before in the conversation (not modelled, free: log 60), the request's nonce and the
response (R580). -/
def State.aliasSign (s : State) (key : Nat) (msg : List Byte) : List Byte × State :=
  let (before, t) := s.drawBytes 32
  t.sign key (before ++ msg)

/-- CHALLENGE (R519, R580): before an image runs there is no alias key, and the answer is an error. -/
def execChallenge (rsp : Responder) (nonce : List Byte) (st : State) : Host.Outcome State Fault Refusal :=
  .next (st.spdmServed rsp fun t => match t.aliasKey with
    | none => t.spdmError rsp 0x05
    | some k =>
      let (own, t) := t.drawBytes 32
      let body := sm3 t.certChain ++ own ++ [0#8, 0#8]
      let (sig, t) := t.aliasSign k (nonce ++ body)
      t.spdmAnswer rsp false 0x03 0 1 (body ++ sig))

/-- A measurement block's content (R583). -/
def State.measurement (s : State) (r : Responder) (index : Nat) : Option (List Byte) :=
  match index with
  | 1 => some (sm3 (Config.identity 1))
  | 2 => s.boot.image.map ImageInfo.digest
  | 3 => s.boot.image.map fun i => leBytes 4 i.svn ++ leBytes 4 s.rollback
  | 4 => some (sm3 (leBytes 992 (s.fuseField 256 7936)))
  | 5 => some (leBytes 1 (s.fget .secStatus SEC_STATUS_DEBUG_ON))
  | 6 => if s.boot.measure6.isEmpty then none else some s.boot.measure6
  | 7 => match r with
    | .office => none
    | .homeroom h => some (s.configDigest h)
  | _ => none

/-- A measurement block: index, length and content. -/
def State.measurementBlock (s : State) (r : Responder) (index : Nat) : List Byte :=
  match s.measurement r index with
  | none => []
  | some bs => leBytes 1 index ++ leBytes 2 bs.length ++ bs

/-- The blocks that a request names (R583): 0 the number of them, 255 every one. -/
def State.measurementBlocks (s : State) (r : Responder) (index : Nat) : Option (List Nat) :=
  let all := (rangeFrom 1 7).filter fun i => (s.measurement r i).isSome
  if index = 0 then some [] else if index = 255 then some all else if all.contains index then some [index] else none

/-- GET_MEASUREMENTS (R583, R580). -/
def execGetMeasurements (rsp : Responder) (index : Nat) (sign : Bool) (nonce : List Byte) (st : State) : Host.Outcome State Fault Refusal :=
  .next (st.spdmServed rsp fun t =>
    match t.measurementBlocks rsp index with
    | none => t.spdmError rsp 0x01
    | some l =>
      let blocks := l.flatMap (t.measurementBlock rsp)
      let count := ((rangeFrom 1 7).filter fun i => (t.measurement rsp i).isSome).length
      let (own, t) := t.drawBytes 32
      let body := leBytes 1 l.length ++ leBytes 3 blocks.length ++ blocks ++ own ++ [0#8, 0#8]
      let p1 := if index = 0 then count else 0
      if !sign then t.spdmAnswer rsp false 0x60 p1 0 body
      else match t.aliasKey with
        | none => t.spdmError rsp 0x05
        | some k =>
          let (sig, t) := t.aliasSign k (nonce ++ body)
          t.spdmAnswer rsp false 0x60 p1 0 (body ++ sig))

/-- Sessions of a responder, opening ones included (R519, R584). -/
def State.sessionsOf (s : State) (r : Responder) : List SpdmSession := s.sessions.filter fun x => decide (x.owner = r.owner)

/-- The most sessions of a responder (R519, R584). -/
def Responder.most : Responder → Nat
  | .office => 2
  | .homeroom _ => 1

/-- A session number that the responder does not use: a free value (log 5), moved past those in use. -/
def State.newSession (s : State) (r : Responder) (n : Nat) : Nat :=
  (((List.range 3).map fun k => (n + k) % 2 ^ 16).find? fun i => !(s.sessionsOf r).any fun x => decide (x.id = i)).getD n

/-- KEY_EXCHANGE (R519, R580, R581): refused while RNG_FAIL is set, while the responder holds its most sessions, and before an image
runs. -/
def execKeyExchange (rsp : Responder) (exchange : List Byte) (st : State) : Host.Outcome State Fault Refusal :=
  .next (st.spdmServed rsp fun t =>
    if t.fget .secStatus SEC_STATUS_RNG_FAIL = 1 then t.spdmError rsp 0x05
    else if rsp.most ≤ (t.sessionsOf rsp).length then t.spdmError rsp 0x0A
    else match t.aliasKey with
      | none => t.spdmError rsp 0x05
      | some k =>
        let (n, t) := t.draw (2 ^ 16)
        let id := t.newSession rsp n
        let (e, t) := t.draw (sm2N - 1)
        let (rand, t) := t.drawBytes 32
        let body := leBytes 2 id ++ [0#8, 0#8] ++ rand ++ pubBytes (e + 1) ++ [0#8, 0#8]
        let (sig, t) := t.aliasSign k (exchange ++ body)
        let (verify, t) := t.drawBytes 32
        let x : SpdmSession := ⟨rsp.owner, id, false, false⟩
        ({ t with sessions := t.sessions ++ [x] }).spdmAnswer rsp false 0x64 0 0 (body ++ sig ++ verify))

/-- FINISH (R519, R521): it establishes the session; the policy judges its requester. -/
def execFinish (rsp : Responder) (session : Nat) (authorised : Bool) (st : State) : Host.Outcome State Fault Refusal :=
  .next (st.spdmServed rsp fun t =>
    if (t.sessionsOf rsp).any fun x => decide (x.id = session) && !x.established then
      let l := t.sessions.map fun (x : SpdmSession) =>
        if x.owner = rsp.owner ∧ x.id = session then { x with established := true, authorised := authorised } else x
      ({ t with sessions := l }).spdmAnswer rsp true 0x65 0 0 []
    else t.spdmError rsp 0x04)

/-- A message of an established session: its answer code, and what it does to the session. -/
def State.inSession (s : State) (r : Responder) (session code : Nat) (act : State → State) : State :=
  if (s.sessionsOf r).any fun x => decide (x.id = session) && x.established then (act s).spdmAnswer r true code 0 0 []
  else s.spdmError r 0x0B

/-- HEARTBEAT_MESSAGE (R519). -/
def execHeartbeatMessage (rsp : Responder) (session : Nat) (st : State) : Host.Outcome State Fault Refusal :=
  .next (st.spdmServed rsp fun t => t.inSession rsp session 0x68 id)

/-- KEY_UPDATE (R519): the keys of a session, which no register or message shows, change. -/
def execKeyUpdate (rsp : Responder) (session : Nat) (st : State) : Host.Outcome State Fault Refusal :=
  .next (st.spdmServed rsp fun t => t.inSession rsp session 0x69 id)

/-- END_SESSION (R519). -/
def execEndSession (rsp : Responder) (session : Nat) (st : State) : Host.Outcome State Fault Refusal :=
  .next (st.spdmServed rsp fun t => t.inSession rsp session 0x6C fun t =>
    { t with sessions := t.sessions.filter fun x => !(decide (x.owner = rsp.owner) && decide (x.id = session)) })

/-! ### Office commands (R520 to R532) -/

/-- A response (R517, R520): the vendor ID, the code, RESP, the tag, the completion code and the payload; in a session it is a secured
message. -/
def State.officeAnswer (s : State) (secured : Bool) (code tag cc : Nat) (rest : List Byte) : State :=
  s.emit (.office (if secured then 0x06 else 0x7E) (openBytes 4 2 ++ leBytes 1 code ++ leBytes 1 1 ++ leBytes 2 tag ++ leBytes 1 cc ++ rest))

/-- A session whose requester the policy authorises (R521). -/
def State.authorisedSession (s : State) (session : Option Nat) : Bool :=
  match session with
  | none => false
  | some i => s.sessions.any fun x => decide (x.owner = 0) && decide (x.id = i) && x.established && x.authorised

/-- A request whose FLAGS (R520) has a bit of [7:1] set is answered with INVALID (R522), before anything else is looked at. -/
def State.flagged (s : State) (h : OfficeHead) (secured : Bool) (code : Nat) (act : State → State) : State :=
  if h.flags / 2 = 0 then act s else s.officeAnswer secured code h.tag 0x01 []

/-- GET_STATUS (R521, R708). -/
def execGetStatus (h : OfficeHead) (s : State) : Host.Outcome State Fault Refusal :=
  .next (if s.power.vaux then s.flagged h false 0x01 fun s =>
      s.officeAnswer false 0x01 h.tag 0x00 (leBytes 8 (s.view .officeStatus).toNat ++ leBytes 8 (s.view .topId).toNat) else s)

/-- The die of a register is unpowered, absent or lost (R522, R526, R728); an offset without a block reads as reserved (R719). -/
def State.notReady (s : State) (off : Nat) : Bool :=
  match blockAt off with
  | none => false
  | some (_, d) => !(decide (d = 8) || s.dieUp d || (decide (d = 4) && s.boot.awaiting && s.power.mainOn))

/-- READ_REG (R521 to R524, R527). -/
def execReadReg (h : OfficeHead) (off : Nat) (s : State) : Host.Outcome State Fault Refusal :=
  .next (s.served fun s => s.flagged h false 0x02 fun s =>
    if 0x4000000 ≤ off ∨ off % 8 ≠ 0 then s.officeAnswer false 0x02 h.tag 0x01 []
    else if inImageWindow off ∧ s.image.holder.isSome then s.officeAnswer false 0x02 h.tag 0x02 []
    else if s.notReady off then s.officeAnswer false 0x02 h.tag 0x03 []
    else s.officeAnswer false 0x02 h.tag 0x00 (leBytes 8 (s.regReadAt .office off 8)))

/-- Writes of the SEC and FUSE blocks are secured (R521). -/
def securedOffset (off : Nat) : Bool :=
  match blockAt off with
  | some (.sec, _) => true
  | some (.fuse, _) => true
  | _ => false

/-- WRITE_REG (R521 to R524, R527). -/
def execWriteReg (h : OfficeHead) (off value : Nat) (session : Option Nat) (env : WriteEnv) (s : State) : Host.Outcome State Fault Refusal :=
  .next (s.served fun s => s.flagged h session.isSome 0x03 fun s =>
    let answer := fun (s : State) cc => s.officeAnswer session.isSome 0x03 h.tag cc []
    if 0x4000000 ≤ off ∨ off % 8 ≠ 0 then answer s 0x01
    else if securedOffset off ∧ !s.authorisedSession session then answer s 0x04
    else if inImageWindow off ∧ s.image.holder.isSome then answer s 0x02
    else if s.notReady off then answer s 0x03
    else answer (s.regWriteAt .office off 8 value env) 0x00)

/-- GET_EVENTS (R521, R532). -/
def execGetEvents (h : OfficeHead) (n : Nat) (s : State) : Host.Outcome State Fault Refusal :=
  .next (s.served fun s => s.flagged h false 0x04 fun s =>
    if n < 1 ∨ 14 < n then s.officeAnswer false 0x04 h.tag 0x01 []
    else
      let l := s.officeEvents.take n
      (s.popEvents n).officeAnswer false 0x04 h.tag 0x00 (leBytes 1 l.length ++ l.flatMap fun e => eventWords e false))

/-- WORST after new ages in ms (R529). -/
def worstOf (inlet flow old : Nat) : Nat := if 2000 < inlet ∨ 2000 < flow then 1 else if inlet < 2000 ∧ flow < 2000 then 0 else old

/-- Show the ages of the readings, and WORST (R529, R536). -/
def State.putAges (s : State) (inlet flow : Nat) : State :=
  let w := worstOf inlet flow (s.fget .officeCoolant OFFICE_COOLANT_WORST)
  ((s.fput .officeCoolant OFFICE_COOLANT_AGE_INLET (min 0xFFF inlet)).fput .officeCoolant OFFICE_COOLANT_AGE_FLOW (min 0xFFF flow)).fput
    .officeCoolant OFFICE_COOLANT_WORST w

/-- Take the readings of SET_COOLANT that are flagged valid (R529). -/
def State.setCoolant (s : State) (inlet flow flags : Nat) : State :=
  let i := bitAt flags 0
  let f := bitAt flags 1
  let s := if i then s.fput .officeCoolant OFFICE_COOLANT_INLET inlet else s
  let s := if f then s.fput .officeCoolant OFFICE_COOLANT_FLOW flow else s
  let s := { s with thermal := { s.thermal with inletHeld := s.thermal.inletHeld || i, flowHeld := s.thermal.flowHeld || f } }
  s.putAges (if i then 0 else s.fget .officeCoolant OFFICE_COOLANT_AGE_INLET) (if f then 0 else s.fget .officeCoolant OFFICE_COOLANT_AGE_FLOW)

/-- SET_COOLANT (R529). -/
def execSetCoolant (h : OfficeHead) (inlet flow valid : Nat) (s : State) : Host.Outcome State Fault Refusal :=
  .next (s.served fun s => s.flagged h false 0x05 fun s => (s.setCoolant inlet flow valid).officeAnswer false 0x05 h.tag 0x00 [])

/-- GET_SHUTDOWN (R521, R522, R531). -/
def execGetShutdown (h : OfficeHead) (index : Nat) (s : State) : Host.Outcome State Fault Refusal :=
  .next (s.served fun s => s.flagged h false 0x06 fun s => match s.shutdowns[index]? with
    | none => s.officeAnswer false 0x06 h.tag 0x05 []
    | some r => s.officeAnswer false 0x06 h.tag 0x00 r)

/-- SET_RING_CONF (R521, R526, R596): INVALID before DENIED before NOT_READY, then the checks of RING_CONF; for a ring
that is not disabled, or without a command key, no code of R522 is stated, and the code is free (log 5). -/
def execSetRingConf (h : OfficeHead) (ring conf : Nat) (session : Option Nat) (s : State) : Host.Outcome State Fault Refusal :=
  .next (s.served fun s => s.flagged h session.isSome 0x07 fun s =>
    let answer := fun (s : State) cc => s.officeAnswer session.isSome 0x07 h.tag cc []
    let hr := s.funcHr (s.ringFunc ring)
    if 64 ≤ ring then answer s 0x01
    else if !s.authorisedSession session then answer s 0x04
    else if !s.registrarUp then answer s 0x03
    else if conf % 2 = 0 then answer s 0x04
    else match s.confCheck hr ring with
      | some 0x01 => answer s 0x01
      | some _ =>
        let (c, t) := s.draw 5
        answer t (c + 1)
      | none => answer (s.fput (.ringCfg ring) RING_CFG_CONF 1) 0x00)

/-- COOLANT_AGE_EXPIRY (R529): the ages of the readings, in ms; a reading that was never received keeps the age of R536. -/
def execCoolantAgeExpiry (inlet flow : Nat) (s : State) : Host.Outcome State Fault Refusal :=
  if !s.power.vaux then .next s
  else .next (s.putAges (if s.thermal.inletHeld then inlet else 0xFFF) (if s.thermal.flowHeld then flow else 0xFFF))

end Sys2Proof.Machine
end

