-- ==== Sys2Proof/Machine/RvCore.lean ====
section
/-! DEFINITION. The tutor as a RISC-V core (R157, R165, R166): registers, fetch, memory accesses, control registers and compressed
instructions. What the profile's standards define is taken from them (PRESUMED, log 16). -/

namespace Sys2Proof.Machine

/-- A tutor instruction at work: it changes the state and may raise an exception with a cause; none says that an access is held and the
instruction has to be performed again. -/
abbrev TutM := ExceptT (Option Nat) (StateM State)

/-- Raise an exception. -/
def tThrow {α : Type} (cause : Nat) : TutM α := throw (some cause)

/-- Raise an illegal-instruction exception unless a condition holds. -/
def tNeed (ok : Bool) : TutM Unit := if ok then pure () else tThrow 2

/-- The tutor of a core. -/
def tGet (c : Nat) : TutM Tutor := do pure ((← get).core c).tutor

/-- Change the tutor of a core. -/
def tMod (c : Nat) (f : Tutor → Tutor) : TutM Unit := modify fun s => s.modCore c fun k => { k with tutor := f k.tutor }

/-- A free value below a bound (log 5, log 16). -/
def tDraw (bound : Nat) : TutM Nat := do
  let (n, s) := (← get).draw bound
  set s
  pure n

/-! ### Registers -/

/-- A value kept to 64 bits. -/
def w64 (v : Nat) : Nat := v % 2 ^ 64

/-- Bits of a field sign-extended to 64 bits. -/
def sx (width v : Nat) : Nat := ofSigned 64 (asSigned width v)

/-- An integer register; x0 is zero. -/
def rx (c i : Nat) : TutM Nat := do
  let t ← tGet c
  pure (if i = 0 then 0 else wordAt t.x i)

/-- Write an integer register; a write of x0 is discarded. -/
def wx (c i v : Nat) : TutM Unit := if i = 0 then pure () else tMod c fun t => { t with x := t.x.set i (w64 v) }

/-- A floating-point register. -/
def rf (c i : Nat) : TutM Nat := do pure (wordAt (← tGet c).f i)

/-- Write a floating-point register. -/
def wf (c i v : Nat) : TutM Unit := tMod c fun t => { t with f := t.f.set i (w64 v) }

/-- Destination and source fields of an instruction. -/
def iRd (i : Nat) : Nat := bitsOf i 7 5
def iRs1 (i : Nat) : Nat := bitsOf i 15 5
def iRs2 (i : Nat) : Nat := bitsOf i 20 5
def iF3 (i : Nat) : Nat := bitsOf i 12 3
def iF7 (i : Nat) : Nat := bitsOf i 25 7

/-- Immediates of the formats I, S, B, U and J, sign-extended to 64 bits. -/
def immI (i : Nat) : Nat := sx 12 (bitsOf i 20 12)
def immS (i : Nat) : Nat := sx 12 (bitsOf i 25 7 * 32 + bitsOf i 7 5)
def immB (i : Nat) : Nat := sx 13 (bitsOf i 31 1 * 2 ^ 12 + bitsOf i 7 1 * 2 ^ 11 + bitsOf i 25 6 * 2 ^ 5 + bitsOf i 8 4 * 2)
def immU (i : Nat) : Nat := sx 32 (bitsOf i 12 20 * 2 ^ 12)
def immJ (i : Nat) : Nat := sx 21 (bitsOf i 31 1 * 2 ^ 20 + bitsOf i 12 8 * 2 ^ 12 + bitsOf i 20 1 * 2 ^ 11 + bitsOf i 21 10 * 2)

/-! ### Memory (R165, R166, R634) -/

/-- An access to memory: any failure is an exception with the cause given. -/
def tAccess {α : Type} (cause : Nat) (f : State → State × Res α) : TutM α := do
  let (t, r) := f (← get)
  set t
  match r with
  | .ok v => pure v
  | .error (.held _) => throw none
  | .error _ => tThrow cause

/-- Load n bytes of an aligned address. -/
def tLoad (c a n : Nat) : TutM Nat := do
  if a % n ≠ 0 then tThrow 4
  else pure (leNat (← tAccess 5 fun s => s.readAt (.tutor c) (s.lessonHr c) (some c) (s.roleAllows c .tutor) a n))

/-- Store n bytes to an aligned address. -/
def tStore (c a n v : Nat) : TutM Unit := do
  if a % n ≠ 0 then tThrow 6
  else tAccess 7 fun s => s.writeAt (.tutor c) (s.lessonHr c) (some c) (s.roleAllows c .tutor) a (leBytes n v)

/-- The desk, and the offset in it, that an address names, where the tutor may reach it (R130). -/
def State.tutorDesk (s : State) (c a : Nat) : Option (Nat × Nat) :=
  match coreSpace c a with
  | .desk d o => if s.roleAllows c .tutor (.desk d o) then some (d, o) else none
  | _ => none

/-- An atomic operation (R165, R217): at the desk bank or in the shared cache; elsewhere an access fault. -/
def tAmo (c a n : Nat) (op : AtomOp) (v : Nat) : TutM Nat := do
  if a % n ≠ 0 then tThrow 6
  else
    let s ← get
    match coreSpace c a with
    | .far x => tAccess 7 fun s => s.farAtomic (.tutor c) (s.lessonHr c) x op n v 0
    | _ =>
      if (s.tutorDesk c a).isNone then tThrow 7
      else do
        let old ← tAccess 7 fun s => s.readAt (.tutor c) (s.lessonHr c) (some c) (s.roleAllows c .tutor) a n
        tStore c a n (atomNew op n (leNat old) (v % 2 ^ (8 * n)) 0)
        pure (leNat old)

/-- A load-reserve (R165): a reservation is held on desk addresses only. -/
def tLoadReserve (c a n : Nat) : TutM Nat := do
  let s ← get
  match coreSpace c a, s.tutorDesk c a with
  | .far _, _ => do
    let v ← tLoad c a n
    tMod c fun t => { t with resv := none }
    pure v
  | _, some (d, o) => do
    let v ← tLoad c a n
    tMod c fun t => { t with resv := some (deskKey d (o / 8 * 8)) }
    pure v
  | _, none => if a % n ≠ 0 then tThrow 4 else tThrow 5

/-- A store-conditional (R165): 0 where the reservation of the address stands and the store is made, else 1. -/
def tStoreConditional (c a n v : Nat) : TutM Nat := do
  let s ← get
  if a % n ≠ 0 then tThrow 6
  else match coreSpace c a, s.tutorDesk c a with
    | .far _, _ => do
      tMod c fun t => { t with resv := none }
      pure 1
    | _, some (d, o) =>
      if (← tGet c).resv = some (deskKey d (o / 8 * 8)) then do
        tStore c a n v
        tMod c fun t => { t with resv := none }
        pure 0
      else do
        tMod c fun t => { t with resv := none }
        pure 1
    | _, none => tThrow 7

/-! ### Fetch (R165) -/

/-- Fetch a parcel from the own desk into the instruction cache. The spec gives the cache's size only: DESIGN CHOICE, a fill brings in one
16-bit parcel and nothing is replaced, so that what was never fetched is never stale (log 77). -/
def tFill (c a o : Nat) : TutM Nat := do
  let bs ← tAccess 1 fun s => s.readAt (.tutor c) (s.lessonHr c) (some c) (s.roleAllows c .tutor) a 2
  tMod c fun t => { t with icache := smPut t.icache o (leNat bs) }
  pure (leNat bs)

/-- A 16-bit parcel of the own desk, through the instruction cache: where the desk has changed since the cache took it, a free value says
which of the two is returned (log 16). -/
def tParcel (c a : Nat) : TutM Nat := do
  match coreSpace c a with
  | .desk d o =>
    if d ≠ c then tThrow 1
    else match smFind (← tGet c).icache o with
      | none => tFill c a o
      | some v =>
        if v = leNat ((← get).nearBytes .desk c o 2) then pure v
        else if (← tDraw 2) = 0 then pure v else tFill c a o
  | _ => tThrow 1

/-! ### Compressed instructions -/

/-- Instruction words of the formats, from their parts. -/
def encR (op f3 f7 rd rs1 rs2 : Nat) : Nat := op + rd * 2 ^ 7 + f3 * 2 ^ 12 + rs1 * 2 ^ 15 + rs2 * 2 ^ 20 + f7 * 2 ^ 25
def encI (op f3 rd rs1 imm : Nat) : Nat := op + rd * 2 ^ 7 + f3 * 2 ^ 12 + rs1 * 2 ^ 15 + imm % 2 ^ 12 * 2 ^ 20
def encS (op f3 rs1 rs2 imm : Nat) : Nat :=
  op + imm % 32 * 2 ^ 7 + f3 * 2 ^ 12 + rs1 * 2 ^ 15 + rs2 * 2 ^ 20 + bitsOf imm 5 7 * 2 ^ 25
def encB (f3 rs1 imm : Nat) : Nat :=
  0x63 + bitsOf imm 11 1 * 2 ^ 7 + bitsOf imm 1 4 * 2 ^ 8 + f3 * 2 ^ 12 + rs1 * 2 ^ 15 + bitsOf imm 5 6 * 2 ^ 25 + bitsOf imm 12 1 * 2 ^ 31
def encJ (imm : Nat) : Nat :=
  0x6F + bitsOf imm 12 8 * 2 ^ 12 + bitsOf imm 11 1 * 2 ^ 20 + bitsOf imm 1 10 * 2 ^ 21 + bitsOf imm 20 1 * 2 ^ 31

/-- Quadrant 0 of the C extension. -/
def expandC0 (h : Nat) : Option Nat :=
  let rd := 8 + bitsOf h 2 3
  let rs := 8 + bitsOf h 7 3
  let d8 := bitsOf h 10 3 * 8 + bitsOf h 5 2 * 64
  let d4 := bitsOf h 10 3 * 8 + bitsOf h 6 1 * 4 + bitsOf h 5 1 * 64
  match bitsOf h 13 3 with
  | 0 =>
    let n := bitsOf h 7 4 * 64 + bitsOf h 11 2 * 16 + bitsOf h 5 1 * 8 + bitsOf h 6 1 * 4
    if n = 0 then none else some (encI 0x13 0 rd 2 n)
  | 1 => some (encI 0x07 3 rd rs d8)
  | 2 => some (encI 0x03 2 rd rs d4)
  | 3 => some (encI 0x03 3 rd rs d8)
  | 5 => some (encS 0x27 3 rs rd d8)
  | 6 => some (encS 0x23 2 rs rd d4)
  | 7 => some (encS 0x23 3 rs rd d8)
  | _ => none

/-- The arithmetic of quadrant 1 on the registers x8 to x15. -/
def expandCAlu (h : Nat) : Option Nat :=
  let r := 8 + bitsOf h 7 3
  let r2 := 8 + bitsOf h 2 3
  let sh := bitsOf h 12 1 * 32 + bitsOf h 2 5
  match bitsOf h 10 2, bitsOf h 12 1, bitsOf h 5 2 with
  | 0, _, _ => some (encI 0x13 5 r r sh)
  | 1, _, _ => some (encI 0x13 5 r r (sh + 0x400))
  | 2, _, _ => some (encI 0x13 7 r r (sx 6 sh))
  | _, 0, 0 => some (encR 0x33 0 0x20 r r r2)
  | _, 0, 1 => some (encR 0x33 4 0 r r r2)
  | _, 0, 2 => some (encR 0x33 6 0 r r r2)
  | _, 0, _ => some (encR 0x33 7 0 r r r2)
  | _, _, 0 => some (encR 0x3B 0 0x20 r r r2)
  | _, _, 1 => some (encR 0x3B 0 0 r r r2)
  | _, _, _ => none

/-- Quadrant 1 of the C extension. -/
def expandC1 (h : Nat) : Option Nat :=
  let rd := bitsOf h 7 5
  let imm := sx 6 (bitsOf h 12 1 * 32 + bitsOf h 2 5)
  match bitsOf h 13 3 with
  | 0 => some (encI 0x13 0 rd rd imm)
  | 1 => if rd = 0 then none else some (encI 0x1B 0 rd rd imm)
  | 2 => some (encI 0x13 0 rd 0 imm)
  | 3 =>
    if rd = 2 then
      let n := bitsOf h 12 1 * 512 + bitsOf h 3 2 * 128 + bitsOf h 5 1 * 64 + bitsOf h 2 1 * 32 + bitsOf h 6 1 * 16
      if n = 0 then none else some (encI 0x13 0 2 2 (sx 10 n))
    else if imm = 0 then none else some (0x37 + rd * 2 ^ 7 + imm % 2 ^ 20 * 2 ^ 12)
  | 4 => expandCAlu h
  | 5 =>
    some (encJ (sx 12 (bitsOf h 12 1 * 2 ^ 11 + bitsOf h 8 1 * 2 ^ 10 + bitsOf h 9 2 * 2 ^ 8 + bitsOf h 6 1 * 2 ^ 7 + bitsOf h 7 1 * 2 ^ 6 +
      bitsOf h 2 1 * 2 ^ 5 + bitsOf h 11 1 * 2 ^ 4 + bitsOf h 3 3 * 2)))
  | k =>
    let b := sx 9 (bitsOf h 12 1 * 2 ^ 8 + bitsOf h 5 2 * 2 ^ 6 + bitsOf h 2 1 * 2 ^ 5 + bitsOf h 10 2 * 2 ^ 3 + bitsOf h 3 2 * 2)
    some (encB (k - 6) (8 + bitsOf h 7 3) b)

/-- Quadrant 2 of the C extension. -/
def expandC2 (h : Nat) : Option Nat :=
  let rd := bitsOf h 7 5
  let rs2 := bitsOf h 2 5
  let b := bitsOf h 12 1
  let l8 := bitsOf h 2 3 * 64 + b * 32 + bitsOf h 5 2 * 8
  let l4 := bitsOf h 2 2 * 64 + b * 32 + bitsOf h 4 3 * 4
  let s8 := bitsOf h 7 3 * 64 + bitsOf h 10 3 * 8
  let s4 := bitsOf h 7 2 * 64 + bitsOf h 9 4 * 4
  match bitsOf h 13 3 with
  | 0 => some (encI 0x13 1 rd rd (b * 32 + rs2))
  | 1 => some (encI 0x07 3 rd 2 l8)
  | 2 => if rd = 0 then none else some (encI 0x03 2 rd 2 l4)
  | 3 => if rd = 0 then none else some (encI 0x03 3 rd 2 l8)
  | 4 =>
    if rs2 = 0 then
      if rd = 0 then (if b = 1 then some 0x00100073 else none) else some (encI 0x67 0 b rd 0)
    else some (encR 0x33 0 0 rd (if b = 1 then rd else 0) rs2)
  | 5 => some (encS 0x27 3 2 rs2 s8)
  | 6 => some (encS 0x23 2 2 rs2 s4)
  | _ => some (encS 0x23 3 2 rs2 s8)

/-- The 32-bit instruction that a compressed one stands for. -/
def expandC (h : Nat) : Option Nat :=
  match h % 4 with
  | 0 => expandC0 h
  | 1 => expandC1 h
  | _ => expandC2 h

/-- The instruction at an address, as a 32-bit word, and its length. -/
def tFetch (c a : Nat) : TutM (Nat × Nat) := do
  if a % 2 ≠ 0 then tThrow 0
  else
    let lo ← tParcel c a
    if lo % 4 = 3 then do
      let hi ← tParcel c (w64 (a + 2))
      pure (lo + hi * 2 ^ 16, 4)
    else match expandC lo with
      | some w => pure (w, 2)
      | none => tThrow 2

/-! ### Control registers (R165) -/

/-- The number of the control register kept for each name. -/
def csrFcsr : Nat := 0x003
def csrVstart : Nat := 0x008
def csrVcsr : Nat := 0x00F
def csrVl : Nat := 0xC20
def csrVtype : Nat := 0xC21

/-- A control register as kept. -/
def tCsr (c n : Nat) : TutM Nat := do pure (smGet 0 (← tGet c).csr n)

/-- Keep a value in a control register. -/
def tSetCsr (c n v : Nat) : TutM Unit := tMod c fun t => { t with csr := smSet 0 t.csr n v }

/-- Bits of `mstatus` that the profile fixes: FS, VS and SD show state in use, and MPP machine mode, the only mode. -/
def mstatusFixed : Nat := 2 ^ 63 + 3 * 2 ^ 13 + 3 * 2 ^ 11 + 3 * 2 ^ 9

/-- Read a control register; one that the profile lacks is an illegal instruction. Counts of cycles and of ticks go on by free amounts
(log 16). -/
def tCsrRead (c n : Nat) : TutM Nat := do
  let t ← tGet c
  let k := fun i => smGet 0 t.csr i
  match n with
  | 0x001 => pure (k csrFcsr % 32)
  | 0x002 => pure (k csrFcsr / 32)
  | 0x003 => pure (k csrFcsr)
  | 0x008 => pure (k csrVstart)
  | 0x009 => pure (k csrVcsr % 2)
  | 0x00A => pure (k csrVcsr / 2)
  | 0x00F => pure (k csrVcsr)
  | 0xC20 => pure (k csrVl)
  | 0xC21 => pure (k csrVtype)
  | 0xC22 => pure 64
  | 0xC01 => do
    let d ← tDraw (2 ^ 64)
    tMod c fun t => { t with time := w64 (t.time + d) }
    pure (w64 (t.time + d))
  | 0xC02 => pure t.instret
  | 0xB02 => pure t.instret
  | 0xF14 => pure c
  | 0x300 => pure (k n ||| mstatusFixed)
  | 0x301 => pure (2 ^ 63 + 2 ^ 0 + 2 ^ 2 + 2 ^ 3 + 2 ^ 5 + 2 ^ 8 + 2 ^ 12 + 2 ^ 21)
  | 0x344 => pure 0
  | 0x320 => pure 0
  | 0xF15 => pure 0
  | _ =>
    if n = 0xC00 ∨ n = 0xB00 then do
      let d ← tDraw (2 ^ 64)
      tMod c fun t => { t with cycles := w64 (t.cycles + d) }
      pure (w64 (t.cycles + d))
    else if [0x304, 0x305, 0x340, 0x341, 0x342, 0x343].contains n then pure (k n)
    else if 0xF11 ≤ n ∧ n ≤ 0xF13 then pure (w64 (Config.tutorFree 0 n))
    else if (0xB03 ≤ n ∧ n ≤ 0xB1F) ∨ (0x323 ≤ n ∧ n ≤ 0x33F) then pure 0
    else tThrow 2

/-- Write a control register; a read-only one is an illegal instruction. -/
def tCsrWrite (c n v : Nat) : TutM Unit := do
  if n / 0x400 = 3 then tThrow 2
  else match n with
    | 0x001 => tSetCsr c csrFcsr ((← tCsr c csrFcsr) / 32 * 32 + v % 32)
    | 0x002 => tSetCsr c csrFcsr ((← tCsr c csrFcsr) % 32 + v % 8 * 32)
    | 0x003 => tSetCsr c csrFcsr (v % 256)
    | 0x008 => tSetCsr c csrVstart (v % 512)
    | 0x009 => tSetCsr c csrVcsr ((← tCsr c csrVcsr) / 2 * 2 + v % 2)
    | 0x00A => tSetCsr c csrVcsr ((← tCsr c csrVcsr) % 2 + v % 4 * 2)
    | 0x00F => tSetCsr c csrVcsr (v % 8)
    | 0x300 => tSetCsr c n (v &&& 0x88)
    | 0xB00 => tMod c fun t => { t with cycles := v }
    | 0xB02 => tMod c fun t => { t with instret := w64 (v + 2 ^ 64 - 1) }
    | 0x341 => tSetCsr c n (v / 2 * 2)
    | _ => if [0x304, 0x305, 0x340, 0x342, 0x343].contains n then tSetCsr c n v else pure ()

/-- Set floating-point exception flags. -/
def tFlags (c fl : Nat) : TutM Unit := do
  let f ← tCsr c csrFcsr
  if fl = 0 then pure () else tSetCsr c csrFcsr (f ||| fl)

end Sys2Proof.Machine
end

