-- ==== Sys2Proof/Machine/RvFloat.lean ====
section
/-! DEFINITION. Floating-point operations of the tutor's profile (R165): the F, D and Zfh extensions, on the formats of R83 and on 64-bit
numbers, with five rounding modes and exception flags (PRESUMED, the standards that R165 names; log 16). -/

namespace Sys2Proof.Machine

/-- The FP64 shape. -/
def fp64Fmt : FloatFmt := ⟨11, 52, -1074, true, true, 0x7FEFFFFFFFFFFFFF, 0x7FF8000000000000⟩

/-- Bits of a format. -/
def FloatFmt.bits (f : FloatFmt) : Nat := 1 + f.ebits + f.mbits

/-- A result and its exception flags: inexact 1, underflow 2, overflow 4, division by zero 8, invalid 16. -/
abbrev FRes := Nat × Nat

/-- A magnitude is rounded up: nearest even, toward zero, down, up, nearest away, or to odd (5, which narrowing vectors use). -/
def rvUp (rm : Nat) (neg : Bool) (k rem u : Nat) : Bool :=
  match rm with
  | 0 => decide (u < 2 * rem) || (decide (2 * rem = u) && decide (k % 2 = 1))
  | 1 => false
  | 2 => neg && decide (rem ≠ 0)
  | 3 => !neg && decide (rem ≠ 0)
  | 4 => decide (rem ≠ 0) && decide (u ≤ 2 * rem)
  | _ => decide (rem ≠ 0) && decide (k % 2 = 0)

/-- The magnitude `m * 2^e` in units of `2^q`, and whether that is inexact. -/
def rvUnits (rm : Nat) (neg : Bool) (m : Nat) (e q : Int) : Nat × Bool :=
  if q ≤ e then (m * 2 ^ (e - q).toNat, false)
  else
    let u := 2 ^ (q - e).toNat
    (if rvUp rm neg (m / u) (m % u) u then m / u + 1 else m / u, decide (m % u ≠ 0))

/-- Round `(-1)^neg * m * 2^e` into a format; tininess is judged after rounding. -/
def rvPack (f : FloatFmt) (rm : Nat) (neg : Bool) (m : Nat) (e : Int) : FRes :=
  if m = 0 then (signed f neg 0, 0)
  else
    let p := Int.ofNat f.mbits
    let l := Int.ofNat (log2Floor m) + e
    let q := max (l - p) f.emin
    let (k, ix) := rvUnits rm neg m e q
    let mag := (q - f.emin).toNat * 2 ^ f.mbits + k
    if f.maxBits < mag then
      let toMax := match rm with | 0 => false | 4 => false | 2 => !neg | 3 => neg | _ => true
      (signed f neg (if toMax then f.maxBits else f.maxBits + 1), 5)
    else
      let carried := decide ((rvUnits rm neg m e (l - p)).1 = 2 ^ (f.mbits + 1))
      let tiny := decide (l + (if carried then 1 else 0) < f.emin + p)
      (signed f neg mag, b2n ix + 2 * b2n (ix && tiny))

/-- A NaN. -/
def rvNan (f : FloatFmt) (b : Nat) : Bool := decide (decFloat f b = .nan)
/-- A signalling NaN. -/
def rvSnan (f : FloatFmt) (b : Nat) : Bool := rvNan f b && !bitAt b (f.mbits - 1)

/-- The NaN result of an operation on operands one of which is a NaN. -/
def rvNanRes (f : FloatFmt) (l : List Nat) : FRes := (f.canonNan, if l.any (rvSnan f) then 16 else 0)

/-- A signed dyadic. -/
def dyOf (neg : Bool) (m : Nat) (e : Int) : Dyadic := ⟨if neg then - Int.ofNat m else Int.ofNat m, e⟩

/-- Round an exact sum; an exact zero takes the sign given. -/
def rvSum (f : FloatFmt) (rm : Nat) (d : Dyadic) (zeroNeg : Bool) : FRes :=
  if d.mant = 0 then (signed f zeroNeg 0, 0) else rvPack f rm (decide (d.mant < 0)) d.mant.natAbs d.exp

/-- The sign of an exact zero sum of two terms. -/
def zeroSign (rm : Nat) (a b : Bool) : Bool := if a = b then a else decide (rm = 2)

/-- Addition. -/
def fpAdd (f : FloatFmt) (rm a b : Nat) : FRes :=
  match decFloat f a, decFloat f b with
  | .nan, _ => rvNanRes f [a, b]
  | _, .nan => rvNanRes f [a, b]
  | .inf x, .inf y => if x = y then (a, 0) else (f.canonNan, 16)
  | .inf _, _ => (a, 0)
  | _, .inf _ => (b, 0)
  | .fin x m e, .fin y n g => rvSum f rm (dyAdd (dyOf x m e) (dyOf y n g)) (if m = 0 ∧ n = 0 then zeroSign rm x y else decide (rm = 2))

/-- The sign bit changed. -/
def fpNeg (f : FloatFmt) (a : Nat) : Nat := a ^^^ 2 ^ (f.bits - 1)

/-- Subtraction. -/
def fpSub (f : FloatFmt) (rm a b : Nat) : FRes := if rvNan f b then fpAdd f rm a b else fpAdd f rm a (fpNeg f b)

/-- Multiplication. -/
def fpMul (f : FloatFmt) (rm a b : Nat) : FRes :=
  match decFloat f a, decFloat f b with
  | .nan, _ => rvNanRes f [a, b]
  | _, .nan => rvNanRes f [a, b]
  | x, y =>
    match numMul x y with
    | .nan => (f.canonNan, 16)
    | .inf s => (signed f s (f.maxBits + 1), 0)
    | .fin s m e => rvPack f rm s m e

/-- Division. -/
def fpDiv (f : FloatFmt) (rm a b : Nat) : FRes :=
  match decFloat f a, decFloat f b with
  | .nan, _ => rvNanRes f [a, b]
  | _, .nan => rvNanRes f [a, b]
  | .inf _, .inf _ => (f.canonNan, 16)
  | .inf x, .fin y _ _ => (signed f (x ^^ y) (f.maxBits + 1), 0)
  | .fin x _ _, .inf y => (signed f (x ^^ y) 0, 0)
  | .fin x m e, .fin y n g =>
    if n = 0 then (if m = 0 then (f.canonNan, 16) else (signed f (x ^^ y) (f.maxBits + 1), 8))
    else
      let k := f.mbits + 4 + log2Floor n
      let q := m * 2 ^ k / n
      rvPack f rm (x ^^ y) (2 * q + b2n (decide (m * 2 ^ k % n ≠ 0))) (e - g - Int.ofNat k - 1)

/-- The integer square root, bit by bit; enough bits for every format here. -/
def isqrt (n : Nat) : Nat :=
  (List.range 100).foldl (fun r i => let t := r + 2 ^ (99 - i); if t * t ≤ n then t else r) 0

/-- Square root. -/
def fpSqrt (f : FloatFmt) (rm a : Nat) : FRes :=
  match decFloat f a with
  | .nan => rvNanRes f [a]
  | .inf neg => if neg then (f.canonNan, 16) else (a, 0)
  | .fin neg m e =>
    if m = 0 then (a, 0)
    else if neg then (f.canonNan, 16)
    else
      let odd := decide (e % 2 ≠ 0)
      let m := if odd then 2 * m else m
      let e := if odd then e - 1 else e
      let k := f.mbits + 4
      let r := isqrt (m * 4 ^ k)
      rvPack f rm false (2 * r + b2n (decide (r * r ≠ m * 4 ^ k))) (e / 2 - Int.ofNat k - 1)

/-- Fused multiply-add: a × b + c. -/
def fpFma (f : FloatFmt) (rm a b c : Nat) : FRes :=
  let x := decFloat f a
  let y := decFloat f b
  let z := decFloat f c
  let bad := decide (x ≠ .nan) && decide (y ≠ .nan) && decide (numMul x y = .nan)
  if bad then (f.canonNan, 16)
  else if x = .nan ∨ y = .nan ∨ z = .nan then rvNanRes f [a, b, c]
  else match numMul x y, z with
    | .inf s, .inf t => if s = t then (c, 0) else (f.canonNan, 16)
    | .inf s, _ => (signed f s (f.maxBits + 1), 0)
    | _, .inf _ => (c, 0)
    | .fin s m e, .fin t n g => rvSum f rm (dyAdd (dyOf s m e) (dyOf t n g)) (if m = 0 ∧ n = 0 then zeroSign rm s t else decide (rm = 2))
    | _, _ => (f.canonNan, 16)

/-- The four fused operations by number: multiply-add, multiply-subtract, negated multiply-subtract, negated multiply-add. -/
def fpFused (f : FloatFmt) (op rm a b c : Nat) : FRes :=
  let na := if (op = 2 ∨ op = 3) ∧ !rvNan f a then fpNeg f a else a
  let nc := if (op = 1 ∨ op = 3) ∧ !rvNan f c then fpNeg f c else c
  fpFma f rm na b nc

/-- The place of a number that is no NaN in the order of its format; both zeros have one place. -/
def fpKey (f : FloatFmt) (b : Nat) : Int :=
  let mag := b % 2 ^ (f.bits - 1)
  if bitAt b (f.bits - 1) then - Int.ofNat mag else Int.ofNat mag

/-- Comparisons: 0 less or equal, 1 less, 2 equal; the first two signal on every NaN. -/
def fpCmp (f : FloatFmt) (op a b : Nat) : FRes :=
  if rvNan f a ∨ rvNan f b then (0, if op ≠ 2 ∨ rvSnan f a ∨ rvSnan f b then 16 else 0)
  else (b2n (match op with
    | 0 => decide (fpKey f a ≤ fpKey f b)
    | 1 => decide (fpKey f a < fpKey f b)
    | _ => decide (fpKey f a = fpKey f b)), 0)

/-- Minimum or maximum number: a NaN gives way to a number, and -0 lies below +0. -/
def fpMinMax (f : FloatFmt) (mx : Bool) (a b : Nat) : FRes :=
  let fl := if rvSnan f a ∨ rvSnan f b then 16 else 0
  if rvNan f a ∧ rvNan f b then (f.canonNan, fl)
  else if rvNan f a then (b, fl)
  else if rvNan f b then (a, fl)
  else
    let neg := bitAt a (f.bits - 1)
    let less := decide (fpKey f a < fpKey f b) || (decide (fpKey f a = fpKey f b) && neg)
    (if less = mx then b else a, fl)

/-- Sign injection: 0 the other's sign, 1 its opposite, 2 the product of signs. -/
def fpSgnj (f : FloatFmt) (op a b : Nat) : Nat :=
  let h := 2 ^ (f.bits - 1)
  let sb := b / h % 2
  let sa := a / h % 2
  a % h + (match op with | 0 => sb | 1 => 1 - sb | _ => (sa + sb) % 2) * h

/-- Classification: one bit of ten. -/
def fpClass (f : FloatFmt) (a : Nat) : Nat :=
  let neg := bitAt a (f.bits - 1)
  2 ^ (match decFloat f a with
    | .nan => if rvSnan f a then 8 else 9
    | .inf n => if n then 0 else 7
    | .fin _ m _ =>
      if m = 0 then (if neg then 3 else 4)
      else if m < 2 ^ f.mbits then (if neg then 2 else 5)
      else (if neg then 1 else 6))

/-- Conversion between formats. -/
def fpConvert (src dst : FloatFmt) (rm a : Nat) : FRes :=
  match decFloat src a with
  | .nan => (dst.canonNan, if rvSnan src a then 16 else 0)
  | .inf n => (signed dst n (dst.maxBits + 1), 0)
  | .fin n m e => rvPack dst rm n m e

/-- Conversion to an integer of a width: out of range it saturates and is invalid; a NaN gives the greatest. -/
def fpToInt (f : FloatFmt) (rm width : Nat) (sgn : Bool) (a : Nat) : FRes :=
  let hi : Int := if sgn then 2 ^ (width - 1) - 1 else 2 ^ width - 1
  let lo : Int := if sgn then - 2 ^ (width - 1) else 0
  match decFloat f a with
  | .nan => (ofSigned width hi, 16)
  | .inf n => (ofSigned width (if n then lo else hi), 16)
  | .fin n m e =>
    let (k, ix) := rvUnits rm n m e 0
    let v : Int := if n then - Int.ofNat k else Int.ofNat k
    if hi < v then (ofSigned width hi, 16) else if v < lo then (ofSigned width lo, 16) else (ofSigned width v, b2n ix)

/-- Conversion from an integer of a width. -/
def intToFp (f : FloatFmt) (rm width : Nat) (sgn : Bool) (v : Nat) : FRes :=
  let i : Int := if sgn then asSigned width v else Int.ofNat (v % 2 ^ width)
  rvPack f rm (decide (i < 0)) i.natAbs 0

/-- The seven-bit estimate of 1 / (1 + (i + 1/2) / 128), less its leading one. -/
def recip7Entry (i : Nat) : Nat := ((List.range 129).filter fun n => decide ((2 * (128 + n) - 1) * (257 + 2 * i) ≤ 2 * 256 * 256)).length - 1

/-- The seven-bit estimate of the square root of the reciprocal, of an even or odd exponent and six bits of significand. -/
def rsqrt7Entry (i : Nat) : Nat :=
  let x := (129 + 2 * (i % 64)) * (if i / 64 = 0 then 2 else 1)
  ((List.range 129).filter fun n => decide ((2 * (128 + n) - 1) * (2 * (128 + n) - 1) * x ≤ 512 * 512 * 128)).length - 1

/-- The estimate of a reciprocal to seven bits (the vector profile's). -/
def fpRecip7 (f : FloatFmt) (rm a : Nat) : FRes :=
  match decFloat f a with
  | .nan => rvNanRes f [a]
  | .inf n => (signed f n 0, 0)
  | .fin n m _ =>
    if m = 0 then (signed f n (f.maxBits + 1), 8)
    else
      let mag := a % 2 ^ (f.bits - 1)
      let sub := decide (mag < 2 ^ f.mbits)
      let shift := if sub then f.mbits - log2Floor mag else 0
      let sig := if sub then mag * 2 ^ shift % 2 ^ f.mbits else mag % 2 ^ f.mbits
      let exp : Int := if sub then 1 - Int.ofNat shift else Int.ofNat (mag / 2 ^ f.mbits)
      let bias : Int := 2 ^ (f.ebits - 1) - 1
      if sub ∧ 2 ≤ shift then
        let toMax := match rm with | 0 => false | 4 => false | 2 => !n | 3 => n | _ => true
        (signed f n (if toMax then f.maxBits else f.maxBits + 1), 5)
      else
        let e : Int := 2 * bias - 1 - exp
        let out := recip7Entry (sig / 2 ^ (f.mbits - 7)) * 2 ^ (f.mbits - 7)
        if 0 < e then (signed f n (e.toNat * 2 ^ f.mbits + out), 0)
        else (signed f n ((out / 2 + 2 ^ (f.mbits - 1)) / 2 ^ (-e).toNat), 0)

/-- The estimate of the reciprocal of a square root to seven bits. -/
def fpRsqrt7 (f : FloatFmt) (a : Nat) : FRes :=
  match decFloat f a with
  | .nan => rvNanRes f [a]
  | .inf n => if n then (f.canonNan, 16) else (0, 0)
  | .fin n m _ =>
    if m = 0 then (signed f n (f.maxBits + 1), 8)
    else if n then (f.canonNan, 16)
    else
      let mag := a % 2 ^ (f.bits - 1)
      let sub := decide (mag < 2 ^ f.mbits)
      let shift := if sub then f.mbits - log2Floor mag else 0
      let sig := if sub then mag * 2 ^ shift % 2 ^ f.mbits else mag % 2 ^ f.mbits
      let exp : Int := if sub then 1 - Int.ofNat shift else Int.ofNat (mag / 2 ^ f.mbits)
      let bias : Int := 2 ^ (f.ebits - 1) - 1
      let e : Int := (3 * bias - 1 - exp) / 2
      let idx := (exp % 2).toNat * 64 + sig / 2 ^ (f.mbits - 6)
      (signed f false (e.toNat * 2 ^ f.mbits + rsqrt7Entry idx * 2 ^ (f.mbits - 7)), 0)

end Sys2Proof.Machine
end

