-- ==== Sys2Proof/Machine/RvScalar.lean ====
section
/-! DEFINITION. The tutor's scalar instructions (R165): RV64I, M, A, F, D, Zfh, Zicsr and Zifencei (PRESUMED, the standards that R165
names; log 16). An instruction that has no meaning in the profile is illegal (R166). -/

namespace Sys2Proof.Machine

/-- What a tutor instruction leads to: the next instruction's address, a wait at this one, or the end of the routine with a code. -/
inductive TutorNext
  | go (pc : Nat)
  | wait
  | done (code : Nat)
  deriving DecidableEq, Repr

/-- Integer arithmetic on `w` bits by funct3; `alt` is subtraction or an arithmetic shift. -/
def aluOp (w f3 : Nat) (alt : Bool) (a b : Nat) : Nat :=
  let m := 2 ^ w
  let sh := b % w
  match f3 with
  | 0 => if alt then (a + (m - b % m)) % m else (a + b) % m
  | 1 => a * 2 ^ sh % m
  | 2 => b2n (decide (asSigned w a < asSigned w b))
  | 3 => b2n (decide (a % m < b % m))
  | 4 => (a ^^^ b) % m
  | 5 => if alt then ofSigned w (asSigned w a / 2 ^ sh) else a % m / 2 ^ sh
  | 6 => (a ||| b) % m
  | _ => (a &&& b) % m

/-- Multiplication and division on `w` bits by funct3; division by zero and the overflow of the least number have the results of the M
extension. -/
def mulOp (w f3 a b : Nat) : Nat :=
  let m := 2 ^ w
  let sa := asSigned w a
  let sb := asSigned w b
  let ua : Int := Int.ofNat (a % m)
  let ub : Int := Int.ofNat (b % m)
  match f3 with
  | 0 => ofSigned w (ua * ub)
  | 1 => ofSigned w (sa * sb / m)
  | 2 => ofSigned w (sa * ub / m)
  | 3 => ofSigned w (ua * ub / m)
  | 4 => if sb = 0 then m - 1 else ofSigned w (sa.tdiv sb)
  | 5 => if ub = 0 then m - 1 else ofSigned w (ua / ub)
  | 6 => if sb = 0 then a % m else ofSigned w (sa.tmod sb)
  | _ => if ub = 0 then a % m else ofSigned w (ua % ub)

/-- A branch is taken. -/
def branchTaken (f3 a b : Nat) : Option Bool :=
  match f3 with
  | 0 => some (decide (a = b))
  | 1 => some (decide (a ≠ b))
  | 4 => some (decide (asSigned 64 a < asSigned 64 b))
  | 5 => some (decide (asSigned 64 b ≤ asSigned 64 a))
  | 6 => some (decide (a < b))
  | 7 => some (decide (b ≤ a))
  | _ => none

/-- Operations of OP-IMM and OP-IMM-32. -/
def tOpImm (c i w : Nat) : TutM Unit := do
  let a ← rx c (iRs1 i)
  let f3 := iF3 i
  let top := if w = 64 then bitsOf i 26 6 else bitsOf i 25 7
  let alt := if w = 64 then 0x10 else 0x20
  let shift := decide (f3 = 1) || decide (f3 = 5)
  tNeed (if shift then decide (top = 0) || (decide (f3 = 5) && decide (top = alt)) else decide (w = 64) || decide (f3 = 0))
  let b := if shift then bitsOf i 20 (if w = 64 then 6 else 5) else immI i
  wx c (iRd i) (sx w (aluOp w f3 (shift && decide (top = alt)) a b))

/-- Operations of OP and OP-32. -/
def tOp (c i w : Nat) : TutM Unit := do
  let a ← rx c (iRs1 i)
  let b ← rx c (iRs2 i)
  let f3 := iF3 i
  let f7 := iF7 i
  if f7 = 1 then do
    tNeed (decide (w = 64) || decide (f3 = 0) || decide (4 ≤ f3))
    wx c (iRd i) (sx w (mulOp w f3 a b))
  else do
    tNeed ((decide (f7 = 0) && (decide (w = 64) || decide (f3 = 0) || decide (f3 = 1) || decide (f3 = 5))) ||
      (decide (f7 = 0x20) && (decide (f3 = 0) || decide (f3 = 5))))
    wx c (iRd i) (sx w (aluOp w f3 (decide (f7 = 0x20)) a b))

/-- Integer loads and stores. -/
def tLoadInt (c i : Nat) : TutM Unit := do
  let f3 := iF3 i
  tNeed (decide (f3 ≠ 7))
  let n := 2 ^ (f3 % 4)
  let v ← tLoad c (w64 ((← rx c (iRs1 i)) + immI i)) n
  wx c (iRd i) (if f3 < 4 then sx (8 * n) v else v)

/-- Integer stores. -/
def tStoreInt (c i : Nat) : TutM Unit := do
  tNeed (decide (iF3 i < 4))
  tStore c (w64 ((← rx c (iRs1 i)) + immS i)) (2 ^ iF3 i) (← rx c (iRs2 i))

/-- The shared-cache operation of an AMO's funct5. -/
def amoOp (f5 : Nat) : Option AtomOp :=
  match f5 with
  | 0x00 => some .add | 0x01 => some .swap | 0x04 => some .xor | 0x08 => some .or | 0x0C => some .and
  | 0x10 => some .smin | 0x14 => some .smax | 0x18 => some .umin | 0x1C => some .umax | _ => none

/-- The A extension. -/
def tAtomic (c i : Nat) : TutM Unit := do
  let f3 := iF3 i
  tNeed (decide (f3 = 2) || decide (f3 = 3))
  let n := 2 ^ f3
  let a ← rx c (iRs1 i)
  let v ← rx c (iRs2 i)
  match bitsOf i 27 5 with
  | 2 => do
    tNeed (decide (iRs2 i = 0))
    wx c (iRd i) (sx (8 * n) (← tLoadReserve c a n))
  | 3 => wx c (iRd i) (← tStoreConditional c a n v)
  | f5 => match amoOp f5 with
    | some op => wx c (iRd i) (sx (8 * n) (← tAmo c a n op v))
    | none => tThrow 2

/-! ### Floating point -/

/-- The format of a fmt field: S, D or H. -/
def fmtField (n : Nat) : Option FloatFmt :=
  match n with
  | 0 => some fp32Fmt | 1 => some fp64Fmt | 2 => some fp16Fmt | _ => none

/-- A register read in a format: a value that is not boxed is a NaN. -/
def unbox (f : FloatFmt) (v : Nat) : Nat :=
  if f.bits = 64 ∨ v / 2 ^ f.bits = 2 ^ (64 - f.bits) - 1 then v % 2 ^ f.bits else f.canonNan

/-- A value boxed in a register. -/
def box (f : FloatFmt) (v : Nat) : Nat := v + (2 ^ 64 - 2 ^ f.bits)

/-- A source operand in a format. -/
def rfAs (c : Nat) (f : FloatFmt) (i : Nat) : TutM Nat := do
  let v ← rf c i
  pure (unbox f v)

/-- The rounding mode of an instruction; a reserved one is illegal. -/
def tRound (c i : Nat) : TutM Nat := do
  let r := iF3 i
  let dyn ← tCsr c csrFcsr
  let m := if r = 7 then dyn / 32 else r
  tNeed (decide (m < 5))
  pure m

/-- Keep a floating-point result and its flags. -/
def tFpDone (c rd : Nat) (f : FloatFmt) (r : FRes) : TutM Unit := do
  wf c rd (box f r.1)
  tFlags c r.2

/-- Keep an integer result and its flags. -/
def tIntDone (c rd : Nat) (r : FRes) : TutM Unit := do
  wx c rd r.1
  tFlags c r.2

/-- The width and the sign of a conversion's integer operand. -/
def intField (n : Nat) : Option (Nat × Bool) :=
  match n with
  | 0 => some (32, true) | 1 => some (32, false) | 2 => some (64, true) | 3 => some (64, false) | _ => none

/-- OP-FP. -/
def tOpFp (c i : Nat) : TutM Unit := do
  match fmtField (bitsOf i 25 2) with
  | none => tThrow 2
  | some f => do
    let a ← rfAs c f (iRs1 i)
    let b ← rfAs c f (iRs2 i)
    let rd := iRd i
    let r2 := iRs2 i
    let f3 := iF3 i
    match bitsOf i 27 5 with
    | 0x00 => tFpDone c rd f (fpAdd f (← tRound c i) a b)
    | 0x01 => tFpDone c rd f (fpSub f (← tRound c i) a b)
    | 0x02 => tFpDone c rd f (fpMul f (← tRound c i) a b)
    | 0x03 => tFpDone c rd f (fpDiv f (← tRound c i) a b)
    | 0x0B => do
      tNeed (decide (r2 = 0))
      tFpDone c rd f (fpSqrt f (← tRound c i) a)
    | 0x04 => do
      tNeed (decide (f3 < 3))
      tFpDone c rd f (fpSgnj f f3 a b, 0)
    | 0x05 => do
      tNeed (decide (f3 < 2))
      tFpDone c rd f (fpMinMax f (decide (f3 = 1)) a b)
    | 0x08 =>
      match fmtField r2 with
      | none => tThrow 2
      | some g => do
        tNeed (decide (f ≠ g))
        let m ← tRound c i
        let x ← rfAs c g (iRs1 i)
        tFpDone c rd f (fpConvert g f m x)
    | 0x14 => do
      tNeed (decide (f3 < 3))
      tIntDone c rd (fpCmp f f3 a b)
    | 0x18 =>
      match intField r2 with
      | none => tThrow 2
      | some (w, sgn) => do
        let r := fpToInt f (← tRound c i) w sgn a
        tIntDone c rd (sx w r.1, r.2)
    | 0x1A =>
      match intField r2 with
      | none => tThrow 2
      | some (w, sgn) => do
        let m ← tRound c i
        tFpDone c rd f (intToFp f m w sgn (← rx c (iRs1 i)))
    | 0x1C => do
      tNeed (decide (r2 = 0) && decide (f3 < 2))
      if f3 = 1 then wx c rd (fpClass f a) else wx c rd (sx f.bits (← rf c (iRs1 i)))
    | 0x1E => do
      tNeed (decide (r2 = 0) && decide (f3 = 0))
      wf c rd (box f ((← rx c (iRs1 i)) % 2 ^ f.bits))
    | _ => tThrow 2

/-- The fused operations, by the number of their opcode. -/
def tFused (c i op : Nat) : TutM Unit := do
  match fmtField (bitsOf i 25 2) with
  | none => tThrow 2
  | some f => do
    let m ← tRound c i
    let a ← rfAs c f (iRs1 i)
    let b ← rfAs c f (iRs2 i)
    let d ← rfAs c f (bitsOf i 27 5)
    tFpDone c (iRd i) f (fpFused f op m a b d)

/-- The format of a scalar floating-point load or store by its width field. -/
def memFmt (f3 : Nat) : Option FloatFmt :=
  match f3 with
  | 1 => some fp16Fmt | 2 => some fp32Fmt | 3 => some fp64Fmt | _ => none

/-- A floating-point load. -/
def tLoadFp (c i : Nat) (f : FloatFmt) : TutM Unit := do
  let v ← tLoad c (w64 ((← rx c (iRs1 i)) + immI i)) (f.bits / 8)
  wf c (iRd i) (box f v)

/-- A floating-point store. -/
def tStoreFp (c i : Nat) (f : FloatFmt) : TutM Unit := do
  tStore c (w64 ((← rx c (iRs1 i)) + immS i)) (f.bits / 8) ((← rf c (iRs2 i)) % 2 ^ f.bits)

/-! ### System -/

/-- Zicsr. -/
def tCsrOp (c i : Nat) : TutM Unit := do
  let n := bitsOf i 20 12
  let f3 := iF3 i
  let src ← (if 4 ≤ f3 then pure (iRs1 i) else rx c (iRs1 i))
  let writes := decide (f3 % 4 = 1) || decide (iRs1 i ≠ 0)
  let old ← (if f3 % 4 = 1 ∧ iRd i = 0 then pure 0 else tCsrRead c n)
  let new := match f3 % 4 with
    | 1 => src
    | 2 => old ||| src
    | _ => old &&& (2 ^ 64 - 1 - src)
  if writes then tCsrWrite c n new
  wx c (iRd i) old

/-- SYSTEM: ECALL and EBREAK raise their exceptions; MRET returns; WFI ends at once. -/
def tSystem (c i next : Nat) : TutM TutorNext := do
  if iF3 i = 0 then
    match i with
    | 0x00000073 => tThrow 11
    | 0x00100073 => tThrow 3
    | 0x10500073 => pure (.go next)
    | 0x30200073 => do
      let st ← tCsr c 0x300
      tSetCsr c 0x300 ((if bitAt st 7 then 8 else 0) + 0x80)
      pure (.go (← tCsr c 0x341))
    | _ => tThrow 2
  else do
    tNeed (decide (iF3 i ≠ 4))
    tCsrOp c i
    pure (.go next)

end Sys2Proof.Machine
end

