-- ==== Sys2Proof/Machine/RvVector.lean ====
section
/-! DEFINITION. The tutor's vector unit (R165): the V extension with VLEN 512 and ELEN 64, Zvfh and Zvfbfmin (PRESUMED, the standards
that R165 names; log 16). Where the standard lets an element be left or set to ones, a free value says which. -/

namespace Sys2Proof.Machine

/-- The vector configuration of an instruction: SEW, LMUL in eighths, `vl`, `vstart`, VLMAX, the mask field, agnostic settings, and a
free value for agnostic elements. -/
structure VCfg where
  sew : Nat
  mul : Nat
  vl : Nat
  start : Nat
  vlmax : Nat
  vm : Bool
  ta : Bool
  ma : Bool
  pick : Nat
  deriving DecidableEq, Repr

/-- One element's result: value, floating-point flags and saturation. -/
abbrev VEl := Nat × Nat × Nat

/-- A result without flags. -/
def vPlain (v : Nat) : VEl := (v, 0, 0)
/-- A floating-point result. -/
def vOfF (r : FRes) : VEl := (r.1, r.2, 0)

/-- LMUL in eighths. -/
def lmulOf (vtype : Nat) : Nat := match vtype % 8 with | 0 => 8 | 1 => 16 | 2 => 32 | 3 => 64 | 5 => 1 | 6 => 2 | 7 => 4 | _ => 0

/-- SEW in bits. -/
def sewOf (vtype : Nat) : Nat := 8 * 2 ^ bitsOf vtype 3 3

/-- VLMAX of a configuration, 0 where it is not supported. -/
def vlmaxOf (vtype : Nat) : Nat :=
  let m := lmulOf vtype
  let w := sewOf vtype
  if 256 ≤ vtype ∨ m = 0 ∨ 64 < w ∨ (m < 8 ∧ 8 * m < w) then 0 else 64 * m / w

/-- The bit of an illegal configuration. -/
def vill : Nat := 2 ^ 63

/-- The configuration for an instruction; with an illegal one the instruction is illegal. -/
def tVCfg (c i : Nat) : TutM VCfg := do
  let ty ← tCsr c csrVtype
  tNeed (decide (ty < vill))
  let agnostic := bitAt ty 6 || bitAt ty 7
  let pick ← (if agnostic then tDraw (2 ^ 8192) else pure 0)
  pure ⟨sewOf ty, lmulOf ty, ← tCsr c csrVl, ← tCsr c csrVstart, vlmaxOf ty, bitAt i 25, bitAt ty 6, bitAt ty 7, pick⟩

/-- The vector registers. -/
def tRegs (c : Nat) : TutM (List Nat) := do
  let t ← tGet c
  pure t.v

/-- Element i of width w of a register group. -/
def vGet (v : List Nat) (base w i : Nat) : Nat := bitsOf (wordAt v (base + i * w / 512)) (i * w % 512) w

/-- Replace an element of a register group. -/
def vSet (v : List Nat) (base w i x : Nat) : List Nat :=
  let o := i * w % 512
  v.modify (base + i * w / 512) fun r => r - bitsOf r o w * 2 ^ o + x % 2 ^ w * 2 ^ o

/-- An element takes part. -/
def VCfg.active (x : VCfg) (regs : List Nat) (i : Nat) : Bool := x.vm || bitAt (wordAt regs 0) i

/-- Registers of a group of a multiplier in eighths. -/
def vCount (mul : Nat) : Nat := max 1 (mul / 8)

/-- A group is named by a multiple of its size, and its multiplier is supported. -/
def vGroup (r mul : Nat) : Bool := decide (1 ≤ mul) && decide (mul ≤ 64) && decide (r % vCount mul = 0) && decide (r + vCount mul ≤ 32)

/-- Two groups overlap. -/
def vMeet (a ma b mb : Nat) : Bool := decide (a < b + vCount mb) && decide (b < a + vCount ma)

/-- A destination group may overlap a source group: equal element widths; a narrower destination at the source's lowest registers; a
wider one whose highest registers are a source of at least one whole register. -/
def vOverlap (d md wd r mr wr : Nat) : Bool :=
  !vMeet d md r mr || decide (wd = wr) || (decide (wd < wr) && decide (d = r)) ||
    (decide (wr < wd) && decide (8 ≤ mr) && decide (r + vCount mr = d + vCount md))

/-- The elements of a destination group after an instruction, with flags and saturation. -/
def VCfg.fold (x : VCfg) (regs : List Nat) (vd w : Nat) (f : Nat → VEl) : List Nat × Nat × Nat :=
  if x.vl ≤ x.start then (regs, 0, 0)
  else (List.range (max x.vlmax (512 / w))).foldl (fun acc i =>
    let ones := fun (on : Bool) => if on && bitAt x.pick i then (vSet acc.1 vd w i (2 ^ w - 1), acc.2) else acc
    if i < x.start then acc
    else if x.vl ≤ i then ones x.ta
    else if x.active regs i then
      let e := f i
      (vSet acc.1 vd w i e.1, acc.2.1 ||| e.2.1, acc.2.2 ||| e.2.2)
    else ones x.ma) (regs, 0, 0)

/-- The bits of a mask destination after an instruction; its tail is always agnostic. -/
def VCfg.foldMask (x : VCfg) (regs : List Nat) (vd : Nat) (f : Nat → VEl) : List Nat × Nat × Nat :=
  if x.vl ≤ x.start then (regs, 0, 0)
  else (List.range 512).foldl (fun acc i =>
    let ones := fun (on : Bool) => if on && bitAt x.pick i then (vSet acc.1 vd 1 i 1, acc.2) else acc
    if i < x.start then acc
    else if x.vl ≤ i then ones true
    else if x.active regs i then
      let e := f i
      (vSet acc.1 vd 1 i e.1, acc.2.1 ||| e.2.1, acc.2.2 ||| e.2.2)
    else ones x.ma) (regs, 0, 0)

/-- Keep the result of a vector instruction; `vstart` returns to zero. -/
def tVDone (c : Nat) (r : List Nat × Nat × Nat) : TutM Unit := do
  tMod c fun t => { t with v := r.1 }
  tFlags c r.2.1
  if r.2.2 ≠ 0 then tSetCsr c csrVcsr ((← tCsr c csrVcsr) ||| 1)
  tSetCsr c csrVstart 0

/-- A masked instruction does not write the mask register. -/
def VCfg.maskOk (x : VCfg) (vd : Nat) : Bool := x.vm || decide (vd ≠ 0)

/-! ### Element operations -/

/-- A value shifted right with the fixed-point rounding mode. -/
def vRoundoff (rm : Nat) (v : Int) (d : Nat) : Int :=
  if d = 0 then v
  else
    let q := v / 2 ^ d
    let r := v % 2 ^ d
    let h : Int := 2 ^ (d - 1)
    q + (match rm with
      | 0 => if h ≤ r then 1 else 0
      | 1 => if h < r ∨ (h = r ∧ q % 2 ≠ 0) then 1 else 0
      | 2 => 0
      | _ => if r ≠ 0 ∧ q % 2 = 0 then 1 else 0)

/-- A value kept within a width by saturation. -/
def vClip (w : Nat) (sgn : Bool) (v : Int) : VEl :=
  let hi : Int := if sgn then 2 ^ (w - 1) - 1 else 2 ^ w - 1
  let lo : Int := if sgn then - 2 ^ (w - 1) else 0
  if hi < v then (ofSigned w hi, 0, 1) else if v < lo then (ofSigned w lo, 0, 1) else vPlain (ofSigned w v)

/-- An element as an integer. -/
def vInt (sgn : Bool) (w a : Nat) : Int := if sgn then asSigned w a else Int.ofNat (a % 2 ^ w)

/-- Integer operations of one width by funct6, on the elements of vs2 and of the other source. -/
def vIntOp (f6 w rm a b : Nat) : Option VEl :=
  let s := vInt true w
  let u := vInt false w
  let sh := b % w
  match f6 with
  | 0x00 => some (vPlain (ofSigned w (u a + u b)))
  | 0x02 => some (vPlain (ofSigned w (u a - u b)))
  | 0x03 => some (vPlain (ofSigned w (u b - u a)))
  | 0x04 => some (vPlain (min a b))
  | 0x05 => some (vPlain (if s a ≤ s b then a else b))
  | 0x06 => some (vPlain (max a b))
  | 0x07 => some (vPlain (if s a ≤ s b then b else a))
  | 0x09 => some (vPlain (a &&& b))
  | 0x0A => some (vPlain (a ||| b))
  | 0x0B => some (vPlain (a ^^^ b))
  | 0x20 => some (vClip w false (u a + u b))
  | 0x21 => some (vClip w true (s a + s b))
  | 0x22 => some (vClip w false (u a - u b))
  | 0x23 => some (vClip w true (s a - s b))
  | 0x25 => some (vPlain (aluOp w 1 false a sh))
  | 0x27 => some (vClip w true (vRoundoff rm (s a * s b) (w - 1)))
  | 0x28 => some (vPlain (aluOp w 5 false a sh))
  | 0x29 => some (vPlain (aluOp w 5 true a sh))
  | 0x2A => some (vPlain (ofSigned w (vRoundoff rm (u a) sh)))
  | 0x2B => some (vPlain (ofSigned w (vRoundoff rm (s a) sh)))
  | _ => none

/-- Comparisons by funct6. -/
def vCompare (f6 w a b : Nat) : Bool :=
  let s := vInt true w
  match f6 with
  | 0x18 => decide (a = b)
  | 0x19 => decide (a ≠ b)
  | 0x1A => decide (a < b)
  | 0x1B => decide (s a < s b)
  | 0x1C => decide (a ≤ b)
  | 0x1D => decide (s a ≤ s b)
  | 0x1E => decide (b < a)
  | _ => decide (s b < s a)

/-- How the second source is given: a vector, a scalar register or an immediate. -/
inductive VForm
  | vv | vx | vi
  deriving DecidableEq, Repr

/-- The second source of an integer instruction at each element. -/
def tVSource (c i : Nat) (form : VForm) (w : Nat) (unsignedImm : Bool) : TutM (Nat → Nat) := do
  let regs ← tRegs c
  match form with
  | .vv => pure (vGet regs (iRs1 i) w)
  | .vx => do
    let b ← rx c (iRs1 i)
    pure fun _ => b % 2 ^ w
  | .vi => pure fun _ => (if unsignedImm then iRs1 i else sx 5 (iRs1 i)) % 2 ^ w

/-- The whole scalar of a slide or a gather. -/
def tVOffset (c i : Nat) (form : VForm) : TutM Nat := if form = .vi then pure (iRs1 i) else rx c (iRs1 i)

/-! ### Integer instructions -/

/-- An instruction of one width: its groups, and its function of each element. -/
def tVSingle (c i : Nat) (form : VForm) (x : VCfg) (f : List Nat → Nat → VEl) : TutM Unit := do
  let vd := iRd i
  tNeed (x.maskOk vd && vGroup vd x.mul && vGroup (iRs2 i) x.mul && (decide (form ≠ .vv) || vGroup (iRs1 i) x.mul))
  let regs ← tRegs c
  tVDone c (x.fold regs vd x.sew (f regs))

/-- An instruction of one width into a mask. -/
def tVToMask (c i : Nat) (form : VForm) (x : VCfg) (f : List Nat → Nat → VEl) : TutM Unit := do
  let vd := iRd i
  tNeed (vGroup (iRs2 i) x.mul && vOverlap vd 8 1 (iRs2 i) x.mul x.sew &&
    (decide (form ≠ .vv) || (vGroup (iRs1 i) x.mul && vOverlap vd 8 1 (iRs1 i) x.mul x.sew)))
  let regs ← tRegs c
  tVDone c (x.foldMask regs vd (f regs))

/-- Slides and gathers (funct6 0x0C, 0x0E, 0x0F). -/
def tVPermute (c i : Nat) (form : VForm) (x : VCfg) (f6 : Nat) : TutM Unit := do
  let vd := iRd i
  let vs2 := iRs2 i
  let regs ← tRegs c
  if f6 = 0x0E ∧ form = .vv then do
    let m1 := 16 * x.mul / x.sew
    tNeed (vGroup (iRs1 i) m1 && !vMeet vd x.mul (iRs1 i) m1 && !vMeet vd x.mul vs2 x.mul)
    tVSingle c i .vx x fun regs k =>
      let j := vGet regs (iRs1 i) 16 k
      vPlain (if j < x.vlmax then vGet regs vs2 x.sew j else 0)
  else if f6 = 0x0C then do
    tNeed (!vMeet vd x.mul vs2 x.mul && (decide (form ≠ .vv) || !vMeet vd x.mul (iRs1 i) x.mul))
    let off ← tVOffset c i form
    tVSingle c i form x fun regs k =>
      let j := if form = .vv then vGet regs (iRs1 i) x.sew k else off
      vPlain (if j < x.vlmax then vGet regs vs2 x.sew j else 0)
  else do
    tNeed (decide (form ≠ .vv) && (decide (f6 = 0x0F) || !vMeet vd x.mul vs2 x.mul))
    let off ← tVOffset c i form
    if f6 = 0x0E then
      tVSingle c i form { x with start := max x.start (min off x.vl), pick := if x.vl ≤ off then 0 else x.pick } fun regs k => vPlain (vGet regs vs2 x.sew (k - off))
    else
      tVSingle c i form x fun regs k => vPlain (if k + off < x.vlmax then vGet regs vs2 x.sew (k + off) else 0)
    let _ := regs
    pure ()

/-- Narrowing shifts and clips (funct6 0x2C to 0x2F). -/
def tVNarrow (c i : Nat) (form : VForm) (x : VCfg) (f6 : Nat) : TutM Unit := do
  let vd := iRd i
  let vs2 := iRs2 i
  tNeed (decide (2 * x.sew ≤ 64) && x.maskOk vd && vGroup vd x.mul && vGroup vs2 (2 * x.mul) &&
    vOverlap vd x.mul x.sew vs2 (2 * x.mul) (2 * x.sew) && (decide (form ≠ .vv) || vGroup (iRs1 i) x.mul))
  let b ← tVSource c i form x.sew true
  let rm := (← tCsr c csrVcsr) / 2
  let regs ← tRegs c
  let w2 := 2 * x.sew
  tVDone c (x.fold regs vd x.sew fun k =>
    let a := vGet regs vs2 w2 k
    let sh := b k % w2
    match f6 with
    | 0x2C => vPlain (aluOp w2 5 false a sh)
    | 0x2D => vPlain (aluOp w2 5 true a sh)
    | 0x2E => vClip x.sew false (vRoundoff rm (vInt false w2 a) sh)
    | _ => vClip x.sew true (vRoundoff rm (vInt true w2 a) sh))

/-- A reduction: `w` is the width of the scalar, `f` folds the active elements of vs2 into it. -/
def tVReduce (c i : Nat) (x : VCfg) (w : Nat) (f : Nat → Nat → FRes) : TutM Unit := do
  tNeed (decide (x.start = 0) && vGroup (iRs2 i) x.mul && decide (w ≤ 64))
  let regs ← tRegs c
  let live := (List.range x.vl).filter (x.active regs)
  let r : FRes := live.foldl (fun acc k => let q := f acc.1 (vGet regs (iRs2 i) x.sew k); (q.1, acc.2 ||| q.2)) (vGet regs (iRs1 i) w 0, 0)
  tVDone c (({ x with vm := true, vl := min x.vl 1, vlmax := 1 } : VCfg).fold regs (iRd i) w fun _ => (r.1, r.2, 0))

/-- OPIVV, OPIVX and OPIVI. -/
def tVecInt (c i : Nat) (form : VForm) : TutM Unit := do
  let x ← tVCfg c i
  let f6 := bitsOf i 26 6
  let vd := iRd i
  let w := x.sew
  let vs2 := iRs2 i
  let unsignedImm := decide (f6 = 0x25) || decide (0x28 ≤ f6 ∧ f6 ≤ 0x2F)
  let b ← tVSource c i form w unsignedImm
  let rm := (← tCsr c csrVcsr) / 2
  if f6 = 0x0C ∨ f6 = 0x0E ∨ f6 = 0x0F then tVPermute c i form x f6
  else if f6 = 0x27 ∧ form = .vi then do
    let n := iRs1 i + 1
    tNeed (x.vm && (decide (n = 1) || decide (n = 2) || decide (n = 4) || decide (n = 8)) && decide (vd % n = 0) && decide (vs2 % n = 0))
    let regs ← tRegs c
    let count := n * 512 / w
    tVDone c (({ x with vl := count, vlmax := count } : VCfg).fold regs vd w fun k => vPlain (vGet regs vs2 w k))
  else if f6 = 0x10 ∨ f6 = 0x12 then do
    tNeed (!x.vm && decide (vd ≠ 0) && (decide (f6 = 0x10) || decide (form ≠ .vi)))
    tVSingle c i form { x with vm := true } fun regs k =>
      let cin := b2n (bitAt (wordAt regs 0) k)
      let a := vGet regs vs2 w k
      vPlain (if f6 = 0x10 then (a + b k + cin) % 2 ^ w else (a + 2 ^ (w + 1) - b k - cin) % 2 ^ w)
  else if f6 = 0x11 ∨ f6 = 0x13 then do
    tNeed (decide (f6 = 0x11) || decide (form ≠ .vi))
    tVToMask c i form { x with vm := true } fun regs k =>
      let cin := b2n (!x.vm && bitAt (wordAt regs 0) k)
      let a := vGet regs vs2 w k
      vPlain (if f6 = 0x11 then b2n (decide (2 ^ w ≤ a + b k + cin)) else b2n (decide (a < b k + cin)))
  else if f6 = 0x17 then do
    tNeed (!x.vm || decide (vs2 = 0))
    tNeed (x.vm || decide (vd ≠ 0))
    tVSingle c i form { x with vm := true } fun regs k => vPlain (if x.vm || bitAt (wordAt regs 0) k then b k else vGet regs vs2 w k)
  else if 0x18 ≤ f6 ∧ f6 ≤ 0x1F then do
    tNeed (!(decide (form = .vv) && decide (0x1E ≤ f6)) && !(decide (form = .vi) && (decide (f6 = 0x1A) || decide (f6 = 0x1B))))
    tVToMask c i form x fun regs k => vPlain (b2n (vCompare f6 w (vGet regs vs2 w k) (b k)))
  else if 0x2C ≤ f6 ∧ f6 ≤ 0x2F then tVNarrow c i form x f6
  else if f6 = 0x30 ∨ f6 = 0x31 then do
    tNeed (decide (form = .vv))
    tVReduce c i x (2 * w) fun acc v => (ofSigned (2 * w) (vInt false (2 * w) acc + vInt (decide (f6 = 0x31)) w v), 0)
  else do
    tNeed ((vIntOp f6 w rm 0 0).isSome && !(decide (form = .vi) && [0x02, 0x04, 0x05, 0x06, 0x07, 0x22, 0x23].contains f6) &&
      !(decide (form = .vv) && decide (f6 = 0x03)))
    tVSingle c i form x fun regs k => (vIntOp f6 w rm (vGet regs vs2 w k) (b k)).getD (vPlain 0)

/-! ### Multiply, divide, masks and moves -/

/-- An instruction whose destination is twice as wide; `wide2` says that vs2 is too. -/
def tVWiden (c i : Nat) (form : VForm) (x : VCfg) (wide2 : Bool) (f : List Nat → Nat → VEl) : TutM Unit := do
  let vd := iRd i
  let vs2 := iRs2 i
  let m2 := 2 * x.mul
  tNeed (decide (2 * x.sew ≤ 64) && x.maskOk vd && vGroup vd m2 &&
    (if wide2 then vGroup vs2 m2 else vGroup vs2 x.mul && vOverlap vd m2 (2 * x.sew) vs2 x.mul x.sew) &&
    (decide (form ≠ .vv) || (vGroup (iRs1 i) x.mul && vOverlap vd m2 (2 * x.sew) (iRs1 i) x.mul x.sew)))
  let regs ← tRegs c
  tVDone c (x.fold regs vd (2 * x.sew) (f regs))

/-- Mask logic by funct6. -/
def vMaskOp (f6 : Nat) (a b : Bool) : Bool :=
  match f6 with
  | 0x18 => a && !b
  | 0x19 => a && b
  | 0x1A => a || b
  | 0x1B => a ^^ b
  | 0x1C => a || !b
  | 0x1D => !(a && b)
  | 0x1E => !(a || b)
  | _ => !(a ^^ b)

/-- Set-before, set-only and set-including first; iota and id (funct6 0x14). -/
def tVMaskUnary (c i : Nat) (x : VCfg) : TutM Unit := do
  let vd := iRd i
  let vs2 := iRs2 i
  let regs ← tRegs c
  let set := fun k => x.active regs k && bitAt (wordAt regs vs2) k
  let before := fun k => ((List.range (min k x.vl)).filter set).length
  match iRs1 i with
  | 0x10 => do
    tNeed (decide (x.start = 0) && x.maskOk vd && vGroup vd x.mul && !vMeet vd x.mul vs2 8)
    tVDone c (x.fold regs vd x.sew fun k => vPlain (before k))
  | 0x11 => do
    tNeed (decide (vs2 = 0) && x.maskOk vd && vGroup vd x.mul)
    tVDone c (x.fold regs vd x.sew fun k => vPlain k)
  | k1 => do
    tNeed (decide (1 ≤ k1) && decide (k1 ≤ 3) && decide (x.start = 0) && decide (vd ≠ vs2) && x.maskOk vd)
    tVDone c (x.foldMask regs vd fun k =>
      let first := set k && decide (before k = 0)
      let none := decide (before k = 0) && !set k
      vPlain (b2n (if k1 = 1 then none else if k1 = 2 then first else none || first)))

/-- Scalar results of masks and moves (funct6 0x10). -/
def tVScalar (c i : Nat) (form : VForm) (x : VCfg) : TutM Unit := do
  let regs ← tRegs c
  let vs2 := iRs2 i
  let set := fun k => x.active regs k && bitAt (wordAt regs vs2) k
  if form = .vx then do
    tNeed (decide (vs2 = 0) && x.vm)
    let v ← rx c (iRs1 i)
    tVDone c (({ x with vl := min x.vl 1, vlmax := 1 } : VCfg).fold regs (iRd i) x.sew fun _ => vPlain (v % 2 ^ x.sew))
  else match iRs1 i with
    | 0x00 => do
      tNeed x.vm
      wx c (iRd i) (sx x.sew (vGet regs vs2 x.sew 0))
      tSetCsr c csrVstart 0
    | 0x10 => do
      tNeed (decide (x.start = 0))
      wx c (iRd i) ((List.range x.vl).filter set).length
    | 0x11 => do
      tNeed (decide (x.start = 0))
      wx c (iRd i) (match (List.range x.vl).find? set with | some k => k | none => 2 ^ 64 - 1)
    | _ => tThrow 2

/-- Compress: the elements that a mask marks, packed. -/
def tVCompress (c i : Nat) (x : VCfg) : TutM Unit := do
  let vd := iRd i
  let vs2 := iRs2 i
  tNeed (x.vm && decide (x.start = 0) && vGroup vd x.mul && vGroup vs2 x.mul && !vMeet vd x.mul vs2 x.mul && !vMeet vd x.mul (iRs1 i) 8)
  let regs ← tRegs c
  let marked := (List.range x.vl).filter fun k => bitAt (wordAt regs (iRs1 i)) k
  let y := if x.vl = 0 then x else { x with vl := marked.length }
  tVDone c (if marked.isEmpty then (regs, 0, 0) else y.fold regs vd x.sew fun k => vPlain (vGet regs vs2 x.sew (wordAt marked k)))

/-- The integer reductions of one width. -/
def vReduceOp (f6 w acc v : Nat) : Nat :=
  let s := vInt true w
  match f6 with
  | 0 => (acc + v) % 2 ^ w
  | 1 => acc &&& v
  | 2 => acc ||| v
  | 3 => acc ^^^ v
  | 4 => min acc v
  | 5 => if s acc ≤ s v then acc else v
  | 6 => max acc v
  | _ => if s acc ≤ s v then v else acc

/-- Widening integer operations by funct6, of the element of vs2, the other source and the destination. -/
def vWidenOp (f6 w a b d : Nat) : Nat :=
  let s := vInt true w
  let u := vInt false w
  let w2 := 2 * w
  let dd := vInt false w2 d
  ofSigned w2 (match f6 with
    | 0x30 => u a + u b
    | 0x31 => s a + s b
    | 0x32 => u a - u b
    | 0x33 => s a - s b
    | 0x34 => vInt false w2 a + u b
    | 0x35 => vInt false w2 a + s b
    | 0x36 => vInt false w2 a - u b
    | 0x37 => vInt false w2 a - s b
    | 0x38 => u a * u b
    | 0x3A => s a * u b
    | 0x3B => s a * s b
    | 0x3C => u a * u b + dd
    | 0x3D => s a * s b + dd
    | 0x3E => s a * u b + dd
    | _ => u a * s b + dd)

/-- OPMVV and OPMVX. -/
def tVecMul (c i : Nat) (form : VForm) : TutM Unit := do
  let x ← tVCfg c i
  let f6 := bitsOf i 26 6
  let vd := iRd i
  let w := x.sew
  let vs2 := iRs2 i
  let b ← tVSource c i form w false
  let rm := (← tCsr c csrVcsr) / 2
  if f6 < 8 then do
    tNeed (decide (form = .vv))
    tVReduce c i x w fun acc v => (vReduceOp f6 w acc v, 0)
  else if f6 < 0x0C then
    tVSingle c i form x fun regs k =>
      let sgn := decide (f6 % 2 = 1)
      let a := vInt sgn w (vGet regs vs2 w k)
      let d := vInt sgn w (b k)
      vPlain (ofSigned w (vRoundoff rm (if f6 < 0x0A then a + d else a - d) 1))
  else if f6 = 0x0E ∨ f6 = 0x0F then do
    tNeed (decide (form = .vx) && (decide (f6 = 0x0F) || !vMeet vd x.mul vs2 x.mul))
    let v ← rx c (iRs1 i)
    tVSingle c i form x fun regs k =>
      vPlain (if f6 = 0x0E then (if k = 0 then v % 2 ^ w else vGet regs vs2 w (k - 1))
        else if k + 1 = x.vl then v % 2 ^ w else vGet regs vs2 w (k + 1))
  else if f6 = 0x10 then tVScalar c i form x
  else if f6 = 0x12 then do
    let n := 2 ^ (4 - iRs1 i / 2)
    tNeed (decide (form = .vv) && decide (2 ≤ iRs1 i) && decide (iRs1 i ≤ 7) && decide (8 * n ≤ w) && vGroup vs2 (x.mul / n) && vGroup vd x.mul &&
      x.maskOk vd && vOverlap vd x.mul w vs2 (x.mul / n) (w / n))
    let regs ← tRegs c
    tVDone c (x.fold regs vd w fun k => vPlain (ofSigned w (vInt (decide (iRs1 i % 2 = 1)) (w / n) (vGet regs vs2 (w / n) k))))
  else if f6 = 0x14 then do
    tNeed (decide (form = .vv))
    tVMaskUnary c i x
  else if f6 = 0x17 then do
    tNeed (decide (form = .vv))
    tVCompress c i x
  else if 0x18 ≤ f6 ∧ f6 ≤ 0x1F then do
    tNeed (decide (form = .vv) && x.vm)
    let regs ← tRegs c
    tVDone c (x.foldMask regs vd fun k => vPlain (b2n (vMaskOp f6 (bitAt (wordAt regs vs2) k) (bitAt (wordAt regs (iRs1 i)) k))))
  else if 0x20 ≤ f6 ∧ f6 ≤ 0x27 then
    tVSingle c i form x fun regs k =>
      vPlain (mulOp w (match f6 with | 0x20 => 5 | 0x21 => 4 | 0x22 => 7 | 0x23 => 6 | 0x24 => 3 | 0x25 => 0 | 0x26 => 2 | _ => 1) (vGet regs vs2 w k) (b k))
  else if f6 = 0x29 ∨ f6 = 0x2B ∨ f6 = 0x2D ∨ f6 = 0x2F then
    tVSingle c i form x fun regs k =>
      let a := vInt false w (vGet regs vs2 w k)
      let d := vInt false w (vGet regs vd w k)
      let m := vInt false w (b k)
      vPlain (ofSigned w (match f6 with | 0x29 => d * m + a | 0x2B => a - d * m | 0x2D => d + m * a | _ => d - m * a))
  else if 0x30 ≤ f6 then do
    tNeed (decide (f6 ≠ 0x39) && (decide (f6 ≠ 0x3E) || decide (form = .vx)))
    let wide := decide (0x34 ≤ f6) && decide (f6 ≤ 0x37)
    tVWiden c i form x wide fun regs k => vPlain (vWidenOp f6 w (vGet regs vs2 (if wide then 2 * w else w) k) (b k) (vGet regs vd (2 * w) k))
  else tThrow 2

/-! ### Floating-point instructions -/

/-- The format of an element width. -/
def vFmt (w : Nat) : Option FloatFmt :=
  match w with
  | 16 => some fp16Fmt | 32 => some fp32Fmt | 64 => some fp64Fmt | _ => none

/-- Operations of one width by funct6. -/
def vFpOp (f : FloatFmt) (f6 rm a b : Nat) : Option FRes :=
  match f6 with
  | 0x00 => some (fpAdd f rm a b)
  | 0x02 => some (fpSub f rm a b)
  | 0x04 => some (fpMinMax f false a b)
  | 0x06 => some (fpMinMax f true a b)
  | 0x08 => some (fpSgnj f 0 a b, 0)
  | 0x09 => some (fpSgnj f 1 a b, 0)
  | 0x0A => some (fpSgnj f 2 a b, 0)
  | 0x20 => some (fpDiv f rm a b)
  | 0x21 => some (fpDiv f rm b a)
  | 0x24 => some (fpMul f rm a b)
  | 0x27 => some (fpSub f rm b a)
  | _ => none

/-- Comparisons by funct6. -/
def vFpCompare (f : FloatFmt) (f6 a b : Nat) : FRes :=
  match f6 with
  | 0x18 => fpCmp f 2 a b
  | 0x19 => fpCmp f 0 a b
  | 0x1B => fpCmp f 1 a b
  | 0x1C => let r := fpCmp f 2 a b; (1 - r.1, r.2)
  | 0x1D => fpCmp f 1 b a
  | _ => fpCmp f 0 b a

/-- The number of the fused operation of funct6's low bits. -/
def vFused (n : Nat) : Nat := match n % 4 with | 0 => 0 | 1 => 3 | 2 => 1 | _ => 2

/-- Two results in sequence: the flags of both. -/
def vBoth (fl : Nat) (r : FRes) : VEl := (r.1, fl ||| r.2, 0)

/-- An unordered sum's result and flags are free where it has at least two terms (log 16); any other reduction folds in order. -/
def tVFpReduce (c i : Nat) (x : VCfg) (w : Nat) (unordered : Bool) (f : Nat → Nat → FRes) : TutM Unit := do
  let regs ← tRegs c
  let live := ((List.range x.vl).filter (x.active regs)).length
  if unordered ∧ 2 ≤ live then do
    let v ← tDraw (2 ^ w)
    let fl ← tDraw 32
    tVReduce c i x w fun _ _ => (v, fl)
  else tVReduce c i x w f

/-- Conversions (funct6 0x12) by their number: of one width, widening and narrowing. -/
def vConvert (n rm w a : Nat) : Option FRes :=
  let rz := fun k => if k % 8 = 6 ∨ k % 8 = 7 then 1 else rm
  let sg := decide (n % 2 = 1)
  let toInt := fun wf wi => (vFmt wf).map fun f => fpToInt f (rz n) wi sg a
  let toFp := fun wi wf => (vFmt wf).map fun f => intToFp f rm wi sg a
  match n with
  | 0x00 => toInt w w
  | 0x01 => toInt w w
  | 0x02 => toFp w w
  | 0x03 => toFp w w
  | 0x06 => toInt w w
  | 0x07 => toInt w w
  | 0x08 => toInt w (2 * w)
  | 0x09 => toInt w (2 * w)
  | 0x0A => toFp w (2 * w)
  | 0x0B => toFp w (2 * w)
  | 0x0C => match vFmt w, vFmt (2 * w) with | some f, some g => some (fpConvert f g rm a) | _, _ => none
  | 0x0D => if w = 16 then some (fpConvert bf16Fmt fp32Fmt rm a) else none
  | 0x0E => toInt w (2 * w)
  | 0x0F => toInt w (2 * w)
  | 0x10 => toInt (2 * w) w
  | 0x11 => toInt (2 * w) w
  | 0x12 => toFp (2 * w) w
  | 0x13 => toFp (2 * w) w
  | 0x14 => match vFmt (2 * w), vFmt w with | some f, some g => some (fpConvert f g rm a) | _, _ => none
  | 0x15 => match vFmt (2 * w), vFmt w with | some f, some g => some (fpConvert f g 5 a) | _, _ => none
  | 0x16 => toInt (2 * w) w
  | 0x17 => toInt (2 * w) w
  | 0x1D => if w = 16 then some (fpConvert fp32Fmt bf16Fmt rm a) else none
  | _ => none

/-- A conversion of every element. -/
def tVConvert (c i : Nat) (x : VCfg) (rm : Nat) : TutM Unit := do
  let n := iRs1 i
  let w := x.sew
  let vd := iRd i
  let vs2 := iRs2 i
  tNeed (vConvert n rm w 0).isSome
  if n < 8 then tVSingle c i .vx x fun regs k => vOfF ((vConvert n rm w (vGet regs vs2 w k)).getD (0, 0))
  else if n < 0x10 then tVWiden c i .vx x false fun regs k => vOfF ((vConvert n rm w (vGet regs vs2 w k)).getD (0, 0))
  else do
    tNeed (decide (2 * w ≤ 64) && x.maskOk vd && vGroup vd x.mul && vGroup vs2 (2 * x.mul) && vOverlap vd x.mul w vs2 (2 * x.mul) (2 * w))
    let regs ← tRegs c
    tVDone c (x.fold regs vd w fun k => vOfF ((vConvert n rm w (vGet regs vs2 (2 * w) k)).getD (0, 0)))

/-- Square root, estimates and classification (funct6 0x13). -/
def vFpUnary (f : FloatFmt) (n rm a : Nat) : Option FRes :=
  match n with
  | 0x00 => some (fpSqrt f rm a)
  | 0x04 => some (fpRsqrt7 f a)
  | 0x05 => some (fpRecip7 f rm a)
  | 0x10 => some (fpClass f a, 0)
  | _ => none

/-- Widening operations by funct6: both operands are taken to the wider format first. -/
def vFpWiden (f g : FloatFmt) (f6 rm a b d : Nat) : VEl :=
  let wideA := if f6 = 0x34 ∨ f6 = 0x36 then (a, 0) else fpConvert f g rm a
  let wideB := fpConvert f g rm b
  vBoth (wideA.2 ||| wideB.2) (match f6 with
    | 0x30 => fpAdd g rm wideA.1 wideB.1
    | 0x34 => fpAdd g rm wideA.1 wideB.1
    | 0x32 => fpSub g rm wideA.1 wideB.1
    | 0x36 => fpSub g rm wideA.1 wideB.1
    | 0x38 => fpMul g rm wideA.1 wideB.1
    | _ => fpFused g (vFused f6) rm wideB.1 wideA.1 d)

/-- OPFVV and OPFVF. -/
def tVecFp (c i : Nat) (form : VForm) : TutM Unit := do
  let x ← tVCfg c i
  let f6 := bitsOf i 26 6
  let vd := iRd i
  let w := x.sew
  let vs2 := iRs2 i
  let rm := (← tCsr c csrFcsr) / 32
  tNeed (decide (rm < 5))
  if f6 = 0x12 then do
    tNeed (decide (form = .vv))
    tVConvert c i x rm
  else match vFmt w with
  | none => tThrow 2
  | some f => do
    let scalar ← rfAs c f (iRs1 i)
    let all ← tRegs c
    let b := fun k => if form = .vv then vGet all (iRs1 i) w k else scalar
    if f6 = 0x01 ∨ f6 = 0x03 then do
      tNeed (decide (form = .vv))
      tVFpReduce c i x w (decide (f6 = 0x01)) fun acc v => fpAdd f rm acc v
    else if f6 = 0x05 ∨ f6 = 0x07 then do
      tNeed (decide (form = .vv))
      tVFpReduce c i x w false fun acc v => fpMinMax f (decide (f6 = 0x07)) acc v
    else if f6 = 0x0E ∨ f6 = 0x0F then do
      tNeed (decide (form = .vx) && (decide (f6 = 0x0F) || !vMeet vd x.mul vs2 x.mul))
      tVSingle c i form x fun regs k =>
        vPlain (if f6 = 0x0E then (if k = 0 then scalar else vGet regs vs2 w (k - 1)) else if k + 1 = x.vl then scalar else vGet regs vs2 w (k + 1))
    else if f6 = 0x10 then do
      tNeed x.vm
      if form = .vv then do
        tNeed (decide (iRs1 i = 0))
        wf c vd (box f (vGet all vs2 w 0))
        tSetCsr c csrVstart 0
      else do
        tNeed (decide (vs2 = 0))
        tVDone c (({ x with vl := min x.vl 1, vlmax := 1 } : VCfg).fold all vd w fun _ => vPlain scalar)
    else if f6 = 0x13 then do
      tNeed (decide (form = .vv) && (vFpUnary f (iRs1 i) rm 0).isSome)
      tVSingle c i .vx x fun regs k => vOfF ((vFpUnary f (iRs1 i) rm (vGet regs vs2 w k)).getD (0, 0))
    else if f6 = 0x17 then do
      tNeed (decide (form = .vx) && (!x.vm || decide (vs2 = 0)) && (x.vm || decide (vd ≠ 0)))
      tVSingle c i form { x with vm := true } fun regs k => vPlain (if x.vm || bitAt (wordAt regs 0) k then scalar else vGet regs vs2 w k)
    else if 0x18 ≤ f6 ∧ f6 ≤ 0x1F then do
      tNeed (decide (f6 ≠ 0x1A) && decide (f6 ≠ 0x1E) && (decide (f6 < 0x1D) || decide (form = .vx)))
      tVToMask c i form x fun regs k => vOfF (vFpCompare f f6 (vGet regs vs2 w k) (b k))
    else if 0x28 ≤ f6 ∧ f6 ≤ 0x2F then
      tVSingle c i form x fun regs k =>
        let a := vGet regs vs2 w k
        let d := vGet regs vd w k
        vOfF (if f6 < 0x2C then fpFused f (vFused f6) rm (b k) d a else fpFused f (vFused f6) rm (b k) a d)
    else if 0x30 ≤ f6 then
      match vFmt (2 * w) with
      | none => tThrow 2
      | some g =>
        if f6 = 0x31 ∨ f6 = 0x33 then do
          tNeed (decide (form = .vv))
          tVFpReduce c i x (2 * w) (decide (f6 = 0x31)) fun acc v =>
            let y := fpConvert f g rm v
            let r := fpAdd g rm acc y.1
            (r.1, r.2 ||| y.2)
        else do
          tNeed ([0x30, 0x32, 0x34, 0x36, 0x38, 0x3C, 0x3D, 0x3E, 0x3F].contains f6)
          let wide := decide (f6 = 0x34) || decide (f6 = 0x36)
          tVWiden c i form x wide fun regs k => vFpWiden f g f6 rm (vGet regs vs2 (if wide then 2 * w else w) k) (b k) (vGet regs vd (2 * w) k)
    else do
      tNeed ((vFpOp f f6 rm 0 0).isSome && !(decide (form = .vv) && (decide (f6 = 0x21) || decide (f6 = 0x27))))
      tVSingle c i form x fun regs k => vOfF ((vFpOp f f6 rm (vGet regs vs2 w k) (b k)).getD (0, 0))

/-! ### Configuration -/

/-- Set `vtype` and `vl`: between VLMAX and twice VLMAX, a free value within the standard's bounds (log 16). -/
def tVSet (c i ty : Nat) (avl : Option Nat) : TutM Unit := do
  let vlmax := vlmaxOf ty
  let old ← tCsr c csrVl
  if vlmax = 0 then do
    tSetCsr c csrVtype vill
    tSetCsr c csrVl 0
    wx c (iRd i) 0
  else do
    let d ← tDraw (2 ^ 64)
    let vl := match avl with
      | none => min old vlmax
      | some a =>
        if a ≤ vlmax then a
        else if a < 2 * vlmax then (a + 1) / 2 + d % (vlmax - (a + 1) / 2 + 1)
        else vlmax
    tSetCsr c csrVtype ty
    tSetCsr c csrVl vl
    wx c (iRd i) vl
  tSetCsr c csrVstart 0

/-- vsetvli, vsetivli and vsetvl. -/
def tVConfig (c i : Nat) : TutM Unit := do
  let r1 ← rx c (iRs1 i)
  let avl := if iRs1 i ≠ 0 then some r1 else if iRd i ≠ 0 then some (2 ^ 64 - 1) else none
  if bitAt i 31 = false then tVSet c i (bitsOf i 20 11) avl
  else if bitAt i 30 then tVSet c i (bitsOf i 20 10) (some (iRs1 i))
  else do
    tNeed (decide (bitsOf i 25 6 = 0))
    tVSet c i (← rx c (iRs2 i)) avl

/-! ### Memory -/

/-- Load or store one element of a register group. -/
def tVElem (c : Nat) (store : Bool) (reg w k a : Nat) : TutM Unit := do
  if store then do
    let regs ← tRegs c
    tStore c a (w / 8) (vGet regs reg w k)
  else do
    let v ← tLoad c a (w / 8)
    tMod c fun t => { t with v := vSet t.v reg w k v }

/-- One element position of a vector access: each field of a segment in its own group. -/
def tVSegment (c : Nat) (store : Bool) (vd regsPer w k a nf : Nat) : TutM Unit :=
  (List.range nf).forM fun n => tVElem c store (vd + n * regsPer) w k (w64 (a + n * (w / 8)))

/-- Element positions one after another. A load that stops at its first fault shortens `vl` instead, past element 0. -/
def tVWalk (c : Nat) (x : VCfg) (store faultFirst : Bool) (vd regsPer w nf : Nat) (addr : Nat → Nat) : List Nat → TutM Unit
  | [] => pure ()
  | k :: ks => do
    let regs ← tRegs c
    if x.vm || bitAt (wordAt regs 0) k then do
      if faultFirst ∧ 0 < k then do
        let before ← get
        let r ← tryCatch (do tVSegment c store vd regsPer w k (addr k) nf; pure true) fun e =>
          match e with
          | some _ => do
            set before
            tSetCsr c csrVl k
            pure false
          | none => throw none
        if r then tVWalk c x store faultFirst vd regsPer w nf addr ks
      else do
        tVSegment c store vd regsPer w k (addr k) nf
        tVWalk c x store faultFirst vd regsPer w nf addr ks
    else tVWalk c x store faultFirst vd regsPer w nf addr ks

/-- Agnostic elements of the destination of a load. -/
def tVAgnostic (c : Nat) (x : VCfg) (vd regsPer w nf : Nat) : TutM Unit := do
  let regs ← tRegs c
  let hit := fun i => decide (x.start ≤ i) && bitAt x.pick i && (if x.vl ≤ i then x.ta else x.ma && !x.active regs i)
  let l := (List.range (regsPer * (512 / w))).filter hit
  tMod c fun t => { t with v := (List.range nf).foldl (fun v n => l.foldl (fun v k => vSet v (vd + n * regsPer) w k (2 ^ w - 1)) v) t.v }

/-- Whole-register accesses. -/
def tVWhole (c i : Nat) (store : Bool) (w : Nat) : TutM Unit := do
  let n := bitsOf i 29 3 + 1
  let vd := iRd i
  tNeed (bitAt i 25 && (decide (n = 1) || decide (n = 2) || decide (n = 4) || decide (n = 8)) && decide (vd % n = 0) && (!store || decide (w = 8)))
  let a ← rx c (iRs1 i)
  let start ← tCsr c csrVstart
  let count := n * 512 / w
  let x : VCfg := ⟨w, 8 * n, count, start, count, true, false, false, 0⟩
  tVWalk c x store false vd n w 1 (fun k => w64 (a + k * (w / 8))) ((List.range count).filter fun k => decide (start ≤ k))
  tSetCsr c csrVstart 0

/-- Vector loads and stores. -/
def tVecMem (c i : Nat) (store : Bool) : TutM Unit := do
  let w := match iF3 i with | 0 => 8 | 5 => 16 | 6 => 32 | _ => 64
  let vd := iRd i
  let mop := bitsOf i 26 2
  let nf := bitsOf i 29 3 + 1
  let r2 := iRs2 i
  tNeed (decide (bitAt i 28 = false))
  if mop = 0 ∧ r2 = 8 then tVWhole c i store w
  else do
    let x ← tVCfg c i
    let a ← rx c (iRs1 i)
    let stride ← rx c r2
    let regs ← tRegs c
    if mop = 0 ∧ r2 = 0x0B then do
      tNeed (x.vm && decide (w = 8) && decide (nf = 1))
      let n := ceilDiv x.vl 8
      tVWalk c x store false vd 1 8 1 (fun k => w64 (a + k)) ((List.range n).filter fun k => decide (x.start ≤ k))
    else do
      let indexed := decide (mop % 2 = 1)
      let ff := decide (mop = 0) && decide (r2 = 0x10)
      let dw := if indexed then x.sew else w
      let dm := if indexed then x.mul else w * x.mul / x.sew
      let im := w * x.mul / x.sew
      tNeed ((decide (mop ≠ 0) || decide (r2 = 0) || (ff && !store)) && vGroup vd dm && decide (nf * vCount dm ≤ 8) &&
        decide (vd + nf * vCount dm ≤ 32) && (store || x.maskOk vd) && (!indexed || (vGroup r2 im &&
          (store || (if nf = 1 then vOverlap vd dm dw r2 im w else !vMeet vd (nf * dm) r2 im)))))
      let addr := fun k => w64 (if indexed then a + vGet regs r2 w k else if mop = 2 then a + k * stride else a + k * nf * (dw / 8))
      tVWalk c x store ff vd (vCount dm) dw nf addr ((List.range x.vl).filter fun k => decide (x.start ≤ k))
      if !store then tVAgnostic c x vd (vCount dm) dw nf
    tSetCsr c csrVstart 0

/-- OP-V by funct3. -/
def tOpV (c i : Nat) : TutM Unit :=
  match iF3 i with
  | 0 => tVecInt c i .vv
  | 1 => tVecFp c i .vv
  | 2 => tVecMul c i .vv
  | 3 => tVecInt c i .vi
  | 4 => tVecInt c i .vx
  | 5 => tVecFp c i .vx
  | 6 => tVecMul c i .vx
  | _ => tVConfig c i

end Sys2Proof.Machine
end

