-- ==== Sys2Proof/Machine/Tutors.lean ====
section
/-! DEFINITION. Tutor routines (R157, R165 to R170): the start of a routine, the dispatch of its instructions, the Dyalmora
instructions and what ends a routine. -/

namespace Sys2Proof.Machine

/-! ### Dyalmora instructions (R168 to R170) -/

/-- The major opcode of the Dyalmora instructions, custom-0 (R168). -/
def dyalmoraOp : Nat := 0x0B

/-- A counter by rs1[3:0] (R168). -/
def tCounter (c i : Nat) : TutM Nat := do pure ((← rx c (iRs1 i)) % 16)

/-- `tpost` (R169, R170): a full post queue holds the instruction; a bad address raises an access fault. -/
def tPost (c i : Nat) : TutM Unit := do
  let a ← rx c (iRs1 i)
  let own := match coreSpace c a with | .desk d _ => decide (d = c) | _ => false
  if !own || decide (a % 32 ≠ 0) then tThrow 5
  else if 8 ≤ ((← get).core c).postQ.length then throw none
  else do
    let bs ← tAccess 5 fun s => s.readAt (.tutor c) (s.lessonHr c) (some c) (s.roleAllows c .tutor) a 32
    modify fun s => s.modCore c fun k => { k with postQ := k.postQ ++ [stepOf bs true 0 0 false] }

/-- `twait` (R152, R168): true once the counter satisfies its target. -/
def tWait (c i : Nat) : TutM Bool := do
  let n ← tCounter c i
  let target := (← rx c (iRs2 i)) % 2 ^ 16
  let v := (← get).evt c n
  if satisfies 16 v target then do
    wx c (iRd i) v
    pure true
  else pure false

/-- `tevt` (R168). -/
def tEvt (c i : Nat) : TutM Unit := do
  let n ← tCounter c i
  wx c (iRd i) ((← get).evt c n)

/-- `tsig` (R168). -/
def tSig (c i : Nat) : TutM Unit := do
  let n ← tCounter c i
  let v := (← rx c (iRs2 i)) % 2 ^ 16
  modify fun s => s.evtAdd c n v

/-- The Dyalmora instructions by funct3; a funct7 other than 0 and every other funct3 are illegal (R168). -/
def tDyalmora (c i next : Nat) : TutM TutorNext := do
  tNeed (decide (iF7 i = 0))
  match iF3 i with
  | 0 => do
    tPost c i
    pure (.go next)
  | 1 => do pure (if (← tWait c i) then .go next else .wait)
  | 2 => do
    tEvt c i
    pure (.go next)
  | 3 => do
    tSig c i
    pure (.go next)
  | 4 => do pure (.done (← rx c (iRs1 i)))
  | _ => tThrow 2

/-! ### Dispatch (R165) -/

/-- Jumps: the link is written and the target is even. -/
def tJump (c i next target : Nat) : TutM TutorNext := do
  wx c (iRd i) next
  pure (.go target)

/-- Branches. -/
def tBranch (c i pc next : Nat) : TutM TutorNext := do
  match branchTaken (iF3 i) (← rx c (iRs1 i)) (← rx c (iRs2 i)) with
  | some taken => pure (.go (if taken then w64 (pc + immB i) else next))
  | none => tThrow 2

/-- FENCE, and FENCE.I, which invalidates the instruction cache. Memory is in order in the model (log 10). -/
def tFence (c i : Nat) : TutM Unit :=
  match iF3 i with
  | 0 => pure ()
  | 1 => tMod c fun t => { t with icache := [] }
  | _ => tThrow 2

/-- Floating-point and vector loads and stores share their opcodes. -/
def tMemFp (c i : Nat) (store : Bool) : TutM Unit :=
  match memFmt (iF3 i) with
  | some f => if store then tStoreFp c i f else tLoadFp c i f
  | none => if iF3 i = 4 then tThrow 2 else tVecMem c i store

/-- Instructions after which the routine goes on at the next one. -/
def tPlain (c i pc : Nat) : TutM Unit :=
  match i % 128 with
  | 0x37 => wx c (iRd i) (immU i)
  | 0x17 => wx c (iRd i) (pc + immU i)
  | 0x03 => tLoadInt c i
  | 0x23 => tStoreInt c i
  | 0x13 => tOpImm c i 64
  | 0x1B => tOpImm c i 32
  | 0x33 => tOp c i 64
  | 0x3B => tOp c i 32
  | 0x0F => tFence c i
  | 0x2F => tAtomic c i
  | 0x53 => tOpFp c i
  | 0x43 => tFused c i 0
  | 0x47 => tFused c i 1
  | 0x4B => tFused c i 2
  | 0x4F => tFused c i 3
  | 0x07 => tMemFp c i false
  | 0x27 => tMemFp c i true
  | 0x57 => tOpV c i
  | _ => tThrow 2

/-- Perform one instruction of the profile; an undefined one is illegal (R165, R166). -/
def tPerform (c i pc next : Nat) : TutM TutorNext :=
  match i % 128 with
  | 0x6F => tJump c i next (w64 (pc + immJ i))
  | 0x67 => do
    let a ← rx c (iRs1 i)
    tNeed (decide (iF3 i = 0))
    tJump c i next (w64 (a + immI i) / 2 * 2)
  | 0x63 => tBranch c i pc next
  | 0x73 => tSystem c i next
  | 0x0B => tDyalmora c i next
  | _ => do
    tPlain c i pc
    pure (.go next)

/-! ### Routines (R157, R166) -/

/-- The tutor after an instruction retires. -/
def State.tutorRetires (s : State) (c : Nat) : State :=
  s.modCore c fun k => { k with tutor := { k.tutor with waiting := false, instret := w64 (k.tutor.instret + 1) } }

/-- Go on at an address. -/
def State.tutorGo (s : State) (c pc : Nat) : State :=
  (s.tutorRetires c).modCore c fun k => { k with tutor := { k.tutor with pc := pc } }

/-- The routine ends: HANDOFF completes, or the lesson ends with TUTOR_ABORT (R157, R168). -/
def State.tutorEnds (s : State) (c : Nat) (t : StepRec) (code : Nat) : State :=
  ((s.tutorRetires c).modCore c fun k => { k with tutor := { k.tutor with running := false } }).stepDone c .tutor t
    (if code = 0 then .ok else .tutorAbort) code

/-- Word 1 of a TUTOR_FAULT's record (R162): the faulting instruction's address and its cause. -/
def faultWord (pc cause : Nat) : Nat := pc % 2 ^ 48 + cause % 256 * 2 ^ 48

/-- The routine raises an exception (R166). -/
def State.tutorFaults (s : State) (c : Nat) (t : StepRec) (pc cause : Nat) : State :=
  s.stepDone c .tutor t .tutorFault (faultWord pc cause)

/-- Perform a fetched instruction: the routine goes on, waits in `twait`, ends, or raises an exception. An access that is held, or a full
post queue, leaves the instruction to be performed again (R170, R210, R254, R255); once it is performed the tutor keeps no grant or turn. -/
def State.tutorRun (s : State) (c : Nat) (t : StepRec) (pc i len : Nat) : State :=
  match (tPerform c i pc (w64 (pc + len))).run s with
  | (.ok (.go next), u) => (u.settle (.tutor c)).tutorGo c next
  | (.ok .wait, u) => u.modCore c fun k => { k with tutor := { k.tutor with waiting := true } }
  | (.ok (.done code), u) => (u.settle (.tutor c)).tutorEnds c t code
  | (.error none, u) => s.keepHeld u
  | (.error (some cause), u) => (u.settle (.tutor c)).tutorFaults c t pc cause

/-- One instruction of the routine that a HANDOFF started, if it is one that `want` names; none stands for a fetch that raises an
exception (R165, R166). -/
def State.tutorStep (s : State) (c : Nat) (want : Option Nat → Bool) : State :=
  match (s.core c).handoff with
  | none => s
  | some t =>
    let pc := (s.core c).tutor.pc
    if s.coreState c ≠ 0 then s
    else match (tFetch c pc).run s with
      | (.ok (i, len), u) => if want (some i) then u.tutorRun c t pc i len else s
      | (.error none, u) => s.keepHeld u
      | (.error (some cause), u) => if want none then u.tutorFaults c t pc cause else s

/-- The instruction at pc is the Dyalmora instruction of a funct3 (R168). -/
def isDyalmora (f3 : Nat) : Option Nat → Bool
  | some i => decide (i % 128 = dyalmoraOp) && decide (iF3 i = f3) && decide (iF7 i = 0)
  | none => false

/-- HANDOFF (R157): a0, a1 and pc are loaded and the routine runs; every other register is kept. -/
def execHandoff (c : Nat) (s : State) : Host.Outcome State Fault Refusal :=
  match s.toPerform c .tutor 0x30 with
  | some t =>
    .next (if (s.core c).tutor.running then s
      else s.modCore c fun k =>
        { k with tutor := { k.tutor with pc := bitsOf t.w1 0 48, running := true, waiting := false,
                                         x := (k.tutor.x.set 10 (w64 t.w2)).set 11 (w64 t.w3) } })
  | none => .next s

/-- TUTOR_INSTRUCTION (R165, R166): whatever instruction stands at pc. -/
def execTutorInstruction (c : Nat) (s : State) : Host.Outcome State Fault Refusal := .next (s.tutorStep c fun _ => true)

/-- TPOST (R169, R170). -/
def execTpost (c : Nat) (s : State) : Host.Outcome State Fault Refusal := .next (s.tutorStep c (isDyalmora 0))

/-- TWAIT (R168, R170). -/
def execTwait (c : Nat) (s : State) : Host.Outcome State Fault Refusal := .next (s.tutorStep c (isDyalmora 1))

/-- TEVT (R168). -/
def execTevt (c : Nat) (s : State) : Host.Outcome State Fault Refusal := .next (s.tutorStep c (isDyalmora 2))

/-- TSIG (R168). -/
def execTsig (c : Nat) (s : State) : Host.Outcome State Fault Refusal := .next (s.tutorStep c (isDyalmora 3))

/-- TDONE (R168). -/
def execTdone (c : Nat) (s : State) : Host.Outcome State Fault Refusal := .next (s.tutorStep c (isDyalmora 4))

end Sys2Proof.Machine
end

