-- ==== Sys2Proof/Machine/Dispatch.lean ====
section
/-! DEFINITION. One arm per command: its meaning, or its refusal by name. -/

namespace Sys2Proof.Machine

open Sys2Proof

/-- The effect of a command on the part (the queue of waiting commands is the step's). -/
def exec (i : Instr) (s : State) : Host.Outcome State Fault Refusal :=
  match i with
  | .registerWrite m off size acc env => Sys2Proof.Machine.execRegisterWrite m off size acc env s
  | .unclaimedRequest f bar off write => Sys2Proof.Machine.execUnclaimedRequest f bar off write s
  | .lessonLaunch c l => Sys2Proof.Machine.execLessonLaunch c l s
  | .preloadComplete c => Sys2Proof.Machine.execPreloadComplete c s
  | .stepIssue c => Sys2Proof.Machine.execStepIssue c s
  | .stepStart c e => Sys2Proof.Machine.execStepStart c e s
  | .stepComplete c e order => Sys2Proof.Machine.execStepComplete c e order s
  | .lessonComplete c => Sys2Proof.Machine.execLessonComplete c s
  | .nopStep c post => Sys2Proof.Machine.execNopStep c post s
  | .endStep c => Sys2Proof.Machine.execEndStep c s
  | .syncWaitLocal c post => Sys2Proof.Machine.execSyncWaitLocal c post s
  | .syncSignalLocal c post => Sys2Proof.Machine.execSyncSignalLocal c post s
  | .syncSignalRemote c post => Sys2Proof.Machine.execSyncSignalRemote c post s
  | .syncWaitRemote c post => Sys2Proof.Machine.execSyncWaitRemote c post s
  | .syncPoll c post => Sys2Proof.Machine.execSyncPoll c post s
  | .syncTimeout c post => Sys2Proof.Machine.execSyncTimeout c post s
  | .waitLimitExpiry c who => Sys2Proof.Machine.execWaitLimitExpiry c who s
  | .fenceStep c post => Sys2Proof.Machine.execFenceStep c post s
  | .loadSlate c arrayB => Sys2Proof.Machine.execLoadSlate c arrayB s
  | .slateLoadComplete c arrayB => Sys2Proof.Machine.execSlateLoadComplete c arrayB s
  | .stream c e ready => Sys2Proof.Machine.execStream c e ready s
  | .gather c arrayB ready late held => Sys2Proof.Machine.execGather c arrayB ready late held s
  | .freezeRelease c arrayB => Sys2Proof.Machine.execFreezeRelease c arrayB s
  | .gatherRowData c arrayB row => Sys2Proof.Machine.execGatherRowData c arrayB row s
  | .arrayHung c arrayB => Sys2Proof.Machine.execArrayHung c arrayB s
  | .skim c => Sys2Proof.Machine.execSkim c s
  | .convert c => Sys2Proof.Machine.execConvert c s
  | .loadStep c => Sys2Proof.Machine.execLoadStep c s
  | .storeStep c => Sys2Proof.Machine.execStoreStep c s
  | .moveStep c => Sys2Proof.Machine.execMoveStep c s
  | .reduce c => Sys2Proof.Machine.execReduce c s
  | .handoff c => Sys2Proof.Machine.execHandoff c s
  | .tutorInstruction c => Sys2Proof.Machine.execTutorInstruction c s
  | .tpost c => Sys2Proof.Machine.execTpost c s
  | .twait c => Sys2Proof.Machine.execTwait c s
  | .tevt c => Sys2Proof.Machine.execTevt c s
  | .tsig c => Sys2Proof.Machine.execTsig c s
  | .tdone c => Sys2Proof.Machine.execTdone c s
  | .rateWindow c => Sys2Proof.Machine.execRateWindow c s
  | .coreFence c cause => Sys2Proof.Machine.execCoreFence c cause s
  | .coreFenceRequest c w => Sys2Proof.Machine.execCoreFenceRequest c w s
  | .unfence c w => Sys2Proof.Machine.execUnfence c w s
  | .fenceComplete c => Sys2Proof.Machine.execFenceComplete c s
  | .lateReply c => Sys2Proof.Machine.execLateReply c s
  | .warmRecoveryComplete c found => Sys2Proof.Machine.execWarmRecoveryComplete c found s
  | .seedWrite c gen w => Sys2Proof.Machine.execSeedWrite c gen w s
  | .seedLoad c gen => Sys2Proof.Machine.execSeedLoad c gen s
  | .arrStatClear c arrayB w => Sys2Proof.Machine.execArrStatClear c arrayB w s
  | .sliceRequest c grain src acc => Sys2Proof.Machine.execSliceRequest c grain src acc s
  | .sliceRefresh c bank busy => Sys2Proof.Machine.execSliceRefresh c bank busy s
  | .channelPowerDown c channel => Sys2Proof.Machine.execChannelPowerDown c channel s
  | .sliceFillComplete c => Sys2Proof.Machine.execSliceFillComplete c s
  | .sliceClear c => Sys2Proof.Machine.execSliceClear c s
  | .layerOffsetWrite c w => Sys2Proof.Machine.execLayerOffsetWrite c w s
  | .scRead rq hr pa len tagged => Sys2Proof.Machine.execScRead rq hr pa len tagged s
  | .scWrite rq hr pa bytes => Sys2Proof.Machine.execScWrite rq hr pa bytes s
  | .scAtomic rq hr pa op width v expected => Sys2Proof.Machine.execScAtomic rq hr pa op width v expected s
  | .scFillComplete grain transient => Sys2Proof.Machine.execScFillComplete grain transient s
  | .granuleReread grain transient => Sys2Proof.Machine.execGranuleReread grain transient s
  | .farGrant f id => Sys2Proof.Machine.execFarGrant f id s
  | .farWindowClose f => Sys2Proof.Machine.execFarWindowClose f s
  | .farRefresh f bank postpone => Sys2Proof.Machine.execFarRefresh f bank postpone s
  | .farTempReadout f temp => Sys2Proof.Machine.execFarTempReadout f temp s
  | .farStackLoss f => Sys2Proof.Machine.execFarStackLoss f s
  | .sepScopeWrite k w => Sys2Proof.Machine.execSepScopeWrite k w s
  | .sepNarrowWrite k w => Sys2Proof.Machine.execSepNarrowWrite k w s
  | .sepChangeComplete set => Sys2Proof.Machine.execSepChangeComplete set s
  | .farModeWrite f w => Sys2Proof.Machine.execFarModeWrite f w s
  | .scPurge slice w => Sys2Proof.Machine.execScPurge slice w s
  | .scPurgeComplete slice => Sys2Proof.Machine.execScPurgeComplete slice s
  | .scStatClear slice w => Sys2Proof.Machine.execScStatClear slice w s
  | .ladleCopy port words issuer => Sys2Proof.Machine.execLadleCopy port words issuer s
  | .ladleFill port words issuer => Sys2Proof.Machine.execLadleFill port words issuer s
  | .ladleNot port words issuer => Sys2Proof.Machine.execLadleNot port words issuer s
  | .ladleAnd port words issuer => Sys2Proof.Machine.execLadleAnd port words issuer s
  | .ladleOr port words issuer => Sys2Proof.Machine.execLadleOr port words issuer s
  | .ladleXor port words issuer => Sys2Proof.Machine.execLadleXor port words issuer s
  | .ladleClearSet port words issuer => Sys2Proof.Machine.execLadleClearSet port words issuer s
  | .ladleSequenceStart port => Sys2Proof.Machine.execLadleSequenceStart port s
  | .ladleFlushComplete port pc => Sys2Proof.Machine.execLadleFlushComplete port pc s
  | .rowStep port pc => Sys2Proof.Machine.execRowStep port pc s
  | .ldlDrainWrite port w => Sys2Proof.Machine.execLdlDrainWrite port w s
  | .ldlStatClear port w => Sys2Proof.Machine.execLdlStatClear port w s
  | .treeOpen d cmd => Sys2Proof.Machine.execTreeOpen d cmd s
  | .treeClose d cmd => Sys2Proof.Machine.execTreeClose d cmd s
  | .evict d cmd => Sys2Proof.Machine.execEvict d cmd s
  | .seqOpen d cmd => Sys2Proof.Machine.execSeqOpen d cmd s
  | .seqClose d cmd => Sys2Proof.Machine.execSeqClose d cmd s
  | .matchBlocks d cmd => Sys2Proof.Machine.execMatchBlocks d cmd s
  | .append d cmd => Sys2Proof.Machine.execAppend d cmd s
  | .resolve d cmd => Sys2Proof.Machine.execResolve d cmd s
  | .publish d cmd => Sys2Proof.Machine.execPublish d cmd s
  | .fork d cmd => Sys2Proof.Machine.execFork d cmd s
  | .truncate d cmd => Sys2Proof.Machine.execTruncate d cmd s
  | .markLost d cmd => Sys2Proof.Machine.execMarkLost d cmd s
  | .shadowSync d cmd => Sys2Proof.Machine.execShadowSync d cmd s
  | .adopt d cmd => Sys2Proof.Machine.execAdopt d cmd s
  | .churnOpen d cmd => Sys2Proof.Machine.execChurnOpen d cmd s
  | .churnRun d cmd => Sys2Proof.Machine.execChurnRun d cmd s
  | .churnClose d cmd => Sys2Proof.Machine.execChurnClose d cmd s
  | .yokePush d tree yoke => Sys2Proof.Machine.execYokePush d tree yoke s
  | .pailListFetch d c arrayB seq tree first count => Sys2Proof.Machine.execPailListFetch d c arrayB seq tree first count s
  | .hello d msg => Sys2Proof.Machine.execHello d msg s
  | .helloResend d ring => Sys2Proof.Machine.execHelloResend d ring s
  | .churnCredit d msg => Sys2Proof.Machine.execChurnCredit d msg s
  | .churnData d msg => Sys2Proof.Machine.execChurnData d msg s
  | .rider d msg => Sys2Proof.Machine.execRider d msg s
  | .dataAck d msg => Sys2Proof.Machine.execDataAck d msg s
  | .closeMessage d msg => Sys2Proof.Machine.execCloseMessage d msg s
  | .releasePoll d ring => Sys2Proof.Machine.execReleasePoll d ring s
  | .shadowData d msg => Sys2Proof.Machine.execShadowData d msg s
  | .shadowAck d msg => Sys2Proof.Machine.execShadowAck d msg s
  | .shadowNode d msg => Sys2Proof.Machine.execShadowNode d msg s
  | .pailDrainWrite d w => Sys2Proof.Machine.execPailDrainWrite d w s
  | .pailStatClear d w => Sys2Proof.Machine.execPailStatClear d w s
  | .routerPacket d node out inject => Sys2Proof.Machine.execRouterPacket d node out inject s
  | .ringStopPacket d stop lane clockwise busy inject => Sys2Proof.Machine.execRingStopPacket d stop lane clockwise busy inject s
  | .heartbeat d node missed => Sys2Proof.Machine.execHeartbeat d node missed s
  | .arbGrant d sel arrivals => Sys2Proof.Machine.execArbGrant d sel arrivals s
  | .arbFreeze d sel w => Sys2Proof.Machine.execArbFreeze d sel w s
  | .arbDrainComplete d sel => Sys2Proof.Machine.execArbDrainComplete d sel s
  | .arbStatClear d sel w => Sys2Proof.Machine.execArbStatClear d sel w s
  | .meshStatClear d w => Sys2Proof.Machine.execMeshStatClear d w s
  | .signalRaise d sel => Sys2Proof.Machine.execSignalRaise d sel s
  | .signalRoundTrip d sel => Sys2Proof.Machine.execSignalRoundTrip d sel s
  | .samplePresent d sel value attempts => Sys2Proof.Machine.execSamplePresent d sel value attempts s
  | .sampleFallback d sel => Sys2Proof.Machine.execSampleFallback d sel s
  | .queueWrite d sel value => Sys2Proof.Machine.execQueueWrite d sel value s
  | .crossingStall d sel => Sys2Proof.Machine.execCrossingStall d sel s
  | .xingForce d w => Sys2Proof.Machine.execXingForce d w s
  | .d2dPacketSend d dst cls lane srcStop hdr data side => Sys2Proof.Machine.execD2dPacketSend d dst cls lane srcStop hdr data side s
  | .d2dFlitReceive d e m bytes => Sys2Proof.Machine.execD2dFlitReceive d e m bytes s
  | .laneErrorWindow d e m => Sys2Proof.Machine.execLaneErrorWindow d e m s
  | .d2dRepairComplete d e m trained => Sys2Proof.Machine.execD2dRepairComplete d e m trained s
  | .d2dNak d e m seq => Sys2Proof.Machine.execD2dNak d e m seq s
  | .d2dCredit d e m req rep => Sys2Proof.Machine.execD2dCredit d e m req rep s
  | .d2dGoodbye d e cause => Sys2Proof.Machine.execD2dGoodbye d e cause s
  | .d2dRoute d e m key newModule => Sys2Proof.Machine.execD2dRoute d e m key newModule s
  | .d2dReplayTimeout d e m => Sys2Proof.Machine.execD2dReplayTimeout d e m s
  | .d2dWatchdog d e m whole => Sys2Proof.Machine.execD2dWatchdog d e m whole s
  | .dieLostDeclaration die => Sys2Proof.Machine.execDieLostDeclaration die s
  | .deputyTakeover stack => Sys2Proof.Machine.execDeputyTakeover stack s
  | .d2dStatClear d w => Sys2Proof.Machine.execD2dStatClear d w s
  | .packetOriginate d pkt => Sys2Proof.Machine.execPacketOriginate d pkt s
  | .linkFlitReceive d p flit => Sys2Proof.Machine.execLinkFlitReceive d p flit s
  | .fecErrorWindow d p => Sys2Proof.Machine.execFecErrorWindow d p s
  | .packetArrival d p pkt => Sys2Proof.Machine.execPacketArrival d p pkt s
  | .put d pkt => Sys2Proof.Machine.execPut d pkt s
  | .get d pkt => Sys2Proof.Machine.execGet d pkt s
  | .add64 d pkt => Sys2Proof.Machine.execAdd64 d pkt s
  | .fabricPail d pkt => Sys2Proof.Machine.execFabricPail d pkt s
  | .fabricAck d pkt => Sys2Proof.Machine.execFabricAck d pkt s
  | .fabricData d pkt => Sys2Proof.Machine.execFabricData d pkt s
  | .unreach d pkt => Sys2Proof.Machine.execUnreach d pkt s
  | .linkNak d p seq => Sys2Proof.Machine.execLinkNak d p seq s
  | .linkCredit d p credits => Sys2Proof.Machine.execLinkCredit d p credits s
  | .creditR d p credits => Sys2Proof.Machine.execCreditR d p credits s
  | .linkGoodbye d p cause => Sys2Proof.Machine.execLinkGoodbye d p cause s
  | .linkReplayTimeout d p => Sys2Proof.Machine.execLinkReplayTimeout d p s
  | .e2eTimeout d tag => Sys2Proof.Machine.execE2eTimeout d tag s
  | .portWatchdog d p => Sys2Proof.Machine.execPortWatchdog d p s
  | .portEnable d p w => Sys2Proof.Machine.execPortEnable d p w s
  | .portDisable d p w => Sys2Proof.Machine.execPortDisable d p w s
  | .retrain d p w => Sys2Proof.Machine.execRetrain d p w s
  | .portTrainingComplete d p t => Sys2Proof.Machine.execPortTrainingComplete d p t s
  | .routeDataWrite d dst w => Sys2Proof.Machine.execRouteDataWrite d dst w s
  | .linkStatClear d w => Sys2Proof.Machine.execLinkStatClear d w s
  | .linkPortStatClear d p w => Sys2Proof.Machine.execLinkPortStatClear d p w s
  | .doorbell f off size value => Sys2Proof.Machine.execDoorbell f off size value s
  | .descriptorArrival ring => Sys2Proof.Machine.execDescriptorArrival ring s
  | .admissionVisit => Sys2Proof.Machine.execAdmissionVisit s
  | .nopDescriptor ring seq => Sys2Proof.Machine.execNopDescriptor ring seq s
  | .launchDescriptor ring seq => Sys2Proof.Machine.execLaunchDescriptor ring seq s
  | .moveDescriptor ring seq => Sys2Proof.Machine.execMoveDescriptor ring seq s
  | .ladleDescriptor ring seq => Sys2Proof.Machine.execLadleDescriptor ring seq s
  | .pailDescriptor ring seq => Sys2Proof.Machine.execPailDescriptor ring seq s
  | .fabricDescriptor ring seq => Sys2Proof.Machine.execFabricDescriptor ring seq s
  | .scrub ring seq => Sys2Proof.Machine.execScrub ring seq s
  | .fenceDescriptor ring seq => Sys2Proof.Machine.execFenceDescriptor ring seq s
  | .waitDescriptor ring seq => Sys2Proof.Machine.execWaitDescriptor ring seq s
  | .waitTimeout ring seq => Sys2Proof.Machine.execWaitTimeout ring seq s
  | .unitCompletion ring seq elapsed => Sys2Proof.Machine.execUnitCompletion ring seq elapsed s
  | .forecastMessage msg => Sys2Proof.Machine.execForecastMessage msg s
  | .forecastStale => Sys2Proof.Machine.execForecastStale s
  | .ringEnable ring w => Sys2Proof.Machine.execRingEnable ring w s
  | .ringDisable ring w => Sys2Proof.Machine.execRingDisable ring w s
  | .ringDrainComplete ring => Sys2Proof.Machine.execRingDrainComplete ring s
  | .functionLevelReset f => Sys2Proof.Machine.execFunctionLevelReset f s
  | .lockstepHalt => Sys2Proof.Machine.execLockstepHalt s
  | .bar4Access f off acc => Sys2Proof.Machine.execBar4Access f off acc s
  | .ringAdmitStatClear w => Sys2Proof.Machine.execRingAdmitStatClear w s
  | .i3cAddressAssign addr => Sys2Proof.Machine.execI3cAddressAssign addr s
  | .i3cAddressReset => Sys2Proof.Machine.execI3cAddressReset s
  | .setEndpointId op eid => Sys2Proof.Machine.execSetEndpointId op eid s
  | .getEndpointId => Sys2Proof.Machine.execGetEndpointId s
  | .getEndpointUuid => Sys2Proof.Machine.execGetEndpointUuid s
  | .getMctpVersionSupport ty => Sys2Proof.Machine.execGetMctpVersionSupport ty s
  | .getMessageTypeSupport => Sys2Proof.Machine.execGetMessageTypeSupport s
  | .getSensorReading sensor => Sys2Proof.Machine.execGetSensorReading sensor s
  | .platformEventMessage ack => Sys2Proof.Machine.execPlatformEventMessage ack s
  | .requestUpdate maxTransfer => Sys2Proof.Machine.execRequestUpdate maxTransfer s
  | .requestFirmwareData off bytes => Sys2Proof.Machine.execRequestFirmwareData off bytes s
  | .activateFirmware => Sys2Proof.Machine.execActivateFirmware s
  | .getVersion rsp => Sys2Proof.Machine.execGetVersion rsp s
  | .getCapabilities rsp version => Sys2Proof.Machine.execGetCapabilities rsp version s
  | .negotiateAlgorithms rsp => Sys2Proof.Machine.execNegotiateAlgorithms rsp s
  | .getDigests rsp => Sys2Proof.Machine.execGetDigests rsp s
  | .getCertificate rsp off len => Sys2Proof.Machine.execGetCertificate rsp off len s
  | .challenge rsp nonce => Sys2Proof.Machine.execChallenge rsp nonce s
  | .getMeasurements rsp index sign nonce => Sys2Proof.Machine.execGetMeasurements rsp index sign nonce s
  | .keyExchange rsp exchange => Sys2Proof.Machine.execKeyExchange rsp exchange s
  | .finish rsp session authorised => Sys2Proof.Machine.execFinish rsp session authorised s
  | .heartbeatMessage rsp session => Sys2Proof.Machine.execHeartbeatMessage rsp session s
  | .keyUpdate rsp session => Sys2Proof.Machine.execKeyUpdate rsp session s
  | .endSession rsp session => Sys2Proof.Machine.execEndSession rsp session s
  | .getStatus h => Sys2Proof.Machine.execGetStatus h s
  | .readReg h off => Sys2Proof.Machine.execReadReg h off s
  | .writeReg h off value session env => Sys2Proof.Machine.execWriteReg h off value session env s
  | .getEvents h n => Sys2Proof.Machine.execGetEvents h n s
  | .setCoolant h inlet flow valid => Sys2Proof.Machine.execSetCoolant h inlet flow valid s
  | .getShutdown h index => Sys2Proof.Machine.execGetShutdown h index s
  | .setRingConf h ring conf session => Sys2Proof.Machine.execSetRingConf h ring conf session s
  | .imageBufferTimeout => Sys2Proof.Machine.execImageBufferTimeout s
  | .coolantAgeExpiry inlet flow => Sys2Proof.Machine.execCoolantAgeExpiry inlet flow s
  | .vsetWrite domain w => Sys2Proof.Machine.execVsetWrite domain w s
  | .regulatorFault domain => Sys2Proof.Machine.execRegulatorFault domain s
  | .regulatorOvervoltage domain => Sys2Proof.Machine.execRegulatorOvervoltage domain s
  | .powerSample pkg perStack domains => Sys2Proof.Machine.execPowerSample pkg perStack domains s
  | .pwrLimitWrite w => Sys2Proof.Machine.execPwrLimitWrite w s
  | .sensorSample readings => Sys2Proof.Machine.execSensorSample readings s
  | .forecastUpdate => Sys2Proof.Machine.execForecastUpdate s
  | .hrOpen hr w => Sys2Proof.Machine.execHrOpen hr w s
  | .teardownWrite hr w => Sys2Proof.Machine.execTeardownWrite hr w s
  | .teardownComplete hr => Sys2Proof.Machine.execTeardownComplete hr s
  | .hrCoresWrite hr k w => Sys2Proof.Machine.execHrCoresWrite hr k w s
  | .hrMapWrite hr k w => Sys2Proof.Machine.execHrMapWrite hr k w s
  | .hrFuncsWrite hr w => Sys2Proof.Machine.execHrFuncsWrite hr w s
  | .hrWindowWrite hr win map w => Sys2Proof.Machine.execHrWindowWrite hr win map w s
  | .coreMoveClear c => Sys2Proof.Machine.execCoreMoveClear c s
  | .hrQuery hr => Sys2Proof.Machine.execHrQuery hr s
  | .keySet hr kind v key => Sys2Proof.Machine.execKeySet hr kind v key s
  | .sealHomeroom hr digest => Sys2Proof.Machine.execSealHomeroom hr digest s
  | .ringConf hr ring conf => Sys2Proof.Machine.execRingConf hr ring conf s
  | .ringQuery hr ring => Sys2Proof.Machine.execRingQuery hr ring s
  | .saltSet hr salt => Sys2Proof.Machine.execSaltSet hr salt s
  | .saltExport hr => Sys2Proof.Machine.execSaltExport hr s
  | .fabricSet hr protect entries => Sys2Proof.Machine.execFabricSet hr protect entries s
  | .tenantTeardown hr => Sys2Proof.Machine.execTenantTeardown hr s
  | .mailboxGo w resp => Sys2Proof.Machine.execMailboxGo w resp s
  | .rngHealthFail => Sys2Proof.Machine.execRngHealthFail s
  | .debugUnlock w authorised => Sys2Proof.Machine.execDebugUnlock w authorised s
  | .mirrorWrite k w => Sys2Proof.Machine.execMirrorWrite k w s
  | .mirrorClearComplete => Sys2Proof.Machine.execMirrorClearComplete s
  | .flipArm w => Sys2Proof.Machine.execFlipArm w s
  | .imageWindowWrite off bytes => Sys2Proof.Machine.execImageWindowWrite off bytes s
  | .bootImage w => Sys2Proof.Machine.execBootImage w s
  | .bootTrain w findings => Sys2Proof.Machine.execBootTrain w findings s
  | .rollCall w findings => Sys2Proof.Machine.execRollCall w findings s
  | .bootReady w => Sys2Proof.Machine.execBootReady w s
  | .bootStepComplete => Sys2Proof.Machine.execBootStepComplete s
  | .exportRecord w => Sys2Proof.Machine.execExportRecord w s
  | .coldRestart w => Sys2Proof.Machine.execColdRestart w s
  | .domainDown w => Sys2Proof.Machine.execDomainDown w s
  | .domainUp w => Sys2Proof.Machine.execDomainUp w s
  | .domainActionComplete d findings => Sys2Proof.Machine.execDomainActionComplete d findings s
  | .vauxPowerOn straps => Sys2Proof.Machine.execVauxPowerOn straps s
  | .vauxLoss => Sys2Proof.Machine.execVauxLoss s
  | .mainRailFault rail die mv => Sys2Proof.Machine.execMainRailFault rail die mv s
  | .vinCoreCycle => Sys2Proof.Machine.execVinCoreCycle s
  | .perstDeassert sris => Sys2Proof.Machine.execPerstDeassert sris s
  | .perstAssert => Sys2Proof.Machine.execPerstAssert s
  | .refclkLoss clk => Sys2Proof.Machine.execRefclkLoss clk s
  | .dramLayerLoss stack layer => Sys2Proof.Machine.execDramLayerLoss stack layer s
  | .completionTimeout ring seq fetch => Sys2Proof.Machine.execCompletionTimeout ring seq fetch s
  | .refreshManagementRequest f bank => Sys2Proof.Machine.execRefreshManagementRequest f bank s
  | .imageTransferCancel host => Sys2Proof.Machine.execImageTransferCancel host s

end Sys2Proof.Machine
end

