-- ==== Sys2Proof/WellFormed.lean ====
section
/-! DEFINITION. Commands that can occur (log 9): the units they name exist on the assembly variant and their operands have the widths
that the spec gives. The meanings do not ask it; a command that is not well formed stands for nothing on the part. -/

namespace Sys2Proof

open Sys2Proof.Machine

/-- A virtual function is numbered from 1 to 16 (R451). -/
def Machine.Master.wf : Master → Bool
  | .vf n => decide (1 ≤ n) && decide (n ≤ 16)
  | _ => true

/-- A write has 64 bits, or 32 for a half (R15). -/
def Machine.RegWrite.wf (w : RegWrite) : Bool :=
  w.master.wf && (match w.half with | .full => decide (w.value < 2 ^ 64) | _ => decide (w.value < 2 ^ 32))

/-- A requester exists. -/
def Machine.Requester.wf (v : Variant) : Requester → Bool
  | .core c => decide (c < 256)
  | .tutor c => decide (c < 256)
  | .host f => decide (f ≤ 16)
  | .pail d => decide (d < 4)
  | .ladle f => farPresent v f
  | .fabric d => decide (d < ioDies v)
  | .registrar => true
  | .scrub => true
  | .writeback => true

/-- Who issues a shared-cache operation, at which widths in bytes (R217). -/
def Machine.AtomOp.wf (rq : Requester) (width : Nat) : AtomOp → Bool
  | .add => (decide (width = 4) || decide (width = 8)) && (match rq with
    | .core _ => true | .tutor _ => true | .pail _ => true | .fabric _ => true | _ => false)
  | .smin => decide (width = 4) && (match rq with | .core _ => true | .tutor _ => true | _ => false) ||
      decide (width = 8) && (match rq with | .tutor _ => true | _ => false)
  | .smax => decide (width = 4) && (match rq with | .core _ => true | .tutor _ => true | _ => false) ||
      decide (width = 8) && (match rq with | .tutor _ => true | _ => false)
  | .umin => (decide (width = 4) || decide (width = 8)) && (match rq with | .tutor _ => true | _ => false)
  | .umax => (decide (width = 4) || decide (width = 8)) && (match rq with | .tutor _ => true | _ => false)
  | .and => decide (width = 8) && (match rq with | .core _ => true | .tutor _ => true | _ => false) ||
      decide (width = 4) && (match rq with | .tutor _ => true | _ => false)
  | .or => decide (width = 8) && (match rq with | .core _ => true | .tutor _ => true | _ => false) ||
      decide (width = 4) && (match rq with | .tutor _ => true | _ => false)
  | .xor => decide (width = 8) && (match rq with | .core _ => true | .tutor _ => true | _ => false) ||
      decide (width = 4) && (match rq with | .tutor _ => true | _ => false)
  | .swap => (decide (width = 4) || decide (width = 8)) && (match rq with | .tutor _ => true | .pail _ => true | .registrar => true | _ => false)
  | .cas => (decide (width = 4) || decide (width = 8)) && (match rq with | .pail _ => true | .registrar => true | _ => false)
  | .fp32Add => decide (width = 4) && (match rq with | .core _ => true | _ => false)
  | .bf16Add => decide (width = 2) && (match rq with | .core _ => true | _ => false)

/-- A request to the shared cache lies in one line (R17, R214). -/
def inGrain (pa n : Nat) : Bool := decide (0 < n) && decide (pa % 256 + n ≤ 256)

/-- Rows or columns of an array with a number of vectors each, every one once (R50, R51). -/
def linesWf (size : Nat) (l : List (Nat × Nat)) : Bool := l.all (fun e => decide (e.1 < size)) && decide ((l.map Prod.fst).Nodup)

/-- FLAGS of an office request (R520): RESP is clear. -/
def Machine.OfficeHead.wf (h : OfficeHead) : Bool := decide (h.flags < 256) && decide (h.flags % 2 = 0) && decide (h.tag < 2 ^ 16)

/-- The fields of a pail command (R283, R284). -/
def Machine.PailCmd.wf (c : PailCmd) : Bool :=
  decide (c.hr < 16) && decide (c.tree < 2 ^ 8) && decide (c.seq < 2 ^ 16) && decide (c.w1 < 2 ^ 64) && decide (c.w2 < 2 ^ 64) && decide (c.w3 < 2 ^ 64)

/-- The fields of a pail manager message (R417). -/
def Machine.PailMsg.wf (m : PailMsg) : Bool := decide (m.dev < 4096) && decide (m.data.length % 256 = 0)

/-- The words and the data of a packet (R413). -/
def Machine.Packet.wf (p : Packet) : Bool := decide (p.w0 < 2 ^ 64) && decide (p.w1 < 2 ^ 64) && decide (p.data.length ≤ 256)

/-- The fields of a launch message (R163). -/
def Machine.Launch.wf (l : Launch) : Bool :=
  decide (l.offset < 2 ^ 23) && decide (l.stepLimit < 2 ^ 18) && decide (l.preloadSrc < 2 ^ 48) && decide (l.preloadBytes < 2 ^ 17) &&
  decide (l.homeroom < 16) && decide (l.tag < 2 ^ 64)

/-- A responder exists (R519, R584). -/
def Machine.Responder.wf : Responder → Bool
  | .office => true
  | .homeroom h => decide (1 ≤ h) && decide (h < 16)

/-- A numeric sensor exists (R518). -/
def Machine.PldmSensor.wf (v : Variant) : PldmSensor → Bool
  | .dieHottest k => decide (k < 28) && (!(decide (4 ≤ k) && decide (k < 8)) || decide (k < 4 + ioDies v))
  | .farReadout f => farPresent v f
  | .packagePower => true
  | .coolantInlet => true
  | .coolantFlow => true

/-- A packet of the mesh has from one to four flits, which hold its bytes (R320). -/
def Machine.MeshPkt.wf (p : MeshPkt) : Bool := decide (1 ≤ p.flits) && decide (p.flits ≤ 4) && decide (p.bytes.length ≤ 64 * p.flits)

/-- The KIND of a request or a reply (R414). -/
def Machine.Packet.kindIs (p : Packet) (k : Nat) : Bool := decide (p.w0 % 256 = k)

/-- A forecast message covers four stacks and every core (R558). -/
def Machine.Forecast.wf (m : Forecast) : Bool :=
  decide (m.allowStack.length = 4) && decide (m.baseStack.length = 4) && decide (m.fc.length = 256) && decide (m.warm < 2 ^ 256)

/-- A command can occur on a variant. -/
def Instr.wf (var : Variant) : Instr → Bool
  | .registerWrite m _ _ _ _ => m.wf
  | .unclaimedRequest f _ _ _ => decide (f ≤ 16)
  | .lessonLaunch c l => decide (c < 256) && l.wf
  | .preloadComplete c => decide (c < 256)
  | .stepIssue c => decide (c < 256)
  | .stepStart c _ => decide (c < 256)
  | .stepComplete c _ _ => decide (c < 256)
  | .lessonComplete c => decide (c < 256)
  | .nopStep c _ => decide (c < 256)
  | .endStep c => decide (c < 256)
  | .syncWaitLocal c _ => decide (c < 256)
  | .syncSignalLocal c _ => decide (c < 256)
  | .syncSignalRemote c _ => decide (c < 256)
  | .syncWaitRemote c _ => decide (c < 256)
  | .syncPoll c _ => decide (c < 256)
  | .syncTimeout c _ => decide (c < 256)
  | .waitLimitExpiry c _ => decide (c < 256)
  | .fenceStep c _ => decide (c < 256)
  | .loadSlate c _ => decide (c < 256)
  | .slateLoadComplete c _ => decide (c < 256)
  | .stream c _ _ => decide (c < 256)
  | .gather c _ _ late held => decide (c < 256) && linesWf 64 late && linesWf 128 held
  | .freezeRelease c _ => decide (c < 256)
  | .gatherRowData c _ _ => decide (c < 256)
  | .arrayHung c _ => decide (c < 256)
  | .skim c => decide (c < 256)
  | .convert c => decide (c < 256)
  | .loadStep c => decide (c < 256)
  | .storeStep c => decide (c < 256)
  | .moveStep c => decide (c < 256)
  | .reduce c => decide (c < 256)
  | .handoff c => decide (c < 256)
  | .tutorInstruction c => decide (c < 256)
  | .tpost c => decide (c < 256)
  | .twait c => decide (c < 256)
  | .tevt c => decide (c < 256)
  | .tsig c => decide (c < 256)
  | .tdone c => decide (c < 256)
  | .rateWindow c => decide (c < 256)
  | .coreFence c _ => decide (c < 256)
  | .coreFenceRequest c w => decide (c < 256) && w.wf
  | .unfence c w => decide (c < 256) && w.wf
  | .fenceComplete c => decide (c < 256)
  | .lateReply c => decide (c < 256)
  | .warmRecoveryComplete c _ => decide (c < 256)
  | .seedWrite c _ w => decide (c < 256) && w.wf
  | .seedLoad c _ => decide (c < 256)
  | .arrStatClear c _ w => decide (c < 256) && w.wf
  | .sliceRequest c grain _ _ => decide (c < 256) && decide (grain * 256 < 2 ^ 48)
  | .sliceRefresh c bank _ => decide (c < 256) && decide (bank < 256)
  | .channelPowerDown c channel => decide (c < 256) && decide (channel < 16)
  | .sliceFillComplete c => decide (c < 256)
  | .sliceClear c => decide (c < 256)
  | .layerOffsetWrite c w => decide (c < 256) && w.wf
  | .scRead rq hr pa len _ => rq.wf var && decide (hr < 16) && inGrain pa len
  | .scWrite rq hr pa bytes => rq.wf var && decide (hr < 16) && inGrain pa bytes.length
  | .scAtomic rq hr pa op width v expected => rq.wf var && decide (hr < 16) && inGrain pa width && op.wf rq width &&
      decide (v < 2 ^ (8 * width)) && decide (expected < 2 ^ (8 * width))
  | .scFillComplete _ _ => true
  | .granuleReread _ _ => true
  | .farGrant f _ => decide (f < 12)
  | .farWindowClose f => decide (f < 12)
  | .farRefresh f bank _ => decide (f < 12) && decide (bank < 4096)
  | .farTempReadout f _ => decide (f < 12)
  | .farStackLoss f => decide (f < 12)
  | .sepScopeWrite k w => decide (k < 2) && w.wf
  | .sepNarrowWrite k w => decide (k < 2) && w.wf
  | .sepChangeComplete set => decide (set < 128)
  | .farModeWrite f w => decide (f < 12) && w.wf
  | .scPurge slice w => decide (slice < 12) && w.wf
  | .scPurgeComplete slice => decide (slice < 12)
  | .scStatClear slice w => decide (slice < 12) && w.wf
  | .ladleCopy port words issuer => decide (port < 12) && (decide (words.length = 4) && words.all fun w => decide (w < 2 ^ 64)) && issuer.wf var
  | .ladleFill port words issuer => decide (port < 12) && (decide (words.length = 4) && words.all fun w => decide (w < 2 ^ 64)) && issuer.wf var
  | .ladleNot port words issuer => decide (port < 12) && (decide (words.length = 4) && words.all fun w => decide (w < 2 ^ 64)) && issuer.wf var
  | .ladleAnd port words issuer => decide (port < 12) && (decide (words.length = 4) && words.all fun w => decide (w < 2 ^ 64)) && issuer.wf var
  | .ladleOr port words issuer => decide (port < 12) && (decide (words.length = 4) && words.all fun w => decide (w < 2 ^ 64)) && issuer.wf var
  | .ladleXor port words issuer => decide (port < 12) && (decide (words.length = 4) && words.all fun w => decide (w < 2 ^ 64)) && issuer.wf var
  | .ladleClearSet port words issuer => decide (port < 12) && (decide (words.length = 4) && words.all fun w => decide (w < 2 ^ 64)) && issuer.wf var
  | .ladleSequenceStart port => decide (port < 12)
  | .ladleFlushComplete port pc => decide (port < 12) && decide (pc < 64)
  | .rowStep port pc => decide (port < 12) && decide (pc < 64)
  | .ldlDrainWrite port w => decide (port < 12) && w.wf
  | .ldlStatClear port w => decide (port < 12) && w.wf
  | .treeOpen d cmd => decide (d < 4) && cmd.wf
  | .treeClose d cmd => decide (d < 4) && cmd.wf
  | .evict d cmd => decide (d < 4) && cmd.wf
  | .seqOpen d cmd => decide (d < 4) && cmd.wf
  | .seqClose d cmd => decide (d < 4) && cmd.wf
  | .matchBlocks d cmd => decide (d < 4) && cmd.wf
  | .append d cmd => decide (d < 4) && cmd.wf
  | .resolve d cmd => decide (d < 4) && cmd.wf
  | .publish d cmd => decide (d < 4) && cmd.wf
  | .fork d cmd => decide (d < 4) && cmd.wf
  | .truncate d cmd => decide (d < 4) && cmd.wf
  | .markLost d cmd => decide (d < 4) && cmd.wf
  | .shadowSync d cmd => decide (d < 4) && cmd.wf
  | .adopt d cmd => decide (d < 4) && cmd.wf
  | .churnOpen d cmd => decide (d < 4) && cmd.wf
  | .churnRun d cmd => decide (d < 4) && cmd.wf
  | .churnClose d cmd => decide (d < 4) && cmd.wf
  | .yokePush d _ _ => decide (d < 4)
  | .pailListFetch d c _ _ _ _ _ => decide (d < 4) && decide (c < 256)
  | .hello d msg => decide (d < 4) && msg.wf
  | .helloResend d ring => decide (d < 4) && decide (ring < 64)
  | .churnCredit d msg => decide (d < 4) && msg.wf
  | .churnData d msg => decide (d < 4) && msg.wf
  | .rider d msg => decide (d < 4) && msg.wf
  | .dataAck d msg => decide (d < 4) && msg.wf
  | .closeMessage d msg => decide (d < 4) && msg.wf
  | .releasePoll d ring => decide (d < 4) && decide (ring < 64)
  | .shadowData d msg => decide (d < 4) && msg.wf
  | .shadowAck d msg => decide (d < 4) && msg.wf
  | .shadowNode d msg => decide (d < 4) && msg.wf
  | .pailDrainWrite d w => decide (d < 4) && w.wf
  | .pailStatClear d w => decide (d < 4) && w.wf
  | .routerPacket d node _ inject => decide (d < 4) && decide (node < 64) && inject.all Machine.MeshPkt.wf
  | .ringStopPacket d stop lane _ _ inject => decide (d < 4) && stopPresent var stop && decide (lane < 16) && inject.all Machine.MeshPkt.wf
  | .heartbeat d node _ => decide (d < 4) && (decide (node < 64) || stopPresent var (node - 64))
  | .arbGrant d sel _ => decide (d < 4) && arbPresent sel
  | .arbFreeze d sel w => decide (d < 4) && arbPresent sel && w.wf
  | .arbDrainComplete d sel => decide (d < 4) && arbPresent sel
  | .arbStatClear d sel w => decide (d < 4) && arbPresent sel && w.wf
  | .meshStatClear d w => decide (d < 4) && w.wf
  | .signalRaise d sel => diePresent var d && (xingKind var d sel).isSome
  | .signalRoundTrip d sel => diePresent var d && (xingKind var d sel).isSome
  | .samplePresent d sel value attempts => diePresent var d && (xingKind var d sel).isSome && decide (value < 2 ^ 64) && decide (1 ≤ attempts)
  | .sampleFallback d sel => diePresent var d && (xingKind var d sel).isSome
  | .queueWrite d sel value => diePresent var d && (xingKind var d sel).isSome && decide (value < 2 ^ 64)
  | .crossingStall d sel => diePresent var d && (xingKind var d sel).isSome
  | .xingForce d w => diePresent var d && w.wf
  | .d2dPacketSend d _ _ lane _ hdr data side => diePresent var d && decide (lane < 16) && decide (hdr.length = 16) &&
      decide (hdr.getD 0 0#8 ≠ 0#8) && decide (data.length ≤ 256) && decide (side.chk.length = (wholeGranules side.off data.length).length) &&
      side.chk.all fun k => decide (k < 2 ^ 16)
  | .d2dFlitReceive d e m _ => diePresent var d && (edgePeer var d e).isSome && decide (m < edgeModules var d e)
  | .laneErrorWindow d e m => diePresent var d && (edgePeer var d e).isSome && decide (m < edgeModules var d e)
  | .d2dRepairComplete d e m _ => diePresent var d && (edgePeer var d e).isSome && decide (m < edgeModules var d e)
  | .d2dNak d e m _ => diePresent var d && (edgePeer var d e).isSome && decide (m < edgeModules var d e)
  | .d2dCredit d e m _ _ => diePresent var d && (edgePeer var d e).isSome && decide (m < edgeModules var d e)
  | .d2dGoodbye d e _ => diePresent var d && (edgePeer var d e).isSome
  | .d2dRoute d e m key _ => diePresent var d && (edgePeer var d e).isSome && decide (m < edgeModules var d e) && decide (key < 96)
  | .d2dReplayTimeout d e m => diePresent var d && (edgePeer var d e).isSome && decide (m < edgeModules var d e)
  | .d2dWatchdog d e m _ => diePresent var d && (edgePeer var d e).isSome && decide (m < edgeModules var d e)
  | .dieLostDeclaration die => diePresent var die
  | .deputyTakeover stack => decide (stack < 4)
  | .d2dStatClear d w => diePresent var d && w.wf
  | .packetOriginate d pkt => decide (d < ioDies var) && pkt.wf
  | .linkFlitReceive d p flit => decide (d < ioDies var) && decide (p < 6) && decide (flit.bytes.length = 640)
  | .fecErrorWindow d p => decide (d < ioDies var) && decide (p < 6)
  | .packetArrival d p pkt => decide (d < ioDies var) && decide (p < 6) && pkt.wf
  | .put d pkt => decide (d < ioDies var) && pkt.wf && pkt.kindIs 0x01
  | .get d pkt => decide (d < ioDies var) && pkt.wf && pkt.kindIs 0x02
  | .add64 d pkt => decide (d < ioDies var) && pkt.wf && pkt.kindIs 0x03
  | .fabricPail d pkt => decide (d < ioDies var) && pkt.wf && pkt.kindIs 0x04
  | .fabricAck d pkt => decide (d < ioDies var) && pkt.wf && pkt.kindIs 0x41
  | .fabricData d pkt => decide (d < ioDies var) && pkt.wf && pkt.kindIs 0x42
  | .unreach d pkt => decide (d < ioDies var) && pkt.wf && pkt.kindIs 0x43
  | .linkNak d p _ => decide (d < ioDies var) && decide (p < 6)
  | .linkCredit d p credits => decide (d < ioDies var) && decide (p < 6) && decide (credits.length = 4)
  | .creditR d p credits => decide (d < ioDies var) && decide (p < 6) && decide (credits.length = 4)
  | .linkGoodbye d p _ => decide (d < ioDies var) && decide (p < 6)
  | .linkReplayTimeout d p => decide (d < ioDies var) && decide (p < 6)
  | .e2eTimeout d _ => decide (d < ioDies var)
  | .portWatchdog d p => decide (d < ioDies var) && decide (p < 6)
  | .portEnable d p w => decide (d < ioDies var) && decide (p < 6) && w.wf
  | .portDisable d p w => decide (d < ioDies var) && decide (p < 6) && w.wf
  | .retrain d p w => decide (d < ioDies var) && decide (p < 6) && w.wf
  | .portTrainingComplete d p t => decide (d < ioDies var) && decide (p < 6) && decide (t.lanes.length = 8)
  | .routeDataWrite d _ w => decide (d < ioDies var) && w.wf
  | .linkStatClear d w => decide (d < ioDies var) && w.wf
  | .linkPortStatClear d p w => decide (d < ioDies var) && decide (p < 6) && w.wf
  | .doorbell f _ _ value => decide (f ≤ 16) && decide (value < 2 ^ 64)
  | .descriptorArrival ring => decide (ring < 64)
  | .admissionVisit => true
  | .nopDescriptor ring _ => decide (ring < 64)
  | .launchDescriptor ring _ => decide (ring < 64)
  | .moveDescriptor ring _ => decide (ring < 64)
  | .ladleDescriptor ring _ => decide (ring < 64)
  | .pailDescriptor ring _ => decide (ring < 64)
  | .fabricDescriptor ring _ => decide (ring < 64)
  | .scrub ring _ => decide (ring < 64)
  | .fenceDescriptor ring _ => decide (ring < 64)
  | .waitDescriptor ring _ => decide (ring < 64)
  | .waitTimeout ring _ => decide (ring < 64)
  | .unitCompletion ring _ _ => decide (ring < 64)
  | .forecastMessage msg => msg.wf
  | .forecastStale => true
  | .ringEnable ring w => decide (ring < 64) && w.wf
  | .ringDisable ring w => decide (ring < 64) && w.wf
  | .ringDrainComplete ring => decide (ring < 64)
  | .functionLevelReset f => decide (f ≤ 16)
  | .lockstepHalt => true
  | .bar4Access f _ _ => decide (f ≤ 16)
  | .ringAdmitStatClear w => w.wf
  | .i3cAddressAssign addr => decide (addr < 128)
  | .i3cAddressReset => true
  | .setEndpointId op eid => decide (op < 4) && decide (eid < 256)
  | .getEndpointId => true
  | .getEndpointUuid => true
  | .getMctpVersionSupport _ => true
  | .getMessageTypeSupport => true
  | .getSensorReading sensor => sensor.wf var
  | .platformEventMessage _ => true
  | .requestUpdate _ => true
  | .requestFirmwareData _ _ => true
  | .activateFirmware => true
  | .getVersion rsp => rsp.wf
  | .getCapabilities rsp _ => rsp.wf
  | .negotiateAlgorithms rsp => rsp.wf
  | .getDigests rsp => rsp.wf
  | .getCertificate rsp _ _ => rsp.wf
  | .challenge rsp nonce => rsp.wf && decide (nonce.length = 32)
  | .getMeasurements rsp _ _ nonce => rsp.wf && decide (nonce.length = 32)
  | .keyExchange rsp _ => rsp.wf
  | .finish rsp _ _ => rsp.wf
  | .heartbeatMessage rsp _ => rsp.wf
  | .keyUpdate rsp _ => rsp.wf
  | .endSession rsp _ => rsp.wf
  | .getStatus h => h.wf
  | .readReg h off => h.wf && decide (off < 2 ^ 64)
  | .writeReg h off value _ _ => h.wf && decide (off < 2 ^ 64) && decide (value < 2 ^ 64)
  | .getEvents h n => h.wf && decide (n < 256)
  | .setCoolant h inlet flow valid => h.wf && decide (inlet < 2 ^ 16) && decide (flow < 2 ^ 16) && decide (valid < 256)
  | .getShutdown h index => h.wf && decide (index < 256)
  | .setRingConf h ring conf _ => h.wf && decide (ring < 256) && decide (conf < 256)
  | .imageBufferTimeout => true
  | .coolantAgeExpiry _ _ => true
  | .vsetWrite domain w => (decide (domain < 260) || (decide (260 ≤ domain) && diePresent var (domain - 256))) && w.wf
  | .regulatorFault domain => (decide (domain < 260) || (decide (260 ≤ domain) && diePresent var (domain - 256)))
  | .regulatorOvervoltage domain => (decide (domain < 260) || (decide (260 ≤ domain) && diePresent var (domain - 256)))
  | .powerSample _ _ _ => true
  | .pwrLimitWrite w => w.wf
  | .sensorSample _ => true
  | .forecastUpdate => true
  | .hrOpen hr w => decide (hr < 16) && w.wf
  | .teardownWrite hr w => decide (hr < 16) && w.wf
  | .teardownComplete hr => decide (hr < 16)
  | .hrCoresWrite hr k w => decide (hr < 16) && decide (k < 4) && w.wf
  | .hrMapWrite hr k w => decide (hr < 16) && decide (k < 16) && w.wf
  | .hrFuncsWrite hr w => decide (hr < 16) && w.wf
  | .hrWindowWrite hr win _ w => decide (hr < 16) && decide (win < 8) && w.wf
  | .coreMoveClear c => decide (c < 256)
  | .hrQuery hr => decide (hr < 16)
  | .keySet hr _ _ _ => decide (hr < 16)
  | .sealHomeroom hr _ => decide (hr < 16)
  | .ringConf hr _ _ => decide (hr < 16)
  | .ringQuery hr _ => decide (hr < 16)
  | .saltSet hr _ => decide (hr < 16)
  | .saltExport hr => decide (hr < 16)
  | .fabricSet hr _ _ => decide (hr < 16)
  | .tenantTeardown hr => decide (hr < 16)
  | .mailboxGo w _ => w.wf
  | .rngHealthFail => true
  | .debugUnlock w _ => w.wf
  | .mirrorWrite k w => decide (k < 16) && w.wf
  | .mirrorClearComplete => true
  | .flipArm w => w.wf
  | .imageWindowWrite _ _ => true
  | .bootImage w => w.wf
  | .bootTrain w _ => w.wf
  | .rollCall w _ => w.wf
  | .bootReady w => w.wf
  | .bootStepComplete => true
  | .exportRecord w => w.wf
  | .coldRestart w => w.wf
  | .domainDown w => w.wf
  | .domainUp w => w.wf
  | .domainActionComplete d _ => diePresent var d
  | .vauxPowerOn _ => true
  | .vauxLoss => true
  | .mainRailFault rail die _ => (decide (1 ≤ rail) && decide (rail ≤ 4)) && decide (die < ioDies var)
  | .vinCoreCycle => true
  | .perstDeassert _ => true
  | .perstAssert => true
  | .refclkLoss clk => decide (clk < 13)
  | .dramLayerLoss stack layer => decide (stack < 4) && decide (layer < 4)
  | .completionTimeout ring _ _ => decide (ring < 64)
  | .refreshManagementRequest f bank => decide (f < 12) && decide (bank < 4096)
  | .imageTransferCancel _ => true

end Sys2Proof
end

