-- ==== Sys2Proof/Safety.lean ====
section
/-! DEFINITION. What every run keeps: the canonical form of the memories, and what assembly fixed. -/

namespace Sys2Proof.Machine

/-- Every byte memory of the part has its canonical form: far memory, slices, desks, host memory and the image buffer. -/
def State.memoriesWf (s : State) : Bool := memWf s.far && memWf s.slice && memWf s.desk && memWf s.host && memWf s.image.data

/-- What manufacture and assembly fixed in one state stands in another (R2, R187, R573, R665): the variant, the fused layer offsets and the
factory's entries, and every blown fuse stays blown. -/
def State.sameAssembly (s t : State) : Prop :=
  t.variant = s.variant ∧ t.layerFuses = s.layerFuses ∧ t.factory = s.factory ∧ ∀ i, s.fuses.getLsbD i = true → t.fuses.getLsbD i = true

/-- A state from which a run goes on safely: its memories are canonical and every waiting command can occur on its variant. -/
def State.Safe (s : State) : Prop := s.memoriesWf = true ∧ ∀ c ∈ s.pending, c.wf s.variant = true

/-- A write of a register from a master arrives and is performed (R454, R524, R525, R658, R728). -/
def State.admits (s : State) (m : Master) (r : Reg) : Bool :=
  s.pathUp m && !s.hostBlocked m r.home.1 && s.masterReaches m r && s.reachable r.home.1 r.home.2

/-- Every register but those named holds what it held. -/
def State.regsBut (s t : State) (p : Reg → Prop) : Prop := ∀ r, ¬ p r → t.get r = s.get r

/-- Every core but those named is as it was. -/
def State.coresBut (s t : State) (p : Nat → Prop) : Prop := ∀ c, ¬ p c → t.core c = s.core c

/-- Every byte of every memory reads as it did: far memory, slices, desks, host memory and the image buffer. -/
def State.memoryKept (s t : State) : Prop :=
  ∀ a, memByte t.far a = memByte s.far a ∧ memByte t.slice a = memByte s.slice a ∧ memByte t.desk a = memByte s.desk a ∧
    memByte t.host a = memByte s.host a ∧ memByte t.image.data a = memByte s.image.data a

/-! ### Memory that an access finds sound -/

/-- A core in service whose desk and slice are sound: no granule fails, no port or bank is frozen and no flip mask is armed (R54, R125, R188,
R632, R641). -/
def State.ownSound (s : State) (c : Nat) : Prop :=
  s.coreUsable c = true ∧ (∀ (m : NearMem) (g : Nat), 16 * g < m.size → s.nearDiff m c g = 0) ∧ s.slips = [] ∧ (∀ m off n, s.nearHeld m c off n = false) ∧
    s.fget .relFlipSel REL_FLIP_SEL_ARM = 0

/-- The device address of an offset in a memory of a core (R125, R172). -/
def ownAddr (m : NearMem) (c off : Nat) : Nat :=
  match m with
  | .slice => sliceBase + c * 0x20000000 + off
  | .desk => deskBase + c * 0x1000000 + off

/-- A range of `n` bytes at a device address lies in a memory of a core. -/
def inOwn (c a n : Nat) (ms : List NearMem) : Prop := c < 256 ∧ ∃ m ∈ ms, ∃ off, a = ownAddr m c off ∧ off + n ≤ m.size

/-- The bytes that a range of a core's own memories holds, by the device address of its first. -/
def State.ownBytes (s : State) (c a n : Nat) : List Byte :=
  match coreSpace c a with
  | .slice _ o => s.nearBytes .slice c o n
  | .desk _ o => s.nearBytes .desk c o n
  | _ => []

/-- The lines numbered `nums` of a record, `len` elements of each with their scales, lie in memories of a core (R131, R132). -/
def MatRec.inOwn (r : MatRec) (c : Nat) (ms : List NearMem) (nums : List Nat) (len : Nat) : Prop :=
  ∀ l ∈ nums, Machine.inOwn c (r.base + l * r.lineStride) (packedBytes r.fmt len) ms ∧
    (isMx r.fmt = true → Machine.inOwn c (r.scaleBase + l * r.scaleStride) (ceilDiv len 32) ms)

/-- The operand that lines of a record in a core's own memories hold (R132). -/
def State.ownOperand (s : State) (c : Nat) (r : MatRec) (nums : List Nat) (len : Nat) : Operand :=
  ⟨r.fmt, nums.map fun l => s.ownBytes c (r.base + l * r.lineStride) (packedBytes r.fmt len),
    if isMx r.fmt then nums.map fun l => s.ownBytes c (r.scaleBase + l * r.scaleStride) (ceilDiv len 32) else []⟩

/-- What the work of a step leaves of a core: all but its running steps, its waits, its tag and its tutor's reservation. -/
def CoreSt.sansWork (k : CoreSt) : CoreSt := { k with running := [], stuck := [], tag := false, tutor := { k.tutor with resv := none } }

/-- A step of core `c` has been performed with OK on an engine, in a state that differs from the one before in cores, in desks and slices and what
the slices' banks owe, and in the grants, turns and free values taken; of other cores only reservations have changed. -/
def State.stepRan (s x : State) (c : Nat) (e : Engine) (t : StepRec) : Prop :=
  x = { s with cores := x.cores, slices := x.slices, slice := x.slice, sliceChk := x.sliceChk, desk := x.desk, deskChk := x.deskChk,
               paid := x.paid, turns := x.turns, draws := x.draws } ∧
    (x.core c).running = ((s.core c).performed e t.order .ok).running ∧
    (∀ d, d ≠ c → (x.core d).sansWork = (s.core d).sansWork ∧ (x.core d).running = (s.core d).running) ∧
    ∀ m d g, x.nearDiff m d g = s.nearDiff m d g

/-- The line of a physical far address is cached whole and sound, and a requester's accesses to it are neither refused nor held (R211, R213,
R215, R631, R641). -/
def State.lineSound (s : State) (rq : Requester) (pa : Nat) : Prop :=
  s.farErr rq pa true = none ∧ s.farErr rq pa false = none ∧ (∀ k < 256, s.lineErr (pa / 256 * 256 + k) = none) ∧
    s.hasTurn rq (pa / 256) = true ∧ s.fget .relFlipSel REL_FLIP_SEL_ARM = 0 ∧
    ∃ l, smFind s.lines (pa / 256) = some l ∧ l.valid % 2 ^ 8 = 0xFF ∧ l.data.length = 256 ∧ l.chk = List.replicate 16 0

/-- The 256 bytes of a cached line. -/
def State.lineData (s : State) (grain : Nat) : List Byte := ((smFind s.lines grain).map Line.data).getD []

/-! ### Pail managers -/

/-- A manager that is up, accepts commands and has nothing waiting (R287, R313, R314). -/
def State.pailIdle (s : State) (d : Nat) : Prop :=
  s.dieUp d = true ∧ s.fget (.pailCtl d) PAIL_CTL_DRAIN = 0 ∧ (s.pail d).waiting = [] ∧ (s.pail d).inbox = []

/-- A tree that a manager keeps under a number. -/
def State.pailTree (s : State) (d n : Nat) : Option Tree := smFind (s.pail d).trees n
/-- A sequence that a manager keeps under a number. -/
def State.pailSeq (s : State) (d k : Nat) : Option Seq := smFind (s.pail d).seqs k
/-- A ring that a manager keeps under its own sequence. -/
def State.pailRing (s : State) (d k : Nat) : Option ChurnRing := smFind (s.pail d).rings k
/-- A tree put under a number. -/
def State.putTree (s : State) (d n : Nat) (t : Tree) : State := s.setPail d { s.pail d with trees := smPut (s.pail d).trees n t }
/-- A sequence put under a number. -/
def State.putSeq (s : State) (d k : Nat) (q : Seq) : State := s.setPail d { s.pail d with seqs := smPut (s.pail d).seqs k q }
/-- A ring put under its own sequence. -/
def State.putRing (s : State) (d k : Nat) (r : ChurnRing) : State := s.setPail d { s.pail d with rings := smPut (s.pail d).rings k r }
/-- A read of a manager for a homeroom is answered at once, and leaves a state. -/
def State.pailReads (s : State) (d hr a n : Nat) (bs : List Byte) (u : State) : Prop :=
  s.readAt (.pail d) hr none allowFarWindow a n = (u, .ok bs)
/-- A write of a manager for a homeroom is done at once. -/
def State.pailWrites (s : State) (d hr a : Nat) (bs : List Byte) (u : State) : Prop :=
  s.writeAt (.pail d) hr none allowFarWindow a bs = (u, .ok ())
/-- An addition of a manager to a count of four bytes is done at once, and answers the old value (R274). -/
def State.pailAdds (s : State) (d hr a v old : Nat) (u : State) : Prop := s.farAtomic (.pail d) hr a .add 4 v 0 = (u, .ok old)

/-- A manager has done what it had: where nothing waits, it keeps no grant or turn. -/
def State.pailDone (s : State) (d : Nat) : State :=
  if (s.pail d).waiting.isEmpty && (s.pail d).inbox.isEmpty then s.settle (.pail d) else s

/-- A command ends with a status and a RESULT (R285). -/
def State.pailAnswers (s : State) (d : Nat) (k : PailCmd) (status result : Nat) : State :=
  ({ s with records := s.records ++ [⟨.pail d, k.tag, status + k.tag * 2 ^ 32, result⟩] } : State).pailDone d

/-- No action of a run is due (R303, R304). -/
def ChurnRing.idle (r : ChurnRing) (x : ChurnRun) : Prop :=
  ¬(x.sent + 1 ≤ r.r - 1 ∧ x.sent ≤ x.held ∧ x.sent + 1 ≤ x.credit) ∧
    ¬(x.rider = true ∧ x.riderSent < r.r ∧ x.riderSent < x.released ∧ (x.riderSent + 1 ≤ x.sent ∨ x.riderSent + 1 = r.r)) ∧
    ¬(x.raised < x.held ∧ (x.rider = false ∨ x.raised < x.riderHeld)) ∧
    ¬(2 ≤ x.credited ∧ x.credited + 1 ≤ r.r - 1 ∧ x.credited - 1 < x.released ∧ x.credited ≤ x.acked) ∧
    ¬(r.r ≤ x.released ∧ (if x.rider then r.r else r.r - 1) ≤ x.acked)

end Sys2Proof.Machine
end

