-- ==== Sys2Proof/Certificates/Slice0/Obligations.lean ====
section
/-! DEFINITION. The statements of this model, each from the numbered rules of the spec. -/

open Sys2Proof Sys2Proof.Machine

/-! ### The queue, reset and what every step keeps -/

/-- A step takes the command at the front of the queue and performs it with the queue's rest. -/
def Obligations.StepRunsFrontCommand : Prop :=
  ∀ (c : Instr) (rest : List Instr) (s : State), step { s with pending := c :: rest } = exec c { s with pending := rest }

/-- No command is refused and none faults: every command answers a next state, with the queue of the commands behind it, the variant and the
factory's defect entries as they were and no fuse unblown; every step answers a next state whose queue is the old one without its front. The
model's choice (log 19): with no command waiting a step changes nothing. -/
def Obligations.EveryCommandCompletes : Prop :=
  (∀ (c : Instr) (s : State), ∃ t, exec c s = .next t ∧ t.pending = s.pending ∧ s.sameAssembly t) ∧
    (∀ s : State, ∃ t, step s = .next t ∧ t.pending = s.pending.tail) ∧ ∀ s : State, s.pending = [] → step s = .next s

/-- Right after reset (R18): every register reads its table's reset value for the variant, with the examples of R7, R76, R79 and R686,
no command waits, the memories are empty, and the state is safe. -/
def Obligations.ResetIsSafe : Prop :=
  (∀ r : Reg, State.reset.get r = resetWord State.reset.variant r) ∧ State.reset.pending = [] ∧ State.reset.Safe ∧
    State.reset.fget .topId TOP_ID_PART = 0xB44 ∧ State.reset.phase = 0 ∧
    ∀ c a, State.reset.coreState c = 0 ∧ State.reset.fget (.arrCtl c a) ARR_CTL_WDOG_LIMIT = 0x10000

/-- Safety is kept by every step: the memories keep their canonical form, and every waiting command can occur on the variant. -/
def Obligations.StepKeepsSafe : Prop :=
  ∀ s t : State, s.Safe → step s = .next t → t.Safe

/-- R573: a logical bit is held in four fuses and reads as blown when two or more of them are; no step unblows one. -/
def Obligations.BlownFusesStayBlown : Prop :=
  (∀ (s : State) (i : Nat), s.fuseBit i = true ↔ 2 ≤ ((List.range 4).filter fun j => s.fuses.getLsbD (4 * i + j)).length) ∧
    ∀ (s t : State) (i : Nat), step s = .next t → s.fuseBit i = true → t.fuseBit i = true

/-! ### Register accesses -/

/-- R14, R15, R730: a read of 4 or 8 bytes at its own alignment returns the register, or its half; another read from a function completes
with Completer Abort, and another write is ignored. Nothing else changes. A register that the master does not reach reads 0. -/
def Obligations.RegisterReadsReturnValues : Prop :=
  ∀ (s : State) (m : Master) (off o size v : Nat) (env : WriteEnv) (r : Reg), barOffset m off = some o → s.pathUp m = true →
    s.regFor m o = some r →
    (accessTaken o size = true →
      exec (.registerWrite m off size .read env) s = .next { s with out := s.out ++ [.regValue m
        (if size = 8 then (s.regValue m r).toNat else if o % 8 = 4 then (s.regValue m r).toNat / 2 ^ 32 else (s.regValue m r).toNat % 2 ^ 32)] }) ∧
    (accessTaken o size = false → exec (.registerWrite m off size (.write v) env) s = .next s ∧
      ∀ f, m.func = some f → exec (.registerWrite m off size .read env) s = .next { s with out := s.out ++ [.completerAbort f] }) ∧
    (s.masterReaches m r = false → s.regValue m r = 0#64)

/-- R16, R730: a write that is performed gives every RW bit that it covers, and every RWL bit before the lock, the bit written; a 1 clears
a W1C bit; other bits keep theirs. Stated of registers that no rule of a chapter adds to; nothing else changes. -/
def Obligations.RegisterWritesFollowAccessCodes : Prop :=
  ∀ (s : State) (m : Master) (off o size v : Nat) (env : WriteEnv) (r : Reg), barOffset m off = some o → accessTaken o size = true →
    s.regFor m o = some r → s.admits m r = true →
    ((∃ c, r = .lsnCtl c ∨ r = .nearCtl c) ∨ r ∈ [Reg.hostErr, .ringEvqBase, .bootImgLen, .bootRecBase, .bootRecLen, .bootExportBase]) →
    ∃ t, exec (.registerWrite m off size (.write v) env) s = .next t ∧ t = { s with regs := t.regs } ∧ s.regsBut t (· = r) ∧
      ∀ i < 64, (t.get r).getLsbD i =
        let covered := decide (size = 8 ∨ (o % 8 = 4 ↔ 32 ≤ i))
        let bit := covered && v.testBit (if size ≠ 8 ∧ o % 8 = 4 then i - 32 else i)
        let taken := covered && (rowsMask r.rows fun a => decide (a = .rw) || (decide (a = .rwl) && !s.locked)).getLsbD i
        (if taken then bit else (s.get r).getLsbD i) && !(bit && (rowsMask r.rows fun a => decide (a = .w1c)).getLsbD i)

/-- R524, R525, R731: a write that HOST_BLOCK blocks is dropped and counted in BLOCKED, which saturates; a write of a register that its master
or the part's state does not reach is dropped; HOST_BLOCK has no effect on reads, on the OFFICE, SEC and FUSE blocks, or on the office; a request beyond a BAR is answered, or reported, with Unsupported Request while the host
link is up, and a request that a BAR claims is not that command's concern. Nothing else changes. -/
def Obligations.StrayAccessesAreDropped : Prop :=
  (∀ (s : State) (m : Master) (off o size v : Nat) (env : WriteEnv) (r : Reg), barOffset m off = some o → accessTaken o size = true →
    s.regFor m o = some r → s.pathUp m = true →
    (s.hostBlocked m r.home.1 = true → ∃ t, exec (.registerWrite m off size (.write v) env) s = .next t ∧ t = { s with regs := t.regs } ∧
      s.regsBut t (· = .officeCtl) ∧
      t.fget .officeCtl OFFICE_CTL_BLOCKED = min (s.fget .officeCtl OFFICE_CTL_BLOCKED + 1) (2 ^ OFFICE_CTL_BLOCKED.width - 1) ∧
      t.fget .officeCtl OFFICE_CTL_HOST_BLOCK = s.fget .officeCtl OFFICE_CTL_HOST_BLOCK) ∧
    (s.hostBlocked m r.home.1 = false → (s.masterReaches m r && s.reachable r.home.1 r.home.2) = false →
      exec (.registerWrite m off size (.write v) env) s = .next s) ∧
    exec (.registerWrite m off size .read env) s = .next { s with out := s.out ++ [.regValue m (s.regReadAt m o size)] } ∧
    (r.home.1 ∈ [Block.office, .sec, .fuse] ∨ m = .office → s.hostBlocked m r.home.1 = false)) ∧
  ∀ (s : State) (f bar off : Nat) (write : Bool),
    let size := match bar with
      | 0 => if f = 0 then 2 ^ 26 else 2 ^ 16
      | 2 => 2 ^ 18
      | 4 => smGet (2 ^ 36) s.bar4Size f
      | _ => 0
    (s.hostLink = true → size ≤ off → exec (.unclaimedRequest f bar off write) s = .next { s with out := s.out ++ [.unsupportedRequest f] }) ∧
      (off < size → exec (.unclaimedRequest f bar off write) s = .next s)

/-! ### Lessons -/

/-- R163, R164, R192: a launch at a core that is not in service is answered FENCED with NO_STEP; a bad message BAD_OPERAND; while the
slice is cleared it waits; otherwise the lesson starts with its event counters at 0, STATE running and nothing issued, first its
preload where it names one. Only that core and its lesson registers change. -/
def Obligations.LessonLaunchOutcomes : Prop :=
  ∀ (s : State) (c : Nat) (l : Launch),
    (s.coreState c ≠ 0 → exec (.lessonLaunch c l) s = .next { s with records := s.records ++ [⟨.core c, l.tag, 0x0B + 2 ^ 11, 0⟩] }) ∧
    (s.coreState c = 0 → (s.core c).lesson = none → (s.core c).waitingLaunch = none →
      (l.offset % 32 ≠ 0 ∨ l.preloadBytes % 32 ≠ 0 ∨ 65536 < l.preloadBytes →
        ∃ t, exec (.lessonLaunch c l) s = .next t ∧ t = { s with regs := t.regs, records := s.records ++ [⟨.core c, l.tag, 0x04 + 2 ^ 11, 0⟩] } ∧
          s.regsBut t (· = .lsnStatus c) ∧ t.fget (.lsnStatus c) LSN_STATUS_LAST_STATUS = 0x04) ∧
      (l.offset % 32 = 0 → l.preloadBytes % 32 = 0 → l.preloadBytes ≤ 65536 →
        (s.fget (.nearStatus c) NEAR_STATUS_STATE = 3 →
          ∃ t, exec (.lessonLaunch c l) s = .next t ∧ t = { s with cores := t.cores } ∧ s.coresBut t (· = c) ∧
            t.core c = { s.core c with waitingLaunch := some l }) ∧
        (s.fget (.nearStatus c) NEAR_STATUS_STATE ≠ 3 →
          ∃ t, exec (.lessonLaunch c l) s = .next (if l.preloads then t else t.prefetch c) ∧ t = { s with regs := t.regs, cores := t.cores } ∧
            s.coresBut t (· = c) ∧ s.regsBut t (fun r => r = .lsnStatus c ∨ ∃ i, r = .lsnEvt c i) ∧ (t.core c).lesson = some l ∧
            (t.core c).preloading = l.preloads ∧ (t.core c).issued = 0 ∧ (t.core c).tutor = .init ∧ (∀ i < 16, t.evt c i = 0) ∧
            t.fget (.lsnStatus c) LSN_STATUS_STATE = 1)))

/-- R122, R126 to R128, R164: STEP_ISSUE takes the first step of the post stream, else of the lesson stream, and places it in the queues of
its engines or at the issue point; a step that does not decode ends the lesson with BAD_OPCODE, and a lesson stream with no step left to
issue or fetch with STEP_LIMIT. Only that core and its STATUS change, before the lesson stream fetches ahead. -/
def Obligations.StepIssueTakesNextStep : Prop :=
  ∀ (s : State) (c : Nat) (l : Launch), s.coreState c = 0 → (s.core c).lesson = some l → (s.core c).preloading = false →
    (s.core c).fail = none →
    (∀ t0 rest, (s.core c).postQ = t0 :: rest → (s.core c).ready t0 = true → t0.post = true → t0.bad = false →
      ∃ t, exec (.stepIssue c) s = .next t ∧ t = { s with regs := t.regs, cores := t.cores } ∧ s.coresBut t (· = c) ∧
        s.regsBut t (· = .lsnStatus c) ∧
        (t0.decodes = true → t.core c =
          { s.core c with postQ := rest, order := (s.core c).order + 1 }.place { t0 with order := (s.core c).order }) ∧
        (t0.decodes = false → (t.core c).fail = some ⟨(s.core c).order, .badOpcode, true, t0.index, 0⟩ ∧
          t.fget (.lsnStatus c) LSN_STATUS_STATE = 2)) ∧
    (∀ t0 rest, (s.core c).postQ = [] → (s.core c).fetched = t0 :: rest → (s.core c).ended = false → (s.core c).ready t0 = true →
      t0.post = false → t0.bad = false → t0.decodes = true →
      ∃ t, exec (.stepIssue c) s = .next (t.prefetch c) ∧ t = { s with regs := t.regs, cores := t.cores } ∧ s.coresBut t (· = c) ∧
        s.regsBut t (· = .lsnStatus c) ∧ t.fget (.lsnStatus c) LSN_STATUS_STEP_INDEX = t0.index % 2 ^ 18 ∧
        t.core c = { s.core c with fetched := rest, order := (s.core c).order + 1, issued := (s.core c).issued + 1 }.place
          { t0 with order := (s.core c).order }) ∧
    ((s.core c).postQ = [] → (s.core c).fetched = [] → (s.core c).ended = false → (s.core c).pointLesson = none →
      ((s.core c).fetches l = true → exec (.stepIssue c) s = .next (s.prefetch c)) ∧
      ((s.core c).fetches l = false → ∃ t, exec (.stepIssue c) s = .next t ∧ t = { s with regs := t.regs, cores := t.cores } ∧
        (t.core c).fail = some ⟨(s.core c).order, .stepLimit, false, 0, 0⟩ ∧ t.fget (.lsnStatus c) LSN_STATUS_STATE = 2))

/-- R123, R124, R126, R164, R298, R734: an engine starts the step at the head of its queue: a step that tiles its weight itself discards a tile
that is pending, and a pail-list GATHER fetches its list; a performed step leaves its engine, and once no engine
holds it, it adds 1 to its event counter where DONE_EN says so; a finished preload lets the lesson fetch. Only that core and its event
counters change. -/
def Obligations.EnginesStartAndCompleteSteps : Prop :=
  ∀ (s : State) (c : Nat) (e : Engine), s.coreState c = 0 →
    (∀ t0 rest, (s.core c).queues.getD e.idx [] = t0 :: rest → (s.core c).starts e t0 = true →
      ∃ t, exec (.stepStart c e) s = .next (if e = .arrayA then t.startList c false else if e = .arrayB then t.startList c true else t) ∧
        t = { s with cores := t.cores } ∧ s.coresBut t (· = c) ∧
        let k := { s.core c with queues := (s.core c).queues.set e.idx rest, running := (s.core c).running.modify e.idx (· ++ [⟨t0, false, .ok⟩]) }
        let tiles := t0.isPass && !t0.wSlate && decide (t0.m ≠ 0) && decide (t0.n ≠ 0) && decide (t0.k ≠ 0)
        t.core c = if tiles ∧ e = .arrayA then { k with arrA := { k.arrA with pendingTile := none } }
          else if tiles ∧ e = .arrayB then { k with arrB := { k.arrB with pendingTile := none } } else k) ∧
    (∀ (order : Nat) (r : Running), ((s.core c).running.getD e.idx []).find? (fun r => decide (r.step.order = order) && r.performed) = some r →
      ¬(r.step.op = 0x10 ∧ ((e = .arrayA ∧ (s.core c).arrA.loading ≠ none) ∨ (e = .arrayB ∧ (s.core c).arrB.loading ≠ none))) →
      ∃ t, exec (.stepComplete c e order) s = .next t ∧ t = { s with regs := t.regs, cores := t.cores } ∧ s.coresBut t (· = c) ∧
        s.regsBut t (fun q => ∃ i, q = .lsnEvt c i) ∧
        t.core c = { s.core c with running := (s.core c).running.modify e.idx fun q => q.filter fun r => decide (r.step.order ≠ order) } ∧
        (∀ i < 16, t.evt c i = if r.status = .ok ∧ (t.core c).holds (fun u => decide (u.order = order)) = false ∧ r.step.doneEn = true ∧
          r.step.doneEvt = i then (s.evt c i + 1) % 2 ^ 16 else s.evt c i)) ∧
    (∀ l u, (s.core c).lesson = some l → (s.core c).preloading = true →
      (preloadCopy c l).run (s.setCore c { s.core c with tag := false }) = (.ok (), u) →
      ∃ t, exec (.preloadComplete c) s = .next (t.prefetch c) ∧ t = { u with cores := t.cores, paid := t.paid, turns := t.turns } ∧
        u.coresBut t (· = c) ∧ t.core c = { (u.core c).wait 0 none with preloading := false })

/-- R158, R162: a lesson that has met END, whose steps are complete, hands over a record of OK, or of its failure, with its flags and
its last STEP_INDEX; the core is idle. Nothing but the core, its registers, its record and the grants and turns kept for it changes. -/
def Obligations.LessonCompletesWithRecord : Prop :=
  ∀ (s : State) (c : Nat) (l : Launch), s.coreState c = 0 → (s.core c).lesson = some l → (s.core c).discard = false →
    (s.core c).quiet = true → 0 < (s.core c).issued →
    ((s.core c).ended = true → (s.core c).fail = none →
      ∃ t, exec (.lessonComplete c) s = .next t ∧
        t = { s with regs := t.regs, cores := t.cores, records := t.records, paid := t.paid, turns := t.turns } ∧
        s.coresBut t (· = c) ∧ s.regsBut t (fun r => r = .lsnStatus c ∨ ∃ a, r = .arrStat c a) ∧
        t.records = s.records ++ [⟨.core c, l.tag, b2n (s.core c).kEmpty * 2 ^ 8 + b2n (s.core c).nanCleared * 2 ^ 9 +
          ((s.core c).issued - 1) % 2 ^ 18 * 2 ^ 32, 0⟩] ∧
        (t.core c).lesson = none ∧ t.fget (.lsnStatus c) LSN_STATUS_STATE = 0 ∧ t.fget (.lsnStatus c) LSN_STATUS_LAST_STATUS = 0) ∧
    (∀ f, (s.core c).fail = some f → f.post = false →
      ∃ t r, exec (.lessonComplete c) s = .next t ∧ t.records = s.records ++ [r] ∧ r.unit = .core c ∧ r.tag = l.tag ∧ r.w1 = f.word1 ∧
        r.w0 % 2 ^ 8 = lstatusCode f.status ∧ (t.core c).lesson = none ∧ t.fget (.lsnStatus c) LSN_STATUS_STATE = 0 ∧
        t.fget (.lsnStatus c) LSN_STATUS_LAST_STATUS = lstatusCode f.status ∧
        t = { s with regs := t.regs, cores := t.cores, records := t.records, paid := t.paid, turns := t.turns } ∧ s.coresBut t (· = c))

/-- R121, R127, R153, R154, R156, R158, R171: a NOP, an END, a local signal, a satisfied local wait and a FENCE whose stream is done leave the issue point
and signal their own event; an unsatisfied wait, or a FENCE that is early, stays there. A local signal adds VALUE to its counter,
modulo 2^16; an END has STATE read ending. Only that core and those registers change. -/
def Obligations.IssuePointStepsComplete : Prop :=
  ∀ (s : State) (c : Nat) (post : Bool) (p : PointStep), p.step.post = post → p.step.syncEvt < 16 →
    let doneBut := fun (q : Reg → Prop) (v : Nat → Nat) (t : State) => t = { s with regs := t.regs, cores := t.cores } ∧ s.coresBut t (· = c) ∧
      s.regsBut t (fun r => (∃ i, r = .lsnEvt c i) ∨ q r) ∧ (t.core c).point post = none ∧ (t.core c).point (!post) = (s.core c).point (!post) ∧
      ∀ i < 16, t.evt c i = (s.evt c i + v i + if p.step.doneEn ∧ p.step.doneEvt = i then 1 else 0) % 2 ^ 16
    let done := doneBut fun _ => False
    let waits := fun (t : State) => t = { s with cores := t.cores } ∧ s.coresBut t (· = c) ∧ (t.core c).point post = some ⟨p.step, true⟩
    let none' := fun (_ : Nat) => 0
    (s.pointStep c post 0x00 none = some p → ∃ t, exec (.nopStep c post) s = .next t ∧ done none' t) ∧
    (s.pointStep c false 0x01 none = some p → post = false →
      ∃ t, exec (.endStep c) s = .next t ∧ doneBut (· = .lsnStatus c) none' t ∧ (t.core c).ended = true ∧ (t.core c).fetched = [] ∧
        t.fget (.lsnStatus c) LSN_STATUS_STATE = 2) ∧
    (s.pointStep c post 0x08 (some 1) = some p →
      ∃ t, exec (.syncSignalLocal c post) s = .next t ∧ done (fun i => if p.step.syncEvt = i then bitsOf p.step.w2 0 16 else 0) t) ∧
    (s.pointStep c post 0x08 (some 0) = some p →
      ∃ t, exec (.syncWaitLocal c post) s = .next t ∧
        if satisfies 16 (s.evt c p.step.syncEvt) (bitsOf p.step.w2 0 16) then done none' t else waits t) ∧
    (s.pointStep c post 0x09 none = some p →
      ∃ t, exec (.fenceStep c post) s = .next t ∧ if (s.core c).streamDone post then done none' t else waits t)

/-- R153 to R155, R161: a remote signal, once its stream's earlier steps are complete, adds VALUE to the far word at ADDR and
leaves the issue point; a remote wait, and each poll of it, reads the word and leaves once it satisfies VALUE; a misaligned or misplaced
ADDR ends the lesson with BAD_OPERAND; a signal whose access is held waits at the issue point. The state after the access is that of the
access itself. A remote wait that outlasts its TIMEOUT, and a local wait, in a stream or in the tutor, that outlasts WAIT_LIMIT, end the
lesson with SYNC_TIMEOUT; a TIMEOUT or a WAIT_LIMIT of 0 is no limit. -/
def Obligations.RemoteSyncsAndWaitsEnd : Prop :=
  (∀ (s u : State) (c : Nat) (post : Bool) (p : PointStep) (l : Launch), (s.core c).lesson = some l →
    (s.pointStep c post 0x08 (some 2) = some p →
      (s.syncAddrOk c p.step = false → ∃ t, exec (.syncSignalRemote c post) s = .next t ∧ t.fget (.lsnStatus c) LSN_STATUS_STATE = 2 ∧
        (t.core c).point post = none) ∧
      (s.syncAddrOk c p.step = true → (s.core c).streamDone post = false →
        ∃ t, exec (.syncSignalRemote c post) s = .next t ∧ t = { s with cores := t.cores } ∧
          t.core c = if p.step.post then { s.core c with pointPost := some ⟨p.step, true⟩ } else { s.core c with pointLesson := some ⟨p.step, true⟩ }) ∧
      (∀ a, s.syncAddrOk c p.step = true → (s.core c).streamDone post = true → coreSpace c p.step.syncAddr = .far a →
        let access := (s.atWork c p.step).farCombine (.core c) l.homeroom a .add 8 [(p.step.syncAddr % 256, p.step.w2, 0)]
        (∀ v, access = (u, .ok v) → exec (.syncSignalRemote c post) s = .next ((u.workDone c (p.step.order + 1)).pointDone c p.step)) ∧
        ∀ w, access = (u, .error (.held w)) →
          exec (.syncSignalRemote c post) s = .next ((s.workWaits u c (p.step.order + 1) w).pointWait c p.step))) ∧
    (s.pointStep c post 0x08 (some 3) = some p →
      ∀ bs, s.syncAddrOk c p.step = true →
        (s.atWork c p.step).readAt (.core c) l.homeroom (some c) ((s.atWork c p.step).roleAllows c .farOnly) p.step.syncAddr 8 = (u, .ok bs) →
        let v := u.workDone c (p.step.order + 1)
        let t := if satisfies 64 (leNat bs) p.step.w2 then v.pointDone c p.step else v.pointWait c p.step
        exec (.syncWaitRemote c post) s = .next t ∧ (p.waiting = true → exec (.syncPoll c post) s = .next t))) ∧
  (∀ (s : State) (c : Nat) (post : Bool) (p : PointStep) (l : Launch), (s.core c).lesson = some l → (s.core c).fail = none →
    let ended := fun (t : State) (x : StepRec) => t = { s with regs := t.regs, cores := t.cores } ∧ s.coresBut t (· = c) ∧
      s.regsBut t (· = .lsnStatus c) ∧ (t.core c).fail = some ⟨x.order, .syncTimeout, x.post, x.index, 0⟩ ∧
      t.fget (.lsnStatus c) LSN_STATUS_STATE = 2
    (s.pointStep c post 0x08 (some 3) = some p → p.waiting = true →
      (p.step.syncTimeout ≠ 0 → ∃ t, exec (.syncTimeout c post) s = .next t ∧ ended t p.step) ∧
      (p.step.syncTimeout = 0 → exec (.syncTimeout c post) s = .next s)) ∧
    (s.fget (.lsnCtl c) LSN_CTL_WAIT_LIMIT = 0 → ∀ w, exec (.waitLimitExpiry c w) s = .next s) ∧
    (s.fget (.lsnCtl c) LSN_CTL_WAIT_LIMIT ≠ 0 → s.pointStep c post 0x08 (some 0) = some p → p.waiting = true →
      satisfies 16 (s.evt c p.step.syncEvt) (bitsOf p.step.w2 0 16) = false →
      ∃ t, exec (.waitLimitExpiry c (if post then .postSync else .lessonSync)) s = .next t ∧ ended t p.step) ∧
    (∀ x, s.fget (.lsnCtl c) LSN_CTL_WAIT_LIMIT ≠ 0 → (s.core c).handoff = some x → (s.core c).tutor.waiting = true →
      ∃ t, exec (.waitLimitExpiry c .tutor) s = .next t ∧ ended t x ∧ (t.core c).tutor.running = false))

/-! ### Arrays, engines and the tutor -/

/-- R34, R38, R109, R124, R133, R139, R147, R149, R151, R161: an engine performs the step that it has started (a LOAD_SLATE leaves its tile loading, a
STREAM on an array or on the skim path, a GATHER whose operands are ready, a SKIM, a CONVERT, a LOAD, a STORE, a MOVE, a REDUCE). Where the
work answers a state, that state with the step marked performed is the next; where it fails, the lesson ends with the step's status;
where an access of it is held, the step stays to be performed and nothing of it has been done. -/
def Obligations.EnginesPerformSteps : Prop :=
  ∀ (s u : State) (c : Nat) (t : StepRec) (b : Bool),
    let s1 := s.atWork c t
    let left := fun (x : State) => x = { u with cores := x.cores, paid := x.paid, turns := x.turns } ∧ u.coresBut x (· = c)
    let ran := fun (w : StepM Unit) (e : Engine) (i : Instr) =>
      (w.run s1 = (.ok (), u) → ∃ x, exec i s = .next x ∧ left x ∧ x.core c = ((u.core c).wait (t.order + 1) none).performed e t.order .ok) ∧
      (∀ st, w.run s1 = (.error (.fails st), u) → st ≠ .ok → (u.core c).lesson.isSome = true →
        ∃ x, exec i s = .next x ∧ x = { u with regs := x.regs, cores := x.cores, paid := x.paid, turns := x.turns } ∧
          x.fget (.lsnStatus c) LSN_STATUS_STATE = 2 ∧ ∃ f, (x.core c).fail = some f ∧ ((u.core c).fail = none → f = t.failure st 0)) ∧
      (∀ on, w.run s1 = (.error (.waits on), u) → ∃ x, exec i s = .next x ∧ x = { s.keepHeld u with cores := x.cores } ∧ s.coresBut x (· = c) ∧
        x.core c = (s.core c).wait (t.order + 1) (some on))
    let eng := arrEngine b
    let free := (((s.core c).arr b).stalled = false) ∧ s.tileLate c b t = false
    (s.toPerform c eng 0x11 = some t → free → ran (matrixStep c t (some b)) eng (.stream c eng true)) ∧
    (s.toPerform c .skim 0x11 = some t → ran (matrixStep c t none) .skim (.stream c .skim true)) ∧
    (s.toPerform c .skim 0x13 = some t → ran (matrixStep c t none) .skim (.skim c)) ∧
    (s.toPerform c .skim 0x14 = some t → ran (convertStep c t) .skim (.convert c)) ∧
    (s.toPerform c .mover 0x20 = some t → ran (copyStep c t .loadSrc .ownDesk) .mover (.loadStep c)) ∧
    (s.toPerform c .mover 0x21 = some t → ran (copyStep c t .ownDesk .loadSrc) .mover (.storeStep c)) ∧
    (s.toPerform c .mover 0x22 = some t → ran (copyStep c t .moveEnd .moveEnd) .mover (.moveStep c)) ∧
    (s.toPerform c .mover 0x23 = some t → ran (reduceStep c t) .mover (.reduce c)) ∧
    (s.toPerform c eng 0x12 = some t → free → (matrixStep c t (some b)).run ((s.startList c b).atWork c t) = (.ok (), u) →
      exec (.gather c b true [] []) s = .next (let x := (u.workDone c (t.order + 1)).stepDone c eng t .ok 0
        if x.toPerform c eng 0x12 = some t then x else x.gatherEnds c b)) ∧
    (∀ tile, s.toPerform c eng 0x10 = some t → (slateTile c t).run s1 = (.ok tile, u) →
      ∃ x, exec (.loadSlate c b) s = .next x ∧ left x ∧
        ((x.core c).arr b).loading = some tile ∧ ((x.core c).arr b).active = ((u.core c).arr b).active)

/-- R37, R38, R124, R130 to R132, R142, R149, R217, R220, R733: steps of the mover and LOAD_SLATE whose operands are sound complete. A LOAD, a
STORE or a MOVE on the core's own memories copies its rows: a row whose destination no other row and no source meets holds its source's
bytes, and no other byte changes. A REDUCE on one cached line leaves each element combined with that of the source and counts one operation.
A LOAD_SLATE whose fields and record are accepted leaves its tile loading. -/
def Obligations.OwnMemoryCopiesComplete : Prop :=
  ∀ (s : State) (c : Nat) (t : StepRec) (b : Bool), c < 256 → s.ownSound c → memWf s.desk = true → memWf s.slice = true →
    let n := t.rowBytes
    let copies := fun (ms md : NearMem) (i : Instr) =>
      (∀ r ∈ t.copyRows, (∃ o, r.1 = ownAddr ms c o ∧ o + n ≤ ms.size) ∧ ∃ o, r.2 = ownAddr md c o ∧ o + n ≤ md.size) →
        ∃ x, exec i s = .next x ∧ s.stepRan x c .mover t ∧ (x.core c).sansWork = (s.core c).sansWork ∧
          (∀ m o, o < m.size → (m ≠ md ∨ ∀ r ∈ t.copyRows, ownAddr m c o < r.2 ∨ r.2 + n ≤ ownAddr m c o) →
            x.nearBytes m c o 1 = s.nearBytes m c o 1) ∧
          ∀ o1 o2, (ownAddr ms c o1, ownAddr md c o2) ∈ t.copyRows →
            (∀ r ∈ t.copyRows, r.2 = ownAddr md c o2 → r.1 = ownAddr ms c o1) →
            (∀ r ∈ t.copyRows, r.2 ≠ ownAddr md c o2 → r.2 + n ≤ ownAddr md c o2 ∨ ownAddr md c o2 + n ≤ r.2) →
            (∀ r ∈ t.copyRows, ∀ q ∈ t.copyRows, r.2 + n ≤ q.1 ∨ q.1 + n ≤ r.2) →
            x.nearBytes md c o2 n = s.nearBytes ms c o1 n
    (s.toPerform c .mover 0x20 = some t → copies .slice .desk (.loadStep c)) ∧
    (s.toPerform c .mover 0x21 = some t → copies .desk .slice (.storeStep c)) ∧
    (s.toPerform c .mover 0x22 = some t → copies .slice .slice (.moveStep c)) ∧
    (∀ o a pa, s.toPerform c .mover 0x23 = some t →
      let op := (reduceOp (bitsOf t.w0 16 4)).1
      let w := (reduceOp (bitsOf t.w0 16 4)).2
      let dst := bitsOf t.w2 0 48
      let len := bitsOf t.w3 0 32
      let bytes := fun (y : State) (k l : Nat) => ((y.lineData (pa / 256)).drop k).take l
      let stat := Reg.scStat (s.lineAt (pa / 256 * 256)).slice
      0 < len → len % w = 0 → dst % w = 0 → dst % 256 + len ≤ 256 → bitsOf t.w1 0 48 = ownAddr .desk c o → o + len ≤ NearMem.desk.size →
      coreSpace c dst = .far a → s.translate (s.lessonHr c) a = .ok pa → pa % 256 = dst % 256 → s.lineSound (.core c) pa →
      ∃ x, exec (.reduce c) s = .next x ∧ (x.core c).running = ((s.core c).performed .mover t.order .ok).running ∧
        (∀ d, (x.core d).sansWork = (s.core d).sansWork) ∧
        x.fget stat SC_STAT_ATOMICS = min (s.fget stat SC_STAT_ATOMICS + 1) (2 ^ SC_STAT_ATOMICS.width - 1) ∧ s.regsBut x (· = stat) ∧
        s.memoryKept x ∧ (∀ g, g ≠ pa / 256 → x.lineData g = s.lineData g) ∧
        (∀ j < len / w, bytes x (dst % 256 + w * j) w =
          leBytes w (atomNew op w (leNat (bytes s (dst % 256 + w * j) w)) (leNat (s.nearBytes .desk c (o + w * j) w)) 0)) ∧
        ∀ k, k < dst % 256 ∨ dst % 256 + len ≤ k → bytes x k 1 = bytes s k 1) ∧
    ∀ cls r, s.toPerform c (arrEngine b) 0x10 = some t → t.engine < 2 → classOf (bitsOf t.w0 19 2) = some cls →
      ((readRec c (bitsOf t.w2 0 18)).run (s.atWork c t)).1 = .ok r → loadable cls r.fmt = true → r.fmt ≠ .split → t.transpose = false →
      bitsOf t.w1 0 20 % tileK cls = 0 → 1 ≤ bitsOf t.w1 40 8 → bitsOf t.w1 40 8 ≤ tileK cls → 1 ≤ bitsOf t.w1 48 8 → bitsOf t.w1 48 8 ≤ 128 →
      (isMx r.fmt = true → bitsOf t.w1 40 8 % 32 = 0) → bitsOf t.w3 0 20 = 0 →
      r.shaped (bitsOf t.w1 0 20 + bitsOf t.w1 40 8) (isMx r.fmt) false = true →
      r.inOwn c [.desk, .slice] (rangeFrom (bitsOf t.w1 20 20) (bitsOf t.w1 48 8)) (bitsOf t.w1 0 20 + bitsOf t.w1 40 8) →
      ∃ x tile, exec (.loadSlate c b) s = .next x ∧ ((x.core c).arr b).loading = some tile ∧ tile.cls = cls ∧ tile.fmt = r.fmt ∧
        ((x.core c).arr b).active = ((s.core c).arr b).active ∧ ((x.core c).arr (!b)) = (s.core c).arr (!b) ∧ s.memoryKept x ∧
        s.coresBut x (· = c)

/-- R56 to R60, R90 to R94, R101 to R107, R109, R124, R131, R132, R139, R147: a SKIM, or a STREAM on the skim path, and a CONVERT whose records
are accepted and whose operands lie in the core's own sound memories complete: each line of the output holds the sums of products,
or the source's elements, converted to its format. Stated without RND, INIT, the split format and MX outputs. -/
def Obligations.SkimEngineCompletes : Prop :=
  ∀ (s : State) (c : Nat) (t : StepRec), c < 256 → s.ownSound c → memWf s.desk = true → memWf s.slice = true → t.rnd = false →
    t.m ≠ 0 → t.k ≠ 0 →
    (∀ i, (i = Instr.skim c ∧ s.toPerform c .skim 0x13 = some t) ∨ (i = .stream c .skim true ∧ s.toPerform c .skim 0x11 = some t) →
      ∀ k w, ((checkStep c t none).run (s.atWork c t)).1 = .ok k → k.w = some w → t.n ≠ 0 → t.init = 0 → w.fmt ≠ .split →
      k.a.inOwn c [.desk] (List.range t.m) t.red → w.inOwn c [.desk, .slice] (List.range t.n) t.k →
      k.o.inOwn c [.desk] (List.range t.m) t.outs →
      let x := s.ownOperand c k.a (List.range t.m) t.red
      let y := s.ownOperand c w (List.range t.n) t.k
      let p : Product := ⟨t.red, groupLen k.cls t.transpose, decide (k.cls = .multi), x.elem, fun r o => if t.transpose then y.elem r o else y.elem o r,
        fun _ _ => []⟩
      ∃ u, exec i s = .next u ∧ s.stepRan u c .skim t ∧
        ∀ m < t.m, u.ownBytes c (k.o.base + m * k.o.lineStride) (packedBytes k.o.fmt t.outs) =
          packElems k.o.fmt ((List.range t.outs).map fun o => convertOut k.o.fmt .nearest t.sat (p.acc 0 m o))) ∧
    (∀ src dst, s.toPerform c .skim 0x14 = some t → ((readRec c (bitsOf t.w2 0 18)).run (s.atWork c t)).1 = .ok src →
      ((readRec c (bitsOf t.w2 18 18)).run (s.atWork c t)).1 = .ok dst → src.fmt ≠ .split → isConvertOut dst.fmt = true → isMx dst.fmt = false →
      src.shaped t.k (isMx src.fmt) false = true → dst.shaped t.k false false = true →
      src.inOwn c [.desk] (List.range t.m) t.k → dst.inOwn c [.desk] (List.range t.m) t.k →
      ∃ u, exec (.convert c) s = .next u ∧ s.stepRan u c .skim t ∧
        ∀ l < t.m, u.ownBytes c (dst.base + l * dst.lineStride) (packedBytes dst.fmt t.k) =
          packElems dst.fmt ((List.range t.k).map fun e =>
            convertElem dst.fmt .nearest t.sat (rneFp32 ((s.ownOperand c src (List.range t.m) t.k).elem l e))))

/-- R39 to R41, R48 to R51, R75: an array whose operands are not ready freezes and counts one freeze; released, it goes on; a late row of a GATHER
waits with up to four partial sums, its full buffer counted, until its data comes, and a column that refuses results holds up to four, with
which the array freezes; a slate load completes as the pending tile; a hung array ends
its lesson with ARRAY_HUNG and counts a hang. Only the core and the array's statistics change. -/
def Obligations.ArraysFreezeAndGoOn : Prop :=
  ∀ (s : State) (c : Nat) (b : Bool) (t : StepRec),
    let eng := arrEngine b
    let a := (s.core c).arr b
    let stat := Reg.arrStat c (b2n b)
    let only := fun (x : State) => x = { s with regs := x.regs, cores := x.cores } ∧ s.coresBut x (· = c) ∧ s.regsBut x (· = stat) ∧
      (x.core c).arr (!b) = (s.core c).arr (!b)
    let freezes := min (s.fget stat ARR_STAT_FREEZES + 1) (2 ^ 32 - 1)
    (s.toPerform c eng 0x11 = some t → a.stalled = false →
      ∃ x, exec (.stream c eng false) s = .next x ∧ only x ∧ (x.core c).arr b = { a with frozen := true } ∧ x.fget stat ARR_STAT_FREEZES = freezes) ∧
    (s.toPerform c eng 0x12 = some t → a.stalled = false →
      (∃ x, exec (.gather c b false [] []) s = .next x ∧ only x ∧ (x.core c).arr b = { a with frozen := true } ∧
        x.fget stat ARR_STAT_FREEZES = freezes) ∧
      (∀ r < 64, ∀ n, s.tileLate c b t = false → ∃ x, exec (.gather c b true [(r, n)] []) s = .next x ∧ only x ∧
        (x.core c).arr b = { a with lateRows := [(r, min n (min 4 t.m))] } ∧
        x.fget stat ARR_STAT_SKID_FULLS = if 4 ≤ n ∧ 4 ≤ t.m then min (s.fget stat ARR_STAT_SKID_FULLS + 1) (2 ^ 16 - 1)
          else s.fget stat ARR_STAT_SKID_FULLS) ∧
      (∀ k < 128, ∀ n, s.tileLate c b t = false → ∃ x, exec (.gather c b true [] [(k, n)]) s = .next x ∧ only x ∧
        (x.core c).arr b = { a with heldCols := [(k, min n (min 4 t.m))], frozen := decide (4 ≤ n ∧ 4 ≤ t.m) } ∧
        x.fget stat ARR_STAT_FREEZES = if 4 ≤ n ∧ 4 ≤ t.m then freezes else s.fget stat ARR_STAT_FREEZES)) ∧
    (((s.core c).running.getD eng.idx []).find? (fun r => !r.performed) = none →
      ∃ x, exec (.freezeRelease c b) s = .next x ∧ only x ∧ (x.core c).arr b = { a with frozen := false, heldCols := [] }) ∧
    (∀ r, ∃ x, exec (.gatherRowData c b r) s = .next x ∧ only x ∧ (x.core c).arr b = { a with lateRows := smDel a.lateRows r }) ∧
    (∀ tile, a.loading = some tile → s.coreState c = 0 →
      ∃ x, exec (.slateLoadComplete c b) s = .next x ∧ only x ∧ (x.core c).arr b = { a with loading := none, pendingTile := some tile }) ∧
    (a.frozen = true → (s.core c).lesson.isSome = true → s.fget (.arrCtl c (b2n b)) ARR_CTL_WDOG_LIMIT ≠ 0 → s.coreState c = 0 →
      s.fget stat ARR_STAT_HANGS < 2 → (s.core c).fail = none →
      ∃ x, exec (.arrayHung c b) s = .next x ∧ x.fget stat ARR_STAT_HANGS = s.fget stat ARR_STAT_HANGS + 1 ∧ s.coresBut x (· = c) ∧
        s.regsBut x (fun r => r = stat ∨ r = .lsnStatus c) ∧ (x.core c).arr b = { a with frozen := false, heldCols := [], lateRows := [] } ∧
        ∀ r, ((s.core c).running.getD eng.idx []).find? (fun r => !r.performed && r.step.isPass) = some r →
          ∃ f, (x.core c).fail = some f ∧ f.status = .arrayHung)

/-- R157, R165, R166, R168, R170: HANDOFF starts the routine at ENTRY with a0 and a1 loaded, every other register kept; each instruction that the tutor
performs moves pc on and counts as retired; `twait` unsatisfied waits; `tdone` ends the routine with OK or TUTOR_ABORT; an exception
ends the lesson with TUTOR_FAULT and the instruction's address and cause. -/
def Obligations.TutorRunsItsRoutine : Prop :=
  ∀ (s u v : State) (c i len : Nat) (t : StepRec), s.coreState c = 0 →
    (s.toPerform c .tutor 0x30 = some t → (s.core c).tutor.running = false →
      ∃ x, exec (.handoff c) s = .next x ∧ x = { s with cores := x.cores } ∧ s.coresBut x (· = c) ∧
        (x.core c).tutor = { (s.core c).tutor with pc := bitsOf t.w1 0 48, running := true, waiting := false,
                                                   x := ((s.core c).tutor.x.set 10 (t.w2 % 2 ^ 64)).set 11 (t.w3 % 2 ^ 64) }) ∧
    ((s.core c).handoff = some t → (tFetch c (s.core c).tutor.pc).run s = (.ok (i, len), u) →
      let pc := (s.core c).tutor.pc
      let rows := Instr.tutorInstruction c :: (if i % 128 = 0x0B ∧ iF7 i = 0 then
        (if iF3 i = 0 then [.tpost c] else if iF3 i = 1 then [.twait c] else if iF3 i = 2 then [.tevt c] else if iF3 i = 3 then [.tsig c]
          else if iF3 i = 4 then [.tdone c] else []) else [])
      ∀ row ∈ rows,
        (∀ next, (tPerform c i pc (w64 (pc + len))).run u = (.ok (.go next), v) →
          ∃ x, exec row s = .next x ∧ x = { v with cores := x.cores, paid := x.paid, turns := x.turns } ∧ v.coresBut x (· = c) ∧
            x.core c = { v.core c with tutor := { (v.core c).tutor with pc := next, waiting := false,
                                                                        instret := ((v.core c).tutor.instret + 1) % 2 ^ 64 } }) ∧
        ((tPerform c i pc (w64 (pc + len))).run u = (.ok .wait, v) →
          ∃ x, exec row s = .next x ∧ x = { v with cores := x.cores } ∧
            x.core c = { v.core c with tutor := { (v.core c).tutor with waiting := true } }) ∧
        (∀ code, (tPerform c i pc (w64 (pc + len))).run u = (.ok (.done code), v) → (v.core c).lesson.isSome = true → (v.core c).fail = none →
          ∃ x, exec row s = .next x ∧ x = { v with regs := x.regs, cores := x.cores, paid := x.paid, turns := x.turns } ∧
            (x.core c).tutor.running = false ∧ (x.core c).fail = if code = 0 then none else some (t.failure .tutorAbort code)) ∧
        (∀ cause, (tPerform c i pc (w64 (pc + len))).run u = (.error (some cause), v) → (v.core c).lesson.isSome = true →
          (v.core c).fail = none →
          ∃ x, exec row s = .next x ∧ x = { v with regs := x.regs, cores := x.cores, paid := x.paid, turns := x.turns } ∧
            (x.core c).fail = some (t.failure .tutorFault (pc % 2 ^ 48 + cause % 2 ^ 8 * 2 ^ 48))))

/-- R152, R168, R169: what the Dyalmora instructions do. `tpost` puts a step from the desk at the end of the post queue, `twait` and `tevt`
read a counter, `tsig` adds to one, `tdone` gives its code. A state that a rule does not name is unchanged. -/
def Obligations.DyalmoraInstructionsAct : Prop :=
  ∀ (s : State) (c i next : Nat), (s.core c).tutor.x.length = 32 → iF7 i = 0 →
    let x := fun (r : Nat) => if r = 0 then 0 else (s.core c).tutor.x.getD r 0
    let n := x (iRs1 i) % 16
    let put := fun (v : Nat) (t : State) => t = { s with cores := t.cores } ∧ s.coresBut t (· = c) ∧
      t.core c = { s.core c with tutor := { (s.core c).tutor with x := if iRd i = 0 then (s.core c).tutor.x else (s.core c).tutor.x.set (iRd i) v } }
    (iF3 i = 2 → ∃ t, (tDyalmora c i next).run s = (.ok (.go next), t) ∧ put (s.evt c n) t) ∧
    (iF3 i = 3 → ∃ t, (tDyalmora c i next).run s = (.ok (.go next), t) ∧ t = { s with regs := t.regs } ∧
      s.regsBut t (fun r => ∃ j, r = .lsnEvt c j) ∧ t.evt c n = (s.evt c n + x (iRs2 i) % 2 ^ 16) % 2 ^ 16) ∧
    (iF3 i = 1 → satisfies 16 (s.evt c n) (x (iRs2 i) % 2 ^ 16) = true → ∃ t, (tDyalmora c i next).run s = (.ok (.go next), t) ∧ put (s.evt c n) t) ∧
    (iF3 i = 1 → satisfies 16 (s.evt c n) (x (iRs2 i) % 2 ^ 16) = false → (tDyalmora c i next).run s = (.ok .wait, s)) ∧
    (iF3 i = 4 → (tDyalmora c i next).run s = (.ok (.done (x (iRs1 i))), s)) ∧
    (∀ u bs, iF3 i = 0 → (∃ o, coreSpace c (x (iRs1 i)) = .desk c o) → x (iRs1 i) % 32 = 0 → (s.core c).postQ.length < 8 →
      s.readAt (.tutor c) (s.lessonHr c) (some c) (s.roleAllows c .tutor) (x (iRs1 i)) 32 = (u, .ok bs) →
      ∃ t, (tDyalmora c i next).run s = (.ok (.go next), t) ∧ t = { u with cores := t.cores } ∧
        t.core c = { u.core c with postQ := (u.core c).postQ ++ [stepOf bs true 0 0 false] })

/-! ### Cores beside their lessons -/

/-- R65, R66, R73, R76, R77, R192, R368: a fence cause starts a fence in a core that is in service, with its cause, and ends a fill or clear of its
slice; a fence request comes from the host with
cause 3 or from the office with cause 4; an unfence that is honoured starts recovery in a fenced core, which
resets the island of its slice's controller, and waits behind a fence that is under way. Nothing else changes. -/
def Obligations.FencesStartAndEnd : Prop :=
  ∀ (s : State) (c cause : Nat) (w : RegWrite), cause < 256 →
    let fenced := fun (k : Nat) (t : State) => t = { s with regs := t.regs } ∧
      s.regsBut t (fun r => r = .coreStatus c ∨ r = .nearStatus c) ∧
      t.fget (.nearStatus c) NEAR_STATUS_STATE = (let n := s.fget (.nearStatus c) NEAR_STATUS_STATE
        if n = 1 ∨ n = 3 then 0 else n) ∧
      t.fget (.coreStatus c) CORE_STATUS_STATE = 1 ∧ t.fget (.coreStatus c) CORE_STATUS_CAUSE = k ∧
      t.fget (.coreStatus c) CORE_STATUS_LATE_DROPS = s.fget (.coreStatus c) CORE_STATUS_LATE_DROPS
    let x := s.written (.coreFenceCtl c) w
    (s.coreState c = 0 → 1 ≤ cause → cause ≤ 9 → cause ≠ 6 → ∃ t, exec (.coreFence c cause) s = .next t ∧ fenced cause t) ∧
    (s.coreState c = 0 → s.admits w.master (.coreFenceCtl c) = true → x.hit CORE_FENCE_CTL_FENCE = true →
      ∃ t, exec (.coreFenceRequest c w) s = .next t ∧ fenced (if w.master = .office then 4 else 3) t) ∧
    (s.admits w.master (.coreFenceCtl c) = true → x.hit CORE_FENCE_CTL_FENCE = false → x.hit CORE_FENCE_CTL_UNFENCE = true →
      unfenceHonoured w.master (s.fget (.coreStatus c) CORE_STATUS_CAUSE) = true →
      (s.coreState c = 2 → ∃ t, exec (.unfence c w) s = .next t ∧ t = { s with regs := t.regs, xings := t.xings } ∧
        s.regsBut t (fun r => r = .coreStatus c ∨ r = .nearStatus c ∨ ∃ i, islandSel 3 (c % 64) i = true ∧ r = .xingStatus (c / 64) i) ∧
        (∀ i, islandSel 3 (c % 64) i = true → t.get (.xingStatus (c / 64) i) = resetWord s.variant (.xingStatus (c / 64) i)) ∧
        t.fget (.coreStatus c) CORE_STATUS_STATE = 3 ∧
        t.fget (.nearStatus c) NEAR_STATUS_STATE = 1) ∧
      (s.coreState c = 1 → ∃ t, exec (.unfence c w) s = .next t ∧ t = { s with regs := t.regs, cores := t.cores } ∧
        s.regsBut t (· = .coreStatus c) ∧ s.coresBut t (· = c) ∧ t.fget (.coreStatus c) CORE_STATUS_ENABLE_PENDING = 1 ∧
        t.coreState c = 1 ∧ (t.core c).unfenceBy.isSome = true)) ∧
    (s.coreState c ≠ 0 → ∃ t, exec (.lateReply c) s = .next t ∧ t = { s with regs := t.regs } ∧ s.regsBut t (· = .coreStatus c) ∧
      t.fget (.coreStatus c) CORE_STATUS_LATE_DROPS = min (s.fget (.coreStatus c) CORE_STATUS_LATE_DROPS + 1) (2 ^ 16 - 1))

/-- R66, R72, R640, R680: a fence that completes leaves the core fenced, its lesson ended and every byte of its desk and slice reading 0, and
far memory as it was where no STORE or MOVE was cut off; a warm recovery that passes returns the core to service with its memories zero, and one that fails fences the core with cause 2, a failed
self-test of a checker showing in REL_STATUS. -/
def Obligations.FencedCoresAreEmptied : Prop :=
  ∀ (s : State) (c : Nat), s.memoriesWf = true → c < 256 →
    let empty := fun (t : State) => (∀ o < sliceBytes, memByte t.slice (sliceKey c o) = 0#8) ∧ ∀ o < deskBytes, memByte t.desk (deskKey c o) = 0#8
    (s.coreState c = 1 → ∃ t, exec (.fenceComplete c) s = .next t ∧ empty t ∧ (t.core c).lesson = none ∧
      ((∀ r ∈ (s.core c).running.getD Engine.mover.idx [], r.step.op ≠ 0x21 ∧ r.step.op ≠ 0x22) → t.far = s.far) ∧
      ((s.core c).unfenceBy = none → t.coreState c = 2)) ∧
    (s.coreState c = 3 → ∃ t, exec (.warmRecoveryComplete c .pass) s = .next t ∧ empty t ∧ t.far = s.far ∧ t.coreState c = 0 ∧
      t.fget (.nearStatus c) NEAR_STATUS_STATE = 2) ∧
    (∀ f, f ≠ RollResult.pass → s.coreState c = 3 → ∃ t, exec (.warmRecoveryComplete c f) s = .next t ∧ t.coreState c = 1 ∧
      t.fget (.coreStatus c) CORE_STATUS_CAUSE = 2 ∧ t.far = s.far ∧ t.slice = s.slice ∧ t.desk = s.desk ∧
      (f = .selfTest → t.fget .relStatus REL_STATUS_SELFTEST_FAIL = 1))

/-- R64, R78, R79, R113 to R118, R239, R263, R334, R346, R396, R446, R449, R510: a rate window shows its counts and starts again at 0; a
seed takes its register's value, and its generators load it; ARR_CTL.CLEAR clears FREEZES and SKID_FULLS and no other statistic. The CLEAR
bit of a statistics register, written as 1, clears its fields, and no other register changes. -/
def Obligations.CoreRatesSeedsAndStatistics : Prop :=
  (∀ (s : State) (c : Nat) (b : Bool) (g : GenSet) (w : RegWrite),
    (∃ t, exec (.rateWindow c) s = .next t ∧ t = { s with regs := t.regs, cores := t.cores } ∧ s.regsBut t (· = .coreRate c) ∧
      s.coresBut t (· = c) ∧ t.fget (.coreRate c) CORE_RATE_STEPS_A = (s.core c).arrA.steps % 2 ^ 32 ∧
      t.fget (.coreRate c) CORE_RATE_STEPS_B = (s.core c).arrB.steps % 2 ^ 32 ∧
      t.core c = { s.core c with arrA := { (s.core c).arrA with steps := 0 }, arrB := { (s.core c).arrB with steps := 0 } }) ∧
    (s.admits w.master (seedReg c g) = true →
      ∃ t, exec (.seedWrite c g w) s = .next t ∧ t = { s with regs := t.regs, cores := t.cores } ∧ s.regsBut t (· = seedReg c g) ∧
        t.get (seedReg c g) = (s.written (seedReg c g) w).new ∧ s.coresBut t (· = c)) ∧
    ((s.core c).skimReload = true → ∃ t, exec (.seedLoad c .skim) s = .next t ∧ t = { s with cores := t.cores } ∧ s.coresBut t (· = c) ∧
      (t.core c).skimReload = false ∧ (t.core c).skimGens = [] ∧ (t.core c).skimSeed = s.fget (.coreSkimSeed c) CORE_SKIM_SEED_SEED) ∧
    (s.admits w.master (.arrCtl c (b2n b)) = true → (s.written (.arrCtl c (b2n b)) w).hit ARR_CTL_CLEAR = true →
      ∃ t, exec (.arrStatClear c b w) s = .next t ∧ t = { s with regs := t.regs } ∧
        s.regsBut t (fun r => r = .arrCtl c (b2n b) ∨ r = .arrStat c (b2n b)) ∧ t.fget (.arrStat c (b2n b)) ARR_STAT_FREEZES = 0 ∧
        t.fget (.arrStat c (b2n b)) ARR_STAT_SKID_FULLS = 0 ∧
        t.fget (.arrStat c (b2n b)) ARR_STAT_HANGS = s.fget (.arrStat c (b2n b)) ARR_STAT_HANGS)) ∧
  (∀ (s : State) (n m : Nat) (w : RegWrite) (row : Instr × Reg × Fld × List Fld),
    row ∈ [(Instr.scStatClear n w, Reg.scStat n, SC_STAT_CLEAR, [SC_STAT_MERGES, SC_STAT_ATOMICS]),
      (.ldlStatClear n w, .ldlStat n, LDL_STAT_CLEAR, [LDL_STAT_ROW_STEPS, LDL_STAT_REFRESH_INSERTS, LDL_STAT_FAILS, LDL_STAT_LATE_DROPS]),
      (.meshStatClear n w, .meshStat n, MESH_STAT_CLEAR, [MESH_STAT_EJECT_HOLDS]),
      (.d2dStatClear n w, .d2dStat n, D2D_STAT_CLEAR, [D2D_STAT_LATE_DROPS]),
      (.linkStatClear n w, .linkStat n, LINK_STAT_CLEAR, [LINK_STAT_LATE_DROPS, LINK_STAT_HOP_EXPIRED, LINK_STAT_MALFORMED]),
      (.linkPortStatClear n m w, .linkPortStat n m, LINK_PORT_STAT_CLEAR,
        [LINK_PORT_STAT_CORRECTED, LINK_PORT_STAT_UNCORRECTED, LINK_PORT_STAT_REPLAYS]),
      (.ringAdmitStatClear w, .ringAdmitStat, RING_ADMIT_STAT_CLEAR,
        [RING_ADMIT_STAT_DEFERRALS, RING_ADMIT_STAT_ROTATIONS, RING_ADMIT_STAT_HELD_FIRST])] →
    s.admits w.master row.2.1 = true → (s.written row.2.1 w).hit row.2.2.1 = true →
    ∃ t, exec row.1 s = .next t ∧ t = { s with regs := t.regs } ∧ s.regsBut t (· = row.2.1) ∧ ∀ f ∈ row.2.2.2, t.fget row.2.1 f = 0)

/-! ### Slices -/

/-- R174 to R177, R188, R342, R632: a request to a slice in service is served at once, in order, unless its port is frozen, where it waits; a write
stores its bytes and no others; a read answers the bytes stored there, and one that meets a granule that fails its check answers an error
and is recorded in NEAR_ERR. A request from another source is a bus error to it. Where a clause says so, the flip mask is disarmed and no granule fails. -/
def Obligations.SliceRequestsServeTheirBytes : Prop :=
  ∀ (s : State) (c grain off : Nat) (src : SliceSource) (acc : SliceAccess), s.coreUsable c = true → 256 * grain < sliceBytes →
    let rq := src.requester c
    let a := sliceKey c (256 * grain + off)
    (∀ q, src = .other q → exec (.sliceRequest c grain src acc) s = .next { s with out := s.out ++ [.replyError q .unbacked] }) ∧
    (src.foreign = false → src ≠ .engine → s.arbFrozen (c / 64) (slicePort c) = true → (s.near c).outstanding.length < 64 →
      exec (.sliceRequest c grain src acc) s =
        .next (s.setNear c { s.near c with outstanding := (s.near c).outstanding ++ [⟨grain, src, acc⟩] })) ∧
    (src.foreign = false → src = .engine ∨ s.arbFrozen (c / 64) (slicePort c) = false → (s.near c).outstanding = [] →
      (∀ bs, acc = .write off bs → memWf s.slice = true → off + bs.length ≤ 256 → bs ≠ [] → s.fget .relFlipSel REL_FLIP_SEL_ARM = 0 →
        s.slips = [] → (∀ g ∈ partGranules (256 * grain + off) bs.length, s.nearDiff .slice c g = 0) →
        ∃ t, exec (.sliceRequest c grain src acc) s = .next t ∧ t.out = s.out ++ [.reply rq []] ∧
          t = { s with slice := t.slice, sliceChk := t.sliceChk, slices := t.slices, out := t.out } ∧ memWf t.slice = true ∧
          (∀ i < bs.length, memByte t.slice (a + i) = bs.getD i 0#8) ∧
          ∀ x, x < a ∨ a + bs.length ≤ x → memByte t.slice x = memByte s.slice x) ∧
      (∀ len transient, acc = .read off len transient → off + len ≤ 256 →
        let gs := granules (256 * grain + off) len
        (s.slips = [] → (∀ g ∈ gs, s.nearDiff .slice c g = 0) → ∃ t, exec (.sliceRequest c grain src acc) s = .next t ∧
          t = { s with regs := t.regs, slices := t.slices, out := t.out } ∧ s.regsBut t (· = .nearErr c) ∧
          t.out = s.out ++ [.reply rq ((List.range len).map fun i => memByte s.slice (a + i))]) ∧
        ∀ g ∈ gs, s.nearDiff .slice c g ≠ 0 → ∃ t, exec (.sliceRequest c grain src acc) s = .next t ∧
          t.slice = s.slice ∧ t.fget (.nearErr c) NEAR_ERR_VALID = 1 ∧ t.out.getLast? = some (.replyError rq .check)))

/-- R180, R181, R187, R193, R194, R196, R190 to R192, R198: a refresh is issued with those owed, or owed while the bank is busy and fewer
than eight are; an idle channel powers down where IDLE_LIMIT allows it; a layer offset takes a written value that is not above its fused
one. Nothing else changes. A fill or a clear that completes leaves every byte of its slice at 0, clears the counts of NEAR_ERR and makes
the slice ready; a core that moves to another homeroom has its slice cleared once no lesson runs. -/
def Obligations.SliceControllersRefreshIdleAndFill : Prop :=
  (∀ (s : State) (c : Nat) (w : RegWrite),
    let only := fun (t : State) => t = { s with slices := t.slices } ∧ ∀ d, d ≠ c → t.near d = s.near d
    (∀ bank, s.fget (.nearStatus c) NEAR_STATUS_STATE ≠ 0 →
      let owed := smGet 0 (s.near c).owed bank
      (owed < 8 → ∃ t, exec (.sliceRefresh c bank true) s = .next t ∧ only t ∧ smGet 0 (t.near c).owed bank = owed + 1 ∧
        (t.near c).rowPtr = (s.near c).rowPtr) ∧
      ∃ t, exec (.sliceRefresh c bank false) s = .next t ∧ only t ∧ smGet 0 (t.near c).owed bank = 0 ∧
        smGet 0 (t.near c).rowPtr bank = (smGet 0 (s.near c).rowPtr bank + (owed + 1)) % 768) ∧
    (∀ ch, s.fget (.nearCtl c) NEAR_CTL_IDLE_LIMIT ≠ 0 → ∃ t, exec (.channelPowerDown c ch) s = .next t ∧ only t ∧
      (t.near c).poweredDown.testBit ch = true ∧ ∀ k, k ≠ ch → (t.near c).poweredDown.testBit k = (s.near c).poweredDown.testBit k) ∧
    (∀ ch, s.fget (.nearCtl c) NEAR_CTL_IDLE_LIMIT = 0 → exec (.channelPowerDown c ch) s = .next s) ∧
    (s.admits w.master (.nearLayerOffset c) = true → ∃ t, exec (.layerOffsetWrite c w) s = .next t ∧ t = { s with regs := t.regs } ∧
      s.regsBut t (· = .nearLayerOffset c) ∧
      ∀ f ∈ [NEAR_LAYER_OFFSET_OFS0, NEAR_LAYER_OFFSET_OFS1, NEAR_LAYER_OFFSET_OFS2, NEAR_LAYER_OFFSET_OFS3],
        t.fget (.nearLayerOffset c) f =
          let v := (s.written (.nearLayerOffset c) w).field f
          if v ≤ fldGet (s.resetOf (.nearLayerOffset c)) f then v else s.fget (.nearLayerOffset c) f)) ∧
  (∀ (s : State) (c : Nat), memWf s.slice = true →
    (s.fget (.nearStatus c) NEAR_STATUS_STATE = 1 ∨ s.fget (.nearStatus c) NEAR_STATUS_STATE = 3 → (s.core c).waitingLaunch = none →
      ∃ t, exec (.sliceFillComplete c) s = .next t ∧ (∀ o < sliceBytes, memByte t.slice (sliceKey c o) = 0#8) ∧
        (∀ a, a < sliceKey c 0 ∨ sliceKey (c + 1) 0 ≤ a → memByte t.slice a = memByte s.slice a) ∧
        t.fget (.nearStatus c) NEAR_STATUS_STATE = 2 ∧ t.fget (.nearErr c) NEAR_ERR_FAILED = 0 ∧ t.fget (.nearErr c) NEAR_ERR_RETRIED = 0 ∧
        s.regsBut t (fun r => r = .nearStatus c ∨ r = .nearErr c) ∧
        t = { s with regs := t.regs, slice := t.slice, sliceChk := t.sliceChk, slices := t.slices, cores := t.cores }) ∧
    ((s.near c).clearPending = true → (s.core c).lesson = none → s.fget (.nearStatus c) NEAR_STATUS_STATE = 2 →
      ∃ t, exec (.sliceClear c) s = .next t ∧ t = { s with regs := t.regs } ∧ s.regsBut t (· = .nearStatus c) ∧
        t.fget (.nearStatus c) NEAR_STATUS_STATE = 3))

/-! ### Far memory, the separator and the shared cache -/

/-- R69, R210, R211, R213 to R217, R223, R254: a request for a far line whose set or rows hold accesses is held; a write or update of a fenced
core is not performed; a read of a line that is not cached starts a fill and asks the far port for it; a read that misses on sectors that a
pending fill brings joins it and counts a merge, and one that misses on others waits without one. Nothing is answered yet and no memory
changes. -/
def Obligations.SharedCacheHoldsFillsAndMerges : Prop :=
  ∀ (s : State) (rq : Requester) (hr pa len : Nat) (bs : List Byte) (op : AtomOp) (width v x : Nat), s.lineErr pa = none →
    let c := s.lineAt pa
    let q : ScReq := ⟨rq, hr, pa, .read len, false⟩
    let w : ScReq := ⟨rq, hr, pa, .write bs, false⟩
    let a : ScReq := ⟨rq, hr, pa, .atomic op width v x, false⟩
    let secs := sectorsFor c.narrow (pa % 256) len
    let port := s.farPort (s.fillSite c)
    let r := s.fillReq c hr (if c.narrow then secs.length else 1) false
    (s.cutOff w = true → exec (.scWrite rq hr pa bs) s = .next s ∧ exec (.scAtomic rq hr pa op width v x) s = .next s) ∧
    (s.linked rq (c.loc.site / 3) = true →
      (s.farBlocked pa false = true → exec (.scRead rq hr pa len false) s = .next { s with heldAccess := s.heldAccess ++ [q] }) ∧
      (s.cutOff w = false → s.farBlocked pa true = true →
        exec (.scWrite rq hr pa bs) s = .next { s with heldAccess := s.heldAccess ++ [w] } ∧
        exec (.scAtomic rq hr pa op width v x) s = .next { s with heldAccess := s.heldAccess ++ [a] }) ∧
      (s.farBlocked pa false = false → s.fills.any (fun f => decide (f.grain = c.grain)) = false →
        s.fillWaits.any (fun f => decide (f.pa / 256 = c.grain)) = false → smFind s.lines c.grain = none → 0 < len →
        pa % 256 + len ≤ 256 → (s.fills.filter fun f => decide (f.slice = c.slice)).length < 256 → s.farGone (s.fillSite c) = false →
        s.arbFrozen (s.fillSite c / 3) (farQueue (s.fillSite c) r.pc) = false → port.full r.pc = false → port.outside = [] →
        ∃ t, exec (.scRead rq hr pa len false) s = .next t ∧ t = { s with fills := t.fills, farPorts := t.farPorts, missRecent := t.missRecent } ∧
          t.fills = s.fills ++ [⟨c.grain, c.slice, hr, maskOf secs, [q], 0, 0, []⟩] ∧
          t.farPort (s.fillSite c) = { port with waiting := port.waiting ++ [r] } ∧ ∀ f, f ≠ s.fillSite c → t.farPort f = s.farPort f) ∧
      (∀ f, s.farBlocked pa false = false → s.fills = [f] → f.grain = c.grain → f.joins < 32 → s.missing hr c secs ≠ [] →
        let joins := (s.missing hr c secs).all f.sectors.testBit
        ∃ t, exec (.scRead rq hr pa len false) s = .next t ∧ t = { s with regs := t.regs, fills := t.fills } ∧
          s.regsBut t (· = .scStat c.slice) ∧ t.fills = [{ f with queue := f.queue ++ [q], joins := f.joins + b2n joins }] ∧
          t.fget (.scStat c.slice) SC_STAT_MERGES = min (s.fget (.scStat c.slice) SC_STAT_MERGES + b2n joins) (2 ^ 32 - 1)))

/-- R213, R215 to R219, R239: on a line that is cached whole and sound, a read answers its bytes; a write stores its bytes and no others in the line; an
update leaves its new value there, counts in SC_STAT.ATOMICS and answers what the operation returns; one that is not aligned is
misaligned. An access that another unit makes at once there by a homeroom's address does the same. No memory changes. -/
def Obligations.SharedCacheServesRequests : Prop :=
  ∀ (s : State) (rq : Requester) (hr pa len : Nat) (bs : List Byte) (op : AtomOp) (width v x : Nat), s.lineSound rq pa →
    (∀ d, rq.die = some d → s.dieUp d = true) →
    let g := pa / 256
    let off := pa % 256
    let old := ((s.lineData g).drop off).take width
    let others := fun (t : State) => ∀ k, k ≠ g → smFind t.lines k = smFind s.lines k
    (off + len ≤ 256 → ∃ t, exec (.scRead rq hr pa len false) s = .next t ∧ t = { s with lines := t.lines, lineAge := t.lineAge, out := t.out } ∧
      t.out = s.out ++ [.reply rq (((s.lineData g).drop off).take len)] ∧ t.lineData g = s.lineData g ∧ others t) ∧
    (s.cutOff ⟨rq, hr, pa, .write bs, false⟩ = false → bs ≠ [] → off + bs.length ≤ 256 →
      ∃ t, exec (.scWrite rq hr pa bs) s = .next t ∧ t = { s with lines := t.lines, lineAge := t.lineAge, out := t.out } ∧
        t.out = s.out ++ [.reply rq []] ∧ t.lineData g = spliceBytes (s.lineData g) off bs ∧ others t) ∧
    (s.cutOff ⟨rq, hr, pa, .atomic op width v x, false⟩ = false → 0 < width → off % width = 0 → off + width ≤ 256 →
      ∃ t, exec (.scAtomic rq hr pa op width v x) s = .next t ∧ t = { s with regs := t.regs, lines := t.lines, lineAge := t.lineAge, out := t.out } ∧
        t.out = s.out ++ [.reply rq (atomReply rq op width (leNat old))] ∧
        t.lineData g = spliceBytes (s.lineData g) off (leBytes width (atomNew op width (leNat old) (v % 2 ^ (8 * width)) x)) ∧ others t ∧
        let stat := Reg.scStat (s.lineAt (g * 256)).slice
        s.regsBut t (· = stat) ∧ t.fget stat SC_STAT_ATOMICS = min (s.fget stat SC_STAT_ATOMICS + 1) (2 ^ SC_STAT_ATOMICS.width - 1)) ∧
    (s.cutOff ⟨rq, hr, pa, .atomic op width v x, false⟩ = false → off % width ≠ 0 → off + width ≤ 256 →
      exec (.scAtomic rq hr pa op width v x) s = .next { s with out := s.out ++ [.replyError rq .misaligned] }) ∧
    ∀ core allow a y, spaceOf a = .far y → allow (.far y) = true → s.translate hr y = .ok pa → a % 256 = off → y % 256 = off →
      let atOnce := fun (t : State) => t = { s with regs := t.regs, lines := t.lines, lineAge := t.lineAge, turns := t.turns } ∧ others t
      (0 < len → off + len ≤ 256 → ∃ t, s.readAt rq hr core allow a len = (t, .ok (((s.lineData g).drop off).take len)) ∧ atOnce t ∧
        t.regs = s.regs ∧ t.lineData g = s.lineData g) ∧
      (bs ≠ [] → off + bs.length ≤ 256 → ∃ t, s.writeAt rq hr core allow a bs = (t, .ok ()) ∧ atOnce t ∧ t.regs = s.regs ∧
        t.lineData g = spliceBytes (s.lineData g) off bs) ∧
      (0 < width → off % width = 0 → off + width ≤ 256 → ∃ t, s.farAtomic rq hr y op width v x = (t, .ok (leNat old)) ∧ atOnce t ∧
        t.lineData g = spliceBytes (s.lineData g) off (leBytes width (atomNew op width (leNat old) (v % 2 ^ (8 * width)) x)))

/-- R223 to R229, R629: a request that its port's mode admits is granted: its homeroom is charged 256 bytes of its tokens, and with its last grant
it leaves the port; the data of a fill that has its grants completes it, failing granules being read once more first. What was held is
tried again. -/
def Obligations.FillsAreGrantedAndComplete : Prop :=
  ∀ (s : State) (f id transient : Nat) (r : FarReq) (g : Fill),
    let p := s.farPort f
    (p.waiting.find? (fun x => decide (x.id = id)) = some r → s.mayGrant f p r = true →
      ∃ t : State, exec (.farGrant f id) s = .next t.rouse ∧ t = { s with farPorts := t.farPorts } ∧ (∀ d, d ≠ f → t.farPort d = s.farPort d) ∧
        (t.farPort f).waiting = (if r.left ≤ 1 then p.waiting.erase r
          else p.waiting.set (p.waiting.findIdx fun w => decide (w = r)) { r with left := r.left - 1 }) ∧
        (p.mode = 0 → 256 ≤ wordAt p.tokens r.hr → r.hr < p.tokens.length → r.hr < p.charged.length →
          wordAt (t.farPort f).tokens r.hr = wordAt p.tokens r.hr - 256 ∧ wordAt (t.farPort f).charged r.hr = wordAt p.charged r.hr + 256)) ∧
    (s.fills.find? (fun x => decide (x.grain = id)) = some g → (s.farPort (s.fillSite (s.lineAt (id * 256)))).awaits id = false → g.reread = 0 →
      (s.firstFails g transient = 0 → exec (.scFillComplete id transient) s = .next (s.finishFill g 0).rouse) ∧
      (s.firstFails g transient ≠ 0 → ∃ t, exec (.scFillComplete id transient) s = .next t ∧ t = { s with fills := t.fills } ∧
        ∀ x ∈ t.fills, x.grain = id → x.reread = s.firstFails g transient)) ∧
    (s.fills.find? (fun x => decide (x.grain = id) && decide (x.reread ≠ 0)) = some g →
      exec (.granuleReread id transient) s = .next (s.finishFill g (g.reread + (g.reread &&& transient) * 2 ^ 16)).rouse)

/-- R199, R223, R225, R234 to R237, R252, R263: at a window's close the shares and the mode in force are those of the registers, the charges start again at 0 and
FAR_USE shows them; a refresh is issued with those owed, counted where a sequence runs on its pseudo-channel, or owed itself; a readout's temperature is shown; FAR_MODE keeps PRIO_SHARE at
most 64 and WINDOW at least 0x100. -/
def Obligations.FarPortsKeepTheirBooks : Prop :=
  ∀ (s : State) (f : Nat) (w : RegWrite),
    let only := fun (t : State) => ∀ d, d ≠ f → t.farPort d = s.farPort d
    (∃ t : State, exec (.farWindowClose f) s = .next t.rouse ∧ t = { s with regs := t.regs, farPorts := t.farPorts } ∧ only t ∧
      s.regsBut t (fun r => ∃ j, r = .farUse f j) ∧ (t.farPort f).mode = s.fget (.farMode f) FAR_MODE_MODE ∧
      (t.farPort f).charged = List.replicate 16 0 ∧
      (∀ h < 16, wordAt (t.farPort f).tokens h =
        let share := s.farShareOf f h * 4096
        if s.fget (.farMode f) FAR_MODE_MODE ≠ (s.farPort f).mode then share
        else if s.fget (.farMode f) FAR_MODE_MODE = 0 then min (wordAt (s.farPort f).tokens h + share) (2 * share) else wordAt (s.farPort f).tokens h) ∧
      ∀ h < 16, wordAt (t.farPort f).shares h = s.farShareOf f h ∧
        bitsOf (t.get (.farUse f (h / 4))).toNat (16 * (h % 4)) 16 = min (wordAt (s.farPort f).charged h / 4096) 0xFFFF) ∧
    (∀ bank, let owed := smGet 0 (s.farPort f).owed bank
      (owed < 8 → ∃ t, exec (.farRefresh f bank true) s = .next t ∧ t = { s with farPorts := t.farPorts } ∧ only t ∧
        smGet 0 (t.farPort f).owed bank = owed + 1 ∧ (t.farPort f).refreshes = (s.farPort f).refreshes) ∧
      ∃ t, exec (.farRefresh f bank false) s = .next t ∧ t = { s with regs := t.regs, farPorts := t.farPorts } ∧ only t ∧
        smGet 0 (t.farPort f).owed bank = 0 ∧ smGet 0 (t.farPort f).refreshes bank = smGet 0 (s.farPort f).refreshes bank + owed + 1 ∧
        s.regsBut t (· = .ldlStat f) ∧
        ((∀ q ∈ (s.ladle f).seqs, q.pc = bank / 64 → q.flushed = false) → t.regs = s.regs) ∧
        ((∃ q ∈ (s.ladle f).seqs, q.pc = bank / 64 ∧ q.flushed = true) → t.fget (.ldlStat f) LDL_STAT_REFRESH_INSERTS =
          min (s.fget (.ldlStat f) LDL_STAT_REFRESH_INSERTS + (owed + 1)) (2 ^ LDL_STAT_REFRESH_INSERTS.width - 1))) ∧
    (∀ temp, s.farGone f = false → exec (.farTempReadout f temp) s =
      .next ((s.fput (.farStatus f) FAR_STATUS_TEMP (ofSigned 8 temp)).sampleSensors [(sensorKey 4 f 0, 8 * temp)])) ∧
    (farPresent s.variant f = true → s.admits w.master (.farMode f) = true → ∃ t, exec (.farModeWrite f w) s = .next t ∧
      t = { s with regs := t.regs } ∧ s.regsBut t (· = .farMode f) ∧
      t.fget (.farMode f) FAR_MODE_PRIO_SHARE = min 64 ((s.written (.farMode f) w).field FAR_MODE_PRIO_SHARE) ∧
      t.fget (.farMode f) FAR_MODE_WINDOW = max 0x100 ((s.written (.farMode f) w).field FAR_MODE_WINDOW) ∧
      t.fget (.farMode f) FAR_MODE_MODE = (s.written (.farMode f) w).field FAR_MODE_MODE ∧ t.farPorts = s.farPorts)

/-- R209, R210: a SEP write keeps the bits of sets that active homerooms hold and, where it would change one, sets REFUSED, and nothing else where
it changes no others; the other bits take effect and set BUSY; once a set's change completes its accesses are let go, and BUSY clears with the last. -/
def Obligations.SeparatorChangesSets : Prop :=
  ∀ (s : State) (k set : Nat) (w : RegWrite) (narrow : Bool), k < 2 →
    let r := if narrow then Reg.sepNarrow k else Reg.sepScope k
    let i := if narrow then Instr.sepNarrowWrite k w else Instr.sepScopeWrite k w
    let want := (s.written r w).new ^^^ s.get r
    (s.admits w.master r = true → ∃ t, exec i s = .next t ∧ t.get r = s.get r ^^^ (want &&& ~~~(s.sepLocked k)) ∧
      (want &&& s.sepLocked k ≠ 0#64 → t.fget .sepStatus SEP_STATUS_REFUSED = 1 ∧
        (want &&& ~~~(s.sepLocked k) = 0#64 → t = { s with regs := t.regs } ∧ s.regsBut t (· = .sepStatus))) ∧
      (want &&& ~~~(s.sepLocked k) ≠ 0#64 → t.fget .sepStatus SEP_STATUS_BUSY = 1) ∧ (want = 0#64 → t = s)) ∧
    (set ∈ s.setChanges → ∃ t : State, exec (.sepChangeComplete set) s = .next t.releaseHeld.rouse ∧
      t = { s with regs := t.regs, setChanges := s.setChanges.filter (· ≠ set) } ∧ s.regsBut t (· = .sepStatus) ∧
      t.fget .sepStatus SEP_STATUS_BUSY = b2n (!(s.setChanges.filter (· ≠ set)).isEmpty))

/-- R33, R222, R238, R627: a purge invalidates, without write-back, the lines of its slice that its homeroom brought in, and no others, and PURGE reads 1 until
it completes; a far stack that is lost, with nothing at work on it, reads LOST and keeps none of its unmirrored lines cached; losing it again
changes nothing. What was held is tried again. -/
def Obligations.PurgesAndStackLosses : Prop :=
  ∀ (s : State) (f : Nat) (w : RegWrite),
    (s.admits w.master (.scCtl f) = true → (s.written (.scCtl f) w).hit SC_CTL_PURGE = true → s.fget (.scCtl f) SC_CTL_PURGE = 0 →
      let hr := (s.written (.scCtl f) w).field SC_CTL_PURGE_HR
      ∃ t, exec (.scPurge f w) s = .next t ∧ t = { s with regs := t.regs, lines := t.lines, purges := s.purges ++ [⟨f, hr⟩] } ∧
        s.regsBut t (· = .scCtl f) ∧ t.fget (.scCtl f) SC_CTL_PURGE = 1 ∧
        ∀ e, e ∈ t.lines ↔ e ∈ s.lines ∧ ¬(e.2.slice = f ∧ e.2.hr = hr)) ∧
    (∃ t, exec (.scPurgeComplete f) s = .next t ∧ t = { s with regs := t.regs, purges := t.purges } ∧ s.regsBut t (· = .scCtl f) ∧
      t.fget (.scCtl f) SC_CTL_PURGE = 0 ∧ ∀ p ∈ t.purges, p.slice ≠ f) ∧
    (farPresent s.variant f = true → s.fget (.farStatus f) FAR_STATUS_LOST = 0 → (s.ladle f).queue = [] → (s.ladle f).asking = [] →
      (s.ladle f).seqs = [] → (s.farPort f).waiting = [] → (s.farPort f).outside = [] → s.fills = [] → s.fillWaits = [] → s.heldAccess = [] →
      (∀ e ∈ s.cores, (s.core e.1).stuck = []) →
      ∃ t : State, exec (.farStackLoss f) s = .next t.rouse ∧ t.fget (.farStatus f) FAR_STATUS_LOST = 1 ∧ t.far = s.far ∧
        (∀ e ∈ t.lines, e ∈ s.lines ∧ ¬ ((s.lineAt (e.1 * 256)).loc.site = f ∧ (s.lineAt (e.1 * 256)).mirror = none))) ∧
    (farPresent s.variant f = true → s.fget (.farStatus f) FAR_STATUS_LOST = 1 → exec (.farStackLoss f) s = .next s.rouse)

/-! ### Ladles -/

/-- R240, R241, R243, R246, R337: a command reaches a port: where the port's arbiter can grant at once it joins the end of the queue, decoded from
its words, and else it asks and waits; one with a reserved bit or a bad address ends at once with BAD_ENCODING, its record going to its
issuer; a command from any other issuer is dropped. -/
def Obligations.LadleCommandsJoinTheirQueue : Prop :=
  ∀ (s : State) (port : Nat) (words : List Nat) (issuer : Requester) (row : Instr × Nat),
    row ∈ [(Instr.ladleCopy port words issuer, 1), (.ladleFill port words issuer, 2), (.ladleNot port words issuer, 3), (.ladleAnd port words issuer, 4),
      (.ladleOr port words issuer, 5), (.ladleXor port words issuer, 6), (.ladleClearSet port words issuer, 7)] →
    let cmd := ladleParse row.2 words issuer
    let mayIssue := issuer = .registrar ∨ ∃ d < 4, issuer = .pail d
    let arb := s.arb (port / 3) (ladlePort port)
    let only := fun (t : State) => t = { s with regs := t.regs, ladles := t.ladles, arbs := t.arbs } ∧ ∀ p, p ≠ port → t.ladle p = s.ladle p
    (mayIssue → ladleEncoded row.2 words issuer = true → s.ladleOpen port = true → arb.ptr < 5 → arb.counts.length = 16 →
      ∃ t, exec row.1 s = .next t ∧ only t ∧ t.ladle port = { s.ladle port with queue := (s.ladle port).queue ++ [cmd] }) ∧
    (mayIssue → ladleEncoded row.2 words issuer = true → s.ladleOpen port = false →
      ∃ t, exec row.1 s = .next t ∧ only t ∧ t.ladle port = { s.ladle port with asking := (s.ladle port).asking ++ [cmd] }) ∧
    (issuer = .registrar → ladleEncoded row.2 words issuer = false → s.heldAccess = [] →
      exec row.1 s = .next { s with records := s.records ++ [⟨.ladle port, cmd.tag, 1 + cmd.tag * 2 ^ 32, 0⟩] }) ∧
    (¬ mayIssue → exec row.1 s = .next s)

/-- R242, R250 to R257, R261: the command at the head of a port's queue starts unless DRAIN is 1, or its pseudo-channels, sets or rows are busy; its flush
completes; a row step waits for the requests of the gap before it; each is counted, and the last step of a row writes it and moves the
sequence on. What was held is tried again. -/
def Obligations.LadleSequencesRun : Prop :=
  ∀ (s : State) (port pc : Nat) (cmd : LadleCmd) (rest : List LadleCmd) (q : LadleSeq) (w : RegWrite),
    ((s.ladle port).queue = cmd :: rest → s.fget (.ldlCtl port) LDL_CTL_DRAIN = 1 → exec (.ladleSequenceStart port) s = .next s.rouse) ∧
    ((s.ladle port).queue = cmd :: rest → s.fget (.ldlCtl port) LDL_CTL_DRAIN = 0 → s.ladleError port true cmd = none →
      (s.ladleCopies cmd).isEmpty = false →
      let free := ((s.ladleCopies cmd).all fun e => (s.ladlePcs e.1 cmd).all (s.pcFree e.2)) && !s.ladleWaits cmd
      exec (.ladleSequenceStart port) s =
        .next (if free then ((s.setLadle port { s.ladle port with queue := rest }).ladleFlush cmd).ladleBegin cmd else s).rouse) ∧
    (∃ t, exec (.ladleFlushComplete port pc) s = .next t ∧ t = { s with ladles := t.ladles } ∧ (t.ladle port).queue = (s.ladle port).queue ∧
      (∀ x ∈ (t.ladle port).seqs, x.pc = pc → x.flushed = true) ∧ (t.ladle port).seqs.length = (s.ladle port).seqs.length) ∧
    ((s.ladle port).seqs.find? (fun x => decide (x.pc = pc) && x.flushed) = some q →
      exec (.rowStep port pc) s = .next (if s.stepReady port q then (s.ladleStep port q).rouse else s)) ∧
    ((s.ladle port).seqs = [q] → q.pc = pc → q.flushed = true → q.cmd.op = 2 → q.phase = 0 → q.row + 1 < q.cmd.rows → s.heldAccess = [] →
      s.stepReady port q = true →
      ∃ t : State, exec (.rowStep port pc) s = .next t.rouse ∧
        (t.ladle port).seqs = [{ q with row := q.row + 1, bufs := [], gap := s.pcWaiting port pc }] ∧
        t.fget (.ldlStat port) LDL_STAT_ROW_STEPS = min (s.fget (.ldlStat port) LDL_STAT_ROW_STEPS + 1) (2 ^ 32 - 1) ∧
        t.slice = s.slice ∧ t.desk = s.desk ∧ t.host = s.host) ∧
    (farPresent s.variant port = true → s.admits w.master (.ldlCtl port) = true → ∃ t : State, exec (.ldlDrainWrite port w) s = .next t.rouse ∧
      t = { s with regs := t.regs } ∧ s.regsBut t (· = .ldlCtl port) ∧ t.get (.ldlCtl port) = (s.written (.ldlCtl port) w).new)

/-! ### Pail managers -/

/-- R283 to R287, R313, R314, R598: a command that reaches a manager with nothing waiting ends with HR_FAULT where its homeroom is being torn
down and with BAD_ENCODING where a bit or a range is wrong; it waits behind a run or a sync of its sequence; else it is performed, and its
record carries OK with a RESULT, or the status of its failure; a run or a sync that goes on sends none yet, and a command whose access is
held waits. While DRAIN is 1 a command is not accepted. A manager whose die is down answers nothing. -/
def Obligations.PailCommandsEndWithRecords : Prop :=
  ∀ (s u : State) (d r status : Nat) (k : PailCmd) (row : Instr × Nat),
    row ∈ [(Instr.treeOpen d k, 0x01), (.treeClose d k, 0x02), (.evict d k, 0x03), (.seqOpen d k, 0x10), (.seqClose d k, 0x11),
      (.matchBlocks d k, 0x12), (.append d k, 0x13), (.resolve d k, 0x14), (.publish d k, 0x15), (.fork d k, 0x16), (.truncate d k, 0x17),
      (.markLost d k, 0x18), (.shadowSync d k, 0x20), (.adopt d k, 0x21), (.churnOpen d k, 0x30), (.churnRun d k, 0x31), (.churnClose d k, 0x32)] →
    let m := s.pail d
    let s0 := s.setPail d m
    let waits := fun (x : State) => x.setPail d { x.pail d with waiting := (x.pail d).waiting ++ [(row.2, k)] }
    (s.dieUp d = false → exec row.1 s = .next s) ∧
    (s.dieUp d = true → s.fget (.pailCtl d) PAIL_CTL_DRAIN = 1 →
      exec row.1 s = .next (s.setPail d { m with outside := m.outside ++ [(row.2, k)] })) ∧
    (s.pailIdle d →
      (k.hr ≠ 0 ∧ s.hrState k.hr = 3 → exec row.1 s = .next (s0.pailAnswers d k 0x0B 0)) ∧
      (¬(k.hr ≠ 0 ∧ s.hrState k.hr = 3) → pailEncoded row.2 k = false → exec row.1 s = .next (s0.pailAnswers d k 1 0)) ∧
      (¬(k.hr ≠ 0 ∧ s.hrState k.hr = 3) → pailEncoded row.2 k = true →
        (m.mustWait row.2 k = true → exec row.1 s = .next (waits s0)) ∧
        (m.mustWait row.2 k = false →
          ((pailBody d row.2 k).run s0 = (.ok (some r), u) → exec row.1 s = .next (u.pailAnswers d k 0 (r % 2 ^ 32))) ∧
          ((pailBody d row.2 k).run s0 = (.ok none, u) → exec row.1 s = .next (u.pailDone d)) ∧
          ((pailBody d row.2 k).run s0 = (.error (status, r), u) → status ≠ 0xFF → exec row.1 s = .next (u.pailAnswers d k status (r % 2 ^ 32))) ∧
          ((pailBody d row.2 k).run s0 = (.error (0xFF, r), u) → exec row.1 s = .next (waits (s0.keepHeld u))))))

/-- R270 to R273, R280 to R282, R286, R294, R295, R310, R312: what commands on trees and sequences leave, where no memory is read: a tree closes, a sequence
opens, closes, forks an empty one, is adopted, and stays as it is where there is nothing to free, match, publish, cut or send. A tree
that is not open gives STATE, and one of another homeroom DENIED; a shadow sequence gives BUSY. Only the manager, its grants and the
records change. -/
def Obligations.TreeAndSequenceCommands : Prop :=
  ∀ (s : State) (d : Nat) (k : PailCmd) (t : Tree) (q src : Seq), s.pailIdle d → k.hr = 0 ∨ s.hrState k.hr ≠ 3 →
    let m := s.pail d
    let ends := fun (i : Instr) (op status result : Nat) (m' : PailMgr) => pailEncoded op k = true → m.mustWait op k = false →
      exec i s = .next ((s.setPail d m').pailAnswers d k status result)
    (smFind m.trees k.tree = none → ends (.seqOpen d k) 0x10 3 0 m ∧ ends (.matchBlocks d k) 0x12 3 0 m ∧ ends (.append d k) 0x13 3 0 m ∧
      ends (.resolve d k) 0x14 3 0 m ∧ ends (.publish d k) 0x15 3 0 m ∧ ends (.treeClose d k) 0x02 3 0 m ∧ ends (.evict d k) 0x03 3 0 m) ∧
    (smFind m.trees k.tree = some t → t.hr ≠ k.hr → ends (.seqOpen d k) 0x10 2 0 m ∧ ends (.matchBlocks d k) 0x12 2 0 m ∧
      ends (.append d k) 0x13 2 0 m ∧ ends (.resolve d k) 0x14 2 0 m ∧ ends (.treeClose d k) 0x02 2 0 m ∧ ends (.treeOpen d k) 0x01 3 0 m) ∧
    (smFind m.trees k.tree = some t → t.hr = k.hr →
      ((m.seqs.any fun e => decide (e.2.tree = k.tree)) = false → (m.rings.any fun e => decide (e.2.tree = k.tree)) = false →
        (m.syncs.any fun y => decide (y.tree = k.tree)) = false →
        ends (.treeClose d k) 0x02 0 0 { m with trees := smDel m.trees k.tree, pushes := m.pushes.filter (·.tree ≠ k.tree),
                                                gathers := m.gathers.filter (·.tree ≠ k.tree) }) ∧
      (k.w1 = 0 → ends (.evict d k) 0x03 0 0 m) ∧
      (smFind m.seqs k.seq = none → s.inRegions k.hr k.w1 (4 * k.w2) = true → t.shadow = false →
        ends (.seqOpen d k) 0x10 0 0 { m with seqs := smPut m.seqs k.seq ⟨k.tree, k.w1, k.w2, 0, [], false, 0, []⟩ }) ∧
      (smFind m.seqs k.seq = some q → q.tree = k.tree →
        ends (.seqOpen d k) 0x10 3 0 m ∧
        (q.len = 0 → ∃ l, ends (.seqClose d k) 0x11 0 0 { m with seqs := l } ∧
          (smSorted none m.seqs = true → ∀ j, smFind l j = if j = k.seq then none else smFind m.seqs j)) ∧
        (q.len = 0 → k.w2 < 64 → ends (.matchBlocks d k) 0x12 0 0 m) ∧
        (q.shadow = false → q.len / 64 ≤ q.keys.length → ends (.publish d k) 0x15 0 0 m) ∧
        (q.shadow = false → q.len < k.w1 → ends (.truncate d k) 0x17 6 0 m) ∧
        (q.shadow = false → k.w1 = q.len → ends (.truncate d k) 0x17 0 (q.len % 2 ^ 32)
          { m with seqs := smPut m.seqs k.seq { q with keys := q.keys.take (q.len / 64), synced := min q.synced q.len,
                                                       changed := q.changed.filter fun b => decide (64 * b < q.len) } }) ∧
        (q.shadow = false → q.len = 0 → k.w1 ≠ k.seq → smFind m.seqs k.w1 = some src → src.tree = k.tree → src.len = 0 →
          ends (.fork d k) 0x16 0 0 { m with seqs := smPut m.seqs k.seq { q with keys := src.keys } }) ∧
        (q.used ≤ k.w1 → ends (.markLost d k) 0x18 6 0 m) ∧
        (t.shadow = true → q.shadow = false → q.len = q.synced → q.changed = [] → ends (.shadowSync d k) 0x20 0 0 m) ∧
        (t.shadow = false ∨ q.shadow = true → ends (.shadowSync d k) 0x20 3 0 m) ∧
        (q.shadow = false → ends (.adopt d k) 0x21 3 0 m) ∧
        (q.shadow = true → ends (.append d k) 0x13 4 0 m ∧ ends (.publish d k) 0x15 4 0 m ∧ ends (.truncate d k) 0x17 4 0 m ∧
          ends (.adopt d k) 0x21 0 0 { m with seqs := smPut m.seqs k.seq { q with shadow := false, synced := 0 } })))

/-- R270, R273 to R282, R289, R290, R294, R295, R310, R313: what commands that read and write their tables, counts and index leave, where
each of their accesses is answered at once. Each access is made in the state that the one before it left: TREE_OPEN reads its record;
EVICT frees an idle node; MATCH misses, or takes a hit; APPEND adds a token to a block that no other names; RESOLVE lists the slots of a
token; PUBLISH inserts a node; FORK names a block once more; TRUNCATE releases one; MARK_LOST marks one; SHADOW_SYNC sends a changed entry. -/
def Obligations.PailCommandsUseTheirTables : Prop :=
  ∀ (s a b c e f : State) (d old w : Nat) (k : PailCmd) (t t1 : Tree) (q src : Seq) (nd : Node) (bs cs toks : List Byte),
    s.pailIdle d → k.hr = 0 ∨ s.hrState k.hr ≠ 3 →
    let m := s.pail d
    let s0 := s.setPail d m
    let ends := fun (i : Instr) (op result : Nat) (x : State) => pailEncoded op k = true → m.mustWait op k = false →
      exec i s = .next (x.pailAnswers d k 0 (result % 2 ^ 32))
    let has := fun (x : State) => x.pailTree d k.tree = some t
    let seq := fun (x : State) (y : Seq) => x.pailSeq d k.seq = some y
    let entry := entryOf (leNat bs)
    let noted := { q with changed := if q.changed.contains 0 then q.changed else q.changed ++ [0] }
    (s0.pailTree d k.tree = none → s0.pailReads d k.hr k.w1 128 bs a →
      a.treeOf k.hr bs = (t, 0) → ends (.treeOpen d k) 0x01 t.yokes (a.putTree d k.tree t)) ∧
    (has s0 → t.hr = k.hr →
      (k.w1 = 1 → s0.pailReads d t.hr (t.wayAt (t.cursor / 4 % 2 ^ t.indexLog2) 0) 256 bs a →
        ((blocksOf 64 4 bs).map nodeOf)[t.cursor % 4]? = some nd → nd.valid = true →
        t1 = { t with cursor := (t.cursor + 1) % (4 * 2 ^ t.indexLog2) } →
        (a.putTree d k.tree t1).pailReads d t.hr (t.countAt nd.yoke) 4 (leBytes 4 1) b →
        b.pailWrites d t.hr (t.wayAt (t.cursor / 4 % 2 ^ t.indexLog2) (t.cursor % 4)) (nodeBytes { nd with valid := false }) c →
        c.pailTree d k.tree = some t1 → c.pailAdds d t.hr (t.countAt nd.yoke) (2 ^ 32 - 1) 1 e →
        (e.pail d).gathers.all (fun g => decide (g.tree ≠ k.tree)) = true → e.pailTree d k.tree = some t1 →
        e.pailWrites d t.hr (t.freeBase + 4 * t.freeTop) (leBytes 4 nd.yoke) f →
        ends (.evict d k) 0x03 1 (f.putTree d k.tree { t1 with freeTop := t.freeTop + 1 })) ∧
      (seq s0 q → q.tree = k.tree →
        (q.len = 0 → k.w2 / 64 = 1 → 1 ≤ q.blocks → s0.pailReads d k.hr k.w1 256 toks a →
          let key := blockKey (a.saltOf t.hr) t.root toks
          let ways := (blocksOf 64 4 bs).map nodeOf
          a.pailReads d t.hr (t.wayAt (bucketOf t key) 0) 256 bs b →
          ((ways.findIdx? fun x => x.valid && decide (x.key = key)) = none → ends (.matchBlocks d k) 0x12 0 (b.fadd (.pailStat0 d) PAIL_STAT0_MISSES 1)) ∧
          ((ways.findIdx? fun x => x.valid && decide (x.key = key)) = some w → ways[w]? = some nd → has b →
            b.pailAdds d t.hr (t.countAt nd.yoke) 1 old c → has c → seq c q →
            c.pailWrites d t.hr q.base (leBytes 4 (entryWord ⟨nd.yoke, nd.half, false, true⟩)) e → has e → seq e q →
            let g := (((e.putSeq d k.seq { noted with len := 64, keys := q.keys ++ [key] }).fadd (.pailStat0 d) PAIL_STAT0_HITS 1).putTree d k.tree
              { t with clock := (t.clock + 1) % 2 ^ 32 })
            g.pailWrites d t.hr (t.wayAt (bucketOf t key) w) (nodeBytes { nd with age := (t.clock + 1) % 2 ^ 32 }) f →
            (f.pailTree d k.tree).isSome = true → (f.pailSeq d k.seq).isSome = true → ends (.matchBlocks d k) 0x12 1 f)) ∧
        (k.w2 = 1 → q.shadow = false → q.len % 64 ≠ 0 → ceilDiv (q.len + 1) 64 ≤ q.blocks → partner t (q.len / 64) = none →
          s0.pailReads d t.hr (q.base + 4 * (q.len / 64)) 4 bs a → entry.valid = true → entry.lost = false → has a → seq a q →
          a.pailReads d t.hr (t.countAt entry.yoke) 4 cs b → leNat cs ≤ 1 → has b → seq b q →
          b.pailReads d t.hr (q.base + 4 * (q.len / 64)) 4 bs c →
          c.pailWrites d t.hr k.w1 ((c.tokenSlots d t entry q.len).flatMap (leBytes 8)) f → seq f q →
          ends (.append d k) 0x13 (q.len + 1) (f.putSeq d k.seq { q with len := q.len + 1 })) ∧
        (let first := bitsOf k.w2 0 32;
          bitsOf k.w2 32 13 = 1 → bitAt k.w2 45 = false → first + 1 ≤ q.len →
          s0.pailReads d t.hr (q.base + 4 * (first / 64)) 4 bs a → entry.lost = false → has a → seq a q →
          a.pailReads d t.hr (q.base + 4 * (first / 64)) 4 bs b →
          b.pailWrites d t.hr k.w1 ((b.tokenSlots d t entry first).flatMap (leBytes 8)) f →
          ends (.resolve d k) 0x14 (b.tokenSlots d t entry first).length f) ∧
        (let j := q.keys.length;
          q.shadow = false → t.shadow = false → j + 1 = q.len / 64 → s0.pailReads d k.hr (k.w1 + 256 * j) 256 toks a →
          let key := blockKey (a.saltOf t.hr) ((q.keys.getLast?).getD t.root) toks
          let ways := (blocksOf 64 4 cs).map nodeOf
          a.pailReads d t.hr (q.base + 4 * j) 4 bs b → entry.lost = false → has b → b.pailReads d t.hr (t.wayAt (bucketOf t key) 0) 256 cs c →
          (ways.any fun x => x.valid && decide (x.key = key)) = false → (ways.findIdx? fun x => !x.valid) = some w → has c →
          c.pailAdds d t.hr (t.countAt entry.yoke) 1 old e →
          e.pailWrites d t.hr (t.wayAt (bucketOf t key) w) (nodeBytes ⟨key, entry.yoke, entry.half, true, j, t.clock⟩) f → seq f q → has f →
          ends (.publish d k) 0x15 1 ((f.fadd (.pailStat1 d) PAIL_STAT1_INSERTS 1).putSeq d k.seq { q with keys := q.keys ++ [key] })) ∧
        (k.w1 ≠ k.seq → q.len = 0 → q.shadow = false → s0.pailSeq d k.w1 = some src → src.tree = k.tree → src.used = 1 → 1 ≤ q.blocks →
          s0.pailReads d t.hr src.base 4 bs a → entry.valid = true → has a → a.pailAdds d t.hr (t.countAt entry.yoke) 1 old b → has b → seq b q →
          b.pailWrites d t.hr q.base (leBytes 4 (entryWord entry)) f → seq f q →
          ends (.fork d k) 0x16 1 (f.putSeq d k.seq { noted with len := src.len, keys := src.keys })) ∧
        (q.used = 1 → q.shadow = false → k.w1 = 0 → s0.pailReads d t.hr q.base 4 bs a → entry.valid = true → seq a q →
          a.pailWrites d t.hr q.base (leBytes 4 (entryWord .none)) b → seq b q → has b →
          (b.putSeq d k.seq noted).pailAdds d t.hr (t.countAt entry.yoke) (2 ^ 32 - 1) old c → old ≠ 1 → seq c noted →
          ends (.truncate d k) 0x17 0 (c.putSeq d k.seq { q with len := 0, keys := [], synced := 0, changed := [] })) ∧
        (k.w1 < q.used → s0.pailReads d t.hr (q.base + 4 * k.w1) 4 bs a → entry.valid = true →
          (entry.lost = true → ends (.markLost d k) 0x18 0 a) ∧
          (entry.lost = false → partner t k.w1 = none → seq a q →
            a.pailWrites d t.hr (q.base + 4 * k.w1) (leBytes 4 (entryWord { entry with lost := true })) b → seq b q →
            (dropNodes d k.tree entry.yoke).run (b.putSeq d k.seq
              { q with changed := if q.changed.contains k.w1 then q.changed else q.changed ++ [k.w1] }) = (.ok (), f) →
            ends (.markLost d k) 0x18 0 f)) ∧
        (t.shadow = true → q.shadow = false → q.len = q.synced → q.changed = [0] → 0 < q.used → s0.pailReads d t.hr q.base 4 bs a →
          a.sendPailMsg d t.hr true t.twinDev t.twinPorts (pailAddr 8 t.twinDie t.twinTree 0 0 0) k.seq
            (shadowBytes k.seq q false [(0, entry)] []) = (b, true) →
          pailEncoded 0x20 k = true → m.mustWait 0x20 k = false →
          exec (.shadowSync d k) s = .next ((b.setPail d { b.pail d with syncs := (b.pail d).syncs ++ [⟨k.seq, k.tree, k.tag, 0, 0⟩] }).pailDone d))))

/-- R301 to R305: CHURN_OPEN checks its record, fills its two buffers and sends HELLO both ways; CHURN_RUN adds 1 to READY and sends its
first credits; CHURN_CLOSE sends CLOSE both ways and frees the buffers' yokes. -/
def Obligations.ChurnCommandsComplete : Prop :=
  ∀ (s a b c e f : State) (d old : Nat) (k : PailCmd) (t : Tree) (q b0 b1 : Seq) (r : ChurnRing) (bs : List Byte),
    s.pailIdle d → k.hr = 0 ∨ s.hrState k.hr ≠ 3 →
    let m := s.pail d
    let s0 := s.setPail d m
    let ends := fun (i : Instr) (op : Nat) (x : State) => pailEncoded op k = true → m.mustWait op k = false → exec i s = .next (x.pailAnswers d k 0 0)
    let has := fun (x : State) => x.pailTree d k.tree = some t
    let owned := fun (x : State) => (x.pailTree d k.tree).map Tree.hr = some t.hr
    let ring := fun (x : State) (y : ChurnRing) => x.pailRing d k.seq = some y
    let sends := fun (x : State) (y : ChurnRing) (msg : Nat) (next : Bool) (step : Nat) (data : List Byte) (z : State) =>
      x.sendPailMsg d t.hr false (if next then y.nextDev else y.prevDev) (2 ^ 24 - 1) (pailAddr msg 0 y.id y.pos step y.runs) k.seq data = (z, true)
    has s0 → t.hr = k.hr → s0.pailSeq d k.seq = some q → q.tree = k.tree →
    (s0.pailRing d k.seq = none → m.rings.length < 4 → s0.pailReads d k.hr k.w1 64 bs a → r = churnRecord k.tree bs → r.shaped = true →
      a.ringPlaced k.hr r = true → a.pailSeq d r.buf0 = some b0 → a.pailSeq d r.buf1 = some b1 → b0.tree = k.tree → b1.tree = k.tree → b0.len = 0 →
      b1.len = 0 → r.buf0 ≠ r.buf1 → r.buf0 ≠ k.seq → r.buf1 ≠ k.seq → (fillBuffer d k.tree r.buf0 r.c).run a = (.ok (), b) →
      (fillBuffer d k.tree r.buf1 r.c).run b = (.ok (), c) → owned c → sends (c.putRing d k.seq r) r 1 true 0 (helloBytes r) e → ring e r → owned e →
      sends e r 1 false 0 (helloBytes r) f → ends (.churnOpen d k) 0x30 f) ∧
    (ring s0 r → r.tree = k.tree → bitsOf k.w1 0 8 < t.layers → r.lost = false → r.helloNext = true → r.helloPrev = true → r.early = 0 → 2 ≤ r.r →
      let y := r.begin k.tag (bitsOf k.w1 0 8) (bitAt k.w1 8) (leNat bs)
      s0.pailReads d t.hr r.release 8 bs a → a.farAtomic (.pail d) t.hr r.ready .add 8 1 0 = (b, .ok old) → has b →
      sends (b.putRing d k.seq y) y 2 false 1 [] c → ring c y → has c →
      (if 2 < r.r then sends c y 2 false 2 [] f else f = c) → ring f y → has f → pailEncoded 0x31 k = true → m.mustWait 0x31 k = false →
      exec (.churnRun d k) s = .next (f.pailDone d)) ∧
    (ring s0 r → r.tree = k.tree → sends s0 r 6 true 0 [] a → ring a r → has a → sends a r 6 false 0 [] b →
      (truncateSeq d k.tree r.buf0 0).run b = (.ok (), c) → (truncateSeq d k.tree r.buf1 0).run c = (.ok (), e) →
      ends (.churnClose d k) 0x32 (e.setPail d { e.pail d with rings := smDel (e.pail d).rings k.seq }))

/-- R275, R298, R314, R316: a freed yoke that no gather holds is pushed; a pail-list fetch answers a sequence's entries and keeps them, holding its
tree's yokes; PAIL_CTL keeps POLL at least 0x0010, and with DRAIN 0 the commands that came meanwhile are accepted; CLEAR clears both
statistics registers. -/
def Obligations.PailManagersServeOthers : Prop :=
  ∀ (s u : State) (d c n y k first count : Nat) (arrayB : Bool) (w : RegWrite) (p : PushWait) (es : List PailEntry) (t : Tree) (q : Seq)
    (bs : List Byte),
    let m := s.pail d
    let push := m.pushes.find? fun p => decide (p.tree = n) && decide (p.yoke = y) && p.waits.isEmpty
    let kept := fun (x : PailMgr) (ws : List Nat) => { x with gathers :=
      (x.gathers.filter fun g => !(decide (g.core = c) && decide (g.arrayB = arrayB))) ++ [⟨c, arrayB, n, k, first, count, ws⟩] }
    (s.dieUp d = false → exec (.yokePush d n y) s = .next s ∧ exec (.pailListFetch d c arrayB k n first count) s = .next s) ∧
    (s.dieUp d = true →
      (push = none → m.waiting = [] → m.inbox = [] → exec (.yokePush d n y) s = .next ((s.setPail d m).pailDone d)) ∧
      (push = some p → smFind m.trees n = some t →
        (s.setPail d { m with pushes := m.pushes.erase p }).pailWrites d t.hr (t.freeBase + 4 * t.freeTop) (leBytes 4 y) u →
        exec (.yokePush d n y) s = .next ((u.putTree d n { t with freeTop := t.freeTop + 1 }).pailWork d)) ∧
      ((fetchEntries d c arrayB n k first count).run s = (.ok es, u) → exec (.pailListFetch d c arrayB k n first count) s =
        .next { u with out := u.out ++ [.reply (.core c) (es.flatMap fun e => leBytes 4 (entryWord e))] }) ∧
      (smFind m.trees n = some t → smFind m.seqs k = some q → q.tree = n → 0 < count → first % 64 + count ≤ 64 →
        (q.used ≤ first / 64 → exec (.pailListFetch d c arrayB k n first count) s =
          .next { (s.setPail d (kept m [0])) with out := s.out ++ [.reply (.core c) (leBytes 4 0)] }) ∧
        (first / 64 < q.used → s.pailReads d t.hr (q.base + 4 * (first / 64)) 4 bs u →
          let word := entryWord (entryOf (leNat bs))
          exec (.pailListFetch d c arrayB k n first count) s =
            .next { (u.setPail d (kept (u.pail d) [word])) with out := u.out ++ [.reply (.core c) (leBytes 4 word)] }))) ∧
    (s.admits w.master (.pailCtl d) = true →
      let poll := fldSet (s.written (.pailCtl d) w).new PAIL_CTL_POLL (max 0x10 ((s.written (.pailCtl d) w).field PAIL_CTL_POLL))
      let v := s.put (.pailCtl d) poll
      (v.fget (.pailCtl d) PAIL_CTL_DRAIN = 0 → exec (.pailDrainWrite d w) s =
        .next ((v.setPail d { m with waiting := m.waiting ++ m.outside, outside := [] }).pailWork d)) ∧
      (m.waiting = [] → m.inbox = [] → m.outside = [] → ∃ t, exec (.pailDrainWrite d w) s = .next t ∧
        t = { s with regs := t.regs, pails := t.pails, paid := t.paid, turns := t.turns } ∧ s.regsBut t (· = .pailCtl d) ∧
        (∀ e, t.pail e = s.pail e) ∧ t.fget (.pailCtl d) PAIL_CTL_DRAIN = (s.written (.pailCtl d) w).field PAIL_CTL_DRAIN ∧
        t.fget (.pailCtl d) PAIL_CTL_POLL = max 0x10 ((s.written (.pailCtl d) w).field PAIL_CTL_POLL))) ∧
    (s.admits w.master (.pailStat1 d) = true → (s.written (.pailStat1 d) w).hit PAIL_STAT1_CLEAR = true →
      ∃ t, exec (.pailStatClear d w) s = .next t ∧ t = { s with regs := t.regs } ∧ s.regsBut t (fun r => r = .pailStat0 d ∨ r = .pailStat1 d) ∧
        t.get (.pailStat0 d) = 0#64 ∧ t.get (.pailStat1 d) = 0#64)

/-- R301 to R305, R309 to R312, R417: a message of a ring, a tree or a sync that is not open, or of a lost ring, is dropped and counted; a
HELLO that agrees marks its neighbour ready, and a CLOSE marks it gone; credits, blocks, riders, acknowledgements and RELEASE move their
run on; refused HELLOs are sent again; the twin opens a shadow sequence, takes a sync, and inserts a node once its block has come; the
last acknowledgement ends a sync with its count of grains. -/
def Obligations.ChurnAndTwinMessages : Prop :=
  ∀ (s a u : State) (d k : Nat) (msg : PailMsg) (r : ChurnRing) (x : ChurnRun) (t : Tree) (q : Seq) (bs : List Byte), s.dieUp d = true →
    (s.pail d).waiting = [] → (s.pail d).inbox = [] →
    let m := s.pail d
    let s0 := s.setPail d m
    let key := leNat (msg.data.take 8)
    let block := leNat ((msg.data.drop 8).take 8)
    let body := shadowOf msg.data
    let drops := fun (i : Instr) => ∃ v, exec i s = .next v ∧ v = { s with regs := v.regs, pails := v.pails, paid := v.paid, turns := v.turns } ∧
      s.regsBut v (· = .pailStat1 d) ∧ (∀ e, v.pail e = s.pail e) ∧
      v.fget (.pailStat1 d) PAIL_STAT1_LATE_DROPS = min (s.fget (.pailStat1 d) PAIL_STAT1_LATE_DROPS + 1) (2 ^ PAIL_STAT1_LATE_DROPS.width - 1)
    let leaves := fun (i : Instr) (m' : PailMgr) => ∃ v, exec i s = .next v ∧ v = { s with pails := v.pails, paid := v.paid, turns := v.turns } ∧
      v.pail d = m' ∧ ∀ e, e ≠ d → v.pail e = s.pail e
    let runs := fun (i : Instr) (b : PailM Unit) => b.run s0 = (.ok (), u) → exec i s = .next (u.pailRetry d)
    let ring := fun (y : ChurnRing) => ({ m with rings := smPut m.rings k y } : PailMgr)
    let on := fun (y : ChurnRun) => ({ r with active := some y } : ChurnRing)
    let goesOn := fun (y : ChurnRun) => (do setRun d k y; churnPump d k churnFuel : PailM Unit)
    (m.ringOf msg.ringId = none → (∀ i ∈ [Instr.hello d msg, .churnCredit d msg, .churnData d msg, .rider d msg, .dataAck d msg, .closeMessage d msg],
      drops i) ∧ exec (.helloResend d msg.ringId) s = .next s ∧ exec (.releasePoll d msg.ringId) s = .next s) ∧
    (m.ringOf msg.ringId = some (k, r) → r.lost = true →
      ∀ i ∈ [Instr.hello d msg, .churnCredit d msg, .churnData d msg, .rider d msg, .dataAck d msg, .closeMessage d msg], drops i) ∧
    (smFind m.trees msg.tree = none → drops (.shadowData d msg)) ∧
    ((m.syncs.find? fun y => decide (y.seq = key) && decide (y.tree = msg.tree)) = none → drops (.shadowAck d msg)) ∧
    (smFind m.seqs key = none → drops (.shadowNode d msg)) ∧
    (m.ringOf msg.ringId = some (k, r) → smFind m.rings k = some r → r.lost = false →
      (msg.r = r.r → msg.c = r.c → leaves (.hello d msg) (ring { r with helloNext := r.helloNext || r.fromNext msg, helloPrev := r.helloPrev || r.fromPrev msg })) ∧
      (¬(msg.r = r.r ∧ msg.c = r.c) → leaves (.hello d msg) m) ∧
      leaves (.closeMessage d msg)
        (ring { r with helloNext := r.helloNext && !r.fromNext msg, helloPrev := r.helloPrev && !r.fromPrev msg }) ∧
      (r.refusedNext = false → r.refusedPrev = false → leaves (.helloResend d msg.ringId) (ring r)) ∧
      (∀ e y z, smFind m.trees r.tree = some t → y = { r with refusedNext := false, refusedPrev := false } →
        let sends := fun (x : State) (next : Bool) (z : State) => x.sendPailMsg d t.hr false (if next then y.nextDev else y.prevDev) (2 ^ 24 - 1)
          (pailAddr 1 0 y.id y.pos 0 y.runs) k (helloBytes y) = (z, true)
        (if r.refusedNext then sends (s.putRing d k y) true e else e = s.putRing d k y) → e.pailRing d k = some y → e.pailTree d r.tree = some t →
        (if r.refusedPrev then sends e false z else z = e) → exec (.helloResend d msg.ringId) s = .next (z.pailWork d)) ∧
      (r.fromNext msg = false → drops (.churnCredit d msg)) ∧
      (r.active = none → drops (.churnData d msg) ∧ drops (.dataAck d msg) ∧ leaves (.releasePoll d msg.ringId) m ∧
        (r.fromNext msg = true → msg.run = r.runs % 256 →
          leaves (.churnCredit d msg) (ring { r with early := max r.early msg.step }))) ∧
      (r.active = some x → r.fromNext msg = true → msg.run ≠ r.runs % 256 → msg.run = (r.runs + 1) % 256 →
        leaves (.churnCredit d msg) (ring { r with early := max r.early msg.step })) ∧
      (r.active = some x → smFind m.trees r.tree = some t →
        (r.fromNext msg = true → msg.run = r.runs % 256 →
          runs (.churnCredit d msg) (goesOn { x with credit := max x.credit msg.step }) ∧
          runs (.dataAck d msg) (goesOn { x with acked := max x.acked msg.step }) ∧
          (r.idle { x with credit := max x.credit msg.step } → leaves (.churnCredit d msg) (ring (on { x with credit := max x.credit msg.step }))) ∧
          (r.idle { x with acked := max x.acked msg.step } → leaves (.dataAck d msg) (ring (on { x with acked := max x.acked msg.step })))) ∧
        (r.fromPrev msg = true → msg.run = r.runs % 256 → msg.step = x.held + 1 → msg.step ≤ x.credited →
          runs (.churnData d msg) (do writeBlock d k r x.layer msg.step msg.data; goesOn { x with held := msg.step }) ∧
          ((writeBlock d k r x.layer msg.step msg.data).run s0 = (.ok (), u) → u.pailRing d k = some r → u.pailTree d r.tree = some t →
            r.idle { x with held := msg.step } → exec (.churnData d msg) s = .next ((u.putRing d k (on { x with held := msg.step })).pailRetry d))) ∧
        (r.fromPrev msg = true → msg.run = r.runs % 256 → msg.step = x.riderHeld + 1 → msg.step ≠ r.r →
          runs (.rider d msg) (do pailWrite d t.hr (r.riderAt msg.step) (msg.data.take r.riderBytes); goesOn { x with riderHeld := msg.step }) ∧
          (s0.pailWrites d t.hr (r.riderAt msg.step) (msg.data.take r.riderBytes) u → u.pailRing d k = some r → u.pailTree d r.tree = some t →
            r.idle { x with riderHeld := msg.step } → exec (.rider d msg) s = .next ((u.putRing d k (on { x with riderHeld := msg.step })).pailRetry d))) ∧
        (let rise := (leNat bs + 2 ^ 64 - x.release0) % 2 ^ 64
          let y := { x with released := max x.released (if r.count = 0 then r.r else min r.r (rise / r.count)) }
          s.pailReads d t.hr r.release 8 bs u → u.pailRing d k = some r → u.pailTree d r.tree = some t →
            ((churnPump d k churnFuel).run (u.putRing d k (on y)) = (.ok (), a) → exec (.releasePoll d msg.ringId) s = .next (a.pailWork d)) ∧
            (r.idle y → exec (.releasePoll d msg.ringId) s = .next ((u.putRing d k (on y)).pailWork d)))) ∧
      (smFind m.trees r.tree = some t → r.fromPrev msg = true → msg.step = r.r →
        runs (.rider d msg) (do
          pailWrite d t.hr (r.riderAt msg.step) (msg.data.take r.riderBytes)
          let _ ← sendChurnAt d k 5 false msg.step msg.run []))) ∧
    (smFind m.trees msg.tree = some t → body.fresh = true →
      (smFind m.seqs body.seq = none → leaves (.shadowData d msg)
        { m with nodes := m.nodes.filter (fun x => decide (x.seq ≠ body.seq)), seqs := smPut m.seqs body.seq ⟨msg.tree, body.base, body.blocks, 0, [], true, 0, []⟩ }) ∧
      (smFind m.seqs body.seq = some q → q.shadow = true → runs (.shadowData d msg) (openShadow d msg.tree body))) ∧
    (smFind m.trees msg.tree = some t → smFind m.seqs body.seq = some q →
      (q.shadow = false ∨ (body.fresh = false ∧ q.tree ≠ msg.tree) → drops (.shadowData d msg)) ∧
      (q.shadow = true → body.fresh = false → q.tree = msg.tree → runs (.shadowData d msg) (takeSync d msg.tree msg body))) ∧
    (smFind m.trees msg.tree = some t → smFind m.seqs body.seq = none → body.fresh = false →
      runs (.shadowData d msg) (do openShadow d msg.tree body; takeSync d msg.tree msg body)) ∧
    (∀ y, (m.syncs.find? fun y => decide (y.seq = key) && decide (y.tree = msg.tree)) = some y →
      (y.acked + block < y.sent →
        leaves (.shadowAck d msg) { m with syncs := m.syncs.map (fun z => if z = y then { y with acked := y.acked + block } else z) }) ∧
      (smFind m.seqs key = some q → y.sent ≤ y.acked + block →
        ∃ v, exec (.shadowAck d msg) s = .next v ∧
          v = { s with pails := v.pails, paid := v.paid, turns := v.turns, records := s.records ++ [⟨.pail d, y.tag, y.tag * 2 ^ 32, y.sent⟩] } ∧
          v.pail d = { m with syncs := m.syncs.erase y, seqs := smPut m.seqs key { q with synced := q.len, changed := [] } } ∧
          ∀ e, e ≠ d → v.pail e = s.pail e)) ∧
    (smFind m.seqs key = some q →
      (q.shadow = false ∨ q.tree ≠ msg.tree → drops (.shadowNode d msg)) ∧
      (q.shadow = true → q.tree = msg.tree → smFind m.trees msg.tree = some t →
        let node : ShadowNode := ⟨msg.tree, key, block, (msg.data.drop 16).take 16⟩
        (q.used ≤ block → (m.nodes.all fun x => !(decide (x.tree = msg.tree) && decide (x.seq = key) && decide (x.block < q.used))) = true →
          leaves (.shadowNode d msg) { m with nodes := m.nodes ++ [node] }) ∧
        (∀ b, m.nodes = [] → block < q.used → s0.pailReads d t.hr (q.base + 4 * block) 4 bs a → (entryOf (leNat bs)).valid = true →
          (entryOf (leNat bs)).lost = false → (insertNode d msg.tree node.key (entryOf (leNat bs)) block 0).run a = (.ok b, u) →
          exec (.shadowNode d msg) s = .next (u.pailRetry d))))

/-! ### Mesh, ring, arbiters and crossings -/

/-- R318 to R323, R325 to R329, R335, R336: an output of a router sends the packet that an input holds for it to the core, the next router or the
gateway, once there is room, and its pointer moves past that input; a request enters while its sender holds space for the reply; a stop
hands over what its buffers hold, ejects a packet at its destination or holds it and counts that, and lets a waiting packet onto a free
lane; three heartbeats missed in a row take a die out of service. -/
def Obligations.RoutersAndStopsMovePackets : Prop :=
  ∀ (s : State) (d node stop lane o : Nat) (cw busy missed : Bool) (out : RouterOut) (p : MeshPkt),
    let r := s.router d node
    let x := s.stop d stop
    let key := slotKey d cw lane stop
    (s.meshUp d = false → exec (.routerPacket d node out []) s = .next s ∧ exec (.ringStopPacket d stop lane cw busy []) s = .next s ∧
      exec (.heartbeat d node missed) s = .next s) ∧
    (∀ i ps, s.meshUp d = true → node < 64 → r.inputs.length = 10 → i < 10 → r.inputs.getD i [] = p :: ps → routerOut node p = out →
      ((r.inputs.getD 8 []).all fun q => decide (q.cls = .request)) = true → ((r.inputs.getD 9 []).all fun q => decide (q.cls = .reply)) = true →
      s.meshRoom d node out p = true → (∀ j < 10, j ≠ i → ∀ q ∈ (r.inputs.getD j []).head?, routerOut node q ≠ out) →
      ∃ t, exec (.routerPacket d node out []) s = .next t ∧ t = { s with routers := t.routers, stops := t.stops, out := t.out, draws := t.draws } ∧
        t.router d node = { r with inputs := r.inputs.set i ps, ptrs := r.ptrs.set (outIdx out) ((i / 2 + 1) % 5),
                                   owed := if out = .core ∧ p.cls = .reply then r.owed - p.flits else r.owed } ∧
        (out = .core → t.out = s.out ++ [.deliver d node p.bytes] ∧ t.stops = s.stops) ∧
        (∀ e n, out = .side e → beyond node e = some n → t.out = s.out ∧ t.stops = s.stops ∧
          (t.router d n).inputs = (s.router d n).inputs.modify (bufferIdx (sideIdx (opposite e)) p.cls) (· ++ [p])) ∧
        (∀ e, out = .side e → beyond node e = none → t.out = s.out ∧ (t.stop d (gatewayStop (gatewayAt node e))).waiting =
          (s.stop d (gatewayStop (gatewayAt node e))).waiting ++ [p])) ∧
    (s.meshUp d = true → node < 64 → r = { RouterSt.init with owed := o } → p.sound = true → routerOut node p ≠ out →
      ∃ t, exec (.routerPacket d node out [p]) s = .next t ∧ t = { s with routers := t.routers, draws := t.draws } ∧
        (o + p.reply ≤ 8 → (t.router d node).inputs = r.inputs.set (bufferIdx 4 p.cls) [p] ∧ (t.router d node).owed = o + p.reply) ∧
        (8 < o + p.reply → t.router d node = r)) ∧
    (∀ n, s.meshUp d = true → stopPresent s.variant stop = true → 32 ≤ stop → nextStop s.variant d stop cw = some n →
      let sel := arbSelOf 4 (stop * 2 + b2n (!cw))
      (smFind s.ringSlots key = none → x.waiting = [] →
        ∃ t, exec (.ringStopPacket d stop lane cw false []) s = .next t ∧ t = { s with regs := t.regs, stops := t.stops, out := t.out } ∧
          s.regsBut t (· = .arbStarve d sel) ∧ t.out = s.out ++ (x.req ++ x.rep).map (fun q => .deliver d (64 + stop) q.bytes) ∧
          t.stop d stop = { StopSt.init with owed := x.owed - flitsIn x.rep }) ∧
      (∀ y, smFind s.ringSlots key = some y → smFind (smDel s.ringSlots key) key = none → ringExit y.pkt = stop → y.held = false → x.waiting = [] →
        let buffer := if y.pkt.cls = PacketClass.request then x.req else []
        let left := { x with rep := [], owed := x.owed - flitsIn x.rep }
        ∃ t, exec (.ringStopPacket d stop lane cw true []) s = .next t ∧ t.out = s.out ++ x.rep.map (fun q => .deliver d (64 + stop) q.bytes) ∧
          t = { s with regs := t.regs, stops := t.stops, ringSlots := t.ringSlots, out := t.out } ∧
          (bufferRoom buffer y.pkt = true → t.ringSlots = smDel s.ringSlots key ∧ s.regsBut t (· = .arbStarve d sel) ∧
            t.stop d stop = (if y.pkt.cls = PacketClass.request then { left with req := x.req ++ [y.pkt] } else { left with rep := [y.pkt] })) ∧
          (bufferRoom buffer y.pkt = false → t.ringSlots = smPut s.ringSlots key { y with held := true } ∧ t.stop d stop = left ∧
            s.regsBut t (fun q => q = .arbStarve d sel ∨ q = .meshStat d) ∧
            t.fget (.meshStat d) MESH_STAT_EJECT_HOLDS = min (s.fget (.meshStat d) MESH_STAT_EJECT_HOLDS + 1) (2 ^ 32 - 1))) ∧
      (x = ⟨[p], [], [], o⟩ → smFind s.ringSlots key = none → smFind s.ringSlots (slotKey d cw lane n) = none →
        ringWay d stop p = (lane % 16, cw) → s.arbFrozen d sel = false →
        ∃ t, exec (.ringStopPacket d stop lane cw busy []) s = .next t ∧
          t = { s with regs := t.regs, stops := t.stops, arbs := t.arbs, ringSlots := t.ringSlots } ∧
          s.regsBut t (fun q => q = .arbStarve d sel ∨ q = .arbStat d sel) ∧
          t.ringSlots = smPut s.ringSlots (slotKey d cw lane n) ⟨p, false⟩ ∧ t.stop d stop = ⟨[], [], [], o⟩)) ∧
    (s.meshUp d = true → node < 64 →
      let k := 128 * d + node
      let n := smGet 0 s.missed k
      exec (.heartbeat d node false) s = .next { s with missed := smDel s.missed k } ∧
      (n < 2 → exec (.heartbeat d node true) s = .next { s with missed := smPut s.missed k (n + 1) }) ∧
      (2 ≤ n → ∃ t : State, exec (.heartbeat d node true) s = .next (t.dieOut d) ∧ t = { s with regs := t.regs } ∧ s.regsBut t (· = .meshStatus d) ∧
        t.fget (.meshStatus d) MESH_STATUS_FAILED = 1 ∧ t.fget (.meshStatus d) MESH_STATUS_NODE = node))

/-- R337 to R342, R345, R352 to R356: the requester at the pointer is granted while it has had fewer grants than its weight, and the pointer moves on once
it has no more pending; a requester alone is granted; what is granted enters; a full resource grants nothing, and a frozen instance
gives every pending requester a hint of 0xF, as a freeze does, and lets what it held go on when the freeze ends; drained work clears
BUSY, and CLEAR the statistics. -/
def Obligations.ArbitersGrantByWeight : Prop :=
  ∀ (s : State) (d sel i : Nat) (w : RegWrite), arbPresent sel = true → d < 4 → s.dieUp d = true →
    let a := s.arb d sel
    let n := arbRequesters sel
    let hints := fun (p : Nat → Bool) => ((List.range n).filter p).map fun j => Output.hallPass d sel j 0xF
    (arbGrants s.variant d sel = true → s.arbFull d sel = false → s.arbFrozen d sel = false →
      (i < n → a.counts = List.replicate 16 0 → ∃ t : State, exec (.arbGrant d sel [i]) s = .next (t.arbEnter d sel i).rouse ∧
        t = { s with regs := t.regs, arbs := t.arbs } ∧
        s.regsBut t (fun r => r = .arbStarve d sel ∨ r = .arbStat d sel ∨ r = .arbCtl d sel) ∧ (t.arb d sel).counts = a.counts ∧
        (t.arb d sel).losses = a.losses.set i 0 ∧ (t.arb d sel).ptr = (i + 1) % n ∧ t.fget (.arbStarve d sel) ARB_STARVE_PENDING = 0 ∧
        t.fget (.arbCtl d sel) ARB_CTL_BUSY = 1 ∧
        t.fget (.arbStat d sel) ARB_STAT_GRANTS = min (s.fget (.arbStat d sel) ARB_STAT_GRANTS + 1) (2 ^ 32 - 1)) ∧
      (a.ptr < n → 0 < wordAt a.counts a.ptr → a.used < weightOf a.weights a.ptr →
        ∃ t : State, exec (.arbGrant d sel []) s = .next (t.arbEnter d sel a.ptr).rouse ∧
          (t.arb d sel).ptr = (if wordAt a.counts a.ptr = 1 then (a.ptr + 1) % n else a.ptr) ∧
          (t.arb d sel).used = (if wordAt a.counts a.ptr = 1 then 0 else a.used + 1) ∧
          (t.arb d sel).counts = a.counts.modify a.ptr (· - 1) ∧ t.fget (.arbCtl d sel) ARB_CTL_BUSY = 1)) ∧
    (s.arbFrozen d sel = false → arbGrants s.variant d sel = false ∨ s.arbFull d sel = true →
      ∃ t, exec (.arbGrant d sel []) s = .next t ∧ t = { s with regs := t.regs, arbs := t.arbs } ∧ s.regsBut t (· = .arbStarve d sel) ∧
        t.arb d sel = a) ∧
    (arbGrants s.variant d sel = true → s.arbFrozen d sel = true →
      ∃ t, exec (.arbGrant d sel []) s = .next t ∧ t = { s with regs := t.regs, arbs := t.arbs, out := t.out } ∧
        s.regsBut t (· = .arbStarve d sel) ∧ t.arb d sel = a ∧ t.out = s.out ++ hints fun j => decide (0 < wordAt a.counts j)) ∧
    (s.admits w.master (.arbCtl d sel) = true → ∃ t : State, t = { s with regs := t.regs, out := t.out } ∧
      s.regsBut t (· = .arbCtl d sel) ∧ t.fget (.arbCtl d sel) ARB_CTL_FREEZE = (s.written (.arbCtl d sel) w).field ARB_CTL_FREEZE ∧
      t.fget (.arbCtl d sel) ARB_CTL_LIMIT = max 1 ((s.written (.arbCtl d sel) w).field ARB_CTL_LIMIT) ∧
      t.out = s.out ++ (if t.arbFrozen d sel ∧ s.arbFrozen d sel = false then hints (s.fget (.arbStarve d sel) ARB_STARVE_PENDING).testBit else []) ∧
      exec (.arbFreeze d sel w) s = .next (if s.arbFrozen d sel ∧ t.arbFrozen d sel = false then (t.arbThaw d sel).rouse else t)) ∧
    (∃ t, exec (.arbDrainComplete d sel) s = .next t ∧ t = { s with regs := t.regs } ∧ s.regsBut t (· = .arbCtl d sel) ∧
      t.fget (.arbCtl d sel) ARB_CTL_BUSY = 0 ∧ t.fget (.arbCtl d sel) ARB_CTL_FREEZE = s.fget (.arbCtl d sel) ARB_CTL_FREEZE) ∧
    (s.admits w.master (.arbStat d sel) = true → (s.written (.arbStat d sel) w).hit ARB_STAT_CLEAR = true →
      ∃ t, exec (.arbStatClear d sel w) s = .next t ∧ t = { s with regs := t.regs } ∧ s.regsBut t (· = .arbStat d sel) ∧
        t.fget (.arbStat d sel) ARB_STAT_GRANTS = 0 ∧ t.fget (.arbStat d sel) ARB_STAT_MAX_LOSSES = 0)

/-- R360 to R366, R369, R370, R373, R374: a single-wire crossing carries one event a round trip and holds up to 15 and its producers; a sample is
accepted within eight attempts, its disagreements counted, or else waits for the changeover to queue mode; values pass through a queue in
order, and a full one holds its writer; a stall is recorded, and STALL_LIMIT 0 turns the check off; FORCE puts an agreed-sample crossing
into queue mode. -/
def Obligations.CrossingsCarryValues : Prop :=
  ∀ (s : State) (d sel v attempts : Nat) (w : RegWrite),
    let x := s.xing d sel
    let fget := fun (t : State) (f : Fld) => t.fget (.xingStatus d sel) f
    let only := fun (t : State) => t = { s with regs := t.regs, xings := t.xings, out := t.out, draws := t.draws } ∧
      s.regsBut t (fun r => r = .xingStatus d sel ∨ r = .xingCtl d)
    let took := fun (t : State) (lo n : Nat) => ∃ k < n, fget t XING_STATUS_LAT_MAX = min 0xFFFF (max (lo + k) (fget s XING_STATUS_LAT_MAX))
    let sends := fun (t : State) (l : List Nat) => t.out = s.out ++ l.map (Output.crossing d sel)
    let queued := fun (t : State) => only t ∧ (∃ n ≤ x.queue.length,
        let vs := x.waiting ++ [v]
        let room := s.xingDepth d sel - (x.queue.length - n)
        sends t (vs.take room) ∧ t.xing d sel = { x with queue := x.queue.drop n ++ vs.take room, waiting := vs.drop room }) ∧
      (x.waiting = [] → x.queue.length < s.xingDepth d sel → took t 3 4)
    let passes := fun (t : State) (vs : List Nat) => only t ∧ (∃ j, sends t (vs.take j) ∧ (t.xing d sel).waiting = vs.drop j ∧ (vs ≠ [] → 1 ≤ j)) ∧
      (t.xing d sel).failing = none ∧ fget t XING_STATUS_FALLBACK = 1
    (s.xingIs d sel .single = true →
      (∃ t, exec (.signalRaise d sel) s = .next t ∧ t = { s with xings := t.xings } ∧ t.xing d sel =
        (if x.trip = false then { x with trip := true } else if x.events < 15 then { x with events := x.events + 1 }
          else { x with producers := x.producers + 1 })) ∧
      (x.trip = true → ∃ t, exec (.signalRoundTrip d sel) s = .next t ∧ only t ∧ sends t [1] ∧ took t 2 2 ∧ t.xing d sel =
        (if x.events = 0 then { x with trip := false } else if x.producers = 0 then { x with events := x.events - 1 }
          else { x with producers := x.producers - 1 }))) ∧
    (s.xingIs d sel .sample = true → v < 2 ^ 64 →
      (fget s XING_STATUS_FALLBACK = 1 → ∃ t, exec (.samplePresent d sel v attempts) s = .next t ∧ queued t) ∧
      (fget s XING_STATUS_FALLBACK = 0 → x.failing = none → 1 ≤ attempts → attempts ≤ 8 →
        ∃ t, exec (.samplePresent d sel v attempts) s = .next t ∧ only t ∧ sends t [v] ∧ took t (min 4 (attempts + 1)) (5 - min 4 (attempts + 1)) ∧
          t.xings = s.xings ∧ fget t XING_STATUS_RUN = 0 ∧
          fget t XING_STATUS_DISAGREE = min (fget s XING_STATUS_DISAGREE + (attempts - 1)) (2 ^ 16 - 1)) ∧
      (fget s XING_STATUS_FALLBACK = 0 → x.failing = none → 8 < attempts →
        ∃ t, exec (.samplePresent d sel v attempts) s = .next t ∧ only t ∧ sends t [] ∧ t.xing d sel = { x with failing := some v } ∧
          fget t XING_STATUS_RUN = 8 ∧ fget t XING_STATUS_DISAGREE = min (fget s XING_STATUS_DISAGREE + 8) (2 ^ 16 - 1)) ∧
      (∀ f, fget s XING_STATUS_FALLBACK = 0 → x.failing = some f →
        (∃ t, exec (.samplePresent d sel v attempts) s = .next t ∧ t = { s with xings := t.xings } ∧
          t.xing d sel = { x with waiting := x.waiting ++ [v] }) ∧
        (s.fget (.xingCtl d) XING_CTL_INT_EN = 0 → x.queue = [] → ∃ t, exec (.sampleFallback d sel) s = .next t ∧ passes t (f :: x.waiting) ∧
          fget t XING_STATUS_FORCED = 0 ∧ (x.waiting = [] → (t.xing d sel).queue = [f] ∧ took t 3 13)))) ∧
    (s.xingIs d sel .queue = true → ∃ t, exec (.queueWrite d sel v) s = .next t ∧ queued t) ∧
    ((xingKind s.variant d sel).isSome = true → s.dieUp d = true → s.fget (.xingCtl d) XING_CTL_STALL_LIMIT ≠ 0 →
      s.fget (.xingCtl d) XING_CTL_INT_EN = 0 → ∃ t, exec (.crossingStall d sel) s = .next t ∧ t = { s with regs := t.regs } ∧
        s.regsBut t (· = .xingStatus d sel) ∧ fget t XING_STATUS_STALLED = 1) ∧
    (s.fget (.xingCtl d) XING_CTL_STALL_LIMIT = 0 → exec (.crossingStall d sel) s = .next s) ∧
    (s.admits w.master (.xingCtl d) = true → sel = bitsOf (s.get (.xingSel d w.master.copy)).toNat 0 20 →
      let c := s.written (.xingCtl d) w
      (c.hit XING_CTL_FORCE = true → xingKind s.variant d sel = some .sample → fget s XING_STATUS_FALLBACK = 0 → c.field XING_CTL_INT_EN = 0 → x.queue = [] →
        ∃ t, exec (.xingForce d w) s = .next t ∧ passes t (x.failing.toList ++ x.waiting) ∧ t.get (.xingCtl d) = c.new ∧
          fget t XING_STATUS_FORCED = 1) ∧
      (c.hit XING_CTL_FORCE = false → ∃ t, exec (.xingForce d w) s = .next t ∧ t = { s with regs := t.regs } ∧
        s.regsBut t (· = .xingCtl d) ∧ t.get (.xingCtl d) = c.new))

/-! ### Die-to-die links -/

/-- R30, R377 to R384, R386, R393, R397: a packet waits at the module of its flow key and goes as soon as it may, packed into flits, one credit a
packet; with no path its request completes with DIE_LOST; a flit that fails its CRC is answered by a NAK, and so is the first out of
order; a good one moves the expected number on and acts; a NAK and a replay time-out resend; credits rise to at most 32; a ROUTE moves
its key; what comes from a lost die is dropped and counted. -/
def Obligations.DieLinksCarryFlits : Prop :=
  ∀ (s : State) (d dst e m lane srcStop : Nat) (side : Sideband) (cls : PacketClass) (hdr data bytes : List Byte),
    let x := s.module d e m
    let g := s.edge d e
    let usable := s.edgeUp d e && s.moduleActive d e m && !x.repairing
    (s.dieUp d = true → hdr.length = 16 → hdr.getD 0 0#8 ≠ 0#8 → hdr.getD 0 0#8 ≠ 0xFF#8 → data.length ≤ 256 →
      let pkt : LinkPkt := ⟨0, cls, flowKey cls (lane % 16) srcStop, dst, hdr ++ data ++ checkField side.off data side.chk⟩
      let numbered := { pkt with id := g.nextId }
      (s.firstHop d dst = none → exec (.d2dPacketSend d dst cls lane srcStop hdr data side) s =
        .next { s with out := s.out ++ [.message "DIE_LOST" (pkt.bytes.map BitVec.toNat)] }) ∧
      (s.firstHop d dst = some e → m = wordAt g.mapTx pkt.key →
        (∃ t : State, exec (.d2dPacketSend d dst cls lane srcStop hdr data side) s = .next (t.pumpModule d e m) ∧
          t = { s with edges := t.edges, modules := t.modules } ∧ t.edge d e = { g with nextId := g.nextId + 1 } ∧
          t.module d e m = { x with queue := x.queue ++ [numbered] }) ∧
        (data = [] → usable = true → s.dieDivider d e = 1 → x.queue = [] → x.unacked = [] → 0 < x.credit cls →
          ∃ t, exec (.d2dPacketSend d dst cls lane srcStop hdr data side) s = .next t ∧
            t = { s with edges := t.edges, modules := t.modules, out := s.out ++ [.die d e m (dieFlit x.next (x.expected + 255) hdr)] } ∧
            (t.module d e m).queue = [] ∧ (t.module d e m).unacked = [⟨x.next, hdr, [numbered]⟩] ∧
            (t.module d e m).next = (x.next + 1) % 256 ∧ (t.module d e m).credit cls = x.credit cls - 1))) ∧
    (s.dieUp d = true → (edgePeer s.variant d e).isSome = true → bytes.length = 256 →
      let number := (bytes.getD 0 0#8).toNat
      let whole := decide (leNat (bytes.drop 252) = crc32c (bytes.take 252))
      (s.edgeState d e = 3 ∨ s.edgeState d e = 4 →
        (s.sentFlit d e m number = none → exec (.d2dFlitReceive d e m bytes) s = .next s) ∧
        (∀ r, s.sentFlit d e m number = some r → ∃ t, exec (.d2dFlitReceive d e m bytes) s = .next t ∧ t = { s with regs := t.regs } ∧
          s.regsBut t (· = .d2dStat d) ∧ t.fget (.d2dStat d) D2D_STAT_LATE_DROPS =
            min (s.fget (.d2dStat d) D2D_STAT_LATE_DROPS + (r.pkts.filter fun p => decide (p.key < 96)).length) (2 ^ 32 - 1))) ∧
      (usable = true →
        (whole = true → number ≠ x.expected →
          exec (.d2dFlitReceive d e m bytes) s = .next (if x.naking then s else s.sendNak d e m)) ∧
        (whole = false → exec (.d2dFlitReceive d e m bytes) s =
          .next ((s.setModule d e m { x with bad := x.bad.or (some (if x.naking then number else x.expected, bytes)) }).sendNak d e m)) ∧
        (whole = true → number = x.expected →
          let errs := match x.bad with
            | some b => if b.1 = number then laneErrors (s.moduleWidth d e m) x.failed x.laneErrs b.2 bytes else x.laneErrs
            | none => x.laneErrs
          let t := s.setModule d e m { x with expected := (number + 1) % 256, naking := false, laneErrs := errs,
                                              bad := if (x.bad.map Prod.fst) = some number then none else x.bad,
                                              unacked := ackTrim x.unacked (bytes.getD 1 0#8).toNat }
          let content := (bytes.drop 2).take 250
          (∀ r, s.sentFlit d e m number = some r → exec (.d2dFlitReceive d e m bytes) s =
            .next (((t.takeStream d e m (x.part ++ content) r.pkts).pumpModule d e m).markLanes d e m)) ∧
          (s.sentFlit d e m number = none → content.all (· == 0#8) = true → exec (.d2dFlitReceive d e m bytes) s =
            .next (((t.peerIdle d e m number).pumpModule d e m).markLanes d e m))))) ∧
    (usable = true → s.dieDivider d e = 1 → x.queue = [] → x.unacked.length < 128 →
      let nak := (linkControl 0x01 (leBytes 1 x.expected)).bytes
      (s.sendNak d e m).out = s.out ++ [.die d e m (dieFlit x.next (x.expected + 255) nak)] ∧ ((s.sendNak d e m).module d e m).naking = true) ∧
    (∀ seq i, usable = true → x.queue = [] → (x.unacked.findIdx? fun r => decide (r.seq = seq % 256)) = some i →
      ∃ t, exec (.d2dNak d e m seq) s = .next t ∧ t = { s with regs := t.regs, modules := t.modules, out := t.out } ∧
        s.regsBut t (· = .d2dModule d e m) ∧ t.module d e m = { x with unacked := x.unacked.drop i } ∧
        t.out = s.out ++ (x.unacked.drop i).map fun r => .die d e m (dieFlit r.seq (x.expected + 255) r.content)) ∧
    (usable = true → exec (.d2dReplayTimeout d e m) s = .next (s.resendCounted d e m 0) ∧ (x.unacked = [] → exec (.d2dReplayTimeout d e m) s = .next s) ∧
      (x.unacked ≠ [] → ∃ t, exec (.d2dReplayTimeout d e m) s = .next t ∧ t = { s with regs := t.regs, out := t.out } ∧
        s.regsBut t (· = .d2dModule d e m) ∧
        t.fget (.d2dModule d e m) D2D_MODULE_RESENDS = min (s.fget (.d2dModule d e m) D2D_MODULE_RESENDS + 1) (2 ^ 16 - 1) ∧
        t.out = s.out ++ x.unacked.map fun r => .die d e m (dieFlit r.seq (x.expected + 255) r.content))) ∧
    (∀ req rep, s.edgeUp d e = true → x.queue = [] → ∃ t, exec (.d2dCredit d e m req rep) s = .next t ∧ t = { s with modules := t.modules } ∧
      t.module d e m = { x with credReq := min 32 (x.credReq + req), credRep := min 32 (x.credRep + rep) }) ∧
    (∀ key n, s.edgeUp d e = true → key < 96 → n < edgeModules s.variant d e → (∀ p ∈ g.held, p.key ≠ key) →
      ∃ t, exec (.d2dRoute d e m key n) s = .next t ∧ t = { s with edges := t.edges } ∧ t.edge d e = { g with mapRx := g.mapRx.set key n })

/-- R33, R381, R388 to R398: a window clears the lane error counts; a repair that trains gives both ends the width that their good lanes allow and counts, and
one that does not, or a watchdog, retires the module at both ends; GOODBYE marks the edge; a die that all its edges report, or one that
says GOODBYE, goes down, and the survivors' DIES_LOST says so; the deputy is the lowest surviving stack. -/
def Obligations.DieLinksRepairAndRetire : Prop :=
  ∀ (s : State) (d e m p g cause die : Nat),
    let x := s.module d e m
    let y := s.module p g m
    (∃ t, exec (.laneErrorWindow d e m) s = .next t ∧ t = { s with modules := t.modules } ∧
      t.module d e m = { x with laneErrs := List.replicate 18 0 } ∧ (m < 32 → ∀ k < 32, k ≠ m → t.module d e k = s.module d e k)) ∧
    (otherEnd s.variant d e = some (p, g) → p ≠ d → x.repairing = true → s.moduleActive d e m = true →
      exec (.d2dRepairComplete d e m false) s = .next (s.retire d e m) ∧
      (x.unacked = [] → y.unacked = [] → x.queue = [] → y.queue = [] → s.fget (.d2dCtl d) D2D_CTL_INT_EN = 0 →
        ∃ t, exec (.d2dRepairComplete d e m true) s = .next t ∧ t = { s with regs := t.regs, modules := t.modules } ∧
          s.regsBut t (fun r => r = .d2dModule d e m ∨ r = .d2dModule p g m ∨ r = .d2dEdgeStatus d e ∨ r = .d2dEdgeStatus p g) ∧
          t.module d e m = { x with repairing := false } ∧ t.module p g m = { y with repairing := false } ∧
          ∀ r ∈ [Reg.d2dModule d e m, .d2dModule p g m],
            t.fget r D2D_MODULE_WIDTH = widthFor (goodLanes x.failed).length (goodLanes y.failed).length ∧
            t.fget r D2D_MODULE_REPAIRS = min (s.fget r D2D_MODULE_REPAIRS + 1) (2 ^ 8 - 1))) ∧
    (s.dieUp d = true → s.edgeState d e = 1 → s.moduleActive d e m = true →
      exec (.d2dWatchdog d e m false) s = .next (s.retire d e m) ∧ (s.retire d e m).fget (.d2dModule d e m) D2D_MODULE_WIDTH = 2 ∧
      ((List.range (edgeModules s.variant d e)).any ((s.retire d e m).moduleActive d e) = false → ∃ t, exec (.d2dWatchdog d e m true) s = .next t ∧
        t = { s.retire d e m with regs := t.regs } ∧ t.edgeState d e = 3)) ∧
    ((edgePeer s.variant d e).isSome = true → s.dieUp d = true → ∃ t, exec (.d2dGoodbye d e cause) s = .next t ∧ t = { s with regs := t.regs } ∧
      s.regsBut t (· = .d2dEdgeStatus d e) ∧ t.edgeState d e = 4) ∧
    (s.dieUp die = true → s.reports die ≠ [] →
      (if die = 4 ∨ s.dieUp 4 = false then ∃ k < 4, k ≠ die ∧ s.dieUp k = true else True) →
      let bye := (s.reports die).any fun r => decide (r = 4)
      let v := if bye then s.peersSee die 4 else s
      (bye = true ∨ ∀ r ∈ s.reports die, r = 3) → exec (.dieLostDeclaration die) s = .next (v.dieDown die bye) ∧
        (4 < die → die < 8 → s.fabReqs = [] → (∀ k < 4, (s.pail k).syncs = [] ∧ (s.pail k).parts = []) →
          ∃ t : State, exec (.dieLostDeclaration die) s = .next t.rouse ∧ t.domainState die = 2 ∧
            ∀ k < 8, k ≠ die → s.dieUp k = true → (t.fget (.d2dStat k) D2D_STAT_DIES_LOST).testBit die = true)) ∧
    (s.dieUp die = true → (∃ r ∈ s.reports die, r ≠ 3) → (∀ r ∈ s.reports die, r ≠ 4) →
      exec (.dieLostDeclaration die) s = .next s) ∧
    (exec (.deputyTakeover die) s = .next (if (List.range 4).find? s.dieUp = some die then { s with deputy := die } else s))

/-! ### The Nirsavor fabric -/

/-- R393, R413 to R418, R422, R428, R429, R439, R602, R603: a request that its policy admits is performed and answered with ACK or DATA, another with UNREACH
and BAD_OP; behind a waiting request of its flow, or while its access is held, it waits; a reply ends the request of its tag, or is dropped
and counted; a packet made here leaves by a port of its route, or its issuer is told; one that arrives is delivered, forwarded with one
hop less, or answered, and its credits return. -/
def Obligations.FabricPacketsAreServedAndRouted : Prop :=
  ∀ (s u : State) (d p old : Nat) (k : Packet) (bs : List Byte) (e : AccErr),
    let f := s.fab d p
    let counts := fun (t : State) (x : Fld) => t = { s with regs := t.regs } ∧ s.regsBut t (· = .linkStat d) ∧
      t.fget (.linkStat d) x = min (s.fget (.linkStat d) x + 1) (2 ^ x.width - 1)
    let behind := s.fabWaits.any fun x => decide (x.pkt.src = k.src) && decide (x.pkt.flow = k.flow)
    let wait : FabWait := ⟨d, none, k⟩
    let reply := fun (t : State) (kind status : Nat) (data : List Byte) =>
      let v := t.fabReply d k kind status data k.x
      (.next (if v.fabWaits.any fun x => decide (x.d = d) then v else v.settle (.fabric d)) : Host.Outcome State Fault Refusal)
    let clear := s.fabAdmits k && fabLenOk k && !s.fabProtected k
    (behind = true → ∀ i ∈ [Instr.put d k, .get d k, .add64 d k, .fabricPail d k], exec i s = .next { s with fabWaits := s.fabWaits ++ [wait] }) ∧
    (behind = false →
      (s.fabAdmits k = false → ∀ i ∈ [Instr.put d k, .get d k, .add64 d k, .fabricPail d k], exec i s = reply s 0x43 4 []) ∧
      (k.kind = 0x01 → clear = true → k.data.length = k.len →
        (s.writeAt (.fabric d) k.rhr none allowFar k.addr k.data = (u, .ok ()) → exec (.put d k) s = reply u 0x41 0 []) ∧
        (s.writeAt (.fabric d) k.rhr none allowFar k.addr k.data = (u, .error e) → (∀ w, e ≠ .held w) →
          exec (.put d k) s = reply u 0x43 (fabStatus e) []) ∧
        (∀ w, s.writeAt (.fabric d) k.rhr none allowFar k.addr k.data = (u, .error (.held w)) →
          exec (.put d k) s = .next { s.keepHeld u with fabWaits := (s.keepHeld u).fabWaits ++ [wait] })) ∧
      (k.kind = 0x02 → clear = true → k.data = [] → s.readAt (.fabric d) k.rhr none allowFar k.addr k.len = (u, .ok bs) →
        exec (.get d k) s = reply u 0x42 0 bs) ∧
      (k.kind = 0x03 → s.fabAdmits k = true → s.fabProtected k = false → k.len = 8 → k.data.length = 8 → k.addr % 8 = 0 →
        s.farAtomic (.fabric d) k.rhr k.addr .add 8 (leNat k.data) 0 = (u, .ok old) → exec (.add64 d k) s = reply u 0x42 0 (leBytes 8 old)) ∧
      (∀ x pa, spaceOf k.addr = .far x → s.translate k.rhr x = .ok pa → pa % 256 = k.addr % 256 → s.lineSound (.fabric d) pa → 0 < k.len →
        pa % 256 + k.len ≤ 256 →
        let g := pa / 256
        let had := ((s.lineData g).drop (pa % 256)).take k.len
        let kept := fun (t : State) => t = { s with regs := t.regs, lines := t.lines, lineAge := t.lineAge, turns := t.turns }
        (k.kind = 0x01 → clear = true → k.data.length = k.len → ∃ t, exec (.put d k) s = reply t 0x41 0 [] ∧ kept t ∧
          t.lineData g = spliceBytes (s.lineData g) (pa % 256) k.data) ∧
        (k.kind = 0x02 → clear = true → k.data = [] → ∃ t, exec (.get d k) s = reply t 0x42 0 had ∧ kept t ∧ t.lineData g = s.lineData g) ∧
        (k.kind = 0x03 → s.fabAdmits k = true → s.fabProtected k = false → k.len = 8 → k.data.length = 8 → k.addr % 8 = 0 →
          ∃ t, exec (.add64 d k) s = reply t 0x42 0 had ∧ kept t ∧
            t.lineData g = spliceBytes (s.lineData g) (pa % 256) (leBytes 8 (leNat had + leNat k.data)))) ∧
      (∀ m t, k.kind = 0x04 → s.fabAdmits k = true → k.data.length = k.len → s.pailTaker (4 + d) k = some (m, t) → t.hr = k.rhr →
        s.msgBytes m t k k.data = 0 → bitsOf k.addr 0 4 ∉ [3, 4, 8] → (s.pail m).parts = [] →
        let id := bitsOf k.addr 6 16
        exec (.fabricPail d k) s = reply ((s.setPail m (s.pail m)).pailDeliver m (bitsOf k.addr 0 4) ⟨k.src, k.x, id, bitsOf k.addr 22 6,
          bitsOf k.addr 28 7, bitsOf k.addr 35 8, id % 16, leNat (k.data.take 8), leNat ((k.data.drop 8).take 8), k.data⟩) 0x41 0 [])) ∧
    (s.fabReq k.tag = none → ∀ i ∈ [Instr.fabricAck d k, .fabricData d k, .unreach d k], ∃ t, exec i s = .next t ∧ counts t LINK_STAT_LATE_DROPS) ∧
    (∀ r, s.fabReq k.tag = some r →
      (∀ i ∈ [Instr.fabricAck d k, .fabricData d k, .unreach d k],
        exec i s = .next (if s.diesLinked r.issuer.die (4 + d) then s.fabDone r (bitsOf k.w1 0 8) k.data else s.fabDone r 2 []) ∧
        ((∃ m msg key, r.issuer = .pail m msg key) → s.diesLinked r.issuer.die (4 + d) = true → bitsOf k.w1 0 8 = 0 →
          exec i s = .next { s with fabReqs := s.fabReqs.erase r })) ∧
      exec (.e2eTimeout d k.tag) s = .next ({ s with fabQuarantine := s.fabQuarantine ++ [k.tag] }.fabDone r 2 []) ∧
      ((∃ n seq, r.issuer = .descriptor n seq) → s.registrarUp = false → exec (.e2eTimeout d k.tag) s =
        .next { s with fabQuarantine := s.fabQuarantine ++ [k.tag], fabReqs := s.fabReqs.erase r })) ∧
    (s.fabReq k.tag = none → exec (.e2eTimeout d k.tag) s = .next s) ∧
    (∀ q up, s.routeOut k (2 ^ 24 - 1) = .port q p up → exec (.packetOriginate d k) s = .next (s.enqueue q p k up)) ∧
    (s.routeOut k (2 ^ 24 - 1) = .port d p false → s.portState d p = 2 → s.divider (1024 + 6 * d + p) = 1 → f.queue = [] →
      f.unacked.length < 1024 → k.data.length ≤ 256 → k.credits ≤ wordAt f.credits k.lane → ∃ t, exec (.packetOriginate d k) s = .next t ∧
        t = { s with fabPorts := t.fabPorts,
                     out := s.out ++ [.fabric d p (codeword f.codewords (linkFlit f.next (f.expected + 4095) k.bytes))] } ∧
        t.fab d p = { f with credits := f.credits.set k.lane (wordAt f.credits k.lane - k.credits), unacked := f.unacked ++ [(f.next, k.bytes)],
                             sent := f.sent ++ [(f.next, k)], next := (f.next + 1) % 4096, codewords := (f.codewords + 1) % 4096 }) ∧
    (s.routeOut k (2 ^ 24 - 1) = .deliver → exec (.packetOriginate d k) s = .next (s.fabDeliver d none k)) ∧
    (∀ st, s.routeOut k (2 ^ 24 - 1) = .none st → (k.isReply = true → ∃ t, exec (.packetOriginate d k) s = .next t ∧ counts t LINK_STAT_LATE_DROPS) ∧
      (∀ r, k.isReply = false → s.fabReq k.tag = some r → exec (.packetOriginate d k) s = .next (s.fabDone r st []))) ∧
    (s.ioUp d = true → p < 6 →
      (s.portState d p = 7 ∨ s.portState d p = 8 → ∃ t, exec (.packetArrival d p k) s = .next t ∧ counts t LINK_STAT_LATE_DROPS) ∧
      (s.portState d p = 2 ∨ s.portState d p = 9 →
        (k.malformed = true → ∃ t : State, exec (.packetArrival d p k) s = .next (t.returnCredits d p k) ∧ counts t LINK_STAT_MALFORMED) ∧
        (k.malformed = false → k.x = true → bitAt (s.twinPorts d) p = false →
          exec (.packetArrival d p k) s = .next ((s.unreachable d k 4).returnCredits d p k)) ∧
        (k.malformed = false → k.x = false ∨ bitAt (s.twinPorts d) p = true →
          (k.dst = s.deviceId → exec (.packetArrival d p k) s = .next (s.fabDeliver d (some p) k)) ∧
          (k.dst ≠ s.deviceId → k.hops = 0 → ∃ t : State, exec (.packetArrival d p k) s = .next ((t.unreachable d k 5).returnCredits d p k) ∧
            counts t LINK_STAT_HOP_EXPIRED) ∧
          (k.dst ≠ s.deviceId → k.hops ≠ 0 →
            let j := { k with w0 := putBits k.w0 10 1 0, w1 := putBits k.w1 57 6 (k.hops - 1) }
            let entry := s.get (.linkRouteData d k.dst)
            (∀ o, pickPort 6 (fldGet entry LINK_ROUTE_DATA_PORTS &&& s.upPorts d) j = some o → exec (.packetArrival d p k) s =
              .next ((s.enqueue d o j (fldGet entry LINK_ROUTE_DATA_VC_UP == 1)).returnCredits d p k)) ∧
            (pickPort 6 (fldGet entry LINK_ROUTE_DATA_PORTS &&& s.upPorts d) j = none → exec (.packetArrival d p k) s =
              .next ((s.unreachable d k (s.noRoute d (fldGet entry LINK_ROUTE_DATA_PORTS))).returnCredits d p k))))))

/-- R409 to R412, R414, R418, R431, R438, R439: a port answers a flit that fails with a NAK, and the first that is out of order, and takes the packets of
a good one in order; those that arrive in one from a lost part are dropped and counted; a NAK and a replay time-out resend what is not
acknowledged, each flit in its codeword; credits rise to at most 1,024; a window clears the lane counts. -/
def Obligations.FabricPortsCarryFlits : Prop :=
  ∀ (s : State) (d p seq i : Nat) (flit : LinkFlit) (cs : List Nat),
    let f := s.fab d p
    let resent := fun (l : List (Nat × List Byte)) => s.out ++ l.zipIdx.map fun (u, j) =>
      .fabric d p (codeword (f.codewords + j) (linkFlit u.1 (f.expected + 4095) u.2))
    let replays := fun (t : State) => s.regsBut t (· = .linkPortStat d p) ∧
      t.fget (.linkPortStat d p) LINK_PORT_STAT_REPLAYS = min (s.fget (.linkPortStat d p) LINK_PORT_STAT_REPLAYS + 1)
        (2 ^ LINK_PORT_STAT_REPLAYS.width - 1)
    let stream := f.part ++ (flit.bytes.drop 4).take 632
    (s.ioUp d = true → p < 6 →
      (s.portState d p = 7 ∨ s.portState d p = 8 →
        (flit.whole = false ∨ flit.seq ≠ f.expected → exec (.linkFlitReceive d p flit) s = .next s) ∧
        (flit.whole = true → flit.seq = f.expected → ∃ t, exec (.linkFlitReceive d p flit) s = .next t ∧
          t = { s with regs := t.regs, fabPorts := t.fabPorts } ∧ s.regsBut t (· = .linkStat d) ∧
          t.fab d p = { f with expected := (f.expected + 1) % 4096, part := (streamPackets (stream.length + 1) stream).2 } ∧
          t.fget (.linkStat d) LINK_STAT_LATE_DROPS = min (s.fget (.linkStat d) LINK_STAT_LATE_DROPS + (streamPackets (stream.length + 1) stream).1)
            (2 ^ LINK_STAT_LATE_DROPS.width - 1))) ∧
      (s.portState d p = 2 → s.divider (1024 + 6 * d + p) = 1 → flit.whole = false ∨ flit.seq ≠ f.expected →
        ∃ t : State, exec (.linkFlitReceive d p flit) s = .next (t.fieldLanes d p) ∧ s.regsBut t (· = .linkPortStat d p) ∧
          t = { s with regs := t.regs, fabPorts := t.fabPorts, out := t.out } ∧ (t.fab d p).naking = true ∧ (t.fab d p).expected = f.expected ∧
          t.out = (if flit.whole = true ∧ f.naking = true then s.out else
            s.out ++ [.fabric d p (codeword f.codewords (linkFlit f.next (f.expected + 4095)
              ([0xF1#8, 0#8] ++ leBytes 2 f.expected ++ List.replicate 12 0#8)))]) ∧
          (flit.correctable = false → t.fget (.linkPortStat d p) LINK_PORT_STAT_UNCORRECTED =
            min (s.fget (.linkPortStat d p) LINK_PORT_STAT_UNCORRECTED + 1) (2 ^ LINK_PORT_STAT_UNCORRECTED.width - 1))) ∧
      (s.portState d p = 2 → flit.whole = true → flit.seq = f.expected →
        ∃ t : State, exec (.linkFlitReceive d p flit) s = .next (((t.takePackets d p (stream.length + 1) stream).pumpPort d p).fieldLanes d p) ∧
          t = { s with regs := t.regs, fabPorts := t.fabPorts } ∧ s.regsBut t (· = .linkPortStat d p) ∧
          (t.fab d p).expected = (f.expected + 1) % 4096 ∧ (t.fab d p).naking = false ∧ (t.fab d p).part = [] ∧
          (∀ j, (f.unacked.findIdx? fun u => decide (u.1 = bitsOf (leNat ((flit.bytes.drop 2).take 2)) 0 12)) = some j →
            (t.fab d p).unacked = f.unacked.drop (j + 1)) ∧
          (flit.corrected.sum ≠ 0 → t.fget (.linkPortStat d p) LINK_PORT_STAT_CORRECTED =
            min (s.fget (.linkPortStat d p) LINK_PORT_STAT_CORRECTED + 1) (2 ^ LINK_PORT_STAT_CORRECTED.width - 1)))) ∧
    (p < 6 → ∃ t, exec (.fecErrorWindow d p) s = .next t ∧ t = { s with fabPorts := t.fabPorts } ∧
      t.fab d p = { f with laneCounts := List.replicate 8 0 } ∧ ∀ q < 6, q ≠ p → t.fab d q = s.fab d q) ∧
    (s.portState d p = 2 →
      (f.queue = [] → (f.unacked.findIdx? fun u => decide (u.1 = seq % 4096)) = some i →
        ∃ t, exec (.linkNak d p seq) s = .next t ∧ t = { s with regs := t.regs, fabPorts := t.fabPorts, out := resent (f.unacked.drop i) } ∧
          t.fab d p = { f.acked (f.unacked.drop i) with codewords := (t.fab d p).codewords } ∧ replays t) ∧
      (f.unacked ≠ [] → ∃ t, exec (.linkReplayTimeout d p) s = .next t ∧
        t = { s with regs := t.regs, fabPorts := t.fabPorts, out := resent f.unacked } ∧
        t.fab d p = { f with codewords := (t.fab d p).codewords } ∧ replays t)) ∧
    ((f.unacked.findIdx? fun u => decide (u.1 = seq % 4096)) = none → exec (.linkNak d p seq) s = .next s) ∧
    (f.unacked = [] → exec (.linkReplayTimeout d p) s = .next s) ∧
    (f.queue = [] ∨ s.portState d p ≠ 2 → ∀ row ∈ [(Instr.linkCredit d p cs, 0), (.creditR d p cs, 4)],
      ∃ t, exec row.1 s = .next t ∧ t = { s with fabPorts := t.fabPorts } ∧ (t.fab d p).queue = f.queue ∧ (t.fab d p).unacked = f.unacked ∧
        ∀ v < 8, wordAt (t.fab d p).credits v =
          if row.2 ≤ v ∧ v < row.2 + 4 then min 1024 (wordAt f.credits v + wordAt cs (v - row.2)) else wordAt f.credits v)

/-- R424, R429, R430, R432 to R438, R445, R447, R448, R450: a GOODBYE and a watchdog take a port down and answer what it holds; an enable, a RETRAIN, and a
write of ENABLE to a lost port train it with empty books; a disable says GOODBYE and stops it; a training leaves its findings in STATUS and
the peer in PEER, and the port up or held down, and after a repair what is not acknowledged goes out again; TWIN and LANE_OFF stay while
ENABLE is 1; a route entry takes what is written. -/
def Obligations.FabricPortsTrainAndStop : Prop :=
  ∀ (s : State) (d p cause dst : Nat) (w : RegWrite) (t0 : Training), d < 4 →
    let f := s.fab d p
    let r := Reg.linkPortCtl d p
    let x := s.written r w
    let quiet := s.fget (.linkCtl 0) LINK_CTL_INT_EN = 0
    let calm := ∀ k < 4, (s.pail k).syncs = [] ∧ (s.pail k).parts = []
    let own := fun (t : State) => t = { s with regs := t.regs, fabPorts := t.fabPorts, out := t.out, draws := t.draws } ∧
      s.regsBut t (fun q => q = r ∨ q = .linkPortStatus d p ∨ q = .linkPortPeer d p)
    let stopped := fun (t : State) => t.fab d p =
      { FabPort.init with laneCounts := f.laneCounts, expected := f.expected, part := f.part, codewords := (t.fab d p).codewords }
    (s.ioUp d = true → s.portState d p = 2 ∨ s.portState d p = 9 →
      exec (.linkGoodbye d p cause) s = .next ((s.portDown d p 8 1 false).portEvent d p) ∧
      exec (.portWatchdog d p) s = .next ((s.portDown d p 7 2 true).portEvent d p) ∧
      (f.queue = [] → f.sent = [] → quiet → calm → ∀ row ∈ [(Instr.linkGoodbye d p cause, 8), (.portWatchdog d p, 7)],
        ∃ t, exec row.1 s = .next t ∧ own t ∧ t.out = s.out ∧ t.portState d p = row.2 ∧ stopped t)) ∧
    (s.admits w.master r = true →
      (x.field LINK_PORT_CTL_ENABLE = 1 → fldGet x.old LINK_PORT_CTL_ENABLE = 0 ∨ x.hit LINK_PORT_CTL_RETRAIN = true ∨
          (x.hit LINK_PORT_CTL_ENABLE = true ∧ (s.portState d p = 7 ∨ s.portState d p = 8)) →
        ∀ i ∈ [Instr.portEnable d p w, .retrain d p w], ∃ t, exec i s = .next t ∧ own t ∧ t.out = s.out ∧ t.portState d p = 1 ∧
          t.get (.linkPortPeer d p) = 0#64 ∧ t.fab d p = { FabPort.init with queue := f.queue } ∧ t.fget r LINK_PORT_CTL_ENABLE = 1 ∧
          t.fget r LINK_PORT_CTL_LANE_LIMIT = max 1 (x.field LINK_PORT_CTL_LANE_LIMIT) ∧
          ∀ q ∈ [LINK_PORT_CTL_TWIN, LINK_PORT_CTL_LANE_OFF],
            t.fget r q = if fldGet x.old LINK_PORT_CTL_ENABLE = 1 then s.fget r q else x.field q) ∧
      (x.field LINK_PORT_CTL_ENABLE = 0 → fldGet x.old LINK_PORT_CTL_ENABLE = 1 → f.queue = [] → s.divider (1024 + 6 * d + p) = 1 → quiet → calm →
        ∃ t, exec (.portDisable d p w) s = .next t ∧ own t ∧ t.portState d p = 0 ∧ t.fget (.linkPortStatus d p) LINK_PORT_STATUS_WIDTH = 0 ∧
          t.fget r LINK_PORT_CTL_ENABLE = 0 ∧ stopped t ∧
          (s.portState d p ≠ 2 → t.out = s.out) ∧
          (s.portState d p = 2 → ∃ c < 3, t.out = s.out ++
            [.fabric d p (codeword f.codewords (linkFlit f.next (f.expected + 4095) ([0xF4#8, 0#8, BitVec.ofNat 8 c] ++ List.replicate 13 0#8)))]))) ∧
    (s.ioUp d = true → p < 6 → s.portState d p = 1 ∨ s.portState d p = 9 → f.queue = [] → quiet → calm →
      (s.portState d p = 1 ∨ f.sent = [] → ∃ t, exec (.portTrainingComplete d p t0) s = .next t ∧ own t ∧ t.portState d p = s.trainingState d p t0 ∧
        (s.trainingState d p t0 = 2 → t.get (.linkPortStatus d p) = s.trainingStatus d p t0 ∧
          t.fab d p = { f with codewords := (t.fab d p).codewords } ∧
          t.fget (.linkPortStatus d p) LINK_PORT_STATUS_WIDTH = (trainingPeers (s.trainingCodes d p t0) t0).length ∧
          t.out = (if s.portState d p = 1 then s.out else s.out ++ f.unacked.zipIdx.map fun (u, j) =>
            .fabric d p (codeword (f.codewords + j) (linkFlit u.1 (f.expected + 4095) u.2)))) ∧
        (s.trainingState d p t0 ≠ 2 → t.out = s.out ∧ stopped t) ∧
        ∀ y, t0.peer = some y → y.dev < 4096 → t.fget (.linkPortPeer d p) LINK_PORT_PEER_PEER_ID = y.dev)) ∧
    (s.admits w.master (.linkRouteData d dst) = true → ∃ t, exec (.routeDataWrite d dst w) s = .next t ∧ t = { s with regs := t.regs } ∧
      s.regsBut t (· = .linkRouteData d dst) ∧ t.get (.linkRouteData d dst) = (s.written (.linkRouteData d dst) w).new)

/-! ### Rings, the registrar and host accesses -/

/-- R458 to R466, R492, R493, R498, R499, R508: a doorbell of the ring's owner moves its indices, one that steps back puts it into error and any other is
counted; a fetched descriptor takes the next number; a fetch that fails puts the ring into error; an enabled ring starts afresh, a
disabled one drains, and a drained one stops or starts again. -/
def Obligations.RingsFetchAndDrain : Prop :=
  ∀ (s : State) (f off size value n : Nat) (w : RegWrite) (bs cs : List Byte),
    let q := s.sq n
    let m := s.ringSize n
    let head := s.fget (.ringStatus n) RING_STATUS_SQ_HEAD
    let seq := s.fget (.ringSeq n) RING_SEQ_NEXT
    let only := fun (t : State) => t = { s with regs := t.regs, rings := t.rings } ∧ (∀ j, j ≠ n → t.sq j = s.sq j) ∧
      s.regsBut t (fun r => r = .ringStatus n ∨ r = .ringSeq n ∨ r = .ringCtl n)
    let failed := fun (t : State) (cause : Nat) => t = { s with regs := t.regs } ∧ s.regsBut t (· = .ringStatus n) ∧ t.ringState n = 4 ∧
      t.fget (.ringStatus n) RING_STATUS_CAUSE = cause
    (s.hostLink = true →
      (0x40000 ≤ off → exec (.doorbell f off size value) s = .next { s with out := s.out ++ [.unsupportedRequest f] }) ∧
      (off < 0x40000 → n = off / 4096 → size ≠ 8 ∨ off % 4096 ≠ 0 ∨ s.ringFunc n ≠ f → ∃ t, exec (.doorbell f off size value) s = .next t ∧
        t = { s with regs := t.regs } ∧ s.regsBut t (· = .hostErr) ∧
        t.fget .hostErr HOST_ERR_DROPPED_DB = min (s.fget .hostErr HOST_ERR_DROPPED_DB + 1) (2 ^ HOST_ERR_DROPPED_DB.width - 1)) ∧
      (off = 4096 * n → n < 64 → size = 8 → s.ringFunc n = f →
        (value.testBit 16 = true → value.testBit 48 = false → s.ringState n = 1 →
          let new := value % 2 ^ 16 % m
          let back := decide ((new + m - head % m) % m < (q.tail + m - head % m) % m)
          ∃ t, exec (.doorbell f off size value) s = .next t ∧ (back = true → failed t 1) ∧
            (back = false → only t ∧ t.regs = s.regs ∧ t.sq n = { q with tail := new })) ∧
        (value.testBit 16 = false → value.testBit 48 = true → s.ringState n ≠ 0 → q.held = [] → ∃ t, exec (.doorbell f off size value) s = .next t ∧
          only t ∧ t.regs = s.regs ∧ t.sq n = { q with cqHead := value / 2 ^ 32 % 2 ^ 16 % m }) ∧
        (value.testBit 16 = false → value.testBit 48 = false → exec (.doorbell f off size value) s = .next s))) ∧
    (s.registrarUp = true → n < 64 → s.ringState n = 1 → head ≠ q.tail →
      let fetch := s.hostRead (s.fget (.ringSqBase n) RING_SQ_BASE_BASE * 4096 + 64 * head) 64
      (fetch = none → ∃ t, exec (.descriptorArrival n) s = .next t ∧ failed t 2) ∧
      (fetch = some bs → (if s.ringConf n then s.unseal n seq bs else some bs) = some cs →
        let d := Desc.init seq (leWords (if s.ringConf n then 6 else 8) cs)
        ∃ t, exec (.descriptorArrival n) s = .next (if descOk (s.ringConf n) d.words then t else t.finish n d 1 0 0 0 0) ∧ only t ∧
          t.sq n = { q with descs := q.descs ++ [d] } ∧ t.fget (.ringSeq n) RING_SEQ_NEXT = (seq + 1) % 2 ^ 32 ∧
          (m ≤ 2 ^ 16 → t.fget (.ringStatus n) RING_STATUS_SQ_HEAD = (head + 1) % m)) ∧
      (fetch = some bs → s.ringConf n = true → s.unseal n seq bs = none → ∃ t : State, exec (.descriptorArrival n) s = .next (t.authFail n seq) ∧
        only t ∧ t.rings = s.rings)) ∧
    (s.registrarUp = false ∨ s.ringState n ≠ 1 ∨ head = q.tail → exec (.descriptorArrival n) s = .next s) ∧
    (s.admits w.master (.ringCtl n) = true → w.half ≠ .hi →
      let enable := (s.written (.ringCtl n) w).field RING_CTL_ENABLE
      (enable = 1 → s.ringState n = 0 → ∃ t, exec (.ringEnable n w) s = .next t ∧ only t ∧
        (s.registrarUp = true → t.ringState n = 1 ∧ t.get (.ringSeq n) = 0#64 ∧ t.sq n = { RingSt.init with epoch := (q.epoch + 1) % 2 ^ 32 }) ∧
        (s.registrarUp = false → t.ringState n = 3 ∧ t.sq n = q)) ∧
      (enable = 1 → s.ringState n = 2 → ∃ t, exec (.ringEnable n w) s = .next t ∧ only t ∧ t.ringState n = 3 ∧ t.rings = s.rings) ∧
      (enable = 0 → s.ringState n = 1 ∨ s.ringState n = 4 → (∀ d ∈ q.descs, d.started = true) → ∃ t, exec (.ringDisable n w) s = .next t ∧ only t ∧
        t.ringState n = 2 ∧ t.fget (.ringStatus n) RING_STATUS_CAUSE = 0 ∧ t.sq n = { q with draining := true } ∧
        t.fget (.ringCtl n) RING_CTL_ENABLE = 0)) ∧
    (q.draining = true → q.descs = [] → q.held = [] → ∃ t, exec (.ringDrainComplete n) s = .next t ∧ only t ∧
      (s.ringState n = 3 → t.ringState n = 1 ∧ t.sq n = { RingSt.init with epoch := (q.epoch + 1) % 2 ^ 32 }) ∧
      (s.ringState n ≠ 3 → t.ringState n = 0 ∧ t.fget (.ringCtl n) RING_CTL_ENABLE = 0 ∧ t.sq n = { q with draining := false }))

/-- R466 to R485, R487 to R491, R501, R636 to R639: the first descriptor of a ring that order, admission and limits let go starts by its type, or completes at
once, unless a ring of higher priority has one; the registrar copies, scrubs and issues requests for its own types; a record completes the
descriptor that it answers; a WAIT ends when its target is met or its TIMEOUT runs out; a completion is written to the next free entry of
the ring's completion queue and to no other byte. -/
def Obligations.DescriptorsStartAndComplete : Prop :=
  ∀ (s u v : State) (n seq elapsed core power : Nat) (d : Desc) (r : UnitRecord) (bs : List Byte) (x : ScrubTally) (way : Route),
    s.desc n seq = some d →
    let rows : List (Instr × Nat) := [(.nopDescriptor n seq, 0x00), (.launchDescriptor n seq, 0x01), (.moveDescriptor n seq, 0x02),
      (.ladleDescriptor n seq, 0x03), (.pailDescriptor n seq, 0x04), (.fabricDescriptor n seq, 0x05), (.scrub n seq, 0x06),
      (.fenceDescriptor n seq, 0x08), (.waitDescriptor n seq, 0x09)]
    let gone := s.passOver n d
    let own := s.markStarted n d none 0 0
    let begun := { d with started := true, core := none, power := 0, tag := 0, deferred := false, first := false }
    let hr := own.ringHr n
    let src := bitsOf (d.w 2) 0 48
    let dst := bitsOf (d.w 3) 0 48
    let len := bitsOf (d.w 4) 0 32
    (∀ row ∈ rows, d.type = row.2 → d.started = false → s.higherStarts n = false → s.firstStart n = some (seq, u) → exec row.1 s = .next u) ∧
    (d.started = false → (s.sq n).descs = [d] → s.ringRuns n = true → s.slotFree n = true → s.notHeld n d = true → s.higherStarts n = false →
      (d.type = 0x00 → exec (.nopDescriptor n seq) s = .next (gone.finish n d 0 0 0 0 0)) ∧
      (d.type = 0x08 → exec (.fenceDescriptor n seq) s = .next (gone.finish n d 0 0 0 0 0)) ∧
      (d.type = 0x01 → s.verdict n d = .go (some core) power → exec (.launchDescriptor n seq) s = .next (s.startLaunch n d core power)) ∧
      (d.type = 0x01 → ∀ status unit, s.verdict n d = .done status unit → exec (.launchDescriptor n seq) s =
        .next (s.finish n d status unit 0 (if unit = 0 then 0 else unit + 2 ^ 11) 0)) ∧
      (d.type = 0x01 → s.verdict n d = .defer → exec (.launchDescriptor n seq) s = .next (s.noteDeferred n)) ∧
      (d.type = 0x02 → s.verdict n d = .go (some core) power → exec (.moveDescriptor n seq) s = .next (s.startSliceMove n d core power)) ∧
      (d.type = 0x03 → bitsOf (d.w 2) 8 4 = s.ringHr n → exec (.ladleDescriptor n seq) s = .next (s.startLadle n d)) ∧
      (d.type = 0x04 → exec (.pailDescriptor n seq) s = .next (s.startPail n d)) ∧
      (d.stuck = none →
        (d.type = 0x09 → s.ringFunc (bitsOf (d.w 2) 0 6) = s.ringFunc n → exec (.waitDescriptor n seq) s =
          .next (if s.waitMet d then own.finish n begun 0 0 0 0 0 else own)) ∧
        (d.type = 0x02 → s.verdict n d = .go none power → exec (.moveDescriptor n seq) s = .next (own.runMove n begun) ∧
          (own.protectedEnd hr src len = .ok none → own.protectedEnd hr dst len = .ok none → len = 0 →
            exec (.moveDescriptor n seq) s = .next ((own.finish n begun 0 0 0 0 0).registrarDone)) ∧
          (own.protectedEnd hr src len = .ok none → own.protectedEnd hr dst len = .ok none → 0 < len → len ≤ 256 → rangesMeet len src dst = false →
            d.discard = false → own.readAt .registrar hr none allowMove src len = (u, .ok bs) →
            u.writeAt .registrar hr none allowMove dst bs = (v, .ok ()) →
            exec (.moveDescriptor n seq) s = .next ((v.finish n begun 0 0 0 len 0).registrarDone))) ∧
        (d.type = 0x06 → exec (.scrub n seq) s = .next (own.runScrub n begun) ∧
          (own.scrubPass n begun = some (u, x) → x.stuck = none → d.discard = false →
            u.writeAt .registrar hr none allowMove (bitsOf (d.w 4) 0 48) x.record = (v, .ok ()) →
            exec (.scrub n seq) s = .next ((v.finish n begun (x.lost.getD 0) 0 0 (x.failed + x.cache) x.repaired).registrarDone)) ∧
          (src % 256 = 0 → dst = 0 → own.scrubPass n begun = some (own, ⟨0, 0, 0, 0, 0, 0, 0, 0, none, none⟩)) ∧
          (src % 256 ≠ 0 ∨ dst % 256 ≠ 0 → exec (.scrub n seq) s = .next ((own.finish n begun 3 0 0 0 0).registrarDone))) ∧
        (d.type = 0x05 → (s.fabReqs.any fun q => decide (q.issuer = .descriptor n seq) && q.answer.isSome) = false →
          exec (.fabricDescriptor n seq) s = .next (own.fabMore n begun) ∧
          (∀ a m, d.failed = none → d.next = 0 → d.waiting = 0 → d.fabKind ≠ 1 → d.fabParts = [(a, m)] →
            own.fabIssue (mkPacket d.fabKind (bitsOf (d.w 2) 25 2) (bitAt (d.w 2) 12) (bitsOf (d.w 2) 0 12) own.deviceId (bitsOf (d.w 2) 17 8)
              (bitsOf (d.w 2) 13 4) 0 a m 0 (if d.fabKind = 3 then leBytes 8 (d.w 5) else [])) (2 ^ 24 - 1) (.descriptor n seq) 0 = (u, way) →
            (∀ st, way ≠ .none st) → exec (.fabricDescriptor n seq) s = .next (u.setDesc n { begun with waiting := 1, next := 1 })))) ∧
      (d.type = 0x00 → d.core = none → d.discard = false → bitAt (d.w 0) 9 = false → (∀ e ∈ s.rings, ∀ y ∈ e.2.descs, y.deferred = false) →
        s.ringConf n = false → memWf s.host = true → s.ringSize n ≤ 2 ^ 16 → (s.sq n).held = [] →
        let tail := s.fget (.ringStatus n) RING_STATUS_CQ_TAIL
        let next := (tail + 1) % s.ringSize n
        let a := s.fget (.ringCqBase n) RING_SQ_BASE_BASE * 4096 + 64 * tail
        next ≠ (s.sq n).cqHead % s.ringSize n → ∃ v, exec (.nopDescriptor n seq) s = .next v ∧
          v = { s with regs := v.regs, rings := v.rings, registrar := v.registrar, host := v.host } ∧
          memRead v.host a 64 = s.entryBytes n ⟨seq, 0, d.w 1, 0, 0, false, false⟩ ∧
          (∀ x, x < a ∨ a + 64 ≤ x → memByte v.host x = memByte s.host x) ∧ (v.sq n).descs = [] ∧
          (v.sq n).phase = (if next = 0 then !(s.sq n).phase else (s.sq n).phase) ∧ v.fget (.ringStatus n) RING_STATUS_CQ_TAIL = next ∧
          v.fget (.ringSeq n) RING_SEQ_DONE_BELOW = s.fget (.ringSeq n) RING_SEQ_NEXT)) ∧
    (d.started = true → s.registrarUp = true →
      (d.stuck = none →
        (d.type = 0x09 → exec (.waitDescriptor n seq) s = .next (if s.waitMet d then s.finish n d 0 0 0 0 0 else s)) ∧
        (d.type = 0x02 → exec (.moveDescriptor n seq) s = .next (if d.core.isNone then s.runMove n d else s)) ∧
        (d.type = 0x06 → exec (.scrub n seq) s = .next (s.runScrub n d)) ∧
        (d.type = 0x05 → exec (.fabricDescriptor n seq) s = .next (s.fabGoOn n d))) ∧
      (∀ on st, d.type = 0x02 → d.stuck = some on → s.goneStatus on = some st →
        exec (.moveDescriptor n seq) s = .next ((s.finish n d st 0 0 0 0).registrarDone)) ∧
      (d.type = 0x09 → exec (.waitTimeout n seq) s = .next (if bitsOf (d.w 4) 0 32 ≠ 0 then s.finish n d 8 0 0 0 0 else s))) ∧
    (s.records.find? d.answered = some r →
      let v : State := { s with records := s.records.erase r }
      let st := r.w0 % 256
      (s.registrarUp = false → exec (.unitCompletion n seq elapsed) s = .next v) ∧
      (s.registrarUp = true →
        (d.type = 0x01 → exec (.unitCompletion n seq elapsed) s = .next (v.finish n d (if st = 0 then 0 else if st = 0x0B then 6 else if st = 0x0C then 7 else 5) st
          (bitsOf r.w0 8 3 + b2n (d.overrun elapsed) * 8) r.w0 r.w1)) ∧
        (d.type = 0x02 → st = 0 → exec (.unitCompletion n seq elapsed) s = .next (v.finish n d 0 0 0 (bitsOf (d.w 4) 0 32) 0)) ∧
        (d.type = 0x03 → exec (.unitCompletion n seq elapsed) s = .next (v.finish n d (if st = 0 then 0 else if st = 7 then 6 else if st = 6 then 7 else 5) st
          0 (bitsOf r.w0 8 9) 0)) ∧
        (d.type = 0x04 → exec (.unitCompletion n seq elapsed) s = .next (v.finish n d (if st = 0 then 0 else if st = 0x0B then 6 else if st = 0x0C then 7 else 5) st
          0 r.w1 0)))) ∧
    (s.records.find? d.answered = none → exec (.unitCompletion n seq elapsed) s = .next s)

/-- R451 to R456, R483, R484, R486, R500, R501, R504, R559, R600, R731: a visit with nothing to start moves the round robin on; a forecast message sets the registrar's
allowances and a stale one ends them; a function-level reset empties the function's rings; a lockstep halt stops the registrar and its
rings; a BAR4 access reads or writes its homeroom's far memory, waits behind another of its function, or is logged and answered with its
error. -/
def Obligations.RegistrarAndHostAccesses : Prop :=
  ∀ (s u : State) (f off len : Nat) (msg : Forecast) (bs : List Byte) (e : AccErr),
    let r := s.registrar
    (s.registrarUp = true →
      let moved := fun (p : Nat) => (((List.range 64).map (fun i => (wordAt r.rr p + i) % 64)).find? (fun n => decide (s.ringPrio n = p))).elim
        (wordAt r.rr p) (fun n => (n + 1) % 64)
      ((∀ x ∈ s.rings, x.2.descs = []) → exec .admissionVisit s = .next { s with registrar := { r with rr := (List.range 4).map moved } }) ∧
      (let run := s.rings.flatMap fun x => x.2.descs.filter Desc.started
       ∃ t, exec (.forecastMessage msg) s = .next t ∧ t = { s with regs := t.regs, registrar := t.registrar } ∧ s.regsBut t (· = .ringAdmitStat) ∧
        t.fget .ringAdmitStat RING_ADMIT_STAT_STALE = 0 ∧ t.registrar.fresh = true ∧ t.registrar.allowPkg = 2 * msg.allowPkg ∧
        t.registrar.resPkg = 2 * msg.basePkg + (run.map Desc.power).sum ∧ t.registrar.warm = msg.warm ∧ t.registrar.fc = msg.fc ∧
        (∀ k < 4, wordAt t.registrar.resStack k =
          2 * wordAt msg.baseStack k + ((run.filter fun d => decide (d.core.map (· / 64) = some k)).map Desc.power).sum) ∧
        t.registrar.rr = r.rr ∧ t.registrar.tag = r.tag) ∧
      (∃ t, exec .forecastStale s = .next t ∧ t = { s with regs := t.regs, registrar := { r with fresh := false } } ∧
        s.regsBut t (· = .ringAdmitStat) ∧ t.fget .ringAdmitStat RING_ADMIT_STAT_STALE = 1) ∧
      (∃ t, exec .lockstepHalt s = .next t ∧ t = { s with regs := t.regs, officeEvents := t.officeEvents, out := t.out } ∧
        t.fget .hostStatus HOST_STATUS_REG_STATE = 2 ∧
        ∀ n < 64, if s.ringState n = 1 then t.ringState n = 4 ∧ t.fget (.ringStatus n) RING_STATUS_CAUSE = 4 else t.ringState n = s.ringState n)) ∧
    (s.registrarUp = false → exec .admissionVisit s = .next s ∧ exec (.forecastMessage msg) s = .next s ∧ exec .forecastStale s = .next s ∧
      exec .lockstepHalt s = .next s) ∧
    (s.hostLink = true → f ≤ 16 → (∀ c < 256, s.coreHr c = s.funcHr f → (s.core c).lesson = none ∧ (s.core c).waitingLaunch = none) →
      ∃ t, exec (.functionLevelReset f) s = .next t ∧ t = { s with regs := t.regs, rings := t.rings, msixUnmasked := t.msixUnmasked,
                                                                   msixPending := t.msixPending, bar4Size := smDel s.bar4Size f } ∧
        t.fget (.hostFunc f) HOST_FUNC_OFFSET = 0 ∧ t.msixUnmasked = s.msixUnmasked.filter (·.1 ≠ f) ∧ t.msixPending = s.msixPending.filter (·.1 ≠ f) ∧
        ∀ n < 64, s.ringFunc n = f → s.ringState n ≠ 0 → (t.ringState n = 0 ∨ t.ringState n = 2) ∧
          t.fget (.ringCtl n) RING_CTL_ENABLE = 0 ∧ (t.sq n).held = [] ∧ ∀ d ∈ (t.sq n).descs, d.started = true ∧ d.discard = true) ∧
    (s.hostLink = true → f ≤ 16 →
      let hr := s.funcHr f
      let a := s.fget (.hostFunc f) HOST_FUNC_OFFSET * 2 ^ 30 + off
      let bad := fun (n : Nat) => (pieces a n).findSome? fun p => s.barCause hr p.1
      let done := fun (v : State) => if v.hostWaits.any fun x => decide (x.f = f) then v else v.settle (.host f)
      let logged := fun (v t : State) (cause : Nat) => t = { v with regs := t.regs } ∧ v.regsBut t (· = .hostErr) ∧
        t.fget .hostErr HOST_ERR_VALID = 1 ∧ t.fget .hostErr HOST_ERR_CAUSE = cause ∧ t.fget .hostErr HOST_ERR_FUNC = f ∧
        t.fget .hostErr HOST_ERR_ADDR = off % 2 ^ HOST_ERR_ADDR.width
      (s.bar4 f < off + len → exec (.bar4Access f off (.read len)) s = .next { s with out := s.out ++ [.unsupportedRequest f] }) ∧
      ((s.hostWaits.any fun x => decide (x.f = f)) = true → off + len ≤ s.bar4 f →
        exec (.bar4Access f off (.read len)) s = .next { s with hostWaits := s.hostWaits ++ [⟨f, off, .read len⟩] }) ∧
      ((s.hostWaits.any fun x => decide (x.f = f)) = false →
        (off + len ≤ s.bar4 f →
          (∀ cause, bad len = some cause → cause < 8 → ∃ t : State, exec (.bar4Access f off (.read len)) s =
            .next (done { t with out := s.out ++ [.completerAbort f] }) ∧ logged s t cause) ∧
          (bad len = none →
            (s.readAt (.host f) hr none allowFar a len = (u, .ok bs) → exec (.bar4Access f off (.read len)) s =
              .next (done { u with out := u.out ++ [.hostData f bs] })) ∧
            (∀ w, s.readAt (.host f) hr none allowFar a len = (u, .error (.held w)) → exec (.bar4Access f off (.read len)) s =
              .next (done { s.keepHeld u with hostWaits := (s.keepHeld u).hostWaits ++ [⟨f, off, .read len⟩] })) ∧
            (s.readAt (.host f) hr none allowFar a len = (u, .error e) → (∀ w, e ≠ .held w) → ∃ t : State, exec (.bar4Access f off (.read len)) s =
              .next (done { t with out := u.out ++ [.completerAbort f] }) ∧ logged u t (hostCause e)))) ∧
        (∀ x pa, spaceOf a = .far x → s.translate hr x = .ok pa → pa % 256 = a % 256 → s.barCause hr a = none → s.lineSound (.host f) pa →
          let g := pa / 256
          let kept := fun (t : State) => t = { s with lines := t.lines, lineAge := t.lineAge, turns := t.turns }
          (off + len ≤ s.bar4 f → 0 < len → pa % 256 + len ≤ 256 → ∃ t : State, exec (.bar4Access f off (.read len)) s =
            .next (done { t with out := s.out ++ [.hostData f (((s.lineData g).drop (pa % 256)).take len)] }) ∧ kept t) ∧
          (off + bs.length ≤ s.bar4 f → bs ≠ [] → pa % 256 + bs.length ≤ 256 → ∃ t, exec (.bar4Access f off (.write bs false)) s = .next (done t) ∧
            kept t ∧ t.lineData g = spliceBytes (s.lineData g) (pa % 256) bs)) ∧
        (∀ x pa, spaceOf a = .far x → s.translate hr x = .ok pa → hr ≠ 0 → s.hrState hr = 2 → (s.setKey (setOf s.variant pa)).isSome = true →
          (off + len ≤ s.bar4 f → 0 < len → ∃ t : State, exec (.bar4Access f off (.read len)) s =
            .next (done { t with out := s.out ++ [.completerAbort f] }) ∧ logged s t 2) ∧
          (off + bs.length ≤ s.bar4 f → 0 < bs.length → ∃ t, exec (.bar4Access f off (.write bs false)) s = .next (done t) ∧ logged s t 2)) ∧
        (off + bs.length ≤ s.bar4 f →
          (∃ t, exec (.bar4Access f off (.write bs true)) s = .next (done t) ∧ logged s t 3) ∧
          (∀ cause, bad bs.length = some cause → cause < 8 → ∃ t, exec (.bar4Access f off (.write bs false)) s = .next (done t) ∧ logged s t cause) ∧
          (bad bs.length = none →
            (s.writeAt (.host f) hr none allowFar a bs = (u, .ok ()) → exec (.bar4Access f off (.write bs false)) s = .next (done u)) ∧
            (s.writeAt (.host f) hr none allowFar a bs = (u, .error e) → (∀ w, e ≠ .held w) → ∃ t,
              exec (.bar4Access f off (.write bs false)) s = .next (done t) ∧ logged u t (hostCause e))))))

/-! ### The office port -/

/-- R514 to R516, R518, R527, R528, R532: an I3C address changes the bus mode and, while events wait, the alert pin; an endpoint ID of 1 to 254 is
set; every MCTP control message is answered, and PLDM messages unless a test strap holds the part; a poll that acknowledges an event
removes the oldest; the image buffer is held by one path, takes the bytes that its holder delivers, and is released when it is
activated, times out or is cancelled. The code points of the answers are PRESUMED (log 60) and are left open here. -/
def Obligations.OfficeMessagesAct : Prop :=
  ∀ (s : State) (addr op eid ty ack n off : Nat) (k : PldmSensor) (bs : List Byte) (host : Bool),
    let answered := fun (kind : Nat) (u t : State) => ∃ bs, t = { u with out := u.out ++ [.office kind bs] }
    let mode := s.fget .officeStatus OFFICE_STATUS_MODE
    let alert := fun (v : Bool) => if s.officeEvents = [] then [] else [Output.pin "SMBALERT_N" v]
    let serves := s.power.vaux && !s.power.testHold
    let len := s.image.delivered
    (s.power.vaux = true →
      (∃ t, exec (.i3cAddressAssign addr) s = .next t ∧ t = { s with regs := t.regs, out := s.out ++ (if mode = 1 then [] else alert true) } ∧
        s.regsBut t (· = .officeStatus) ∧ t.fget .officeStatus OFFICE_STATUS_MODE = 1 ∧ t.fget .officeStatus OFFICE_STATUS_DYN_ADDR = addr % 2 ^ 7 ∧
        t.fget .officeStatus OFFICE_STATUS_EID = s.fget .officeStatus OFFICE_STATUS_EID) ∧
      (mode = 1 → ∃ t, exec .i3cAddressReset s = .next t ∧ t = { s with regs := t.regs, out := s.out ++ alert false } ∧
        s.regsBut t (· = .officeStatus) ∧ t.fget .officeStatus OFFICE_STATUS_MODE = 0 ∧ t.fget .officeStatus OFFICE_STATUS_DYN_ADDR = 0 ∧
        t.fget .officeStatus OFFICE_STATUS_EID = s.fget .officeStatus OFFICE_STATUS_EID) ∧
      (mode = 0 → exec .i3cAddressReset s = .next s) ∧
      (op ≤ 1 → 1 ≤ eid → eid < 0xFF → ∃ t u, exec (.setEndpointId op eid) s = .next t ∧ answered 0x00 u t ∧ u = { s with regs := u.regs } ∧
        s.regsBut u (· = .officeStatus) ∧ u.fget .officeStatus OFFICE_STATUS_EID = eid ∧ u.fget .officeStatus OFFICE_STATUS_MODE = mode ∧
        u.fget .officeStatus OFFICE_STATUS_DYN_ADDR = s.fget .officeStatus OFFICE_STATUS_DYN_ADDR) ∧
      (1 < op ∨ eid = 0 ∨ 0xFF ≤ eid → ∃ t, exec (.setEndpointId op eid) s = .next t ∧ answered 0x00 s t) ∧
      (∃ t, exec (.getMctpVersionSupport ty) s = .next t ∧ answered 0x00 s t) ∧
      (∃ t, exec .getEndpointUuid s = .next t ∧ answered 0x00 s t) ∧
      (∃ h e, exec .getEndpointId s = .next { s with out := s.out ++
        [.office 0x00 (h ++ leBytes 1 (s.fget .officeStatus OFFICE_STATUS_EID) ++ e)] }) ∧
      ∃ h, exec .getMessageTypeSupport s = .next { s with out := s.out ++ [.office 0x00 (h ++ [0x00#8, 0x01#8, 0x05#8, 0x06#8, 0x7E#8])] }) ∧
    (s.power.vaux = false → ∀ c ∈ [Instr.i3cAddressAssign addr, .i3cAddressReset, .setEndpointId op eid, .getMctpVersionSupport ty,
      .getEndpointUuid, .getEndpointId, .getMessageTypeSupport], exec c s = .next s) ∧
    (serves = true →
      (∃ t, exec (.getSensorReading k) s = .next t ∧ answered 0x01 s t ∧
        ∀ v, s.pldmReading k = some (some v) → ∃ h, t.out = s.out ++ [.office 0x01 (h ++ v)]) ∧
      (let left := s.officeEvents.drop (if ack = 0 ∨ ack = 0xFFFF then 0 else 1)
       ∃ bs, exec (.platformEventMessage ack) s = .next { s with officeEvents := left, out := s.out ++
          (if s.officeEvents ≠ [] ∧ left = [] ∧ mode = 0 then [.pin "SMBALERT_N" true] else []) ++ [.office 0x01 bs] } ∧
        ∀ e ∈ left.head?, ∃ h, bs = h ++ eventWords e false) ∧
      (if s.awaitsImage = true ∧ s.boot.step = 0 ∧ s.image.holder = none then
        ∃ t, exec (.requestUpdate n) s = .next t ∧ answered 0x01 { s with image := ⟨some false, [], 0, min 4096 n⟩ } t
      else ∃ t, exec (.requestUpdate n) s = .next t ∧ answered 0x01 s t) ∧
      (s.image.holder = some false → exec (.requestFirmwareData off bs) s = .next { s with image :=
        ⟨some false, memWrite s.image.data off ((bs.take s.image.block).take (2 ^ 23 - off)), max len (off + (bs.take s.image.block).length),
          s.image.block⟩ }) ∧
      (s.image.holder ≠ some false → exec (.requestFirmwareData off bs) s = .next s ∧
        ∃ t, exec .activateFirmware s = .next t ∧ answered 0x01 s t) ∧
      (s.image.holder = some false → s.boot.awaiting = false → s.boot.step = 0 → s.phase = 0 ∨ s.phase = 5 →
        ∃ t bs, exec .activateFirmware s = .next t ∧ t = { s with regs := t.regs, boot := t.boot, image := { s.image with holder := none },
                                                                  out := s.out ++ [.office 0x01 bs] } ∧
          s.regsBut t (fun r => r = .secStatus ∨ r = .bootStatus) ∧ t.boot.step = 1 ∧ t.fget .bootStatus BOOT_STATUS_BUSY = 1 ∧
          t.fget .secStatus SEC_STATUS_BOOT = 1 ∧ t.fget .secStatus SEC_STATUS_BOOT_CAUSE = s.imageCause len ∧
          (s.imageCause len = 0 → t.boot.next = 1 ∧ t.boot.result = 0 ∧ t.boot.image = some (s.imageInfo len)) ∧
          (s.imageCause len ≠ 0 → t.boot.next = 5 ∧ t.boot.result = 2 ∧ t.boot.image = s.boot.image))) ∧
    (serves = false → ∀ c ∈ [Instr.getSensorReading k, .platformEventMessage ack, .requestUpdate n, .requestFirmwareData off bs,
      .activateFirmware], exec c s = .next s) ∧
    (s.hostLink = true → s.hostBlocked .pf .boot = false → s.image.holder ≠ some false → s.boot.step ≠ 1 → off < 2 ^ 23 →
      ∃ t, exec (.imageWindowWrite off bs) s = .next t ∧ t = { s with image := t.image } ∧ t.image.holder = some true ∧
        t.image.data = memWrite (if s.image.holder = none then [] else s.image.data) off (bs.take (2 ^ 23 - off)) ∧
        t.image.delivered = max (if s.image.holder = none then 0 else len) (off + bs.length)) ∧
    (s.hostLink = false ∨ (s.hostBlocked .pf .boot = false ∧ (s.image.holder = some false ∨ s.boot.step = 1 ∨ 2 ^ 23 ≤ off)) →
      exec (.imageWindowWrite off bs) s = .next s) ∧
    exec .imageBufferTimeout s = .next { s with image := { s.image with holder := none } } ∧
    (s.image.holder = some host → exec (.imageTransferCancel host) s = .next { s with image := { s.image with holder := none } }) ∧
    (s.image.holder ≠ some host → exec (.imageTransferCancel host) s = .next s)

/-- R520 to R532, R596, R708: every office command is answered with its code, its tag, a completion code and its payload, GET_STATUS also under a
test strap, and one with a reserved flag set with INVALID; a register access beyond the space, unaligned, denied, busy or not ready says so and does nothing; another has the effect
of the access; events are read oldest first and removed; coolant readings that are flagged are taken with age 0; CONF is set only in an
authorised session. Which code answers SET_RING_CONF where the spec states none is free, and the order of its checks is the model's (log 60
and log 33). -/
def Obligations.OfficeCommandsAnswer : Prop :=
  ∀ (s : State) (h : OfficeHead) (off value n index inlet flow valid ring conf : Nat) (session : Option Nat) (env : WriteEnv) (r : Reg),
    let ans := fun (secured : Bool) (code cc : Nat) (rest : List Byte) (u t : State) => ∃ v : List Byte, v.length = 2 ∧
      t = { u with out := u.out ++ [.office (if secured then 0x06 else 0x7E)
        (v ++ leBytes 1 code ++ leBytes 1 1 ++ leBytes 2 h.tag ++ leBytes 1 cc ++ rest)] }
    let serves := s.power.vaux && !s.power.testHold
    let authorised := ∃ i x, session = some i ∧ x ∈ s.sessions ∧ x.owner = 0 ∧ x.id = i ∧ x.established = true ∧ x.authorised = true
    (h.flags / 2 = 0 → s.power.vaux = true → ∃ t, exec (.getStatus h) s = .next t ∧
      ans false 0x01 0x00 (leBytes 8 (s.view .officeStatus).toNat ++ leBytes 8 (s.view .topId).toNat) s t) ∧
    (s.power.vaux = false → exec (.getStatus h) s = .next s) ∧
    (h.flags / 2 ≠ 0 → (s.power.vaux = true → ∃ t, exec (.getStatus h) s = .next t ∧ ans false 0x01 0x01 [] s t) ∧
      (serves = true →
        (∃ t, exec (.readReg h off) s = .next t ∧ ans false 0x02 0x01 [] s t) ∧ (∃ t, exec (.getEvents h n) s = .next t ∧ ans false 0x04 0x01 [] s t) ∧
        (∃ t, exec (.writeReg h off value session env) s = .next t ∧ ans session.isSome 0x03 0x01 [] s t) ∧
        (∃ t, exec (.setCoolant h inlet flow valid) s = .next t ∧ ans false 0x05 0x01 [] s t) ∧
        (∃ t, exec (.getShutdown h index) s = .next t ∧ ans false 0x06 0x01 [] s t) ∧
        ∃ t, exec (.setRingConf h ring conf session) s = .next t ∧ ans session.isSome 0x07 0x01 [] s t)) ∧
    (h.flags / 2 = 0 → serves = true →
      (0x4000000 ≤ off ∨ off % 8 ≠ 0 → (∃ t, exec (.readReg h off) s = .next t ∧ ans false 0x02 0x01 [] s t) ∧
        ∃ t, exec (.writeReg h off value session env) s = .next t ∧ ans session.isSome 0x03 0x01 [] s t) ∧
      (off < 0x4000000 → off % 8 = 0 →
        (securedOffset off = true → ¬ authorised → ∃ t, exec (.writeReg h off value session env) s = .next t ∧ ans session.isSome 0x03 0x04 [] s t) ∧
        (inImageWindow off = true → s.image.holder.isSome = true → (∃ t, exec (.readReg h off) s = .next t ∧ ans false 0x02 0x02 [] s t) ∧
          ∃ t, exec (.writeReg h off value session env) s = .next t ∧ ans session.isSome 0x03 0x02 [] s t) ∧
        (inImageWindow off = false ∨ s.image.holder = none →
          (s.notReady off = true → (∃ t, exec (.readReg h off) s = .next t ∧ ans false 0x02 0x03 [] s t) ∧
            (securedOffset off = false ∨ authorised →
              ∃ t, exec (.writeReg h off value session env) s = .next t ∧ ans session.isSome 0x03 0x03 [] s t)) ∧
          (s.notReady off = false →
            (s.regFor .office off = some r → ∃ t, exec (.readReg h off) s = .next t ∧ ans false 0x02 0x00 (leBytes 8 (s.regValue .office r).toNat) s t) ∧
            (securedOffset off = false ∨ authorised → ∃ t u, exec (.registerWrite .office off 8 (.write value) env) s = .next u ∧
              exec (.writeReg h off value session env) s = .next t ∧ ans session.isSome 0x03 0x00 [] u t)))) ∧
      (n < 1 ∨ 14 < n → ∃ t, exec (.getEvents h n) s = .next t ∧ ans false 0x04 0x01 [] s t) ∧
      (1 ≤ n → n ≤ 14 → let left := s.officeEvents.drop n
        ∃ t, exec (.getEvents h n) s = .next t ∧ ans false 0x04 0x00
          (leBytes 1 (min n s.officeEvents.length) ++ (s.officeEvents.take n).flatMap fun e => eventWords e false)
          { s with officeEvents := left, out := s.out ++ (if s.officeEvents ≠ [] ∧ left = [] ∧ s.fget .officeStatus OFFICE_STATUS_MODE = 0
                                                          then [.pin "SMBALERT_N" true] else []) } t) ∧
      (let i := valid.testBit 0
       let f := valid.testBit 1
       let ai := if i then 0 else s.fget .officeCoolant OFFICE_COOLANT_AGE_INLET
       let af := if f then 0 else s.fget .officeCoolant OFFICE_COOLANT_AGE_FLOW
       ∃ t u, exec (.setCoolant h inlet flow valid) s = .next t ∧ ans false 0x05 0x00 [] u t ∧ u = { s with regs := u.regs, thermal := u.thermal } ∧
        u.thermal = { s.thermal with inletHeld := s.thermal.inletHeld || i, flowHeld := s.thermal.flowHeld || f } ∧
        s.regsBut u (· = .officeCoolant) ∧ u.fget .officeCoolant OFFICE_COOLANT_AGE_INLET = ai ∧ u.fget .officeCoolant OFFICE_COOLANT_AGE_FLOW = af ∧
        u.fget .officeCoolant OFFICE_COOLANT_INLET = (if i then inlet % 2 ^ 16 else s.fget .officeCoolant OFFICE_COOLANT_INLET) ∧
        u.fget .officeCoolant OFFICE_COOLANT_FLOW = (if f then flow % 2 ^ 16 else s.fget .officeCoolant OFFICE_COOLANT_FLOW) ∧
        u.fget .officeCoolant OFFICE_COOLANT_WORST =
          (if 2000 < ai ∨ 2000 < af then 1 else if ai < 2000 ∧ af < 2000 then 0 else s.fget .officeCoolant OFFICE_COOLANT_WORST)) ∧
      (∃ t, exec (.getShutdown h index) s = .next t ∧
        if hi : index < s.shutdowns.length then ans false 0x06 0x00 s.shutdowns[index] s t else ans false 0x06 0x05 [] s t) ∧
      (let hr := s.funcHr (s.ringFunc ring)
       (64 ≤ ring → ∃ t, exec (.setRingConf h ring conf session) s = .next t ∧ ans session.isSome 0x07 0x01 [] s t) ∧
       (ring < 64 → ¬ authorised → ∃ t, exec (.setRingConf h ring conf session) s = .next t ∧ ans session.isSome 0x07 0x04 [] s t) ∧
       (ring < 64 → authorised →
        (s.registrarUp = false → ∃ t, exec (.setRingConf h ring conf session) s = .next t ∧ ans session.isSome 0x07 0x03 [] s t) ∧
        (s.registrarUp = true → (conf % 2 = 0 → ∃ t, exec (.setRingConf h ring conf session) s = .next t ∧ ans session.isSome 0x07 0x04 [] s t) ∧
          (conf % 2 = 1 → (hr = 0 → ∃ t, exec (.setRingConf h ring conf session) s = .next t ∧ ans session.isSome 0x07 0x01 [] s t) ∧
            (hr ≠ 0 → s.ringState ring = 0 → (s.hr hr).keys.command ≠ none → ∃ t u, exec (.setRingConf h ring conf session) s = .next t ∧
              ans session.isSome 0x07 0x00 [] u t ∧ u = { s with regs := u.regs } ∧ s.regsBut u (· = .ringCfg ring) ∧
              u.fget (.ringCfg ring) RING_CFG_CONF = 1) ∧
            (hr ≠ 0 → s.ringState ring ≠ 0 ∨ (s.hr hr).keys.command = none → ∃ t cc, 1 ≤ cc ∧ cc ≤ 5 ∧
              exec (.setRingConf h ring conf session) s = .next t ∧ ans session.isSome 0x07 cc [] { s with draws := s.draws + 1 } t)))))) ∧
    (serves = false → ∀ c ∈ [Instr.readReg h off, .writeReg h off value session env, .getEvents h n, .setCoolant h inlet flow valid,
      .getShutdown h index, .setRingConf h ring conf session], exec c s = .next s) ∧
    (s.power.vaux = true → let ai := if s.thermal.inletHeld then inlet else 0xFFF
      let af := if s.thermal.flowHeld then flow else 0xFFF
      ∃ t, exec (.coolantAgeExpiry inlet flow) s = .next t ∧ t = { s with regs := t.regs } ∧ s.regsBut t (· = .officeCoolant) ∧
        t.fget .officeCoolant OFFICE_COOLANT_AGE_INLET = min 0xFFF ai ∧ t.fget .officeCoolant OFFICE_COOLANT_AGE_FLOW = min 0xFFF af ∧
        (2000 < ai ∨ 2000 < af → t.fget .officeCoolant OFFICE_COOLANT_WORST = 1) ∧
        (ai < 2000 → af < 2000 → t.fget .officeCoolant OFFICE_COOLANT_WORST = 0) ∧
        t.fget .officeCoolant OFFICE_COOLANT_INLET = s.fget .officeCoolant OFFICE_COOLANT_INLET ∧
        t.fget .officeCoolant OFFICE_COOLANT_FLOW = s.fget .officeCoolant OFFICE_COOLANT_FLOW) ∧
    (s.power.vaux = false → exec (.coolantAgeExpiry inlet flow) s = .next s)

/-- R519, R580 to R584: the responders of the office and of homerooms 1 to 15 answer each SPDM request. The digest and the certificates are
of one chain; signatures are by the alias key, which an image gives; a key exchange opens a session with a number that the responder does
not use, unless the entropy source has failed, the responder holds its most sessions or no image runs; FINISH establishes it and
END_SESSION ends it. Message codes are PRESUMED (log 60). -/
def Obligations.SpdmRespondersAnswer : Prop :=
  ∀ (s : State) (rsp : Responder) (version off len index session : Nat) (nonce exchange : List Byte) (sign authorised : Bool),
    let ans := fun (secured : Bool) (code : Nat) (rest : List Byte) (u t : State) => ∃ v p1 p2 : Byte,
      t = { u with out := u.out ++ [.office (if secured then 0x06 else 0x05) ([v, BitVec.ofNat 8 code, p1, p2] ++ rest)] }
    let signed := fun (key : Nat) (msg sig : List Byte) => ∃ n before, sig = beBytes 32 (sm2Sign key (n + 1) (before ++ msg)).1 ++
      beBytes 32 (sm2Sign key (n + 1) (before ++ msg)).2
    let there := s.power.vaux && !s.power.testHold && rsp.ok
    let mine := fun (x : SpdmSession) => x ∈ s.sessions ∧ x.owner = rsp.owner
    (there = false → ∀ c ∈ [Instr.getVersion rsp, .getCapabilities rsp version, .negotiateAlgorithms rsp, .getDigests rsp, .getCertificate rsp off len,
      .challenge rsp nonce, .getMeasurements rsp index sign nonce, .keyExchange rsp exchange, .finish rsp session authorised,
      .heartbeatMessage rsp session, .keyUpdate rsp session, .endSession rsp session], exec c s = .next s) ∧
    (there = true →
      (∃ t h, exec (.getVersion rsp) s = .next t ∧ ans false 0x04 (h ++ leBytes 2 0x1200 ++ leBytes 2 0x1300) { s with spdm := smDel s.spdm rsp.owner } t) ∧
      (version = 0x12 ∨ version = 0x13 → ∃ t rest, exec (.getCapabilities rsp version) s = .next t ∧
        ans false 0x61 rest { s with spdm := smPut s.spdm rsp.owner version } t) ∧
      (version ≠ 0x12 → version ≠ 0x13 → ∃ t, exec (.getCapabilities rsp version) s = .next t ∧ ans false 0x7F [] s t) ∧
      (∃ t rest, exec (.negotiateAlgorithms rsp) s = .next t ∧ ans false 0x63 rest s t) ∧
      (∃ t, exec (.getDigests rsp) s = .next t ∧ ans false 0x01 (sm3 s.certChain) s t) ∧
      (off < s.certChain.length → ∃ t h, exec (.getCertificate rsp off len) s = .next t ∧ ans false 0x02 (h ++ (s.certChain.drop off).take len) s t) ∧
      (s.certChain.length ≤ off → ∃ t, exec (.getCertificate rsp off len) s = .next t ∧ ans false 0x7F [] s t) ∧
      (s.aliasKey = none → ∃ t, exec (.challenge rsp nonce) s = .next t ∧ ans false 0x7F [] s t) ∧
      (∀ k, s.aliasKey = some k → ∃ t own sig, exec (.challenge rsp nonce) s = .next t ∧ own.length = 32 ∧
        signed k (nonce ++ (sm3 s.certChain ++ own ++ [0#8, 0#8])) sig ∧
        ans false 0x03 (sm3 s.certChain ++ own ++ [0#8, 0#8] ++ sig) { s with draws := s.draws + 3 } t) ∧
      (s.measurementBlocks rsp index = none → ∃ t, exec (.getMeasurements rsp index sign nonce) s = .next t ∧ ans false 0x7F [] s t) ∧
      (∀ l, s.measurementBlocks rsp index = some l →
        let head := leBytes 1 l.length ++ leBytes 3 (l.flatMap (s.measurementBlock rsp)).length ++ l.flatMap (s.measurementBlock rsp)
        (∃ t own, exec (.getMeasurements rsp index false nonce) s = .next t ∧ own.length = 32 ∧
          ans false 0x60 (head ++ own ++ [0#8, 0#8]) { s with draws := s.draws + 1 } t) ∧
        (s.aliasKey = none → ∃ t, exec (.getMeasurements rsp index true nonce) s = .next t ∧ ans false 0x7F [] { s with draws := s.draws + 1 } t) ∧
        (∀ k, s.aliasKey = some k → ∃ t own sig, exec (.getMeasurements rsp index true nonce) s = .next t ∧ own.length = 32 ∧
          signed k (nonce ++ (head ++ own ++ [0#8, 0#8])) sig ∧
          ans false 0x60 (head ++ own ++ [0#8, 0#8] ++ sig) { s with draws := s.draws + 3 } t)) ∧
      (s.fget .secStatus SEC_STATUS_RNG_FAIL = 1 ∨ rsp.most ≤ (s.sessionsOf rsp).length ∨ s.aliasKey = none →
        ∃ t, exec (.keyExchange rsp exchange) s = .next t ∧ ans false 0x7F [] s t) ∧
      (s.fget .secStatus SEC_STATUS_RNG_FAIL = 0 → (s.sessionsOf rsp).length < rsp.most → ∀ k, s.aliasKey = some k →
        ∃ t id d body sig verify, exec (.keyExchange rsp exchange) s = .next t ∧ id < 2 ^ 16 ∧ (∀ x, mine x → x.id ≠ id) ∧
          signed k (exchange ++ body) sig ∧ (∃ rest, body = leBytes 2 id ++ rest) ∧
          ans false 0x64 (body ++ sig ++ verify) { s with sessions := s.sessions ++ [⟨rsp.owner, id, false, false⟩], draws := d } t) ∧
      ((∃ x, mine x ∧ x.id = session ∧ x.established = false) → ∃ t l, exec (.finish rsp session authorised) s = .next t ∧
        l.length = s.sessions.length ∧ (∀ i (h : i < s.sessions.length), l[i]? = some (if s.sessions[i].owner = rsp.owner ∧ s.sessions[i].id = session
          then ⟨rsp.owner, session, true, authorised⟩ else s.sessions[i])) ∧ ans true 0x65 [] { s with sessions := l } t) ∧
      ((∀ x, mine x → x.id = session → x.established = true) → ∃ t, exec (.finish rsp session authorised) s = .next t ∧ ans false 0x7F [] s t) ∧
      ((∃ x, mine x ∧ x.id = session ∧ x.established = true) →
        (∃ t, exec (.heartbeatMessage rsp session) s = .next t ∧ ans true 0x68 [] s t) ∧
        (∃ t, exec (.keyUpdate rsp session) s = .next t ∧ ans true 0x69 [] s t) ∧
        ∃ t l, exec (.endSession rsp session) s = .next t ∧ (∀ x, x ∈ l ↔ x ∈ s.sessions ∧ ¬ (x.owner = rsp.owner ∧ x.id = session)) ∧
          ans true 0x6C [] { s with sessions := l } t) ∧
      ((∀ x, mine x → x.id = session → x.established = false) → ∀ c ∈ [Instr.heartbeatMessage rsp session, .keyUpdate rsp session, .endSession rsp session],
        ∃ t, exec c s = .next t ∧ ans false 0x7F [] s t))

/-! ### Power, heat and the package -/

/-- R538 to R544, R547, R550, R555, R557, R560, R561, R565, R569, R571: a voltage code is held within its range; a regulator's fault turns its domain
off; an overvoltage latches a shutdown; the package limit in force changes within its range alone; a power sample moves the back-stop; a
sensor sample shows its readings and sets the levels of its hot spots, and two readings that agree past the limit shut the part down; a forecast update
starts a new period. -/
def Obligations.PowerAndHeatAct : Prop :=
  ∀ (s : State) (d i j pkg h : Nat) (u v : Int) (w : RegWrite) (perStack domains : List Nat) (readings : List (Nat × Int)),
    let latched := fun (cause : Nat) (t : State) => t.power = { s.power with mainOn := false, armed := false, latched := true, vauxCycled := false } ∧
      (∃ r, t.shutdowns = (r :: s.shutdowns).take 8 ∧ r.take 1 = leBytes 1 cause) ∧ Output.pin "THRM_TRIP_N" false ∈ t.out ∧
      t.far = [] ∧ t.slice = [] ∧ t.desk = [] ∧ t.lines = [] ∧ t.cores = [] ∧ t.rings = [] ∧ t.host = s.host ∧ t.image = s.image ∧
      ∀ r, r ≠ .officeEvq → t.get r = if r.home.2 = 8 ∨ officeReg r = true then s.get r else s.resetOf r
    let x := s.written (.pwrDomain d) w
    let code := min 60 (x.field PWR_DOMAIN_VSET)
    let watts := (s.written .pwrLimit w).field PWR_LIMIT_WATTS
    (s.admits w.master (.pwrDomain d) = true →
      (d < 260 → ∃ t, exec (.vsetWrite d w) s = .next t ∧ t = { s with regs := t.regs } ∧ s.regsBut t (· = .pwrDomain d) ∧
        t.fget (.pwrDomain d) PWR_DOMAIN_VSET = (if 256 ≤ d then max 20 code else code) ∧
        ∀ f ∈ [PWR_DOMAIN_RECESS, PWR_DOMAIN_OFF, PWR_DOMAIN_POWER], t.fget (.pwrDomain d) f = s.fget (.pwrDomain d) f) ∧
      (260 ≤ d → exec (.vsetWrite d w) s = .next s)) ∧
    (s.power.mainOn = true → d < 260 → ∃ t, t = { s with regs := t.regs } ∧ s.regsBut t (fun r => r = .pwrDomain d ∨ r = .pwrStatus) ∧
      t.fget (.pwrDomain d) PWR_DOMAIN_OFF = 1 ∧ t.fget .pwrStatus PWR_STATUS_REG_FAULT = 1 ∧ t.fget .pwrStatus PWR_STATUS_FAULT_DOMAIN = d ∧
      (256 ≤ d → exec (.regulatorFault d) s = .next (t.dieOut (d - 256))) ∧
      (d < 256 → s.coreState d = 0 → ∃ v, exec (.regulatorFault d) s = .next v ∧ v = { t with regs := v.regs, cores := v.cores } ∧
        t.regsBut v (fun r => r = .coreStatus d ∨ r = .nearStatus d) ∧ t.coresBut v (· = d) ∧ v.core d = { s.core d with routerOnDie := true } ∧
        v.coreState d = 1 ∧ v.fget (.coreStatus d) CORE_STATUS_CAUSE = 9)) ∧
    (s.power.mainOn = false ∨ 260 ≤ d → exec (.regulatorFault d) s = .next s) ∧
    (s.power.mainOn = true → ∃ t, exec (.regulatorOvervoltage d) s = .next t ∧ latched 0x07 t) ∧
    (s.power.mainOn = false → exec (.regulatorOvervoltage d) s = .next { s with draws := s.draws + 4 }) ∧
    (s.admits w.master .pwrLimit = true →
      (1400 ≤ watts → watts ≤ powerDefault s.variant → ∃ t, exec (.pwrLimitWrite w) s = .next t ∧ t = { s with regs := t.regs } ∧
        s.regsBut t (· = .pwrLimit) ∧ t.fget .pwrLimit PWR_LIMIT_WATTS = watts) ∧
      (watts < 1400 ∨ powerDefault s.variant < watts → ∃ t, t = { s with regs := t.regs } ∧ s.regsBut t (· = .pwrStatus) ∧
        t.fget .pwrStatus PWR_STATUS_REFUSED = 1 ∧
        exec (.pwrLimitWrite w) s = .next (if s.fget .pwrCtl PWR_CTL_INT_EN = 1 then t.raise .pwr 0 0x008 .pwrStatus else t))) ∧
    (s.power.mainOn = true →
      let hist := (pkg :: s.thermal.history).take 20
      let level := s.fget .pwrStatus PWR_STATUS_BACKSTOP
      let up := meanOver hist s.limitNow 1 1
      let sharp := meanOver (hist.take 2) s.limitNow 11 10
      let low := decide (hist.sum * 100 < s.limitNow * 98 * hist.length)
      let next := if sharp then max 4 (if up then min 7 (level + 1) else level) else if up then min 7 (level + 1)
        else if low && decide (s.thermal.below = 3) then level - 1 else level
      ∃ t, t = { s with regs := t.regs, thermal := t.thermal } ∧
        t.thermal = { s.thermal with history := hist, sumPkg := s.thermal.sumPkg + pkg, samples := s.thermal.samples + 1,
                                     sumStacks := (List.range 4).map (fun k => wordAt s.thermal.sumStacks k + wordAt perStack k),
                                     below := if low && !up && !sharp && decide (s.thermal.below ≠ 3) then s.thermal.below + 1 else 0 } ∧
        s.regsBut t (fun r => r = .pwrStatus ∨ ∃ i < 264, r = .pwrDomain i) ∧ t.fget .pwrStatus PWR_STATUS_BACKSTOP = next ∧
        (∀ i < 264, ∀ p, domains[i]? = some p → t.fget (.pwrDomain i) PWR_DOMAIN_POWER = min p 0xFFFF) ∧
        t.fget .pwrStatus PWR_STATUS_BACKSTOP_HIT = (if level = 0 ∧ 0 < next then 1 else s.fget .pwrStatus PWR_STATUS_BACKSTOP_HIT) ∧
        exec (.powerSample pkg perStack domains) s = .next (if level = 0 ∧ 0 < next ∧ s.fget .pwrCtl PWR_CTL_INT_EN = 1 then
          t.raise .pwr 0 0x008 .pwrStatus else t)) ∧
    (s.power.mainOn = false ∨ (∀ r ∈ readings, (sensorPresent s.variant r.1 && s.dieUp (sensorDie r.1)) = false) →
      exec (.sensorSample readings) s = .next s) ∧
    (s.power.mainOn = true → (∀ k, s.temp k < 600) → (∀ r ∈ readings, -32768 ≤ r.2 ∧ r.2 < 600) → (readings.map Prod.fst).Nodup →
      smSorted none s.thermal.levels = true → ∃ t, exec (.sensorSample readings) s = .next t ∧ t.power = s.power ∧ t.far = s.far ∧ t.slice = s.slice ∧ t.desk = s.desk ∧ t.cores = s.cores ∧
        ∀ r ∈ readings, sensorPresent s.variant r.1 = true → s.dieUp (sensorDie r.1) = true → t.temp r.1 = r.2 ∧
          ∀ h ∈ hotSpots s.variant, r.1 ∈ hotSensors h →
            smGet 0 t.thermal.levels h = hotLevel (hotClass h) (smGet 0 s.thermal.levels h) (t.hotReading h)) ∧
    (s.power.mainOn = true → h ∈ hotSpots s.variant → i ∈ hotSensors h → j ∈ hotSensors h → i ≠ j →
      (∀ k ∈ [i, j], sensorPresent s.variant k = true ∧ s.dieUp (sensorDie k) = true ∧ s.suspect k = false ∧ smGet 0 s.thermal.runs k < 2) →
      (hotLevels (hotClass h)).2.2 ≤ u → (hotLevels (hotClass h)).2.2 ≤ v → (u - v).natAbs ≤ 32 → u < 32768 → v < 32768 →
      ∃ t cause, exec (.sensorSample [(i, u), (j, v)]) s = .next t ∧ t.power.mainOn = false ∧ t.power.latched = true ∧
        (∃ r, t.shutdowns = (r :: s.shutdowns).take 8 ∧ r.take 1 = leBytes 1 cause ∧ 1 ≤ cause ∧ cause ≤ 5)) ∧
    (s.power.mainOn = false → exec .forecastUpdate s = .next s) ∧
    (s.power.mainOn = true → let n := s.thermal.update + 1
      let x := { s with thermal := s.updateHot }
      let fault := if s.fget .thmStatus THM_STATUS_FAULT = 1 then ¬ (x.coolantGood = true ∧ s.thermal.good = 9) else x.coolantFault = true
      ∃ t, exec .forecastUpdate s = .next t ∧ t.thermal.update = n ∧ t.thermal.samples = 0 ∧ t.thermal.sumPkg = 0 ∧ t.thermal.sumStacks = [0, 0, 0, 0] ∧
        t.thermal.limit = some (s.fget .pwrLimit PWR_LIMIT_WATTS) ∧ (∀ h ∈ hotSpots s.variant, smGet 0 t.thermal.now h = Config.nowcast n h) ∧
        (fault → t.fget .thmStatus THM_STATUS_FAULT = 1 ∧ t.thermal.floor = 6) ∧ (¬ fault → t.fget .thmStatus THM_STATUS_FAULT = 0) ∧
        (s.thermal.samples ≠ 0 → t.fget .pwrPkg PWR_PKG_MEAS_W = min (s.thermal.sumPkg / (100 * s.thermal.samples)) 0xFFFF) ∧
        t.far = s.far ∧ t.slice = s.slice ∧ t.desk = s.desk ∧ t.cores = s.cores ∧ t.power = s.power)

/-- R33, R199, R492, R515, R530, R531, R541, R556, R674, R697 to R708: VAUX brings up the office alone and samples the straps, and its loss loses
everything; PERST_N and VIN_CORE start the main side, a fault of a main rail latches it off; a lost fabric clock downs the ports that it
feeds; a lost DRAM layer fences its stack; a read that times out ends its descriptor or its ring; a refresh request is honoured. -/
def Obligations.PackagePowersAndLosses : Prop :=
  ∀ (s : State) (straps rail die mv clk stack layer ring seq f bank : Nat) (sris : Bool),
    let pw := s.power
    let empty := fun (t : State) => t.far = [] ∧ t.slice = [] ∧ t.desk = [] ∧ t.lines = [] ∧ t.cores = [] ∧ t.rings = [] ∧ t.host = s.host
    let latched := fun (t : State) => t.power = { pw with mainOn := false, armed := false, latched := true, vauxCycled := false } ∧
      (∃ r, t.shutdowns = (r :: s.shutdowns).take 8 ∧ r.take 1 = leBytes 1 0x06) ∧ Output.pin "THRM_TRIP_N" false ∈ t.out ∧ empty t ∧
      ∀ r, r ≠ .officeEvq → t.get r = if r.home.2 = 8 ∨ officeReg r = true then s.get r else s.resetOf r
    let started := fun (t : State) => t.power.mainOn = true ∧ t.power.armed = true ∧ t.power.pcieLost = false ∧ t.power.boots = (pw.boots + 1) % 2 ^ 32 ∧
      t.phase = 0 ∧ t.boot = .init ∧ empty t ∧ t.shutdowns = s.shutdowns ∧
      ∀ r, officeReg r = false → t.get r = s.resetOf r
    let hold := straps.testBit 2 && !s.fuseBit 1294
    (pw.vaux = true → exec (.vauxPowerOn straps) s = .next s) ∧
    (pw.vaux = false → ∃ t, exec (.vauxPowerOn straps) s = .next t ∧ t = { s with regs := t.regs, power := t.power } ∧ s.regsBut t (· = .topStraps) ∧
      t.power = { pw with vaux := true, vauxCycled := pw.latched, testHold := hold, boots := 0 } ∧
      t.fget .topStraps TOP_STRAPS_OFFICE_ADDR = straps % 4 ∧ t.fget .topStraps TOP_STRAPS_TEST_EN = b2n (straps.testBit 2) ∧
      t.fget .topStraps TOP_STRAPS_TEST_ACTIVE = b2n hold) ∧
    (pw.vaux = false → exec .vauxLoss s = .next s) ∧
    (pw.vaux = true → ∃ t, exec .vauxLoss s = .next t ∧ t.regs = [] ∧ empty t ∧ t.shutdowns = [] ∧ t.officeEvents = [] ∧ t.sessions = [] ∧
      t.power.vaux = false ∧ t.power.mainOn = false ∧ t.power.latched = (pw.latched || pw.mainOn) ∧ t.fuses = s.fuses) ∧
    (s.railWatched rail die = true → ∃ t, exec (.mainRailFault rail die mv) s = .next t ∧ latched t) ∧
    (s.railWatched rail die = false → exec (.mainRailFault rail die mv) s = .next s) ∧
    (s.railWatched 1 0 = true → ∃ t, exec .vinCoreCycle s = .next t ∧ latched t) ∧
    (s.railWatched 1 0 = false →
      (pw.latched = true → pw.vaux = true → pw.vauxCycled = true →
        (pw.perst = true ∨ pw.testHold = true → exec .vinCoreCycle s = .next { s with power := { pw with latched := false, vauxCycled := false },
                                                                                       out := s.out ++ [.pin "THRM_TRIP_N" true] }) ∧
        (pw.perst = false → pw.testHold = false → ∃ t, exec .vinCoreCycle s = .next t ∧ started t ∧ t.power.latched = false ∧
          Output.pin "THRM_TRIP_N" true ∈ t.out)) ∧
      (pw.latched = false ∨ pw.vaux = false ∨ pw.vauxCycled = false → exec .vinCoreCycle s = .next s)) ∧
    (pw.perst = false → exec (.perstDeassert sris) s = .next s) ∧
    (pw.perst = true → ∃ t, exec (.perstDeassert sris) s = .next t ∧ t.power.perst = false ∧ t.fget .topStraps TOP_STRAPS_PCIE_SRIS = b2n sris ∧
      (pw.vaux = true → pw.latched = false → pw.testHold = false → started t) ∧
      (pw.vaux = false ∨ pw.latched = true ∨ pw.testHold = true → t = { s with regs := t.regs, power := { pw with perst := false } } ∧
        s.regsBut t (· = .topStraps))) ∧
    (pw.perst = true → exec .perstAssert s = .next s) ∧
    (pw.perst = false → ∃ t, exec .perstAssert s = .next t ∧ t.power.perst = true ∧ t.power.armed = false ∧
      (pw.mainOn = false → t = { s with power := { pw with perst := true, armed := false } }) ∧
      (pw.mainOn = true → t.power.mainOn = false ∧ t.phase = 0 ∧ t.boot = .init ∧ t.far = [] ∧ t.slice = [] ∧ t.desk = [] ∧ t.lines = [] ∧
        t.cores = [] ∧ t.rings = [] ∧ (s.fabWaits = [] → t.host = s.host ∧ t.shutdowns = s.shutdowns))) ∧
    (clk < 8 → exec (.refclkLoss clk) s = .next (s.dieOut clk)) ∧
    (8 ≤ clk → clk < 12 → ∃ t, exec (.refclkLoss clk) s = .next t ∧ ∀ p < 6, s.ioUp (clk - 8) = true → s.portState (clk - 8) p ≠ 0 →
      t.portState (clk - 8) p = 7) ∧
    (clk = 12 → exec (.refclkLoss clk) s = .next { s with power := { pw with pcieLost := pw.mainOn }, hostWaits := if pw.mainOn then [] else s.hostWaits }) ∧
    (12 < clk → exec (.refclkLoss clk) s = .next s) ∧
    (stack < 4 → layer < 4 → s.dieUp stack = true → ∃ t, exec (.dramLayerLoss stack layer) s = .next t ∧ (∀ c, c / 64 ≠ stack → t.coreState c = s.coreState c) ∧
      ∀ c, c / 64 = stack → t.coreState c ≠ 0 ∧ (s.coreState c = 0 → t.coreState c = 1 ∧ t.fget (.coreStatus c) CORE_STATUS_CAUSE = 7)) ∧
    (4 ≤ stack ∨ 4 ≤ layer ∨ s.dieUp stack = false → exec (.dramLayerLoss stack layer) s = .next s) ∧
    (s.registrarUp = true →
      (s.ringState ring = 1 → ∃ t, exec (.completionTimeout ring seq true) s = .next t ∧ t = { s with regs := t.regs } ∧
        s.regsBut t (· = .ringStatus ring) ∧ t.ringState ring = 4 ∧ t.fget (.ringStatus ring) RING_STATUS_CAUSE = 2) ∧
      (s.ringState ring ≠ 1 → exec (.completionTimeout ring seq true) s = .next s) ∧
      (∀ d, s.desc ring seq = some d → d.started = true → exec (.completionTimeout ring seq false) s = .next (s.finish ring d 4 0 0 0 0)) ∧
      ((∀ d, s.desc ring seq = some d → d.started = false) → exec (.completionTimeout ring seq false) s = .next s)) ∧
    (s.registrarUp = false → exec (.completionTimeout ring seq true) s = .next s ∧ exec (.completionTimeout ring seq false) s = .next s) ∧
    (s.farGone f = true → exec (.refreshManagementRequest f bank) s = .next s) ∧
    (s.farGone f = false → ∃ t, exec (.refreshManagementRequest f bank) s = .next t ∧ t = { s with farPorts := t.farPorts } ∧
      ∀ b, smGet 0 (t.farPort f).refreshes b = smGet 0 (s.farPort f).refreshes b + (if b = bank then 1 else 0))

/-! ### Homerooms and integrity -/

/-- R586, R587, R597, R604, R605, R610 to R615, R659: OPEN opens a free homeroom in phase 4, and waits behind a teardown; a teardown closes an active
one, zeroises its keys and ends its sessions, and its completion returns every resource; an OPEN homeroom takes from and returns to
homeroom 0 one function, one core or one set, and a window is set, while a wrong move is refused and changes nothing else; a core that has moved is
cleared before it is reached; debug is unlocked for the office alone, where the fuses allow it. -/
def Obligations.HomeroomResourcesMove : Prop :=
  ∀ (s : State) (h f i k c win : Nat) (map auth : Bool) (w : RegWrite),
    let refused := fun (t : State) => t = { s with regs := t.regs } ∧ s.regsBut t (· = .secStatus) ∧ t.fget .secStatus SEC_STATUS_REFUSED = 1
    let x := s.written (.secHrCtl h) w
    let y := s.written (.secHrCores h i) w
    let z := s.written (.secHrMap h i) w
    let isOpen := x.hit SEC_HR_CTL_OPEN
    let tears := x.hit SEC_HR_CTL_TEARDOWN
    let funcs := (List.range 17).filter fun f => (x.old ^^^ x.new).getLsbD (8 + f)
    let cores := (List.range 64).filter fun k => (y.old ^^^ y.new).getLsbD k
    let sets := (List.range 8).filter fun k => decide (bitsOf z.old.toNat (8 * k) 8 ≠ bitsOf z.new.toNat (8 * k) 8)
    let b := bitsOf z.new.toNat (8 * k) 8
    let v := 8 * i + k
    let wr := if map then Reg.secHrWinMap h win else Reg.secHrWinHost h win
    let n := 64 * i + k
    let held := s.fget (.secHrCores h i) ⟨k, 1⟩
    (∀ cmd ∈ [Instr.hrOpen h w, .teardownWrite h w, .hrFuncsWrite h w], s.admits w.master (.secHrCtl h) = true →
      (h = 0 → exec cmd s = .next s) ∧
      (h ≠ 0 → funcs = [] →
        (isOpen = false → tears = false ∨ s.hrActive h = false → exec cmd s = .next s) ∧
        (isOpen = true → tears = false →
          (s.phase ≠ 4 → ∃ t, exec cmd s = .next t ∧ refused t) ∧
          (s.phase = 4 → s.hrState h = 3 → ∃ t, exec cmd s = .next t ∧ t = { s with regs := t.regs } ∧ s.regsBut t (· = .secHrCtl h) ∧
            t.hrState h = 3 ∧ t.fget (.secHrCtl h) SEC_HR_CTL_PENDING = 1) ∧
          (s.phase = 4 → s.hrState h = 0 → s.activeHrs < s.hrMax → ∃ t, exec cmd s = .next t ∧ t = { s with regs := t.regs, homerooms := t.homerooms } ∧
            s.regsBut t (· = .secHrCtl h) ∧ t.hrState h = 1 ∧ t.hr h = Homeroom.init ∧ ∀ g, g ≠ h → t.hr g = s.hr g) ∧
          (s.phase = 4 → s.hrState h = 1 ∨ s.hrState h = 2 ∨ (s.hrState h = 0 ∧ s.hrMax ≤ s.activeHrs) → exec cmd s = .next s)) ∧
        (isOpen = false → tears = true → s.hrActive h = true → ∃ t : State, exec cmd s = .next t.rouse ∧ t.hrState h = 3 ∧
          (∀ c < 256, s.coreHr c = h → (t.near c).clearPending = true) ∧ (t.hr h).keys.command = none ∧
          (t.hr h).keys.transport = none ∧ (t.hr h).keys.fabric = none ∧ (∀ e ∈ (t.hr h).keys.region, e.2 = []) ∧
          t.sessions = s.sessions.filter (fun q => decide (q.owner ≠ h)) ∧ (∀ g, g ≠ h → t.hr g = s.hr g ∧ t.hrState g = s.hrState g))) ∧
      (h ≠ 0 → isOpen = false → tears = false → funcs ≠ [] → s.hrState h ≠ 1 → ∃ t, exec cmd s = .next t ∧ refused t) ∧
      (h ≠ 0 → isOpen = false → tears = false → funcs = [f] → s.hrState h = 1 →
        (f = 0 ∨ (s.fget (.secHrCtl h) ⟨8 + f, 1⟩ = 0 ∧ s.funcHr f ≠ 0) → ∃ t, exec cmd s = .next t ∧ refused t) ∧
        (f ≠ 0 → s.fget (.secHrCtl h) ⟨8 + f, 1⟩ = 1 ∨ s.funcHr f = 0 → ∃ t, exec cmd s = .next t ∧
          t.fget (.secHrCtl h) ⟨8 + f, 1⟩ = 1 - s.fget (.secHrCtl h) ⟨8 + f, 1⟩ ∧ t.hrState h = 1 ∧ t.homerooms = s.homerooms ∧
          ∀ n < 64, s.ringFunc n = f → t.fget (.ringCfg n) RING_CFG_CONF = 0))) ∧
    (s.hrState h ≠ 3 → exec (.teardownComplete h) s = .next s) ∧
    (s.hrState h = 3 → ∃ t : State, exec (.teardownComplete h) s = .next t.rouse ∧ t.hr h = Homeroom.init ∧
      t.hrState h = (if s.fget (.secHrCtl h) SEC_HR_CTL_PENDING = 1 then 1 else 0) ∧ t.fget (.secHrCtl h) SEC_HR_CTL_FUNCS = 0 ∧
      (∀ i < 4, t.get (.secHrCores h i) = 0#64) ∧ (∀ i < 16, t.get (.secHrMap h i) = 0#64) ∧
      (∀ i < 8, t.get (.secHrWinHost h i) = 0#64 ∧ t.get (.secHrWinMap h i) = 0#64) ∧ ∀ g, g ≠ h → t.hr g = s.hr g ∧ t.hrState g = s.hrState g) ∧
    (s.admits w.master (.secHrCores h i) = true →
      (h = 0 ∨ (cores = [] ∧ s.hrState h ≠ 2) → exec (.hrCoresWrite h i w) s = .next s) ∧
      (h ≠ 0 → (cores ≠ [] ∧ s.hrState h ≠ 1) ∨ s.hrState h = 2 → ∃ t, exec (.hrCoresWrite h i w) s = .next t ∧ refused t) ∧
      (h ≠ 0 → cores = [k] → s.hrState h = 1 → i < 4 →
        ((s.core n).movingTo.isSome = true ∨ (held = 0 ∧ s.coreHr n ≠ 0) → ∃ t, exec (.hrCoresWrite h i w) s = .next t ∧ refused t) ∧
        ((s.core n).movingTo = none → held = 1 ∨ s.coreHr n = 0 → ∃ t, exec (.hrCoresWrite h i w) s = .next t ∧
          t = { s with regs := t.regs, cores := t.cores, slices := t.slices } ∧ s.regsBut t (· = .secHrCores h i) ∧ s.coresBut t (· = n) ∧
          t.core n = { s.core n with movingTo := some (if held = 0 then h else 0) } ∧ (t.near n).clearPending = true ∧
          (∀ g, g ≠ n → t.near g = s.near g) ∧ ∀ j < 64, (t.get (.secHrCores h i)).getLsbD j = ((s.get (.secHrCores h i)).getLsbD j ^^ decide (j = k))))) ∧
    ((s.core c).movingTo = none ∨ (s.core c).lesson.isSome = true → exec (.coreMoveClear c) s = .next s) ∧
    ((s.core c).movingTo.isSome = true → (s.core c).lesson = none → s.memoriesWf = true → ∃ t, exec (.coreMoveClear c) s = .next t ∧
      t = { s with regs := t.regs, cores := t.cores, slices := t.slices, slice := t.slice, sliceChk := t.sliceChk, desk := t.desk, deskChk := t.deskChk } ∧
      s.regsBut t (· = .nearStatus c) ∧ s.coresBut t (· = c) ∧ (t.near c).clearPending = false ∧
      (let st := s.fget (.nearStatus c) NEAR_STATUS_STATE
       t.fget (.nearStatus c) NEAR_STATUS_STATE = (if st = 2 ∧ (s.near c).clearPending = true then 3 else st) ∧
       (t.core c).movingTo = if st = 0 ∨ (st = 2 ∧ (s.near c).clearPending = false) then none else (s.core c).movingTo) ∧
      (∀ o < sliceBytes, memByte t.slice (sliceKey c o) = 0#8) ∧ ∀ o < deskBytes, memByte t.desk (deskKey c o) = 0#8) ∧
    (s.admits w.master (.secHrMap h i) = true →
      (h = 0 ∨ (sets = [] ∧ s.hrState h ≠ 2) → exec (.hrMapWrite h i w) s = .next s) ∧
      (h ≠ 0 → (sets ≠ [] ∧ s.hrState h ≠ 1) ∨ s.hrState h = 2 → ∃ t, exec (.hrMapWrite h i w) s = .next t ∧ refused t) ∧
      (h ≠ 0 → sets = [k] → s.hrState h = 1 → i < 16 → s.mapEntry h v = none → b.testBit 7 = true →
        (s.setOwner (b % 128) ≠ some 0 → ∃ t : State, exec (.hrMapWrite h i w) s = .next t.rouse ∧ refused t) ∧
        (s.setOwner (b % 128) = some 0 → ∃ t, t = { s with regs := t.regs, homerooms := t.homerooms } ∧ s.regsBut t (· = .secHrMap h i) ∧
          t.mapEntry h v = some (b % 128) ∧ exec (.hrMapWrite h i w) s = .next (t.clearSet (b % 128)).rouse))) ∧
    (s.admits w.master wr = true →
      (h ≠ 0 → s.hrState h = 1 → ∃ t, exec (.hrWindowWrite h win map w) s = .next t ∧ t = { s with regs := t.regs } ∧ s.regsBut t (· = wr) ∧
        t.get wr = (s.written wr w).new) ∧
      (h = 0 ∨ s.hrState h ≠ 1 → ∃ t, exec (.hrWindowWrite h win map w) s = .next t ∧ refused t)) ∧
    (s.admits w.master .secDebug = true →
      (w.master ≠ .office ∨ auth = false ∨ (s.written .secDebug w).hit SEC_DEBUG_UNLOCK = false ∨ s.fuseField 1284 4 ≠ 5 →
        exec (.debugUnlock w auth) s = .next s) ∧
      (w.master = .office → auth = true → (s.written .secDebug w).hit SEC_DEBUG_UNLOCK = true → s.fuseField 1284 4 = 5 →
        ∃ t, exec (.debugUnlock w auth) s = .next t ∧ t.fget .secStatus SEC_STATUS_DEBUG_ON = 1 ∧
          ∀ g, 1 ≤ g → g ≤ 15 → t.hrState g = if s.hrActive g = true then 3 else s.hrState g)) ∧
    ∃ t, exec .rngHealthFail s = .next t ∧ t = { s with regs := t.regs } ∧ s.regsBut t (· = .secStatus) ∧ t.fget .secStatus SEC_STATUS_RNG_FAIL = 1

/-- R625, R641, R642, R655: an entry of the mirror map is refused where a set that it names is active or paired, and otherwise holds its sets back until
they are cleared; once they are, the held accesses proceed; a flip that would leave a valid code word, or that is aimed at a SEALED
homeroom's memory, is not armed. -/
def Obligations.MirrorsPairAndFlipsArm : Prop :=
  ∀ (s : State) (i k : Nat) (w : RegWrite), i < 16 → k < 8 →
    let x := s.written (.relMirror i) w
    let n := 8 * i + k
    let b := bitsOf x.new.toNat (8 * k) 8
    let old := s.mirrorByte n
    let sets := n :: ((if b.testBit 7 then [b % 128] else []) ++ (if old.testBit 7 then [old % 128] else []))
    let bad := (∃ m ∈ sets, s.setActive m = true) ∨ (b.testBit 7 = true ∧ (b % 128 = n ∨ (∃ m, s.mirrorSource (b % 128) = some m ∧ m ≠ n) ∨
      (s.mirrorOf (b % 128)).isSome = true ∨ (s.mirrorSource n).isSome = true))
    let y := s.written .relFlipSel w
    let forbidden := s.flipDiff = 0 ∨ s.hrState (s.flipOwner y.new) = 2
    (s.admits w.master (.relMirror i) = true → (∀ j < 8, j ≠ k → bitsOf x.new.toNat (8 * j) 8 = s.mirrorByte (8 * i + j)) →
      (b = old → exec (.mirrorWrite i w) s = .next s) ∧
      (b ≠ old → b.testBit 7 = false → old.testBit 7 = false → ∃ t, exec (.mirrorWrite i w) s = .next t ∧ t = { s with regs := t.regs } ∧
        s.regsBut t (· = .relMirror i) ∧ t.mirrorByte n = b) ∧
      (b ≠ old → b.testBit 7 = true ∨ old.testBit 7 = true →
        (bad → ∃ t, exec (.mirrorWrite i w) s = .next t ∧ t = { s with regs := t.regs } ∧ s.regsBut t (· = .relStatus) ∧
          t.fget .relStatus REL_STATUS_REFUSED = 1) ∧
        (¬ bad → ∃ t, exec (.mirrorWrite i w) s = .next t ∧ t = { s with regs := t.regs, clears := t.clears } ∧
          s.regsBut t (fun r => r = .relStatus ∨ r = .relMirror i) ∧ t.mirrorByte n = b ∧ t.fget .relStatus REL_STATUS_BUSY = 1 ∧
          ∀ m, m ∈ t.clears ↔ m ∈ s.clears ∨ m ∈ sets))) ∧
    (∃ t, t = { s with regs := t.regs, far := t.far, farChk := t.farChk, farEpoch := t.farEpoch, lines := t.lines, fills := t.fills,
                       fillWaits := t.fillWaits, farPorts := t.farPorts, heldAccess := t.heldAccess, clears := [] } ∧ s.regsBut t (· = .relStatus) ∧
      t.fget .relStatus REL_STATUS_BUSY = 0 ∧ (∀ e ∈ t.lines, setOf s.variant (e.1 * 256) ∉ s.clears) ∧
      exec .mirrorClearComplete s = .next t.releaseHeld.rouse) ∧
    (s.admits w.master .relFlipSel = true →
      (y.hit REL_FLIP_SEL_ARM = true → forbidden → ∃ t, exec (.flipArm w) s = .next t ∧ t = { s with regs := t.regs } ∧ s.regsBut t (· = .relFlipSel) ∧
        t.fget .relFlipSel REL_FLIP_SEL_ARM = 0 ∧ t.fget .relFlipSel REL_FLIP_SEL_REFUSED = 1) ∧
      (y.hit REL_FLIP_SEL_ARM = false ∨ ¬ forbidden → ∃ t, exec (.flipArm w) s = .next t ∧ t = { s with regs := t.regs } ∧
        s.regsBut t (· = .relFlipSel) ∧ t.get .relFlipSel = y.new))

/-! ### Commands of homerooms -/

/-- R584, R589 to R593, R595, R596, R601 to R606, R614: a homeroom command comes inside an established session of a homeroom of 1 to 15, and is answered
there with its status: INVALID, STATE, DENIED or DIGEST with no effect, or OK with its effect alone. The mailbox carries a request from
the host to a responder or an identity certificate to the part, and says how it ended. -/
def Obligations.HomeroomCommandsAnswer : Prop :=
  ∀ (s : State) (h kind v ring conf : Nat) (key digest salt : List Byte) (protect : Bool) (entries : List (Nat × Bool)) (w : RegWrite) (resp : MailboxReply),
    let ans := fun (code status : Nat) (rest : List Byte) (u : State) =>
      (.next { u with out := u.out ++ [.office 0x06 (leBytes 1 code ++ leBytes 1 status ++ rest)] } : Host.Outcome State Fault Refusal)
    let inSession := 1 ≤ h ∧ h ≤ 15 ∧ ∃ x ∈ s.sessions, x.owner = h ∧ x.established = true
    let active := s.hrState h = 1 ∨ s.hrState h = 2
    let withHr := fun (x : Homeroom) => ({ s with homerooms := smPut s.homerooms h x } : State)
    let keyed := fun (k : HrKeys) => withHr { s.hr h with keys := k }
    let bad := 3 < kind ∨ key.length ≠ 32 ∨ (kind = 0 ∧ s.mapEntry h v = none) ∨ (kind = 1 ∧ ∃ b ∈ key.drop 16, b ≠ 0#8)
    let m := s.written .secMboxCtl w
    let len := m.field SEC_MBOX_CTL_REQ_LEN
    let base := s.fget .secMboxAddr SEC_MBOX_ADDR_BASE * 4096
    let ended := fun (u : State) (result n : Nat) (t : State) => t = { u with regs := t.regs } ∧ s.regsBut t (· = .secMboxCtl) ∧
      t.fget .secMboxCtl SEC_MBOX_CTL_RESULT = result ∧ t.fget .secMboxCtl SEC_MBOX_CTL_RESP_LEN = n ∧
      t.fget .secMboxCtl SEC_MBOX_CTL_DONE = (if result = 0 then 1 else m.field SEC_MBOX_CTL_DONE)
    (¬ inSession → (∀ c ∈ [Instr.hrQuery h, .ringConf h ring conf, .ringQuery h ring, .saltSet h salt, .saltExport h, .fabricSet h protect entries,
        .tenantTeardown h], exec c s = .next s) ∧
      (h = 0 ∨ 15 < h ∨ s.hrState h ≠ 3 → exec (.keySet h kind v key) s = .next s ∧ exec (.sealHomeroom h digest) s = .next s)) ∧
    (1 ≤ h → h ≤ 15 → s.hrState h = 3 → exec (.keySet h kind v key) s = ans 0x02 0x02 [] s ∧ exec (.sealHomeroom h digest) s = ans 0x03 0x02 [] s) ∧
    (inSession →
      (active → exec (.hrQuery h) s = ans 0x01 0x00 (s.configRecord h ++ s.configDigest h) s) ∧
      (¬ active → exec (.hrQuery h) s = ans 0x01 0x02 [] s ∧ exec (.tenantTeardown h) s = ans 0x09 0x02 [] s) ∧
      (bad → s.hrState h ≠ 3 → exec (.keySet h kind v key) s = ans 0x02 0x01 [] s) ∧
      (¬ bad → ¬ active → exec (.keySet h kind v key) s = ans 0x02 0x02 [] s) ∧
      (¬ bad → active →
        (kind = 0 → ∃ n, s.mapEntry h v = some n ∧ exec (.keySet h kind v key) s = ans 0x02 0x00 []
          (let u := s.clearSet n
           (u.setHr h { u.hr h with keys := { (u.hr h).keys with region := smPut (u.hr h).keys.region v key } }).rouse)) ∧
        (kind = 1 → exec (.keySet h kind v key) s = ans 0x02 0x00 [] (keyed { (s.hr h).keys with command := some (key.take 16) }).rouse) ∧
        (kind = 2 → exec (.keySet h kind v key) s = ans 0x02 0x00 [] (keyed { (s.hr h).keys with transport := some (key.take 16) }).rouse) ∧
        (kind = 3 → exec (.keySet h kind v key) s = ans 0x02 0x00 [] (keyed { (s.hr h).keys with fabric := some (key.take 16) }).rouse)) ∧
      (digest.length ≠ 32 → s.hrState h ≠ 3 → exec (.sealHomeroom h digest) s = ans 0x03 0x01 [] s) ∧
      (digest.length = 32 →
        (s.hrState h ≠ 1 → exec (.sealHomeroom h digest) s = ans 0x03 0x02 [] s) ∧
        (s.hrState h = 1 → s.fget .secStatus SEC_STATUS_RNG_FAIL = 1 ∨ s.fuseField 1284 4 = 0 ∨ s.fget .secStatus SEC_STATUS_DEBUG_ON = 1 →
          exec (.sealHomeroom h digest) s = ans 0x03 0x03 [] s) ∧
        (s.hrState h = 1 → s.fget .secStatus SEC_STATUS_RNG_FAIL = 0 → s.fuseField 1284 4 ≠ 0 → s.fget .secStatus SEC_STATUS_DEBUG_ON = 0 →
          (digest ≠ s.configDigest h → exec (.sealHomeroom h digest) s = ans 0x03 0x04 [] s) ∧
          (digest = s.configDigest h → ∃ t x, exec (.sealHomeroom h digest) s = ans 0x03 0x00 [] t ∧
            t = { s with regs := t.regs, homerooms := smPut s.homerooms h x, rings := t.rings, draws := t.draws } ∧ s.regsBut t (· = .secHrCtl h) ∧
            t.hrState h = 2 ∧ x.keys = (s.hr h).keys ∧ x.salt.isSome = true ∧ x.egress = List.replicate 8 (2 ^ 63) ∧
            ((s.hr h).salt.isSome = true → x.salt = (s.hr h).salt) ∧ ∀ n < 64, s.funcHr (s.ringFunc n) = h → (t.sq n).epoch = 0))) ∧
      (64 ≤ ring → exec (.ringConf h ring conf) s = ans 0x04 0x01 [] s ∧ exec (.ringQuery h ring) s = ans 0x05 0x01 [] s) ∧
      (ring < 64 → s.hrState h ≠ 2 → exec (.ringConf h ring conf) s = ans 0x04 0x02 [] s ∧ exec (.ringQuery h ring) s = ans 0x05 0x02 [] s) ∧
      (ring < 64 → s.hrState h = 2 →
        (s.funcHr (s.ringFunc ring) ≠ h → exec (.ringConf h ring conf) s = ans 0x04 0x03 [] s ∧ exec (.ringQuery h ring) s = ans 0x05 0x03 [] s) ∧
        (s.funcHr (s.ringFunc ring) = h →
          exec (.ringQuery h ring) s = ans 0x05 0x00 (leBytes 4 (s.sq ring).epoch ++ leBytes 4 (s.fget (.ringSeq ring) RING_SEQ_NEXT)) s ∧
          (s.ringState ring ≠ 0 ∨ (s.hr h).keys.command = none → exec (.ringConf h ring conf) s = ans 0x04 0x02 [] s) ∧
          (s.ringState ring = 0 → (s.hr h).keys.command ≠ none → ∃ t, exec (.ringConf h ring conf) s = ans 0x04 0x00 [] t ∧ t = { s with regs := t.regs } ∧
            s.regsBut t (· = .ringCfg ring) ∧ t.fget (.ringCfg ring) RING_CFG_CONF = conf % 2))) ∧
      (salt.length ≠ 16 → exec (.saltSet h salt) s = ans 0x06 0x01 [] s) ∧
      (salt.length = 16 → ¬ active ∨ s.treesOpen h = true → exec (.saltSet h salt) s = ans 0x06 0x02 [] s) ∧
      (salt.length = 16 → active → s.treesOpen h = false → exec (.saltSet h salt) s = ans 0x06 0x00 [] (withHr { s.hr h with salt := some salt })) ∧
      (s.hrState h ≠ 2 → exec (.saltExport h) s = ans 0x07 0x02 [] s) ∧
      (s.hrState h = 2 → s.fuseBit 1293 = false → exec (.saltExport h) s = ans 0x07 0x03 [] s) ∧
      (s.hrState h = 2 → s.fuseBit 1293 = true → ∀ x, (s.hr h).salt = some x → exec (.saltExport h) s = ans 0x07 0x00 x s) ∧
      (16 < entries.length → exec (.fabricSet h protect entries) s = ans 0x08 0x01 [] s) ∧
      (entries.length ≤ 16 → s.hrState h ≠ 2 → exec (.fabricSet h protect entries) s = ans 0x08 0x02 [] s) ∧
      (entries.length ≤ 16 → s.hrState h = 2 → exec (.fabricSet h protect entries) s = ans 0x08 0x00 [] (withHr { s.hr h with
        fabricSet := entries.map fun e => (e.1 % 2 ^ 12, e.2), fabricSeen := true, protect := protect })) ∧
      (active → ∃ t : State, exec (.tenantTeardown h) s = .next t.rouse ∧ t.hrState h = 3 ∧ (∀ x ∈ t.sessions, x.owner ≠ h) ∧
        (t.hr h).keys.command = none ∧ Output.office 0x06 (leBytes 1 0x09 ++ leBytes 1 0x00) ∈ t.out)) ∧
    (s.admits w.master .secMboxCtl = true →
      (m.hit SEC_MBOX_CTL_GO = false → ∃ t, exec (.mailboxGo w resp) s = .next t ∧ t = { s with regs := t.regs } ∧ s.regsBut t (· = .secMboxCtl) ∧
        t.get .secMboxCtl = m.new) ∧
      (m.hit SEC_MBOX_CTL_GO = true →
        (len = 0 ∨ 4096 < len → ∃ t, exec (.mailboxGo w resp) s = .next t ∧ ended s 1 0 t) ∧
        (1 ≤ len → len ≤ 4096 →
          (s.hostRead base len = none → ∃ t, exec (.mailboxGo w resp) s = .next t ∧ ended s 2 0 t) ∧
          (∀ req, s.hostRead base len = some req →
            (m.field SEC_MBOX_CTL_KIND = 1 → Config.certificateKey req = pubBytes s.idKey → ∃ t, exec (.mailboxGo w resp) s = .next t ∧
              ended { s with idCert := some req } 0 0 t) ∧
            (m.field SEC_MBOX_CTL_KIND = 1 → Config.certificateKey req ≠ pubBytes s.idKey → ∃ t, exec (.mailboxGo w resp) s = .next t ∧ ended s 3 0 t) ∧
            (m.field SEC_MBOX_CTL_KIND = 0 → m.field SEC_MBOX_CTL_HR = 0 ∨ (req.headD 0#8 ≠ 0x05#8 ∧ req.headD 0#8 ≠ 0x06#8) →
              ∃ t, exec (.mailboxGo w resp) s = .next t ∧ ended s 3 0 t) ∧
            (m.field SEC_MBOX_CTL_KIND = 0 → m.field SEC_MBOX_CTL_HR ≠ 0 → req.headD 0#8 = 0x05#8 ∨ req.headD 0#8 = 0x06#8 →
              ∃ t, exec (.mailboxGo w resp) s = .next t ∧ ended (s.hostWrite base (resp.bytes.take 4096)) 0 (min 4096 resp.bytes.length) t)))))

/-! ### Bring-up and reset domains -/

/-- R656 to R679, R682, R683, R573, R579: a step is refused out of its phase or while another runs; IMAGE verifies the image that the host has delivered, TRAIN trains
every die that is up, ROLLCALL merges the list, READY begins to release the part; when a step ends the part enters the phase that it
leads to; EXPORT writes the record again and COLD with its key starts afresh. While I/O die 0 waits for its image, IMAGE brings the
running one to it. -/
def Obligations.BringUpStepsRun : Prop :=
  ∀ (s : State) (w : RegWrite) (findings : List Finding) (cmd : Instr),
    cmd ∈ [Instr.bootImage w, .bootTrain w findings, .rollCall w findings, .bootReady w, .exportRecord w, .coldRestart w] →
    let x := s.written .bootCtl w
    let step := fldGet x.ones BOOT_CTL_STEP
    let idle := s.boot.step = 0
    let fs := if cmd = .bootTrain w findings ∨ cmd = .rollCall w findings then findings else []
    let found := foundDefects s.variant fs
    let len := s.fget .bootImgLen BOOT_IMG_LEN_BYTES
    let begun := fun (t : State) => t.boot.step = step ∧ t.fget .bootStatus BOOT_STATUS_BUSY = 1 ∧ t.phase = s.phase
    let ahead := fun (n : Nat) (t : State) => (t.boot.next = n ∧ t.boot.result = 0) ∨ (t.boot.next = 6 ∧ t.boot.result = 3)
    (s.admits w.master .bootCtl = true →
      (x.hit BOOT_CTL_EXPORT = false ∨ s.phase ≠ 4 → x.hit BOOT_CTL_COLD = false →
        (step = 0 → exec cmd s = .next s) ∧
        (step ≠ 0 → ¬ (idle ∧ s.phase ∈ stepPhases step) → step ≠ 1 ∨ s.boot.awaiting = false ∨ s.image.holder = some false →
          ∃ t, exec cmd s = .next t ∧ t = { s with regs := t.regs } ∧ s.regsBut t (· = .bootStatus) ∧ t.fget .bootStatus BOOT_STATUS_RESULT = 1) ∧
        (step = 1 → s.boot.awaiting = false → idle → s.phase = 0 ∨ s.phase = 5 → ∃ t, exec cmd s = .next t ∧
          t = { s with regs := t.regs, boot := t.boot, image := { s.image with holder := none } } ∧
          s.regsBut t (fun r => r = .secStatus ∨ r = .bootStatus) ∧ begun t ∧ t.fget .secStatus SEC_STATUS_BOOT = 1 ∧
          t.fget .secStatus SEC_STATUS_BOOT_CAUSE = s.imageCause len ∧
          (s.imageCause len = 0 → t.boot.next = 1 ∧ t.boot.result = 0 ∧ t.boot.image = some (s.imageInfo len)) ∧
          (s.imageCause len ≠ 0 → t.boot.next = 5 ∧ t.boot.result = 2 ∧ t.boot.image = s.boot.image)) ∧
        (step = 1 → s.boot.awaiting = true → s.image.holder ≠ some false → (smGet ⟨0, 0⟩ s.domains 4).queued = 0 → ∃ t, exec cmd s = .next t ∧
          t.boot.awaiting = false ∧ t.image.holder = none ∧
          if s.imageCause len = 0 ∧ some (s.imageDigest len) = s.boot.image.map ImageInfo.digest then
            t.domainState 4 = 0 ∧ t.fget .hostStatus HOST_STATUS_REG_STATE = 1
          else t.domainState 4 = 2) ∧
        (step = 2 → idle → s.phase = 1 → ∃ t, exec cmd s = .next t ∧ begun t ∧ t.boot.found = found ∧ ahead 2 t ∧ t.boot.image = s.boot.image ∧
          (found = [] → ∀ f, farPresent s.variant f = true → diePresent s.variant (f / 3) = true → s.domainState (f / 3) = 0 → f / 3 < 8 →
            t.fget (.farStatus f) FAR_STATUS_TRAINED = 1)) ∧
        (step = 3 → idle → s.phase = 2 → ∃ t, exec cmd s = .next t ∧ begun t ∧ ahead 3 t ∧
          t.fget .bootStatus BOOT_STATUS_REC_RESULT = s.handedRecord.1 ∧ t.boot.image = s.boot.image ∧
          (s.defects.length + s.factory.length ≤ 512 → ∀ d ∈ s.factory, ∃ e ∈ t.defects, defectKey e = defectKey d) ∧
          (s.defects = [] → (∀ d ∈ s.factory, defectValid d = true) → ∀ d ∈ s.factory, d.kind = 1 → t.coreState (d.unit % 256) = 2 ∧
            fldGet (t.view (.coreStatus (d.unit % 256))) CORE_STATUS_DEFECT = 1)) ∧
        (step = 4 → idle → s.phase = 3 → ∃ t, exec cmd s = .next t ∧ t = { s with regs := t.regs, boot := { s.boot with step := 4, result := 0 } } ∧
          s.regsBut t (· = .bootStatus) ∧ begun t)) ∧
      (step = 0 → x.hit BOOT_CTL_COLD = false → x.hit BOOT_CTL_EXPORT = true → s.phase = 4 →
        (s.hostLink = true → ∃ t sig, exec cmd s = .next t ∧ t = { s with regs := t.regs, host := t.host, draws := t.draws } ∧
          t.host = memWrite s.host (s.fget .bootExportBase BOOT_REC_BASE_BASE * 4096) (s.recordBody ++ sig) ∧
          s.regsBut t (· = .bootStatus) ∧ t.fget .bootStatus BOOT_STATUS_RESULT = 0) ∧
        (s.hostLink = false → ∃ t, exec cmd s = .next t ∧ t = { s with regs := t.regs, draws := t.draws } ∧ s.regsBut t (· = .bootStatus) ∧
          t.fget .bootStatus BOOT_STATUS_RESULT = 4)) ∧
      (step = 0 → x.hit BOOT_CTL_EXPORT = false → x.hit BOOT_CTL_COLD = true → s.power.mainOn = true →
        (fldGet x.ones BOOT_CTL_KEY ≠ 0xC5 → exec cmd s = .next s) ∧
        (fldGet x.ones BOOT_CTL_KEY = 0xC5 → ∃ t, exec cmd s = .next t ∧ t.phase = 0 ∧ t.boot = .init ∧
          t.far = [] ∧ t.slice = [] ∧ t.desk = [] ∧ t.cores = [] ∧ t.rings = [] ∧
          (s.fabWaits = [] → t.power.boots = (s.power.boots + 1) % 2 ^ 32 ∧ t.fuses = s.fuses ∧ t.shutdowns = s.shutdowns)))) ∧
    (idle → exec .bootStepComplete s = .next s) ∧
    (s.boot.step = 1 ∨ s.boot.step = 2 ∨ s.boot.step = 3 → s.boot.next < 8 → s.boot.result < 16 → ∃ t, exec .bootStepComplete s = .next t ∧
      t = { s with regs := t.regs, boot := { s.boot with step := 0 } } ∧ s.regsBut t (fun r => r = .bootStatus ∨ (s.boot.step = 1 ∧ r = .secStatus)) ∧
      t.phase = s.boot.next ∧ t.fget .bootStatus BOOT_STATUS_BUSY = 0 ∧ t.fget .bootStatus BOOT_STATUS_RESULT = s.boot.result ∧
      (s.boot.step = 1 → t.fget .secStatus SEC_STATUS_BOOT = if s.boot.next = 1 then 2 else 3)) ∧
    (s.boot.step = 4 → ∃ t, exec .bootStepComplete s = .next t ∧ t.boot.step = 0 ∧ t.phase = 4 ∧ t.fget .bootStatus BOOT_STATUS_BUSY = 0 ∧
      t.fget .bootStatus BOOT_STATUS_GRADE_VALID = 1 ∧ t.fget .hostStatus HOST_STATUS_REG_STATE = 1 ∧
      (∀ c < 256, s.coreState c = 0 → s.dieUp (c / 64) = true → t.coreState c = 0 ∧ t.fget (.nearStatus c) NEAR_STATUS_STATE = 2) ∧
      ∀ i, s.boot.image = some i → (i.floor ≤ 256 → t.rollback = max s.rollback i.floor) ∧
        ∀ k < 3, i.revoke.testBit k = true → k ≠ i.slot → t.fuseBit (1280 + k) = true)

/-- R674 to R678, R681, R686: an action on a reset domain begins at once, or waits behind the one that runs; of domain 4 only the office's is
taken; a domain that has gone down is down, and one that has come up is up, I/O die 0 waiting for its image first. -/
def Obligations.DomainsGoDownAndComeUp : Prop :=
  ∀ (s : State) (w : RegWrite) (findings : List Finding) (cmd : Instr) (d : Nat), cmd ∈ [Instr.domainDown w, .domainUp w] →
    let r := Reg.bootDomain w.master.copy
    let x := s.written r w
    let sel := x.field BOOT_DOMAIN_SEL
    let act := fldGet x.ones BOOT_DOMAIN_ACTION
    let acts := act = 1 ∨ act = 2
    let taken := sel = 4 → w.master = .office
    (s.admits w.master r = true →
      (acts → ¬ taken → ∃ t, exec cmd s = .next t ∧ t = { s with regs := t.regs } ∧ s.regsBut t (· = .officeCtl) ∧
        t.fget .officeCtl OFFICE_CTL_BLOCKED = min (s.fget .officeCtl OFFICE_CTL_BLOCKED + 1) (2 ^ OFFICE_CTL_BLOCKED.width - 1)) ∧
      (¬ acts ∨ (taken ∧ diePresent s.variant sel = false) ∨ (taken ∧ smFind s.domains sel = none ∧ (act = 1 → s.domainState sel ≠ 0) ∧
          (act = 2 → s.domainState sel ≠ 2)) → ∃ t, exec cmd s = .next t ∧ t = { s with regs := t.regs } ∧ s.regsBut t (· = r) ∧ t.get r = x.new) ∧
      (acts → taken → diePresent s.variant sel = true →
        (smFind s.domains sel = none → (act = 1 ∧ s.domainState sel = 0) ∨ (act = 2 ∧ s.domainState sel = 2) → ∃ t, exec cmd s = .next t ∧
          t.domainState sel = (if act = 1 then 1 else 3) ∧ t.domains = smPut s.domains sel ⟨act, 0⟩ ∧
          (s.fabWaits = [] → t.cores = s.cores ∧ t.far = s.far ∧ t.slice = s.slice ∧ t.desk = s.desk)) ∧
        (∀ a, smFind s.domains sel = some a → ∃ t, exec cmd s = .next t ∧ t.domainState sel = 4 ∧
          t.domains = smPut s.domains sel { a with queued := act } ∧ t.cores = s.cores ∧ t.far = s.far ∧ t.slice = s.slice ∧ t.desk = s.desk))) ∧
    (smFind s.domains d = none → exec (.domainActionComplete d findings) s = .next s) ∧
    (∀ a, smFind s.domains d = some a → a.queued = 0 →
      (d = 4 → s.boot.awaiting = true → exec (.domainActionComplete d findings) s = .next s) ∧
      (d ≠ 4 ∨ s.boot.awaiting = false →
        (a.running = 1 → exec (.domainActionComplete d findings) s = .next { s.dieDown d true with domains := smDel s.domains d } ∧
          (4 ≤ d → d < 8 → diePresent s.variant d = true → s.domainState d ≠ 2 → s.fabReqs = [] →
            (∀ k < 4, (s.pail k).syncs = [] ∧ (s.pail k).parts = []) → ∃ t : State, s.dieDown d true = t.rouse ∧ t.domainState d = 2)) ∧
        (a.running = 2 → exec (.domainActionComplete d findings) s = .next (s.bringUp d findings) ∧
          (d = 4 → (s.bringUp d findings).boot.awaiting = true) ∧ (4 < d → d < 8 → (s.bringUp d findings).domainState d = 0))))
end

