-- ==== Sys2Proof/Laws/Bytes.lean ====
section
/-! SUPPORT. Bytes and numbers, and the flits of the links: a flit that is sent is whole. -/

namespace Sys2Proof.Machine

@[simp] theorem leBytes_length (n v : Nat) : (leBytes n v).length = n := by
  induction n generalizing v with
  | zero => rfl
  | succ n ih => simp [leBytes, ih]

/-- The number that the low n bytes of a number spell. -/
theorem leNat_leBytes (n v : Nat) : leNat (leBytes n v) = v % 256 ^ n := by
  induction n generalizing v with
  | zero => simp [leBytes, leNat, Nat.mod_one]
  | succ n ih => simp only [leBytes, leNat, ih, BitVec.toNat_ofNat, Nat.reducePow]; rw [pow_succ', Nat.mod_mul]

theorem crc32cByte_lt (crc : Nat) (b : Byte) (h : crc < 2 ^ 32) : crc32cByte crc b < 2 ^ 32 := by
  have step : ∀ (l : List Nat) (c : Nat), c < 2 ^ 32 →
      l.foldl (fun c _ => if c % 2 = 1 then (c / 2) ^^^ 0x82F63B78 else c / 2) c < 2 ^ 32 := by
    intro l
    induction l with
    | nil => exact fun c h => h
    | cons x l ih =>
      intro c h
      refine ih _ ?_
      dsimp only
      split
      · exact Nat.xor_lt_two_pow (by omega) (by decide)
      · omega
  exact step _ _ (Nat.xor_lt_two_pow h (lt_trans b.isLt (by decide)))

/-- A CRC has 32 bits. -/
theorem crc32c_lt (bs : List Byte) : crc32c bs < 2 ^ 32 := by
  have step : ∀ (l : List Byte) (c : Nat), c < 2 ^ 32 → l.foldl crc32cByte c < 2 ^ 32 := by
    intro l
    induction l with
    | nil => exact fun c h => h
    | cons x l ih => exact fun c h => ih _ (crc32cByte_lt c x h)
  exact Nat.xor_lt_two_pow (step bs _ (by decide)) (by decide)

/-- A fabric flit has 640 bytes, carries its number and is whole (R410). -/
theorem linkFlit_whole (seq ack : Nat) (content : List Byte) (h : content.length ≤ 632) :
    (linkFlit seq ack content).length = 640 ∧ bitsOf (leNat ((linkFlit seq ack content).take 2)) 0 12 = seq % 4096 ∧
      leNat ((linkFlit seq ack content).drop 636) = crc32c ((linkFlit seq ack content).take 636) := by
  have hb : (leBytes 2 (seq % 4096) ++ leBytes 2 (ack % 4096) ++ content ++ List.replicate (632 - content.length) (0#8)).length = 636 := by
    simp; omega
  have hc := crc32c_lt (leBytes 2 (seq % 4096) ++ leBytes 2 (ack % 4096) ++ content ++ List.replicate (632 - content.length) 0#8)
  refine ⟨?_, ?_, ?_⟩
  · simp only [linkFlit, List.length_append, hb, leBytes_length]
  · rw [linkFlit, List.append_assoc, List.append_assoc, List.append_assoc, List.take_left' (leBytes_length 2 _), leNat_leBytes]
    simp only [bitsOf]
    omega
  · simp only [linkFlit]
    rw [List.drop_left' hb, List.take_left' hb, leNat_leBytes, Nat.mod_eq_of_lt (by simpa using hc)]

/-- A die-to-die flit has 256 bytes, carries its number and is whole (R377). -/
theorem dieFlit_whole (seq ack : Nat) (content : List Byte) (h : content.length ≤ 250) :
    (dieFlit seq ack content).length = 256 ∧ ((dieFlit seq ack content).getD 0 0#8).toNat = seq % 256 ∧
      leNat ((dieFlit seq ack content).drop 252) = crc32c ((dieFlit seq ack content).take 252) := by
  have hb : (leBytes 1 seq ++ leBytes 1 ack ++ content ++ List.replicate (250 - content.length) (0#8)).length = 252 := by
    simp; omega
  have hc := crc32c_lt (leBytes 1 seq ++ leBytes 1 ack ++ content ++ List.replicate (250 - content.length) 0#8)
  refine ⟨?_, ?_, ?_⟩
  · simp only [dieFlit, List.length_append, hb, leBytes_length]
  · simp [dieFlit, leBytes]
  · simp only [dieFlit]
    rw [List.drop_left' hb, List.take_left' hb, leNat_leBytes, Nat.mod_eq_of_lt (by simpa using hc)]

end Sys2Proof.Machine
end

