-- ==== Sys2Proof/Laws/Fields.lean ====
section
/-! SUPPORT. Bit fields and registers: what a field and a register read after a write of one. -/

namespace Sys2Proof.Machine

/-! ### Bit fields -/

theorem testBit_bitsOf (w lo n i : Nat) : (bitsOf w lo n).testBit i = (decide (i < n) && w.testBit (lo + i)) := by
  simp [bitsOf, Nat.testBit_mod_two_pow, Nat.testBit_shiftRight]

theorem bitsOf_lt (w lo n : Nat) : bitsOf w lo n < 2 ^ n := Nat.mod_lt _ (by positivity)

theorem fldGet_lt (w : W64) (f : Fld) : fldGet w f < 2 ^ f.width := bitsOf_lt _ _ _

theorem testBit_fldMask (f : Fld) (i : Nat) : (fldMask f).toNat.testBit i = (decide (i < 64) && decide (f.lo ≤ i) && decide (i - f.lo < f.width)) := by
  have h : (fldMask f).toNat = ((2 ^ f.width - 1) <<< f.lo) % 2 ^ 64 := by simp [fldMask]
  rw [h, Nat.testBit_mod_two_pow, Nat.testBit_shiftLeft, Nat.testBit_two_pow_sub_one, Bool.and_assoc]

theorem testBit_fldSet (w : W64) (f : Fld) (v i : Nat) (hi : i < 64) :
    (fldSet w f v).toNat.testBit i = if f.lo ≤ i ∧ i < f.lo + f.width then v.testBit (i - f.lo) else w.toNat.testBit i := by
  have h1 : (fldSet w f v).toNat.testBit i = (fldSet w f v).getLsbD i := rfl
  have h2 : w.toNat.testBit i = w.getLsbD i := rfl
  have h3 : (fldMask f).getLsbD i = (decide (i < 64) && decide (f.lo ≤ i) && decide (i - f.lo < f.width)) := testBit_fldMask f i
  rw [h1, h2]
  simp only [fldSet, BitVec.getLsbD_or, BitVec.getLsbD_and, BitVec.getLsbD_not, BitVec.getLsbD_ofNat, h3, Nat.testBit_shiftLeft,
    Nat.testBit_mod_two_pow, hi, decide_true, Bool.true_and]
  by_cases ha : f.lo ≤ i
  · by_cases hb : i - f.lo < f.width
    · have : i < f.lo + f.width := by omega
      simp [ha, hb, this]
    · have : ¬ i < f.lo + f.width := by omega
      simp [ha, hb, this]
  · simp [ha]

/-- A field that has just been set reads as it was set, to its width. -/
theorem fldGet_fldSet_same (w : W64) (f : Fld) (v : Nat) (h : f.lo + f.width ≤ 64) : fldGet (fldSet w f v) f = v % 2 ^ f.width := by
  apply Nat.eq_of_testBit_eq
  intro i
  rw [fldGet, testBit_bitsOf, Nat.testBit_mod_two_pow]
  by_cases hi : i < f.width
  · rw [testBit_fldSet w f v (f.lo + i) (by omega)]
    have h1 : f.lo ≤ f.lo + i ∧ f.lo + i < f.lo + f.width := by omega
    simp [hi]
  · simp [hi]

/-- Setting a field leaves every field that shares no bit with it. -/
theorem fldGet_fldSet_ne (w : W64) (f g : Fld) (v : Nat) (hg : g.lo + g.width ≤ 64) (h : g.lo + g.width ≤ f.lo ∨ f.lo + f.width ≤ g.lo) :
    fldGet (fldSet w f v) g = fldGet w g := by
  apply Nat.eq_of_testBit_eq
  intro i
  rw [fldGet, fldGet, testBit_bitsOf, testBit_bitsOf]
  by_cases hi : i < g.width
  · rw [testBit_fldSet w f v (g.lo + i) (by omega)]
    have h1 : ¬ (f.lo ≤ g.lo + i ∧ g.lo + i < f.lo + f.width) := by omega
    rw [if_neg h1]
  · simp [hi]

/-! ### Registers -/

theorem regFind_regSet_same (l : List (Reg × W64)) (r : Reg) (v : W64) : regFind (regSet l r v) r = some v := by
  induction l with
  | nil => simp [regSet, regFind]
  | cons e l ih =>
    obtain ⟨k, w⟩ := e
    unfold regSet
    split
    · simp [regFind]
    · next h => simp [regFind, h, ih]

theorem regFind_regSet_ne (l : List (Reg × W64)) {r q : Reg} (v : W64) (h : q ≠ r) : regFind (regSet l r v) q = regFind l q := by
  induction l with
  | nil => simp [regSet, regFind, h.symm]
  | cons e l ih =>
    obtain ⟨k, w⟩ := e
    unfold regSet
    split
    · next hk => subst hk; simp [regFind, h.symm]
    · simp only [regFind, ih]

/-- A register that has just been put holds what was put. -/
@[simp] theorem State.get_put_same (s : State) (r : Reg) (v : W64) : (s.put r v).get r = v := by
  simp [State.get, State.put, regFind_regSet_same]

/-- Reset values are those of the part, which no register changes. -/
@[simp] theorem State.resetOf_put (s : State) (r q : Reg) (v : W64) : (s.put r v).resetOf q = s.resetOf q := rfl

/-- Putting a register leaves every other register. -/
theorem State.get_put_ne (s : State) {r q : Reg} (v : W64) (h : q ≠ r) : (s.put r v).get q = s.get q := by
  rw [State.get, State.resetOf_put, State.get]
  simp [State.put, regFind_regSet_ne _ v h]

/-- A field that has just been put reads as it was put, to its width. -/
theorem State.fget_fput_same (s : State) (r : Reg) (f : Fld) (v : Nat) (h : f.lo + f.width ≤ 64) : (s.fput r f v).fget r f = v % 2 ^ f.width := by
  simp [State.fget, State.fput, fldGet_fldSet_same _ _ _ h]

/-- Putting a field of a register leaves every field that shares no bit with it. -/
theorem State.fget_fput_field (s : State) (r : Reg) (f g : Fld) (v : Nat) (hg : g.lo + g.width ≤ 64)
    (h : g.lo + g.width ≤ f.lo ∨ f.lo + f.width ≤ g.lo) : (s.fput r f v).fget r g = s.fget r g := by
  simp [State.fget, State.fput, fldGet_fldSet_ne _ _ _ _ hg h]

/-- Putting a field of a register leaves every other register. -/
theorem State.get_fput_ne (s : State) {r q : Reg} (f : Fld) (v : Nat) (h : q ≠ r) : (s.fput r f v).get q = s.get q := s.get_put_ne _ h

theorem State.fget_fput_ne (s : State) {r q : Reg} (f g : Fld) (v : Nat) (h : q ≠ r) : (s.fput r f v).fget q g = s.fget q g := by
  simp [State.fget, s.get_fput_ne f v h]

end Sys2Proof.Machine
end

