-- ==== Sys2Proof/Laws/Sparse.lean ====
section
/-! SUPPORT. Sparse maps and byte memories: what is read after a write, and that every operation keeps the canonical form. -/

namespace Sys2Proof.Machine

variable {α : Type}

/-! ### Finding after an update -/

@[simp] theorem smFind_smPut_same (m : SMap α) (i : Nat) (v : α) : smFind (smPut m i v) i = some v := by
  induction m with
  | nil => simp [smPut, smFind]
  | cons e r ih =>
    obtain ⟨k, w⟩ := e
    unfold smPut
    split
    · simp [smFind]
    · split
      · simp [smFind]
      · simp_all [smFind]

theorem smFind_smPut_ne (m : SMap α) {i j : Nat} (v : α) (h : j ≠ i) : smFind (smPut m i v) j = smFind m j := by
  induction m with
  | nil => simp [smPut, smFind, h]
  | cons e r ih =>
    obtain ⟨k, w⟩ := e
    simp only [smPut]
    split <;> try split
    all_goals simp only [smFind]; grind

@[simp] theorem smGet_smPut_same (d : α) (m : SMap α) (i : Nat) (v : α) : smGet d (smPut m i v) i = v := by simp [smGet]

theorem smGet_smPut_ne (d : α) (m : SMap α) {i j : Nat} (v : α) (h : j ≠ i) : smGet d (smPut m i v) j = smGet d m j := by
  simp [smGet, smFind_smPut_ne m v h]

theorem smGet_smPut (d : α) (m : SMap α) (i j : Nat) (v : α) : smGet d (smPut m i v) j = if j = i then v else smGet d m j := by
  split
  · next h => subst h; simp
  · next h => exact smGet_smPut_ne d m v h

/-! ### Sorted keys -/

/-- Every key lies above a bound. -/
def smAbove (lo : Option Nat) (k : Nat) : Prop := ∀ b, lo = some b → b < k

theorem smSorted_cons (lo : Option Nat) (e : Nat × α) (r : SMap α) : smSorted lo (e :: r) = true ↔ smAbove lo e.1 ∧ smSorted (some e.1) r = true := by
  obtain ⟨k, v⟩ := e
  cases lo <;> simp [smSorted, smAbove]

theorem smSorted_weaken {lo : Option Nat} {k : Nat} (m : SMap α) (h : smAbove lo k) (hm : smSorted (some k) m = true) : smSorted lo m = true := by
  cases m with
  | nil => cases lo <;> rfl
  | cons e r =>
    rw [smSorted_cons] at hm ⊢
    refine ⟨fun b hb => ?_, hm.2⟩
    have h1 := h b hb
    have h2 := hm.1 k rfl
    omega

theorem smSorted_smPut (lo : Option Nat) (m : SMap α) (i : Nat) (v : α) (h : smSorted lo m = true) (hi : smAbove lo i) : smSorted lo (smPut m i v) = true := by
  induction m generalizing lo with
  | nil => rw [smPut, smSorted_cons]; exact ⟨hi, rfl⟩
  | cons e r ih =>
    obtain ⟨k, w⟩ := e
    have hc := (smSorted_cons lo (k, w) r).1 h
    unfold smPut
    split
    · next he => subst he; rw [smSorted_cons]; exact ⟨hi, hc.2⟩
    · split
      · next hlt =>
        rw [smSorted_cons]
        refine ⟨hi, ?_⟩
        rw [smSorted_cons]
        exact ⟨fun b hb => by cases hb; exact hlt, hc.2⟩
      · next hne hnlt =>
        rw [smSorted_cons]
        exact ⟨hc.1, ih (some k) hc.2 (fun b hb => by cases hb; omega)⟩

theorem smSorted_smDel (lo : Option Nat) (m : SMap α) (i : Nat) (h : smSorted lo m = true) : smSorted lo (smDel m i) = true := by
  induction m generalizing lo with
  | nil => exact h
  | cons e r ih =>
    obtain ⟨k, w⟩ := e
    have hc := (smSorted_cons lo (k, w) r).1 h
    unfold smDel
    split
    · exact smSorted_weaken r hc.1 hc.2
    · split
      · exact h
      · rw [smSorted_cons]; exact ⟨hc.1, ih (some k) hc.2⟩

theorem smSorted_filter (lo : Option Nat) (m : SMap α) (p : Nat × α → Bool) (h : smSorted lo m = true) : smSorted lo (m.filter p) = true := by
  induction m generalizing lo with
  | nil => exact h
  | cons e r ih =>
    have hc := (smSorted_cons lo e r).1 h
    rw [List.filter_cons]
    split
    · rw [smSorted_cons]; exact ⟨hc.1, ih (some e.1) hc.2⟩
    · exact smSorted_weaken _ hc.1 (ih (some e.1) hc.2)

/-- Nothing at or below its bound is found in a sorted map. -/
theorem smFind_of_sorted (m : SMap α) (i : Nat) (h : smSorted (some i) m = true) : smFind m i = none := by
  cases m with
  | nil => rfl
  | cons e r =>
    obtain ⟨k, w⟩ := e
    have hk := ((smSorted_cons (some i) (k, w) r).1 h).1 i rfl
    simp only at hk
    have h1 : ¬ i = k := by omega
    simp [smFind, h1, hk]

theorem smFind_smDel_same (lo : Option Nat) (m : SMap α) (i : Nat) (h : smSorted lo m = true) : smFind (smDel m i) i = none := by
  induction m generalizing lo with
  | nil => rfl
  | cons e r ih =>
    obtain ⟨k, w⟩ := e
    have hc := (smSorted_cons lo (k, w) r).1 h
    unfold smDel
    split
    · next he => subst he; exact smFind_of_sorted r i hc.2
    · next hne =>
      split
      · next hlt => simp [smFind, hne, hlt]
      · next hnlt => simp [smFind, hne, hnlt, ih (some k) hc.2]

theorem smFind_smDel_ne (lo : Option Nat) (m : SMap α) {i j : Nat} (h : smSorted lo m = true) (hj : j ≠ i) : smFind (smDel m i) j = smFind m j := by
  induction m generalizing lo with
  | nil => rfl
  | cons e r ih =>
    obtain ⟨k, w⟩ := e
    have hc := (smSorted_cons lo (k, w) r).1 h
    unfold smDel
    split
    · next he =>
      subst he
      simp only [smFind, hj, if_false]
      split
      · next hlt => exact smFind_of_sorted r j (smSorted_weaken r (fun b hb => by cases hb; exact hlt) hc.2)
      · rfl
    · split
      · rfl
      · simp only [smFind]; split
        · rfl
        · split
          · rfl
          · exact ih (some k) hc.2

/-! ### Canonical form -/

/-- A sorted map that lists no default. -/
theorem smWf_iff [DecidableEq α] (d : Nat → α) (m : SMap α) : smWf d m = true ↔ smSorted none m = true ∧ ∀ e ∈ m, e.2 ≠ d e.1 := by
  simp [smWf]

theorem mem_smPut {m : SMap α} {i : Nat} {v : α} {e : Nat × α} (h : e ∈ smPut m i v) : e = (i, v) ∨ e ∈ m := by
  induction m with
  | nil => simpa [smPut] using h
  | cons f r ih =>
    obtain ⟨k, w⟩ := f
    unfold smPut at h
    split at h
    · simp at h ⊢; tauto
    · split at h
      · simp at h ⊢; tauto
      · simp only [List.mem_cons] at h ⊢
        rcases h with h | h
        · exact .inr (.inl h)
        · rcases ih h with h | h
          · exact .inl h
          · exact .inr (.inr h)

theorem mem_smDel {m : SMap α} {i : Nat} {e : Nat × α} (h : e ∈ smDel m i) : e ∈ m := by
  induction m with
  | nil => exact h
  | cons f r ih =>
    obtain ⟨k, w⟩ := f
    unfold smDel at h
    split at h
    · exact List.mem_cons_of_mem _ h
    · split at h
      · exact h
      · simp only [List.mem_cons] at h ⊢
        exact h.imp id ih

theorem smWf_smSet [DecidableEq α] (d : α) (m : SMap α) (i : Nat) (v : α) (h : smWf (fun _ => d) m = true) : smWf (fun _ => d) (smSet d m i v) = true := by
  rw [smWf_iff] at h ⊢
  unfold smSet
  split
  · exact ⟨smSorted_smDel none m i h.1, fun e he => h.2 e (mem_smDel he)⟩
  · next hv =>
    refine ⟨smSorted_smPut none m i v h.1 (fun b hb => by cases hb), fun e he => ?_⟩
    rcases mem_smPut he with rfl | he
    · exact hv
    · exact h.2 e he

theorem smWf_filter [DecidableEq α] (d : Nat → α) (m : SMap α) (p : Nat × α → Bool) (h : smWf d m = true) : smWf d (m.filter p) = true := by
  rw [smWf_iff] at h ⊢
  exact ⟨smSorted_filter none m p h.1, fun e he => h.2 e (List.mem_filter.1 he).1⟩

/-! ### Byte memories -/

@[simp] theorem memWf_nil : memWf [] = true := rfl

theorem memWf_memPut {m : Mem} (a : Nat) (b : Byte) (h : memWf m = true) : memWf (memPut m a b) = true := smWf_smSet 0#8 m a b h

theorem memWf_memWrite (m : Mem) (a : Nat) (bs : List Byte) (h : memWf m = true) : memWf (memWrite m a bs) = true := by
  induction bs generalizing m a with
  | nil => exact h
  | cons b r ih => exact ih _ _ (memWf_memPut a b h)

theorem memWf_smClear {m : Mem} (lo hi : Nat) (h : memWf m = true) : memWf (smClear m lo hi) = true := smWf_filter _ m _ h

/-- A byte that has just been written reads as written. -/
theorem memByte_memPut_same {m : Mem} (a : Nat) (b : Byte) (h : memWf m = true) : memByte (memPut m a b) a = b := by
  have hs := ((smWf_iff _ m).1 h).1
  unfold memByte memPut smSet
  split
  · next hb => simp [smGet, smFind_smDel_same none m a hs, hb]
  · simp

/-- A write of one byte leaves every other byte. -/
theorem memByte_memPut_ne {m : Mem} {a x : Nat} (b : Byte) (h : memWf m = true) (hx : x ≠ a) : memByte (memPut m a b) x = memByte m x := by
  have hs := ((smWf_iff _ m).1 h).1
  unfold memByte memPut smSet
  split
  · simp [smGet, smFind_smDel_ne none m hs hx]
  · exact smGet_smPut_ne _ _ _ hx

/-- A write of bytes leaves every byte outside them. -/
theorem memByte_memWrite_outside (m : Mem) (a : Nat) (bs : List Byte) (x : Nat) (h : memWf m = true) (hx : x < a ∨ a + bs.length ≤ x) :
    memByte (memWrite m a bs) x = memByte m x := by
  induction bs generalizing m a with
  | nil => rfl
  | cons b r ih =>
    simp only [List.length_cons] at hx
    rw [memWrite, ih _ _ (memWf_memPut a b h) (by omega), memByte_memPut_ne b h (by omega)]

/-- A write of bytes is read back byte by byte. -/
theorem memByte_memWrite_inside (m : Mem) (a : Nat) (bs : List Byte) (i : Nat) (h : memWf m = true) (hi : i < bs.length) :
    memByte (memWrite m a bs) (a + i) = bs[i] := by
  induction bs generalizing m a i with
  | nil => simp at hi
  | cons b r ih =>
    rw [memWrite]
    cases i with
    | zero =>
      rw [memByte_memWrite_outside _ _ _ _ (memWf_memPut a b h) (by omega)]
      simpa using memByte_memPut_same a b h
    | succ n =>
      have hn : n < r.length := by simpa using hi
      have := ih (memPut m a b) (a + 1) n (memWf_memPut a b h) hn
      simpa [Nat.add_assoc, Nat.add_comm 1 n] using this

/-- A memory that is cleared over a range reads 0 there. -/
theorem smFind_filter_none (lo : Option Nat) (m : SMap α) (p : Nat × α → Bool) (x : Nat) (hs : smSorted lo m = true)
    (hp : ∀ v, p (x, v) = false) : smFind (m.filter p) x = none := by
  induction m generalizing lo with
  | nil => rfl
  | cons e r ih =>
    obtain ⟨k, w⟩ := e
    have hc := (smSorted_cons lo (k, w) r).1 hs
    rw [List.filter_cons]
    split
    · next hk =>
      have hne : x ≠ k := fun h => by subst h; rw [hp] at hk; cases hk
      simp only [smFind, hne, if_false]
      split
      · rfl
      · exact ih (some k) hc.2
    · exact ih (some k) hc.2

theorem smFind_filter_some (lo : Option Nat) (m : SMap α) (p : Nat × α → Bool) (x : Nat) (hs : smSorted lo m = true)
    (hp : ∀ v, p (x, v) = true) : smFind (m.filter p) x = smFind m x := by
  induction m generalizing lo with
  | nil => rfl
  | cons e r ih =>
    obtain ⟨k, w⟩ := e
    have hc := (smSorted_cons lo (k, w) r).1 hs
    rw [List.filter_cons]
    split
    · simp only [smFind]; rw [ih (some k) hc.2]
    · next hk =>
      have hne : x ≠ k := fun h => by subst h; exact hk (hp w)
      simp only [smFind, hne, if_false]
      split
      · next hlt =>
        exact smFind_filter_none_of_lt r p x (smSorted_weaken r (fun b hb => by cases hb; exact hlt) hc.2)
      · exact ih (some k) hc.2
where
  smFind_filter_none_of_lt (r : SMap α) (p : Nat × α → Bool) (x : Nat) (h : smSorted (some x) r = true) : smFind (r.filter p) x = none :=
    smFind_of_sorted _ x (smSorted_filter (some x) r p h)

theorem memByte_smClear_inside {m : Mem} {lo hi x : Nat} (h : memWf m = true) (h1 : lo ≤ x) (h2 : x < hi) : memByte (smClear m lo hi) x = 0#8 := by
  have hs := ((smWf_iff _ m).1 h).1
  have := smFind_filter_none none m (fun e => decide (e.1 < lo) || decide (hi ≤ e.1)) x hs (fun _ => by simp; omega)
  simp [memByte, smGet, smClear, this]

theorem memByte_smClear_outside {m : Mem} {lo hi x : Nat} (h : memWf m = true) (hx : x < lo ∨ hi ≤ x) : memByte (smClear m lo hi) x = memByte m x := by
  have hs := ((smWf_iff _ m).1 h).1
  have := smFind_filter_some none m (fun e => decide (e.1 < lo) || decide (hi ≤ e.1)) x hs (fun _ => by simpa using hx)
  simp [memByte, smGet, smClear, this]

end Sys2Proof.Machine
end

