-- ==== Sys2Proof/Laws/Keeps.lean ====
section
/-! SUPPORT. What every operation keeps: the queue of waiting commands, what assembly fixed, and the canonical form of the memories. The
lemmas of the operations follow in the other Keeps files. -/

namespace Sys2Proof.Machine

/-- A state reached from another keeps its queue, its assembly and the canonical form of its memories. -/
structure Keeps (s0 s : State) : Prop where
  pending : s.pending = s0.pending
  variant : s.variant = s0.variant
  fuses : ∀ i, s0.fuses.getLsbD i = true → s.fuses.getLsbD i = true
  factory : s.factory = s0.factory
  layerFuses : s.layerFuses = s0.layerFuses
  far : memWf s0.far = true → memWf s.far = true
  slice : memWf s0.slice = true → memWf s.slice = true
  desk : memWf s0.desk = true → memWf s.desk = true
  host : memWf s0.host = true → memWf s.host = true
  image : memWf s0.image.data = true → memWf s.image.data = true

theorem Keeps.refl (s : State) : Keeps s s := ⟨rfl, rfl, fun _ => id, rfl, rfl, id, id, id, id, id⟩

/-- A record update of a state that keeps. -/
theorem Keeps.mk' {s0 b : State}
    {variant' : Variant} {regs' : List (Reg × W64)} {fuses' : BitVec 32768} {power' : PowerState} {factory' : List Defect}
    {layerFuses' : SMap Nat} {far' : Mem} {farChk' : SMap Nat} {farEpoch' : SMap Nat} {slice' : Mem} {sliceChk' : SMap Nat}
    {desk' : Mem} {deskChk' : SMap Nat} {host' : Mem} {slips' : List Nat} {hostFaults' : List (Nat × Nat)} {lines' : SMap Line}
    {lineAge' : Nat} {fills' : List Fill} {fillWaits' : List ScReq} {missRecent' : SMap (List Bool)} {purges' : List Purge}
    {frameFails' : SMap Nat} {framesRetired' : SMap Nat} {setChanges' : List Nat} {clears' : List Nat} {heldAccess' : List ScReq}
    {paid' : List (Requester × Nat)} {turns' : List (Requester × Nat)} {cores' : SMap CoreSt} {slices' : SMap SliceSt}
    {farPorts' : SMap FarPort} {ladles' : SMap LadlePort} {pails' : SMap PailMgr} {fabPorts' : SMap FabPort} {fabReqs' : List FabReq}
    {fabQuarantine' : List Nat} {fabTag' : Nat} {fabWaits' : List FabWait} {hostWaits' : List HostWait} {routers' : SMap RouterSt}
    {ringSlots' : SMap RingSlot} {stops' : SMap StopSt} {missed' : SMap Nat} {arbs' : SMap ArbSt} {xings' : SMap XingSt}
    {modules' : SMap ModuleSt} {edges' : SMap EdgeSt} {deputy' : Nat} {rings' : SMap RingSt} {registrar' : Registrar}
    {bar4Size' : SMap Nat} {records' : List UnitRecord} {domains' : SMap DomainAct} {homerooms' : SMap Homeroom}
    {shutdowns' : List (List Byte)} {sessions' : List SpdmSession} {spdm' : SMap Nat} {idCert' : Option (List Byte)} {boot' : BootSt}
    {image' : ImageBuf} {thermal' : Thermal} {defects' : List Defect} {relLog' : List RelEntry} {evqPhase' : Bool}
    {officeEvents' : List Event} {msixUnmasked' : List (Nat × Nat)} {msixPending' : List (Nat × Nat)} {out' : List Output}
    {draws' : Nat} {pending' : List Instr}
    (h : Keeps s0 b) (h1 : pending' = b.pending) (h2 : variant' = b.variant) (h3 : ∀ i, b.fuses.getLsbD i = true → fuses'.getLsbD i = true) (h4 : factory' = b.factory)
    (h10 : layerFuses' = b.layerFuses)     (h5 : memWf b.far = true → memWf far' = true) (h6 : memWf b.slice = true → memWf slice' = true)
    (h7 : memWf b.desk = true → memWf desk' = true) (h8 : memWf b.host = true → memWf host' = true)
    (h9 : memWf b.image.data = true → memWf image'.data = true) :
    Keeps s0 (State.mk variant' regs' fuses' power' factory' layerFuses' far' farChk' farEpoch' slice' sliceChk' desk' deskChk' host' slips' hostFaults' lines' lineAge' fills' fillWaits' missRecent' purges' frameFails' framesRetired' setChanges' clears' heldAccess' paid' turns' cores' slices' farPorts' ladles' pails' fabPorts' fabReqs' fabQuarantine' fabTag' fabWaits' hostWaits' routers' ringSlots' stops' missed' arbs' xings' modules' edges' deputy' rings' registrar' bar4Size' records' domains' homerooms' shutdowns' sessions' spdm' idCert' boot' image' thermal' defects' relLog' evqPhase' officeEvents' msixUnmasked' msixPending' out' draws' pending') :=
  ⟨h1.trans h.pending, h2.trans h.variant, fun i x => h3 i (h.fuses i x), h4.trans h.factory, h10.trans h.layerFuses, fun x => h5 (h.far x), fun x => h6 (h.slice x),
    fun x => h7 (h.desk x), fun x => h8 (h.host x), fun x => h9 (h.image x)⟩

theorem Keeps.of_fst {s0 t : State} {β : Type} {x : State × β} {b : β} (e : x = (t, b)) (h : Keeps s0 x.1) : Keeps s0 t := by
  subst e; exact h

theorem Keeps.of_snd {s0 t : State} {β : Type} {x : β × State} {b : β} (e : x = (b, t)) (h : Keeps s0 x.2) : Keeps s0 t := by
  subst e; exact h

theorem Keeps.foldl {s0 : State} {α : Type} {g : State → α → State} (l : List α) {s : State} (h : Keeps s0 s)
    (hg : ∀ t a, Keeps s0 t → Keeps s0 (g t a)) : Keeps s0 (l.foldl g s) := by
  induction l generalizing s with
  | nil => exact h
  | cons a l ih => exact ih (hg s a h)

theorem Keeps.foldl_fst {s0 : State} {α β : Type} {g : State × β → α → State × β} (l : List α) {x : State × β} (h : Keeps s0 x.1)
    (hg : ∀ y a, Keeps s0 y.1 → Keeps s0 (g y a).1) : Keeps s0 (l.foldl g x).1 := by
  induction l generalizing x with
  | nil => exact h
  | cons a l ih => exact ih (hg x a h)

theorem Keeps.repeat {s0 : State} {g : State → State} (n : Nat) {s : State} (h : Keeps s0 s) (hg : ∀ t, Keeps s0 t → Keeps s0 (g t)) :
    Keeps s0 (Nat.repeat g n s) := by
  induction n with
  | zero => exact h
  | succ n ih => exact hg _ ih

theorem Keeps.let_state {s0 v : State} {body : State → State} (hv : Keeps s0 v) (h : ∀ t, Keeps s0 t → Keeps s0 (body t)) :
    Keeps s0 (let t := v; body t) := h v hv

theorem Keeps.let_zeta {s0 : State} {β : Type} {v : β} {body : β → State} (h : Keeps s0 (body v)) : Keeps s0 (let x := v; body x) := h

theorem Keeps.ite {s0 s t : State} {c : Prop} [Decidable c] (h : Keeps s0 s) (h' : Keeps s0 t) : Keeps s0 (if c then s else t) := by
  by_cases hc : c
  · rwa [if_pos hc]
  · rwa [if_neg hc]

theorem Keeps.ite_fst {s0 : State} {β : Type} {x y : State × β} {c : Prop} [Decidable c] (h : Keeps s0 x.1) (h' : Keeps s0 y.1) :
    Keeps s0 (if c then x else y).1 := by
  by_cases hc : c
  · rwa [if_pos hc]
  · rwa [if_neg hc]

theorem Keeps.map_fst {s0 : State} {β γ : Type} {x : State × β} {f : β → γ} (h : Keeps s0 x.1) : Keeps s0 (Prod.map id f x).1 := h

theorem Keeps.of_id {s0 s : State} (h : Keeps s0 s) : Keeps s0 (id s) := h

theorem memWf_init : memWf ImageBuf.init.data = true := rfl

/-! ### Steps of monadic operations -/

section Run

variable {s0 s : State} {ε α β : Type}

theorem Keeps.run_pure {a : α} (h : Keeps s0 s) : Keeps s0 ((pure a : ExceptT ε (StateM State) α).run s).2 := h

theorem Keeps.run_throw {e : ε} (h : Keeps s0 s) : Keeps s0 ((throw e : ExceptT ε (StateM State) α).run s).2 := h

theorem Keeps.run_get (h : Keeps s0 s) : Keeps s0 ((get : ExceptT ε (StateM State) State).run s).2 := h

theorem Keeps.run_getThe (h : Keeps s0 s) : Keeps s0 ((getThe State : ExceptT ε (StateM State) State).run s).2 := h

theorem Keeps.run_ite {c : Prop} [Decidable c] {x y : ExceptT ε (StateM State) α} (hx : Keeps s0 (x.run s).2) (hy : Keeps s0 (y.run s).2) :
    Keeps s0 ((if c then x else y).run s).2 := by
  by_cases hc : c
  · rwa [if_pos hc]
  · rwa [if_neg hc]

theorem Keeps.run_set {t : State} (h : Keeps s0 t) : Keeps s0 ((set t : ExceptT ε (StateM State) PUnit).run s).2 := h

theorem Keeps.run_modify {f : State → State} (h : Keeps s0 (f s)) : Keeps s0 ((modify f : ExceptT ε (StateM State) PUnit).run s).2 := h

theorem Keeps.run_get_bind {f : State → ExceptT ε (StateM State) β} (h : Keeps s0 ((f s).run s).2) : Keeps s0 ((get >>= f).run s).2 := h

theorem Keeps.run_getThe_bind {f : State → ExceptT ε (StateM State) β} (h : Keeps s0 ((f s).run s).2) :
    Keeps s0 ((getThe State >>= f).run s).2 := h

theorem Keeps.run_bind {x : ExceptT ε (StateM State) α} {f : α → ExceptT ε (StateM State) β} (hx : Keeps s0 (x.run s).2)
    (hf : ∀ a t, Keeps s0 t → Keeps s0 ((f a).run t).2) : Keeps s0 ((x >>= f).run s).2 := by
  have e : (x >>= f).run s = match x.run s with | (.ok a, t) => (f a).run t | (.error e, t) => (.error e, t) := by
    simp only [ExceptT.run_bind]
    rcases hr : x.run s with ⟨r, t⟩
    simp only [bind, StateT.bind, hr]
    cases r <;> rfl
  rw [e]
  rcases hr : x.run s with ⟨r, t⟩
  rw [hr] at hx
  cases r with
  | ok a => exact hf a t hx
  | error e => exact hx

theorem Keeps.run_map {x : ExceptT ε (StateM State) α} {f : α → β} (hx : Keeps s0 (x.run s).2) : Keeps s0 ((f <$> x).run s).2 := by
  have e : ((f <$> x).run s).2 = (x.run s).2 := by
    simp only [ExceptT.run_map]
    rfl
  rw [e]; exact hx

theorem Keeps.run_tryCatch {x : ExceptT ε (StateM State) α} {f : ε → ExceptT ε (StateM State) α} (hx : Keeps s0 (x.run s).2)
    (hf : ∀ a t, Keeps s0 t → Keeps s0 ((f a).run t).2) : Keeps s0 ((tryCatch x f).run s).2 := by
  have e : (tryCatch x f).run s = match (x s).1 with | .ok a => (.ok a, (x s).2) | .error e => (f e) (x s).2 := by
    change (match (x s).1 with | .ok a => (pure (Except.ok a) : StateM State _) | .error e => f e) (x s).2 = _
    cases (x s).1 <;> rfl
  have hx' : Keeps s0 (x s).2 := hx
  rw [e]
  cases (x s).1 with
  | ok a => exact hx'
  | error e => exact hf e _ hx'

theorem Keeps.run_forM {l : List α} {f : α → ExceptT ε (StateM State) PUnit} (h : Keeps s0 s)
    (hf : ∀ a t, Keeps s0 t → Keeps s0 ((f a).run t).2) : Keeps s0 ((l.forM f).run s).2 := by
  induction l generalizing s with
  | nil => exact h
  | cons a l ih => exact Keeps.run_bind (hf a s h) fun _ t ht => ih ht

theorem Keeps.run_mapM {l : List α} {f : α → ExceptT ε (StateM State) β} (h : Keeps s0 s)
    (hf : ∀ a t, Keeps s0 t → Keeps s0 ((f a).run t).2) : Keeps s0 ((l.mapM f).run s).2 := by
  induction l generalizing s with
  | nil => rw [List.mapM_nil]; exact h
  | cons a l ih =>
    rw [List.mapM_cons]
    exact Keeps.run_bind (hf a s h) fun _ t ht => Keeps.run_bind (ih ht) fun _ u hu => hu

theorem Keeps.run_filterM {l : List α} {f : α → ExceptT ε (StateM State) Bool} (h : Keeps s0 s)
    (hf : ∀ a t, Keeps s0 t → Keeps s0 ((f a).run t).2) : Keeps s0 ((l.filterM f).run s).2 := by
  have aux : ∀ (acc : List α) (u : State), Keeps s0 u → Keeps s0 ((l.filterAuxM f acc).run u).2 := by
    induction l generalizing s with
    | nil => intro acc u hu; exact hu
    | cons a l ih => intro acc u hu; exact Keeps.run_bind (hf a u hu) fun _ t ht => ih h _ t ht
  exact Keeps.run_bind (aux [] s h) fun _ t ht => ht

end Run

/-- Whatever next state an outcome gives keeps. -/
structure KeepsOutcome (s0 : State) (o : Host.Outcome State Fault Refusal) : Prop where
  kept : ∀ t, o = .next t → Keeps s0 t

theorem KeepsOutcome.next {s0 t : State} (h : Keeps s0 t) : KeepsOutcome s0 (.next t) := ⟨fun u e => by cases e; exact h⟩

theorem KeepsOutcome.ite {s0 : State} {c : Prop} [Decidable c] {x y : Host.Outcome State Fault Refusal} (hx : KeepsOutcome s0 x)
    (hy : KeepsOutcome s0 y) : KeepsOutcome s0 (if c then x else y) := by
  by_cases hc : c
  · rwa [if_pos hc]
  · rwa [if_neg hc]

theorem KeepsOutcome.refused {s0 : State} (r : Refusal) : KeepsOutcome s0 (.refused r) := ⟨fun u e => by cases e⟩

/-- A next state that may be absent keeps. -/
structure KeepsOption (s0 : State) (o : Option State) : Prop where
  kept : ∀ t, o = some t → Keeps s0 t

theorem KeepsOption.of_some {s0 t : State} (h : Keeps s0 t) : KeepsOption s0 (some t) := ⟨fun u e => by cases e; exact h⟩

theorem KeepsOption.of_none {s0 : State} : KeepsOption s0 none := ⟨fun u e => by cases e⟩

theorem KeepsOption.map {s0 : State} {α : Type} {f : α → State} {o : Option α} (h : ∀ q, Keeps s0 (f q)) : KeepsOption s0 (o.map f) :=
  ⟨fun t e => by obtain ⟨q, -, rfl⟩ := Option.map_eq_some_iff.1 e; exact h q⟩

theorem KeepsOption.ite {s0 : State} {c : Prop} [Decidable c] {x y : Option State} (hx : KeepsOption s0 x) (hy : KeepsOption s0 y) :
    KeepsOption s0 (if c then x else y) := by
  by_cases hc : c
  · rwa [if_pos hc]
  · rwa [if_neg hc]

theorem Keeps.of_option {s0 t : State} {o : Option State} (e : o = some t) (h : KeepsOption s0 o) : Keeps s0 t := h.kept t e

end Sys2Proof.Machine
end

