-- ==== Sys2Proof/Laws/Keeps1.lean ====
section
/-! SUPPORT. What the operations of Machine/ keep (`Keeps`), file 1 of 5:
Views, Ops, Arbiter, Paths, Access, RegOps, FabricOps, Slices, FarMem, Ladles, PailOps, Pails. -/

namespace Sys2Proof.Machine

theorem State.emit_keeps {s0 s : State} (o : Output) (hs : Keeps s0 s) :
    Keeps s0 (State.emit s o) := by
  unfold State.emit
  repeat' with_reducible first
    | assumption | exact id | intro _ | dsimp only | split | refine Keeps.mk' ?_ rfl rfl (fun _ => id) rfl rfl ?_ ?_ ?_ ?_ ?_

theorem State.put_keeps {s0 s : State} (r : Reg) (v : W64) (hs : Keeps s0 s) :
    Keeps s0 (State.put s r v) := by
  unfold State.put
  repeat' with_reducible first
    | assumption | exact id | intro _ | dsimp only | split | refine Keeps.mk' ?_ rfl rfl (fun _ => id) rfl rfl ?_ ?_ ?_ ?_ ?_

theorem State.fput_keeps {s0 s : State} (r : Reg) (f : Fld) (v : Nat) (hs : Keeps s0 s) :
    Keeps s0 (State.fput s r f v) := by
  unfold State.fput
  repeat' with_reducible first | assumption | intro _ | dsimp only | split | apply State.put_keeps

theorem State.fadd_keeps {s0 s : State} (r : Reg) (f : Fld) (n : Nat) (hs : Keeps s0 s) :
    Keeps s0 (State.fadd s r f n) := by
  unfold State.fadd
  repeat' with_reducible first | assumption | intro _ | dsimp only | split | apply State.fput_keeps

theorem State.setCore_keeps {s0 s : State} (c : Nat) (v : CoreSt) (hs : Keeps s0 s) :
    Keeps s0 (State.setCore s c v) := by
  unfold State.setCore
  repeat' with_reducible first
    | assumption | exact id | intro _ | dsimp only | split | refine Keeps.mk' ?_ rfl rfl (fun _ => id) rfl rfl ?_ ?_ ?_ ?_ ?_

theorem State.modCore_keeps {s0 s : State} (c : Nat) (f : CoreSt → CoreSt) (hs : Keeps s0 s) :
    Keeps s0 (State.modCore s c f) := by
  unfold State.modCore
  repeat' with_reducible first | assumption | intro _ | dsimp only | split | apply State.setCore_keeps

theorem State.setFarPort_keeps {s0 s : State} (f : Nat) (v : FarPort) (hs : Keeps s0 s) :
    Keeps s0 (State.setFarPort s f v) := by
  unfold State.setFarPort
  repeat' with_reducible first
    | assumption | exact id | intro _ | dsimp only | split | refine Keeps.mk' ?_ rfl rfl (fun _ => id) rfl rfl ?_ ?_ ?_ ?_ ?_

theorem State.setHr_keeps {s0 s : State} (h : Nat) (v : Homeroom) (hs : Keeps s0 s) :
    Keeps s0 (State.setHr s h v) := by
  unfold State.setHr
  repeat' with_reducible first
    | assumption | exact id | intro _ | dsimp only | split | refine Keeps.mk' ?_ rfl rfl (fun _ => id) rfl rfl ?_ ?_ ?_ ?_ ?_

theorem State.setLadle_keeps {s0 s : State} (f : Nat) (v : LadlePort) (hs : Keeps s0 s) :
    Keeps s0 (State.setLadle s f v) := by
  unfold State.setLadle
  repeat' with_reducible first
    | assumption | exact id | intro _ | dsimp only | split | refine Keeps.mk' ?_ rfl rfl (fun _ => id) rfl rfl ?_ ?_ ?_ ?_ ?_

theorem State.setNear_keeps {s0 s : State} (c : Nat) (v : SliceSt) (hs : Keeps s0 s) :
    Keeps s0 (State.setNear s c v) := by
  unfold State.setNear
  repeat' with_reducible first
    | assumption | exact id | intro _ | dsimp only | split | refine Keeps.mk' ?_ rfl rfl (fun _ => id) rfl rfl ?_ ?_ ?_ ?_ ?_

theorem State.setPail_keeps {s0 s : State} (d : Nat) (v : PailMgr) (hs : Keeps s0 s) :
    Keeps s0 (State.setPail s d v) := by
  unfold State.setPail
  repeat' with_reducible first
    | assumption | exact id | intro _ | dsimp only | split | refine Keeps.mk' ?_ rfl rfl (fun _ => id) rfl rfl ?_ ?_ ?_ ?_ ?_

theorem State.addDefect_keeps {s0 s : State} (d : Defect) (hs : Keeps s0 s) :
    Keeps s0 (State.addDefect s d) := by
  unfold State.addDefect
  repeat' with_reducible first
    | assumption | exact id | intro _ | apply Keeps.ite | dsimp only | split | apply State.fput_keeps
    | refine Keeps.mk' ?_ rfl rfl (fun _ => id) rfl rfl ?_ ?_ ?_ ?_ ?_

theorem State.raiseOffice_keeps {s0 s : State} (e : Event) (hs : Keeps s0 s) :
    Keeps s0 (State.raiseOffice s e) := by
  unfold State.raiseOffice
  repeat' with_reducible first
    | assumption | exact id | intro _ | apply Keeps.ite | dsimp only | split | apply State.fput_keeps | apply State.fadd_keeps
    | apply State.emit_keeps | refine Keeps.mk' ?_ rfl rfl (fun _ => id) rfl rfl ?_ ?_ ?_ ?_ ?_

theorem State.hostWrite_keeps {s0 s : State} (a1 : Nat) (bs : List Byte) (hs : Keeps s0 s) :
    Keeps s0 (State.hostWrite s a1 bs) := by
  unfold State.hostWrite
  repeat' with_reducible first
    | assumption | exact id | exact memWf_memWrite _ _ _ | intro _ | apply Keeps.ite | dsimp only | split
    | refine Keeps.mk' ?_ rfl rfl (fun _ => id) rfl rfl ?_ ?_ ?_ ?_ ?_

theorem State.msix_keeps {s0 s : State} (f : Nat) (v : Nat) (hs : Keeps s0 s) :
    Keeps s0 (State.msix s f v) := by
  unfold State.msix
  repeat' with_reducible first
    | assumption | exact id | intro _ | apply Keeps.ite | dsimp only | split | apply State.emit_keeps
    | refine Keeps.mk' ?_ rfl rfl (fun _ => id) rfl rfl ?_ ?_ ?_ ?_ ?_

theorem State.raiseHost_keeps {s0 s : State} (e : Event) (hs : Keeps s0 s) :
    Keeps s0 (State.raiseHost s e) := by
  unfold State.raiseHost
  repeat' with_reducible first
    | assumption | exact id | intro _ | apply Keeps.ite | dsimp only | split | apply State.fput_keeps | apply State.fadd_keeps
    | apply State.hostWrite_keeps | apply State.msix_keeps | refine Keeps.mk' ?_ rfl rfl (fun _ => id) rfl rfl ?_ ?_ ?_ ?_ ?_

theorem State.raise_keeps {s0 s : State} (b : Block) (inst : Nat) (off : Nat) (r : Reg) (hs : Keeps s0 s) :
    Keeps s0 (State.raise s b inst off r) := by
  unfold State.raise
  repeat' with_reducible first | assumption | intro _ | dsimp only | split | apply State.raiseOffice_keeps | apply State.raiseHost_keeps

theorem State.fenceEvent_keeps {s0 s : State} (c : Nat) (hs : Keeps s0 s) :
    Keeps s0 (State.fenceEvent s c) := by
  unfold State.fenceEvent
  repeat' with_reducible first | assumption | intro _ | dsimp only | split | apply State.raise_keeps

theorem State.endFill_keeps {s0 s : State} (c : Nat) (hs : Keeps s0 s) :
    Keeps s0 (State.endFill s c) := by
  unfold State.endFill
  repeat' with_reducible first | assumption | intro _ | apply Keeps.ite | dsimp only | split | apply State.fput_keeps

theorem State.beginFence_keeps {s0 s : State} (c : Nat) (cause : Nat) (hs : Keeps s0 s) :
    Keeps s0 (State.beginFence s c cause) := by
  unfold State.beginFence
  repeat' with_reducible first
    | assumption | intro _ | apply Keeps.ite | dsimp only | split | apply State.addDefect_keeps | apply State.fenceEvent_keeps
    | apply State.fput_keeps | apply State.endFill_keeps

theorem State.draw_keeps {s0 s : State} (bound : Nat) (hs : Keeps s0 s) :
    Keeps s0 (State.draw s bound).2 := by
  unfold State.draw
  repeat' with_reducible first
    | assumption | exact id | intro _ | dsimp only | split | refine Keeps.mk' ?_ rfl rfl (fun _ => id) rfl rfl ?_ ?_ ?_ ?_ ?_

theorem State.drawBytes_keeps {s0 s : State} (n : Nat) (hs : Keeps s0 s) :
    Keeps s0 (State.drawBytes s n).2 := by
  unfold State.drawBytes
  repeat' with_reducible first
    | assumption | exact id | intro _ | dsimp only | split | refine Keeps.mk' ?_ rfl rfl (fun _ => id) rfl rfl ?_ ?_ ?_ ?_ ?_

theorem State.relEvent_keeps {s0 s : State} (hs : Keeps s0 s) :
    Keeps s0 (State.relEvent s) := by
  unfold State.relEvent
  repeat' with_reducible first | assumption | intro _ | apply Keeps.ite | dsimp only | split | apply State.raise_keeps

theorem State.failSelfTest_keeps {s0 s : State} (hs : Keeps s0 s) :
    Keeps s0 (State.failSelfTest s) := by
  unfold State.failSelfTest
  repeat' with_reducible first | assumption | intro _ | dsimp only | split | apply State.relEvent_keeps | apply State.fput_keeps

theorem State.regrade_keeps {s0 s : State} (hs : Keeps s0 s) :
    Keeps s0 (State.regrade s) := by
  unfold State.regrade
  repeat' with_reducible first
    | assumption | intro _ | apply Keeps.ite | dsimp only | split | apply State.fput_keeps | apply State.raise_keeps

theorem State.relAdd_keeps {s0 s : State} (e : RelEntry) (hs : Keeps s0 s) :
    Keeps s0 (State.relAdd s e) := by
  unfold State.relAdd
  repeat' with_reducible first
    | assumption | exact id | intro _ | dsimp only | split | refine Keeps.mk' ?_ rfl rfl (fun _ => id) rfl rfl ?_ ?_ ?_ ?_ ?_

theorem State.sendRecord_keeps {s0 s : State} (r : UnitRecord) (hs : Keeps s0 s) :
    Keeps s0 (State.sendRecord s r) := by
  unfold State.sendRecord
  repeat' with_reducible first
    | assumption | exact id | intro _ | dsimp only | split | refine Keeps.mk' ?_ rfl rfl (fun _ => id) rfl rfl ?_ ?_ ?_ ?_ ?_

theorem State.setArb_keeps {s0 s : State} (d : Nat) (sel : Nat) (a3 : ArbSt) (hs : Keeps s0 s) :
    Keeps s0 (State.setArb s d sel a3) := by
  unfold State.setArb
  repeat' with_reducible first
    | assumption | exact id | intro _ | dsimp only | split | refine Keeps.mk' ?_ rfl rfl (fun _ => id) rfl rfl ?_ ?_ ?_ ?_ ?_

theorem State.arbPending_keeps {s0 s : State} (d : Nat) (sel : Nat) (mask : Nat) (hs : Keeps s0 s) :
    Keeps s0 (State.arbPending s d sel mask) := by
  unfold State.arbPending
  repeat' with_reducible first | assumption | intro _ | dsimp only | split | apply State.fput_keeps

theorem State.arbAsk_keeps {s0 s : State} (d : Nat) (sel : Nat) (r : Nat) (hs : Keeps s0 s) :
    Keeps s0 (State.arbAsk s d sel r) := by
  unfold State.arbAsk
  repeat' with_reducible first | assumption | intro _ | dsimp only | split | apply State.setArb_keeps | apply State.arbPending_keeps

theorem State.arbCounts_keeps {s0 s : State} (d : Nat) (sel : Nat) (counts : List Nat) (hs : Keeps s0 s) :
    Keeps s0 (State.arbCounts s d sel counts) := by
  unfold State.arbCounts
  repeat' with_reducible first | assumption | intro _ | dsimp only | split | apply State.setArb_keeps | apply State.arbPending_keeps

theorem State.arbFrozenHints_keeps {s0 s : State} (d : Nat) (sel : Nat) (mask : Nat) (hs : Keeps s0 s) :
    Keeps s0 (State.arbFrozenHints s d sel mask) := by
  unfold State.arbFrozenHints
  repeat' with_reducible first | assumption | intro _ | apply Keeps.foldl | dsimp only | split | apply State.emit_keeps

theorem State.arbLose_keeps {s0 s : State} (d : Nat) (sel : Nat) (mask : Nat) (i : Nat) (hs : Keeps s0 s) :
    Keeps s0 (State.arbLose s d sel mask i) := by
  unfold State.arbLose
  repeat' with_reducible first
    | assumption | intro _ | apply Keeps.ite | dsimp only | split | apply State.emit_keeps | apply State.setArb_keeps
    | apply State.fput_keeps | apply State.raise_keeps

theorem State.arbDecide_keeps {s0 s : State} (d : Nat) (sel : Nat) (mask : Nat) (after : Nat → Nat) (hs : Keeps s0 s) :
    Keeps s0 (State.arbDecide s d sel mask after).1 := by
  unfold State.arbDecide
  repeat' with_reducible first
    | assumption | intro _ | apply Keeps.ite_fst | apply Keeps.foldl | dsimp only | split | apply State.arbFrozenHints_keeps
    | apply State.fadd_keeps | apply State.setArb_keeps | apply State.arbLose_keeps

theorem State.arbServe_keeps {s0 s : State} (d : Nat) (sel : Nat) (hs : Keeps s0 s) :
    Keeps s0 (State.arbServe s d sel).1 := by
  unfold State.arbServe
  repeat' with_reducible first
    | assumption | intro _ | refine Keeps.of_fst (by assumption) ?_ | dsimp only | split | apply State.arbDecide_keeps
    | apply State.fput_keeps | apply State.arbPending_keeps | apply State.setArb_keeps

theorem State.resetIslands_keeps {s0 s : State} (d : Nat) (p : Nat → Bool) (hs : Keeps s0 s) :
    Keeps s0 (State.resetIslands s d p) := by
  unfold State.resetIslands
  repeat' with_reducible first
    | assumption | exact id | intro _ | dsimp only | split | refine Keeps.mk' ?_ rfl rfl (fun _ => id) rfl rfl ?_ ?_ ?_ ?_ ?_

theorem State.setEdge_keeps {s0 s : State} (d : Nat) (e : Nat) (v : EdgeSt) (hs : Keeps s0 s) :
    Keeps s0 (State.setEdge s d e v) := by
  unfold State.setEdge
  repeat' with_reducible first
    | assumption | exact id | intro _ | dsimp only | split | refine Keeps.mk' ?_ rfl rfl (fun _ => id) rfl rfl ?_ ?_ ?_ ?_ ?_

theorem State.setModule_keeps {s0 s : State} (d : Nat) (e : Nat) (m : Nat) (v : ModuleSt) (hs : Keeps s0 s) :
    Keeps s0 (State.setModule s d e m v) := by
  unfold State.setModule
  repeat' with_reducible first
    | assumption | exact id | intro _ | dsimp only | split | refine Keeps.mk' ?_ rfl rfl (fun _ => id) rfl rfl ?_ ?_ ?_ ?_ ?_

theorem State.askPort_keeps {s0 s : State} (site : Nat) (r : FarReq) (hs : Keeps s0 s) :
    Keeps s0 (State.askPort s site r) := by
  unfold State.askPort
  repeat' with_reducible first
    | assumption | intro _ | apply Keeps.ite | dsimp only | split | apply State.arbAsk_keeps | apply State.setFarPort_keeps

theorem State.dropLine_keeps {s0 s : State} (grain : Nat) (hs : Keeps s0 s) :
    Keeps s0 (State.dropLine s grain) := by
  unfold State.dropLine
  repeat' with_reducible first
    | assumption | exact id | intro _ | dsimp only | split | refine Keeps.mk' ?_ rfl rfl (fun _ => id) rfl rfl ?_ ?_ ?_ ?_ ?_

theorem State.farPut_keeps {s0 s : State} (loc : FarLoc) (g : Nat) (data : List Byte) (diff : Nat) (hs : Keeps s0 s) :
    Keeps s0 (State.farPut s loc g data diff) := by
  unfold State.farPut
  repeat' with_reducible first
    | assumption | exact id | exact memWf_memWrite _ _ _ | intro _ | dsimp only | split
    | refine Keeps.mk' ?_ rfl rfl (fun _ => id) rfl rfl ?_ ?_ ?_ ?_ ?_

theorem State.flip_keeps {s0 s : State} (mem : Nat) (unit : Nat) (hr : Nat) (addr : Nat) (data : List Byte) (hs : Keeps s0 s) :
    Keeps s0 (State.flip s mem unit hr addr data).1 := by
  unfold State.flip
  repeat' with_reducible first | assumption | intro _ | apply Keeps.ite_fst | dsimp only | split | apply State.fput_keeps

theorem State.putBack_keeps {s0 s : State} (c : LineAt) (hr : Nat) (g : Nat) (bad : Bool) (data : List Byte) (loc : FarLoc) (hs : Keeps s0 s) :
    Keeps s0 (State.putBack s c hr g bad data loc) := by
  unfold State.putBack
  repeat' with_reducible first
    | assumption | intro _ | apply Keeps.ite | dsimp only | split | apply State.farPut_keeps | apply State.flip_keeps

theorem State.unrecovered_keeps {s0 s : State} (e : RelEntry) (hs : Keeps s0 s) :
    Keeps s0 (State.unrecovered s e) := by
  unfold State.unrecovered
  repeat' with_reducible first
    | assumption | intro _ | dsimp only | split | apply State.relEvent_keeps | apply State.relAdd_keeps | apply State.fput_keeps
    | apply State.fadd_keeps

theorem State.writeBackGranules_keeps {s0 a4 : State} (c : LineAt) (l : Line) (cipher : List Byte) (hr : Nat) (a5 : List Nat) (hs : Keeps s0 a4) :
    Keeps s0 (State.writeBackGranules c l cipher hr a4 a5) := by
  induction a5 generalizing a4 with
  | nil =>
    unfold State.writeBackGranules
    repeat' with_reducible first | assumption
  | cons b bs ih =>
    unfold State.writeBackGranules
    repeat' with_reducible first
      | assumption | intro _ | dsimp only | split | apply ih | apply State.putBack_keeps | apply State.unrecovered_keeps

theorem State.writeBack_keeps {s0 s : State} (c : LineAt) (l : Line) (hs : Keeps s0 s) :
    Keeps s0 (State.writeBack s c l) := by
  unfold State.writeBack
  repeat' with_reducible first
    | assumption | intro _ | apply Keeps.ite | apply Keeps.foldl | dsimp only | split | apply State.askPort_keeps
    | apply State.writeBackGranules_keeps

theorem State.flushLine_keeps {s0 s : State} (grain : Nat) (hs : Keeps s0 s) :
    Keeps s0 (State.flushLine s grain) := by
  unfold State.flushLine
  repeat' with_reducible first | assumption | intro _ | dsimp only | split | apply State.dropLine_keeps | apply State.writeBack_keeps

theorem State.makeRoom_keeps {s0 s : State} (c : LineAt) (hs : Keeps s0 s) :
    Keeps s0 (State.makeRoom s c).1 := by
  unfold State.makeRoom
  repeat' with_reducible first | assumption | intro _ | dsimp only | split | apply State.flushLine_keeps

theorem State.placeLine_keeps {s0 s : State} (c : LineAt) (l : Line) (hs : Keeps s0 s) :
    Keeps s0 (State.placeLine s c l) := by
  unfold State.placeLine
  repeat' with_reducible first
    | assumption | exact id | intro _ | refine Keeps.of_fst (by assumption) ?_ | dsimp only | split | apply State.makeRoom_keeps
    | apply State.writeBack_keeps | refine Keeps.mk' ?_ rfl rfl (fun _ => id) rfl rfl ?_ ?_ ?_ ?_ ?_

theorem State.takeGrants_keeps {s0 s : State} (rq : Requester) (hr : Nat) (c : LineAt) (n : Nat) (hs : Keeps s0 s) :
    KeepsOption s0 (State.takeGrants s rq hr c n) := by
  unfold State.takeGrants
  repeat' with_reducible first
    | assumption | exact id | intro _ | apply KeepsOption.of_some | apply KeepsOption.of_none | apply KeepsOption.map
    | apply KeepsOption.ite | dsimp only | split | apply State.setFarPort_keeps
    | refine Keeps.mk' ?_ rfl rfl (fun _ => id) rfl rfl ?_ ?_ ?_ ?_ ?_

theorem State.takeSlip_keeps {s0 s : State} (k : Nat) (hs : Keeps s0 s) :
    Keeps s0 (State.takeSlip s k) := by
  unfold State.takeSlip
  repeat' with_reducible first
    | assumption | exact id | intro _ | dsimp only | split | refine Keeps.mk' ?_ rfl rfl (fun _ => id) rfl rfl ?_ ?_ ?_ ?_ ?_

theorem State.repaired_keeps {s0 s : State} (e : RelEntry) (hs : Keeps s0 s) :
    Keeps s0 (State.repaired s e) := by
  unfold State.repaired
  repeat' with_reducible first
    | assumption | intro _ | apply Keeps.ite | dsimp only | split | apply State.relAdd_keeps | apply State.fadd_keeps
    | apply State.relEvent_keeps

theorem State.fetchGranule_keeps {s0 s : State} (rq : Requester) (c : LineAt) (transient : Nat) (g : Nat) (hs : Keeps s0 s) :
    Keeps s0 (State.fetchGranule s rq c transient g).1 := by
  unfold State.fetchGranule
  repeat' with_reducible first
    | assumption | intro _ | apply Keeps.ite | apply Keeps.ite_fst | dsimp only | split | apply State.takeSlip_keeps
    | apply State.fadd_keeps | apply State.repaired_keeps | apply State.farPut_keeps | apply State.unrecovered_keeps

theorem State.fetchGranules_keeps {s0 a3 : State} (rq : Requester) (c : LineAt) (transient : Nat) (a4 : List Nat) (hs : Keeps s0 a3) :
    Keeps s0 (State.fetchGranules rq c transient a3 a4).1 := by
  induction a4 generalizing a3 with
  | nil =>
    unfold State.fetchGranules
    repeat' with_reducible first | assumption
  | cons b bs ih =>
    unfold State.fetchGranules
    repeat' with_reducible first
      | assumption | intro _ | refine Keeps.of_fst (by assumption) ?_ | dsimp only | split | apply ih | apply State.fetchGranule_keeps

theorem State.fetchSectors_keeps {s0 s : State} (rq : Requester) (c : LineAt) (secs : List Nat) (transient : Nat) (hs : Keeps s0 s) :
    Keeps s0 (State.fetchSectors s rq c secs transient).1 := by
  unfold State.fetchSectors
  repeat' with_reducible first | assumption | intro _ | dsimp only | split | apply State.fetchGranules_keeps

theorem State.fillLine_keeps {s0 s : State} (rq : Requester) (hr : Nat) (c : LineAt) (missing : List Nat) (transient : Nat) (keep : Bool) (hs : Keeps s0 s) :
    Keeps s0 (State.fillLine s rq hr c missing transient keep).1 := by
  unfold State.fillLine
  repeat' with_reducible first
    | assumption | intro _ | apply Keeps.ite | apply Keeps.ite_fst | dsimp only | split | apply State.fetchSectors_keeps
    | apply State.placeLine_keeps

theorem State.bringLine_keeps {s0 s : State} (rq : Requester) (hr : Nat) (c : LineAt) (secs : List Nat) (transient : Nat) (keep : Bool) (hs : Keeps s0 s) :
    Keeps s0 (State.bringLine s rq hr c secs transient keep).1 := by
  unfold State.bringLine
  repeat' with_reducible first
    | assumption | intro _ | refine Keeps.of_option (by assumption) ?_ | apply Keeps.ite | apply Keeps.ite_fst | dsimp only | split
    | apply State.placeLine_keeps | apply State.takeGrants_keeps | apply State.fillLine_keeps

theorem State.coreFail_keeps {s0 s : State} (c : Nat) (hs : Keeps s0 s) :
    Keeps s0 (State.coreFail s c) := by
  unfold State.coreFail
  repeat' with_reducible first
    | assumption | intro _ | apply Keeps.ite | dsimp only | split | apply State.modCore_keeps | apply State.beginFence_keeps

theorem State.dropResv_keeps {s0 s : State} (m : NearMem) (c : Nat) (off : Nat) (n : Nat) (hs : Keeps s0 s) :
    Keeps s0 (State.dropResv s m c off n) := by
  unfold State.dropResv
  repeat' with_reducible first
    | assumption | exact id | intro _ | apply Keeps.ite | dsimp only | split
    | refine Keeps.mk' ?_ rfl rfl (fun _ => id) rfl rfl ?_ ?_ ?_ ?_ ?_

theorem State.takeTurn_keeps {s0 s : State} (rq : Requester) (grain : Nat) (hs : Keeps s0 s) :
    Keeps s0 (State.takeTurn s rq grain) := by
  unfold State.takeTurn
  repeat' with_reducible first
    | assumption | exact id | intro _ | apply Keeps.ite | dsimp only | split
    | refine Keeps.mk' ?_ rfl rfl (fun _ => id) rfl rfl ?_ ?_ ?_ ?_ ?_

theorem State.farTurn_keeps {s0 s : State} {α : Type} (rq : Requester) (pa : Nat) (act : State → State × Res α) (hs : Keeps s0 s) (hact : ∀ t, Keeps s0 t → Keeps s0 (act t).1) :
    Keeps s0 (State.farTurn s rq pa act).1 := by
  unfold State.farTurn
  repeat' with_reducible first
    | assumption | exact id | intro _ | refine Keeps.of_fst (by assumption) ?_ | apply Keeps.ite_fst | dsimp only | split
    | apply State.takeTurn_keeps | apply hact | refine Keeps.mk' ?_ rfl rfl (fun _ => id) rfl rfl ?_ ?_ ?_ ?_ ?_

theorem State.frameFail_keeps {s0 s : State} (rq : Requester) (c : LineAt) (way : Nat) (addr : Nat) (hs : Keeps s0 s) :
    Keeps s0 (State.frameFail s rq c way addr) := by
  unfold State.frameFail
  repeat' with_reducible first
    | assumption | exact id | intro _ | apply Keeps.ite | dsimp only | split | apply State.relAdd_keeps | apply State.relEvent_keeps
    | apply State.addDefect_keeps | apply State.fput_keeps | refine Keeps.mk' ?_ rfl rfl (fun _ => id) rfl rfl ?_ ?_ ?_ ?_ ?_

theorem State.testLine_keeps {s0 s : State} (rq : Requester) (c : LineAt) (gs : List Nat) (hs : Keeps s0 s) :
    Keeps s0 (State.testLine s rq c gs).1 := by
  unfold State.testLine
  repeat' with_reducible first
    | assumption | intro _ | apply Keeps.ite | apply Keeps.ite_fst | dsimp only | split | apply State.dropLine_keeps
    | apply State.frameFail_keeps | apply State.unrecovered_keeps | apply State.flushLine_keeps

theorem State.lineRead_keeps {s0 s : State} (rq : Requester) (hr : Nat) (pa : Nat) (n : Nat) (transient : Nat) (keep : Bool) (hs : Keeps s0 s) :
    Keeps s0 (State.lineRead s rq hr pa n transient keep).1 := by
  unfold State.lineRead
  repeat' with_reducible first
    | assumption | intro _ | refine Keeps.of_fst (by assumption) ?_ | dsimp only | split | apply State.testLine_keeps
    | apply State.bringLine_keeps

theorem State.wholeLine_keeps {s0 s : State} (hr : Nat) (c : LineAt) (hs : Keeps s0 s) :
    Keeps s0 (State.wholeLine s hr c).1 := by
  unfold State.wholeLine
  repeat' with_reducible first | assumption | intro _ | apply Keeps.ite | dsimp only | split | apply State.setFarPort_keeps

theorem State.storeLine_keeps {s0 a2 : State} (c : LineAt) (owner : Nat) (a3 : Line) (a4 : List Nat) (hs : Keeps s0 a2) :
    Keeps s0 (State.storeLine c owner a2 a3 a4).1 := by
  induction a4 generalizing a2 a3 with
  | nil =>
    unfold State.storeLine
    repeat' with_reducible first | assumption
  | cons b bs ih =>
    unfold State.storeLine
    repeat' with_reducible first | assumption | intro _ | dsimp only | split | apply ih | apply State.flip_keeps

theorem State.writeHit_keeps {s0 s : State} (c : LineAt) (h : LineHit) (off : Nat) (bs : List Byte) (hs : Keeps s0 s) :
    Keeps s0 (State.writeHit s c h off bs).1 := by
  unfold State.writeHit
  repeat' with_reducible first
    | assumption | intro _ | apply Keeps.ite_fst | dsimp only | split | apply State.storeLine_keeps | apply State.placeLine_keeps

theorem State.lineWrite_keeps {s0 s : State} (rq : Requester) (hr : Nat) (pa : Nat) (bs : List Byte) (hs : Keeps s0 s) :
    Keeps s0 (State.lineWrite s rq hr pa bs).1 := by
  unfold State.lineWrite
  repeat' with_reducible first
    | assumption | intro _ | refine Keeps.of_fst (by assumption) ?_ | apply Keeps.ite_fst | dsimp only | split
    | apply State.testLine_keeps | apply State.wholeLine_keeps | apply State.writeHit_keeps | apply State.bringLine_keeps

theorem State.updateLine_keeps {s0 a5 : State} (rq : Requester) (hr : Nat) (grain : Nat) (op : AtomOp) (width : Nat) (a6 : List (Nat × Nat × Nat)) (hs : Keeps s0 a5) :
    Keeps s0 (State.updateLine rq hr grain op width a5 a6).1 := by
  induction a6 generalizing a5 with
  | nil =>
    unfold State.updateLine
    repeat' with_reducible first | assumption
  | cons b bs ih =>
    unfold State.updateLine
    repeat' with_reducible first
      | assumption | intro _ | refine Keeps.of_fst (by assumption) ?_ | dsimp only | split | apply ih | apply State.lineRead_keeps
      | apply State.lineWrite_keeps

theorem State.lineCombine_keeps {s0 s : State} (rq : Requester) (hr : Nat) (grain : Nat) (op : AtomOp) (width : Nat) (elems : List (Nat × Nat × Nat)) (hs : Keeps s0 s) :
    Keeps s0 (State.lineCombine s rq hr grain op width elems).1 := by
  unfold State.lineCombine
  repeat' with_reducible first
    | assumption | intro _ | refine Keeps.of_fst (by assumption) ?_ | apply Keeps.ite_fst | dsimp only | split
    | apply State.updateLine_keeps | apply State.fadd_keeps

theorem State.farCombine_keeps {s0 s : State} (rq : Requester) (hr : Nat) (a3 : Nat) (op : AtomOp) (width : Nat) (elems : List (Nat × Nat × Nat)) (hs : Keeps s0 s) :
    Keeps s0 (State.farCombine s rq hr a3 op width elems).1 := by
  unfold State.farCombine
  repeat' with_reducible first | assumption | intro _ | dsimp only | split | apply State.farTurn_keeps | apply State.lineCombine_keeps

theorem State.farAtomic_keeps {s0 s : State} (rq : Requester) (hr : Nat) (a3 : Nat) (op : AtomOp) (width : Nat) (v : Nat) (expected : Nat) (hs : Keeps s0 s) :
    Keeps s0 (State.farAtomic s rq hr a3 op width v expected).1 := by
  unfold State.farAtomic
  repeat' with_reducible first
    | assumption | intro _ | refine Keeps.of_fst (by assumption) ?_ | dsimp only | split | apply State.farCombine_keeps

theorem State.joinFill_keeps {s0 s : State} (rq : Requester) (pa : Nat) (n : Nat) (hs : Keeps s0 s) :
    Keeps s0 (State.joinFill s rq pa n) := by
  unfold State.joinFill
  repeat' with_reducible first
    | assumption | exact id | intro _ | dsimp only | split | refine Keeps.mk' ?_ rfl rfl (fun _ => id) rfl rfl ?_ ?_ ?_ ?_ ?_

theorem State.farReadPart_keeps {s0 s : State} (rq : Requester) (hr : Nat) (a3 : Nat) (n : Nat) (hs : Keeps s0 s) :
    Keeps s0 (State.farReadPart s rq hr a3 n).1 := by
  unfold State.farReadPart
  repeat' with_reducible first | assumption | intro _ | dsimp only | split | apply State.joinFill_keeps | apply State.lineRead_keeps

theorem State.farWritePart_keeps {s0 s : State} (rq : Requester) (hr : Nat) (a3 : Nat) (bs : List Byte) (hs : Keeps s0 s) :
    Keeps s0 (State.farWritePart s rq hr a3 bs).1 := by
  unfold State.farWritePart
  repeat' with_reducible first | assumption | intro _ | dsimp only | split | apply State.farTurn_keeps | apply State.lineWrite_keeps

theorem State.keepHeld_keeps {s0 s : State} (u : State) (hs : Keeps s0 s) :
    Keeps s0 (State.keepHeld s u) := by
  unfold State.keepHeld
  repeat' with_reducible first
    | assumption | exact id | intro _ | apply Keeps.ite | apply Keeps.foldl | dsimp only | split | apply State.fadd_keeps
    | refine Keeps.mk' ?_ rfl rfl (fun _ => id) rfl rfl ?_ ?_ ?_ ?_ ?_

theorem State.lineAtomic_keeps {s0 s : State} (rq : Requester) (hr : Nat) (pa : Nat) (op : AtomOp) (width : Nat) (v : Nat) (expected : Nat) (hs : Keeps s0 s) :
    Keeps s0 (State.lineAtomic s rq hr pa op width v expected).1 := by
  unfold State.lineAtomic
  repeat' with_reducible first
    | assumption | intro _ | refine Keeps.of_fst (by assumption) ?_ | dsimp only | split | apply State.lineCombine_keeps

theorem State.nearFail_keeps {s0 s : State} (rq : Requester) (m : NearMem) (c : Nat) (g : Nat) (hs : Keeps s0 s) :
    Keeps s0 (State.nearFail s rq m c g) := by
  unfold State.nearFail
  repeat' with_reducible first
    | assumption | intro _ | dsimp only | split | apply State.unrecovered_keeps | apply State.fadd_keeps | apply State.fput_keeps
    | apply State.coreFail_keeps

theorem State.nearPut_keeps {s0 s : State} (m : NearMem) (c : Nat) (g : Nat) (data : List Byte) (diff : Nat) (hs : Keeps s0 s) :
    Keeps s0 (State.nearPut s m c g data diff) := by
  unfold State.nearPut
  repeat' with_reducible first
    | assumption | exact id | exact memWf_memWrite _ _ _ | intro _ | dsimp only | split
    | refine Keeps.mk' ?_ rfl rfl (fun _ => id) rfl rfl ?_ ?_ ?_ ?_ ?_

theorem State.touchBank_keeps {s0 s : State} (c : Nat) (grain : Nat) (hs : Keeps s0 s) :
    Keeps s0 (State.touchBank s c grain) := by
  unfold State.touchBank
  repeat' with_reducible first | assumption | intro _ | dsimp only | split | apply State.setNear_keeps

theorem State.nearReach_keeps {s0 s : State} (m : NearMem) (c : Nat) (off : Nat) (n : Nat) (hs : Keeps s0 s) :
    Keeps s0 (State.nearReach s m c off n) := by
  unfold State.nearReach
  repeat' with_reducible first | assumption | intro _ | apply Keeps.foldl | dsimp only | split | apply State.touchBank_keeps

theorem State.nearTest_keeps {s0 a4 : State} (rq : Requester) (m : NearMem) (c : Nat) (transient : Nat) (a5 : List Nat) (hs : Keeps s0 a4) :
    Keeps s0 (State.nearTest rq m c transient a4 a5).1 := by
  induction a5 generalizing a4 with
  | nil =>
    unfold State.nearTest
    repeat' with_reducible first | assumption
  | cons b bs ih =>
    unfold State.nearTest
    repeat' with_reducible first
      | assumption | intro _ | apply Keeps.ite_fst | apply Keeps.map_fst | dsimp only | split | apply ih | apply State.nearFail_keeps
      | apply State.takeSlip_keeps | apply State.fadd_keeps

theorem State.nearRead_keeps {s0 s : State} (rq : Requester) (m : NearMem) (c : Nat) (off : Nat) (n : Nat) (transient : Nat) (hs : Keeps s0 s) :
    Keeps s0 (State.nearRead s rq m c off n transient).1 := by
  unfold State.nearRead
  repeat' with_reducible first
    | assumption | intro _ | refine Keeps.of_fst (by assumption) ?_ | dsimp only | split | apply State.nearTest_keeps
    | apply State.nearReach_keeps

theorem State.nearStore_keeps {s0 a3 : State} (m : NearMem) (c : Nat) (hr : Nat) (a4 : Nat) (a5 : List (List Byte)) (hs : Keeps s0 a3) :
    Keeps s0 (State.nearStore m c hr a3 a4 a5) := by
  induction a5 generalizing a3 a4 with
  | nil =>
    unfold State.nearStore
    repeat' with_reducible first | assumption
  | cons b bs ih =>
    unfold State.nearStore
    repeat' with_reducible first
      | assumption | intro _ | dsimp only | split | apply ih | apply State.flip_keeps | apply State.nearPut_keeps

theorem State.nearWrite_keeps {s0 s : State} (rq : Requester) (m : NearMem) (c : Nat) (off : Nat) (bs : List Byte) (hs : Keeps s0 s) :
    Keeps s0 (State.nearWrite s rq m c off bs).1 := by
  unfold State.nearWrite
  repeat' with_reducible first
    | assumption | intro _ | refine Keeps.of_fst (by assumption) ?_ | dsimp only | split | apply State.nearTest_keeps
    | apply State.nearReach_keeps | apply State.dropResv_keeps | apply State.nearStore_keeps

theorem State.readPart_keeps {s0 s : State} (rq : Requester) (hr : Nat) (core : Option Nat) (allow : Space → Bool) (a5 : Nat) (n : Nat) (hs : Keeps s0 s) :
    Keeps s0 (State.readPart s rq hr core allow a5 n).1 := by
  unfold State.readPart
  repeat' with_reducible first
    | assumption | intro _ | apply Keeps.ite_fst | dsimp only | split | apply State.farReadPart_keeps | apply State.nearRead_keeps

theorem State.readParts_keeps {s0 a4 : State} (rq : Requester) (hr : Nat) (core : Option Nat) (allow : Space → Bool) (a5 : List (Nat × Nat)) (hs : Keeps s0 a4) :
    Keeps s0 (State.readParts rq hr core allow a4 a5).1 := by
  induction a5 generalizing a4 with
  | nil =>
    unfold State.readParts
    repeat' with_reducible first | assumption
  | cons b bs ih =>
    unfold State.readParts
    repeat' with_reducible first
      | assumption | intro _ | refine Keeps.of_fst (by assumption) ?_ | dsimp only | split | apply ih | apply State.readPart_keeps

theorem State.readAt_keeps {s0 s : State} (rq : Requester) (hr : Nat) (core : Option Nat) (allow : Space → Bool) (a5 : Nat) (n : Nat) (hs : Keeps s0 s) :
    Keeps s0 (State.readAt s rq hr core allow a5 n).1 := by
  unfold State.readAt
  repeat' with_reducible first | assumption | intro _ | dsimp only | split | apply State.readParts_keeps

theorem State.settle_keeps {s0 s : State} (rq : Requester) (hs : Keeps s0 s) :
    Keeps s0 (State.settle s rq) := by
  unfold State.settle
  repeat' with_reducible first
    | assumption | exact id | intro _ | dsimp only | split | refine Keeps.mk' ?_ rfl rfl (fun _ => id) rfl rfl ?_ ?_ ?_ ?_ ?_

theorem State.writePart_keeps {s0 s : State} (rq : Requester) (hr : Nat) (core : Option Nat) (allow : Space → Bool) (a5 : Nat) (bs : List Byte) (hs : Keeps s0 s) :
    Keeps s0 (State.writePart s rq hr core allow a5 bs).1 := by
  unfold State.writePart
  repeat' with_reducible first
    | assumption | intro _ | apply Keeps.ite_fst | dsimp only | split | apply State.farWritePart_keeps | apply State.nearWrite_keeps
    | apply State.hostWrite_keeps

theorem State.writeParts_keeps {s0 a4 : State} (rq : Requester) (hr : Nat) (core : Option Nat) (allow : Space → Bool) (a5 : List (Nat × Nat)) (a6 : List Byte) (hs : Keeps s0 a4) :
    Keeps s0 (State.writeParts rq hr core allow a4 a5 a6).1 := by
  induction a5 generalizing a4 a6 with
  | nil =>
    unfold State.writeParts
    repeat' with_reducible first | assumption
  | cons b bs ih =>
    unfold State.writeParts
    repeat' with_reducible first
      | assumption | intro _ | refine Keeps.of_fst (by assumption) ?_ | dsimp only | split | apply ih | apply State.writePart_keeps

theorem State.writeAt_keeps {s0 s : State} (rq : Requester) (hr : Nat) (core : Option Nat) (allow : Space → Bool) (a5 : Nat) (bs : List Byte) (hs : Keeps s0 s) :
    Keeps s0 (State.writeAt s rq hr core allow a5 bs).1 := by
  unfold State.writeAt
  repeat' with_reducible first | assumption | intro _ | dsimp only | split | apply State.writeParts_keeps

theorem State.clearStat_keeps {s0 s : State} (r : Reg) (w : RegWrite) (clear : Fld) (fs : List Fld) (hs : Keeps s0 s) :
    Keeps s0 (State.clearStat s r w clear fs) := by
  unfold State.clearStat
  repeat' with_reducible first | assumption | intro _ | apply Keeps.ite | apply Keeps.foldl | dsimp only | split | apply State.fput_keeps

theorem State.guarded_keeps {s0 s : State} (m : Master) (r : Reg) (act : State → State) (hs : Keeps s0 s) (hact : ∀ t, Keeps s0 t → Keeps s0 (act t)) :
    Keeps s0 (State.guarded s m r act) := by
  unfold State.guarded
  repeat' with_reducible first | assumption | intro _ | apply Keeps.ite | dsimp only | split | apply State.fadd_keeps | apply hact

theorem State.setFab_keeps {s0 s : State} (d : Nat) (p : Nat) (v : FabPort) (hs : Keeps s0 s) :
    Keeps s0 (State.setFab s d p v) := by
  unfold State.setFab
  repeat' with_reducible first
    | assumption | exact id | intro _ | dsimp only | split | refine Keeps.mk' ?_ rfl rfl (fun _ => id) rfl rfl ?_ ?_ ?_ ?_ ?_

theorem State.sendFlit_keeps {s0 s : State} (d : Nat) (p : Nat) (seq : Nat) (content : List Byte) (hs : Keeps s0 s) :
    Keeps s0 (State.sendFlit s d p seq content) := by
  unfold State.sendFlit
  repeat' with_reducible first
    | assumption | intro _ | apply Keeps.ite | dsimp only | split | apply State.emit_keeps | apply State.setFab_keeps

theorem State.putFlit_keeps {s0 s : State} (d : Nat) (p : Nat) (content : List Byte) (ends : List Packet) (hs : Keeps s0 s) :
    Keeps s0 (State.putFlit s d p content ends) := by
  unfold State.putFlit
  repeat' with_reducible first | assumption | intro _ | dsimp only | split | apply State.sendFlit_keeps | apply State.setFab_keeps

theorem State.sendContent_keeps {s0 a2 : State} (d : Nat) (p : Nat) (a3 : List (List Byte × List Packet)) (hs : Keeps s0 a2) :
    Keeps s0 (State.sendContent d p a2 a3) := by
  induction a3 generalizing a2 with
  | nil =>
    unfold State.sendContent
    repeat' with_reducible first | assumption
  | cons b bs ih =>
    unfold State.sendContent
    repeat' with_reducible first
      | assumption | intro _ | apply Keeps.ite | apply Keeps.repeat | dsimp only | split | apply ih | apply State.putFlit_keeps

theorem State.pumpPort_keeps {s0 s : State} (d : Nat) (p : Nat) (hs : Keeps s0 s) :
    Keeps s0 (State.pumpPort s d p) := by
  unfold State.pumpPort
  repeat' with_reducible first
    | assumption | intro _ | apply Keeps.ite | dsimp only | split | apply State.sendContent_keeps | apply State.setFab_keeps

theorem State.enqueue_keeps {s0 s : State} (d : Nat) (p : Nat) (k : Packet) (vcUp : Bool) (hs : Keeps s0 s) :
    Keeps s0 (State.enqueue s d p k vcUp) := by
  unfold State.enqueue
  repeat' with_reducible first | assumption | intro _ | dsimp only | split | apply State.pumpPort_keeps | apply State.setFab_keeps

theorem State.fabIssue_keeps {s0 s : State} (k : Packet) (ports : Nat) (issuer : FabIssuer) (index : Nat) (hs : Keeps s0 s) :
    Keeps s0 (State.fabIssue s k ports issuer index).1 := by
  unfold State.fabIssue
  repeat' with_reducible first
    | assumption | exact id | intro _ | apply Keeps.ite_fst | dsimp only | split | apply State.emit_keeps | apply State.enqueue_keeps
    | refine Keeps.mk' ?_ rfl rfl (fun _ => id) rfl rfl ?_ ?_ ?_ ?_ ?_

theorem State.sendControl_keeps {s0 s : State} (d : Nat) (p : Nat) (bytes : List Byte) (hs : Keeps s0 s) :
    Keeps s0 (State.sendControl s d p bytes) := by
  unfold State.sendControl
  repeat' with_reducible first | assumption | intro _ | dsimp only | split | apply State.sendContent_keeps

theorem State.sendPailMsg_keeps {s0 s : State} (d : Nat) (hr : Nat) (a3 : Bool) (dst : Nat) (ports : Nat) (addr : Nat) (key : Nat) (data : List Byte) (hs : Keeps s0 s) :
    Keeps s0 (State.sendPailMsg s d hr a3 dst ports addr key data).1 := by
  unfold State.sendPailMsg
  repeat' with_reducible first
    | assumption | intro _ | refine Keeps.of_fst (by assumption) ?_ | apply Keeps.ite_fst | apply Keeps.foldl_fst | dsimp only | split
    | apply State.fabIssue_keeps

theorem State.answer_keeps {s0 s : State} {α : Type} (rq : Requester) (r : Res α) (data : α → List Byte) (hs : Keeps s0 s) :
    Keeps s0 (State.answer s rq r data) := by
  unfold State.answer
  repeat' with_reducible first | assumption | intro _ | dsimp only | split | apply State.emit_keeps

theorem State.layerOffsetWrite_keeps {s0 s : State} (c : Nat) (w : RegWrite) (hs : Keeps s0 s) :
    Keeps s0 (State.layerOffsetWrite s c w) := by
  unfold State.layerOffsetWrite
  repeat' with_reducible first | assumption | intro _ | dsimp only | split | apply State.put_keeps

theorem State.sliceServe_keeps {s0 s : State} (c : Nat) (q : SliceReq) (hs : Keeps s0 s) :
    Keeps s0 (State.sliceServe s c q) := by
  unfold State.sliceServe
  repeat' with_reducible first
    | assumption | intro _ | dsimp only | split | apply State.nearRead_keeps | apply State.answer_keeps | apply State.nearWrite_keeps

theorem State.sliceDrain_keeps {s0 s : State} (c : Nat) (hs : Keeps s0 s) :
    Keeps s0 (State.sliceDrain s c) := by
  unfold State.sliceDrain
  repeat' with_reducible first
    | assumption | intro _ | apply Keeps.ite | apply Keeps.foldl | dsimp only | split | apply State.sliceServe_keeps
    | apply State.setNear_keeps

theorem State.sliceAccept_keeps {s0 s : State} (c : Nat) (q : SliceReq) (hs : Keeps s0 s) :
    Keeps s0 (State.sliceAccept s c q) := by
  unfold State.sliceAccept
  repeat' with_reducible first
    | assumption | intro _ | apply Keeps.ite | dsimp only | split | apply State.setNear_keeps | apply State.sliceServe_keeps
    | apply State.sliceDrain_keeps

theorem execChannelPowerDown_keeps {s0 s : State} (c : Nat) (channel : Nat) (hs : Keeps s0 s) :
    KeepsOutcome s0 (execChannelPowerDown c channel s) := by
  unfold execChannelPowerDown
  repeat' with_reducible first
    | assumption | intro _ | apply KeepsOutcome.next | apply KeepsOutcome.ite | dsimp only | split | apply State.setNear_keeps

theorem execLayerOffsetWrite_keeps {s0 s : State} (c : Nat) (w : RegWrite) (hs : Keeps s0 s) :
    KeepsOutcome s0 (execLayerOffsetWrite c w s) := by
  unfold execLayerOffsetWrite
  repeat' with_reducible first
    | assumption | intro _ | apply KeepsOutcome.next | dsimp only | split | apply State.guarded_keeps | apply State.layerOffsetWrite_keeps

theorem execSliceRefresh_keeps {s0 s : State} (c : Nat) (bank : Nat) (busy : Bool) (hs : Keeps s0 s) :
    KeepsOutcome s0 (execSliceRefresh c bank busy s) := by
  unfold execSliceRefresh
  repeat' with_reducible first
    | assumption | intro _ | apply KeepsOutcome.next | apply KeepsOutcome.ite | dsimp only | split | apply State.setNear_keeps

theorem execSliceRequest_keeps {s0 s : State} (c : Nat) (grain : Nat) (src : SliceSource) (acc : SliceAccess) (hs : Keeps s0 s) :
    KeepsOutcome s0 (execSliceRequest c grain src acc s) := by
  unfold execSliceRequest
  repeat' with_reducible first
    | assumption | intro _ | apply KeepsOutcome.next | apply KeepsOutcome.ite | dsimp only | split | apply State.emit_keeps
    | apply State.sliceAccept_keeps

theorem State.scrambleSet_keeps {s0 s : State} (n : Nat) (hs : Keeps s0 s) :
    Keeps s0 (State.scrambleSet s n) := by
  unfold State.scrambleSet
  repeat' with_reducible first
    | assumption | exact id | intro _ | dsimp only | split | refine Keeps.mk' ?_ rfl rfl (fun _ => id) rfl rfl ?_ ?_ ?_ ?_ ?_

theorem State.dropFills_keeps {s0 s : State} (n : Nat) (hs : Keeps s0 s) :
    Keeps s0 (State.dropFills s n) := by
  unfold State.dropFills
  repeat' with_reducible first
    | assumption | exact id | intro _ | dsimp only | split | refine Keeps.mk' ?_ rfl rfl (fun _ => id) rfl rfl ?_ ?_ ?_ ?_ ?_

theorem State.flushSet_keeps {s0 s : State} (n : Nat) (hs : Keeps s0 s) :
    Keeps s0 (State.flushSet s n) := by
  unfold State.flushSet
  repeat' with_reducible first
    | assumption | intro _ | apply Keeps.foldl | dsimp only | split | apply State.dropFills_keeps | apply State.flushLine_keeps

theorem State.beginSetChange_keeps {s0 s : State} (n : Nat) (hs : Keeps s0 s) :
    Keeps s0 (State.beginSetChange s n) := by
  unfold State.beginSetChange
  repeat' with_reducible first
    | assumption | exact id | intro _ | dsimp only | split | apply State.scrambleSet_keeps | apply State.flushSet_keeps
    | refine Keeps.mk' ?_ rfl rfl (fun _ => id) rfl rfl ?_ ?_ ?_ ?_ ?_

theorem State.zeroSet_keeps {s0 s : State} (n : Nat) (hs : Keeps s0 s) :
    Keeps s0 (State.zeroSet s n) := by
  unfold State.zeroSet
  repeat' with_reducible first
    | assumption | exact id | exact memWf_smClear _ _ | intro _ | apply Keeps.foldl | dsimp only | split
    | refine Keeps.mk' ?_ rfl rfl (fun _ => id) rfl rfl ?_ ?_ ?_ ?_ ?_

theorem State.clearRows_keeps {s0 s : State} (n : Nat) (hs : Keeps s0 s) :
    Keeps s0 (State.clearRows s n) := by
  unfold State.clearRows
  repeat' with_reducible first
    | assumption | exact id | intro _ | dsimp only | split | apply State.dropFills_keeps | apply State.zeroSet_keeps
    | refine Keeps.mk' ?_ rfl rfl (fun _ => id) rfl rfl ?_ ?_ ?_ ?_ ?_

theorem State.joinQueue_keeps {s0 s : State} (q : ScReq) (hs : Keeps s0 s) :
    Keeps s0 (State.joinQueue s q) := by
  unfold State.joinQueue
  repeat' with_reducible first
    | assumption | exact id | intro _ | apply Keeps.ite | dsimp only | split | apply State.fadd_keeps
    | refine Keeps.mk' ?_ rfl rfl (fun _ => id) rfl rfl ?_ ?_ ?_ ?_ ?_

theorem State.missGrant_keeps {s0 s : State} (slice : Nat) (late : Bool) (hs : Keeps s0 s) :
    Keeps s0 (State.missGrant s slice late) := by
  unfold State.missGrant
  repeat' with_reducible first
    | assumption | exact id | intro _ | dsimp only | split | refine Keeps.mk' ?_ rfl rfl (fun _ => id) rfl rfl ?_ ?_ ?_ ?_ ?_

theorem State.openFill_keeps {s0 s : State} (q : ScReq) (late : Bool) (hs : Keeps s0 s) :
    Keeps s0 (State.openFill s q late) := by
  unfold State.openFill
  repeat' with_reducible first
    | assumption | exact id | intro _ | dsimp only | split | apply State.askPort_keeps | apply State.missGrant_keeps
    | refine Keeps.mk' ?_ rfl rfl (fun _ => id) rfl rfl ?_ ?_ ?_ ?_ ?_

theorem State.startFill_keeps {s0 s : State} (q : ScReq) (late : Bool) (hs : Keeps s0 s) :
    Keeps s0 (State.startFill s q late) := by
  unfold State.startFill
  repeat' with_reducible first
    | assumption | exact id | intro _ | apply Keeps.ite | dsimp only | split | apply State.openFill_keeps
    | refine Keeps.mk' ?_ rfl rfl (fun _ => id) rfl rfl ?_ ?_ ?_ ?_ ?_

theorem State.respond_keeps {s0 s : State} {α : Type} (q : ScReq) (r : Res α) (data : α → List Byte) (hs : Keeps s0 s) :
    Keeps s0 (State.respond s q r data) := by
  unfold State.respond
  repeat' with_reducible first | assumption | intro _ | apply Keeps.ite | dsimp only | split | apply State.answer_keeps

theorem State.perform_keeps {s0 s : State} (q : ScReq) (hs : Keeps s0 s) :
    Keeps s0 (State.perform s q) := by
  unfold State.perform
  repeat' with_reducible first
    | assumption | intro _ | refine Keeps.of_fst (by assumption) ?_ | dsimp only | split | apply State.lineRead_keeps
    | apply State.startFill_keeps | apply State.respond_keeps | apply State.lineWrite_keeps | apply State.lineAtomic_keeps

theorem State.submit_keeps {s0 s : State} (q : ScReq) (late : Bool) (hs : Keeps s0 s) :
    Keeps s0 (State.submit s q late) := by
  unfold State.submit
  repeat' with_reducible first
    | assumption | exact id | intro _ | apply Keeps.ite | dsimp only | split | apply State.emit_keeps | apply State.joinQueue_keeps
    | apply State.testLine_keeps | apply State.perform_keeps | apply State.startFill_keeps
    | refine Keeps.mk' ?_ rfl rfl (fun _ => id) rfl rfl ?_ ?_ ?_ ?_ ?_

theorem State.submitAll_keeps {s0 a0 : State} (a1 : List ScReq) (hs : Keeps s0 a0) :
    Keeps s0 (State.submitAll a0 a1) := by
  induction a1 generalizing a0 with
  | nil =>
    unfold State.submitAll
    repeat' with_reducible first | assumption
  | cons b bs ih =>
    unfold State.submitAll
    repeat' with_reducible first | assumption | intro _ | dsimp only | split | apply ih | apply State.submit_keeps

theorem State.releaseHeld_keeps {s0 s : State} (hs : Keeps s0 s) :
    Keeps s0 (State.releaseHeld s) := by
  unfold State.releaseHeld
  repeat' with_reducible first
    | assumption | exact id | intro _ | dsimp only | split | apply State.submitAll_keeps
    | refine Keeps.mk' ?_ rfl rfl (fun _ => id) rfl rfl ?_ ?_ ?_ ?_ ?_

theorem State.clearSet_keeps {s0 s : State} (n : Nat) (hs : Keeps s0 s) :
    Keeps s0 (State.clearSet s n) := by
  unfold State.clearSet
  repeat' with_reducible first | assumption | intro _ | dsimp only | split | apply State.releaseHeld_keeps | apply State.clearRows_keeps

theorem State.enterFar_keeps {s0 s : State} (f : Nat) (pc : Nat) (r : Nat) (hs : Keeps s0 s) :
    Keeps s0 (State.enterFar s f pc r) := by
  unfold State.enterFar
  repeat' with_reducible first | assumption | intro _ | dsimp only | split | apply State.setFarPort_keeps

theorem State.farModeWrite_keeps {s0 s : State} (f : Nat) (w : RegWrite) (hs : Keeps s0 s) :
    Keeps s0 (State.farModeWrite s f w) := by
  unfold State.farModeWrite
  repeat' with_reducible first | assumption | intro _ | apply Keeps.ite | dsimp only | split | apply State.put_keeps

theorem State.popMiss_keeps {s0 s : State} (slice : Nat) (hs : Keeps s0 s) :
    Keeps s0 (State.popMiss s slice) := by
  unfold State.popMiss
  repeat' with_reducible first
    | assumption | exact id | intro _ | dsimp only | split | apply State.submitAll_keeps | apply State.submit_keeps
    | refine Keeps.mk' ?_ rfl rfl (fun _ => id) rfl rfl ?_ ?_ ?_ ?_ ?_

theorem State.serveHit_keeps {s0 s : State} (c : LineAt) (h : LineHit) (q : ScReq) (hs : Keeps s0 s) :
    Keeps s0 (State.serveHit s c h q) := by
  unfold State.serveHit
  repeat' with_reducible first
    | assumption | intro _ | apply Keeps.ite | dsimp only | split | apply State.respond_keeps | apply State.writeHit_keeps
    | apply State.emit_keeps | apply State.fadd_keeps

theorem State.serveFill_keeps {s0 a2 : State} (c : LineAt) (h : LineHit) (a3 : List ScReq) (hs : Keeps s0 a2) :
    Keeps s0 (State.serveFill c h a2 a3) := by
  induction a3 generalizing a2 with
  | nil =>
    unfold State.serveFill
    repeat' with_reducible first | assumption

  | cons b bs ih =>
    unfold State.serveFill
    repeat' with_reducible first
      | assumption | exact id | intro _ | apply Keeps.ite | apply Keeps.foldl | dsimp only | split | apply ih
      | apply State.joinQueue_keeps | apply State.openFill_keeps | apply State.perform_keeps | apply State.serveHit_keeps
      | refine Keeps.mk' ?_ rfl rfl (fun _ => id) rfl rfl ?_ ?_ ?_ ?_ ?_

theorem State.finishFill_keeps {s0 s : State} (f : Fill) (transient : Nat) (hs : Keeps s0 s) :
    Keeps s0 (State.finishFill s f transient) := by
  unfold State.finishFill
  repeat' with_reducible first
    | assumption | exact id | intro _ | apply Keeps.foldl | dsimp only | split | apply State.emit_keeps | apply State.fillLine_keeps
    | apply State.popMiss_keeps | apply State.serveFill_keeps | refine Keeps.mk' ?_ rfl rfl (fun _ => id) rfl rfl ?_ ?_ ?_ ?_ ?_

theorem State.purge_keeps {s0 s : State} (slice : Nat) (hr : Nat) (hs : Keeps s0 s) :
    Keeps s0 (State.purge s slice hr) := by
  unfold State.purge
  repeat' with_reducible first
    | assumption | exact id | intro _ | dsimp only | split | refine Keeps.mk' ?_ rfl rfl (fun _ => id) rfl rfl ?_ ?_ ?_ ?_ ?_

theorem State.scCtlWrite_keeps {s0 s : State} (slice : Nat) (w : RegWrite) (hs : Keeps s0 s) :
    Keeps s0 (State.scCtlWrite s slice w) := by
  unfold State.scCtlWrite
  repeat' with_reducible first
    | assumption | exact id | intro _ | apply Keeps.ite | dsimp only | split | apply State.put_keeps | apply State.purge_keeps
    | refine Keeps.mk' ?_ rfl rfl (fun _ => id) rfl rfl ?_ ?_ ?_ ?_ ?_

theorem State.sepWrite_keeps {s0 s : State} (r : Reg) (i : Nat) (w : RegWrite) (hs : Keeps s0 s) :
    Keeps s0 (State.sepWrite s r i w) := by
  unfold State.sepWrite
  repeat' with_reducible first
    | assumption | intro _ | apply Keeps.ite | apply Keeps.foldl | dsimp only | split | apply State.fput_keeps | apply State.put_keeps
    | apply State.beginSetChange_keeps

theorem execFarModeWrite_keeps {s0 s : State} (f : Nat) (w : RegWrite) (hs : Keeps s0 s) :
    KeepsOutcome s0 (execFarModeWrite f w s) := by
  unfold execFarModeWrite
  repeat' with_reducible first
    | assumption | intro _ | apply KeepsOutcome.next | dsimp only | split | apply State.guarded_keeps | apply State.farModeWrite_keeps

theorem execFarRefresh_keeps {s0 s : State} (f : Nat) (bank : Nat) (postpone : Bool) (hs : Keeps s0 s) :
    KeepsOutcome s0 (execFarRefresh f bank postpone s) := by
  unfold execFarRefresh
  repeat' with_reducible first
    | assumption | intro _ | apply KeepsOutcome.next | apply KeepsOutcome.ite | apply Keeps.ite | dsimp only | split
    | apply State.setFarPort_keeps | apply State.fadd_keeps

theorem execScAtomic_keeps {s0 s : State} (rq : Requester) (hr : Nat) (pa : Nat) (op : AtomOp) (width : Nat) (v : Nat) (expected : Nat) (hs : Keeps s0 s) :
    KeepsOutcome s0 (execScAtomic rq hr pa op width v expected s) := by
  unfold execScAtomic
  repeat' with_reducible first | assumption | intro _ | apply KeepsOutcome.next | dsimp only | split | apply State.submit_keeps

theorem execScPurge_keeps {s0 s : State} (slice : Nat) (w : RegWrite) (hs : Keeps s0 s) :
    KeepsOutcome s0 (execScPurge slice w s) := by
  unfold execScPurge
  repeat' with_reducible first
    | assumption | intro _ | apply KeepsOutcome.next | dsimp only | split | apply State.guarded_keeps | apply State.scCtlWrite_keeps

theorem execScPurgeComplete_keeps {s0 s : State} (slice : Nat) (hs : Keeps s0 s) :
    KeepsOutcome s0 (execScPurgeComplete slice s) := by
  unfold execScPurgeComplete
  repeat' with_reducible first
    | assumption | exact id | intro _ | apply KeepsOutcome.next | dsimp only | split | apply State.fput_keeps
    | refine Keeps.mk' ?_ rfl rfl (fun _ => id) rfl rfl ?_ ?_ ?_ ?_ ?_

theorem execScRead_keeps {s0 s : State} (rq : Requester) (hr : Nat) (pa : Nat) (len : Nat) (tagged : Bool) (hs : Keeps s0 s) :
    KeepsOutcome s0 (execScRead rq hr pa len tagged s) := by
  unfold execScRead
  repeat' with_reducible first | assumption | intro _ | apply KeepsOutcome.next | dsimp only | split | apply State.submit_keeps

theorem execScStatClear_keeps {s0 s : State} (slice : Nat) (w : RegWrite) (hs : Keeps s0 s) :
    KeepsOutcome s0 (execScStatClear slice w s) := by
  unfold execScStatClear
  repeat' with_reducible first
    | assumption | intro _ | apply KeepsOutcome.next | dsimp only | split | apply State.guarded_keeps | apply State.clearStat_keeps

theorem execScWrite_keeps {s0 s : State} (rq : Requester) (hr : Nat) (pa : Nat) (bytes : List Byte) (hs : Keeps s0 s) :
    KeepsOutcome s0 (execScWrite rq hr pa bytes s) := by
  unfold execScWrite
  repeat' with_reducible first | assumption | intro _ | apply KeepsOutcome.next | dsimp only | split | apply State.submit_keeps

theorem execSepNarrowWrite_keeps {s0 s : State} (i : Nat) (w : RegWrite) (hs : Keeps s0 s) :
    KeepsOutcome s0 (execSepNarrowWrite i w s) := by
  unfold execSepNarrowWrite
  repeat' with_reducible first
    | assumption | intro _ | apply KeepsOutcome.next | dsimp only | split | apply State.guarded_keeps | apply State.sepWrite_keeps

theorem execSepScopeWrite_keeps {s0 s : State} (i : Nat) (w : RegWrite) (hs : Keeps s0 s) :
    KeepsOutcome s0 (execSepScopeWrite i w s) := by
  unfold execSepScopeWrite
  repeat' with_reducible first
    | assumption | intro _ | apply KeepsOutcome.next | dsimp only | split | apply State.guarded_keeps | apply State.sepWrite_keeps

theorem State.checkRow_keeps {s0 a1 : State} (r : RowId) (a2 : List Nat) (hs : Keeps s0 a1) :
    Keeps s0 (State.checkRow r a1 a2).1 := by
  induction a2 generalizing a1 with
  | nil =>
    unfold State.checkRow
    repeat' with_reducible first | assumption
  | cons b bs ih =>
    unfold State.checkRow
    repeat' with_reducible first
      | assumption | intro _ | apply Keeps.ite | apply Keeps.ite_fst | dsimp only | split | apply ih | apply State.takeSlip_keeps
      | apply State.fadd_keeps

theorem State.ladleCount_keeps {s0 s : State} (port : Nat) (status : Nat) (hs : Keeps s0 s) :
    Keeps s0 (State.ladleCount s port status) := by
  unfold State.ladleCount
  repeat' with_reducible first | assumption | intro _ | apply Keeps.ite | dsimp only | split | apply State.fadd_keeps

theorem State.ladleEnd_keeps {s0 s : State} (port : Nat) (cmd : LadleCmd) (status : Nat) (rows : Nat) (hs : Keeps s0 s) :
    Keeps s0 (State.ladleEnd s port cmd status rows) := by
  unfold State.ladleEnd
  repeat' with_reducible first
    | assumption | intro _ | dsimp only | split | apply State.ladleCount_keeps | apply State.sendRecord_keeps | apply State.emit_keeps
    | apply State.fadd_keeps | apply State.releaseHeld_keeps

theorem State.copyEnd_keeps {s0 s : State} (site : Nat) (cmd : LadleCmd) (mirror : Bool) (status : Nat) (rows : Nat) (hs : Keeps s0 s) :
    Keeps s0 (State.copyEnd s site cmd mirror status rows) := by
  unfold State.copyEnd
  repeat' with_reducible first
    | assumption | intro _ | apply Keeps.ite | apply Keeps.foldl | dsimp only | split | apply State.setLadle_keeps
    | apply State.ladleEnd_keeps

theorem State.enterLadle_keeps {s0 s : State} (port : Nat) (r : Nat) (hs : Keeps s0 s) :
    Keeps s0 (State.enterLadle s port r) := by
  unfold State.enterLadle
  repeat' with_reducible first | assumption | intro _ | dsimp only | split | apply State.setLadle_keeps

theorem State.ladleBegin_keeps {s0 s : State} (cmd : LadleCmd) (hs : Keeps s0 s) :
    Keeps s0 (State.ladleBegin s cmd) := by
  unfold State.ladleBegin
  repeat' with_reducible first | assumption | intro _ | apply Keeps.foldl | dsimp only | split | apply State.setLadle_keeps

theorem State.ladleFail_keeps {s0 s : State} (port : Nat) (bad : FarLoc × Nat) (hs : Keeps s0 s) :
    Keeps s0 (State.ladleFail s port bad) := by
  unfold State.ladleFail
  repeat' with_reducible first | assumption | intro _ | dsimp only | split | apply State.fput_keeps | apply State.unrecovered_keeps

theorem State.ladleFlush_keeps {s0 s : State} (cmd : LadleCmd) (hs : Keeps s0 s) :
    Keeps s0 (State.ladleFlush s cmd) := by
  unfold State.ladleFlush
  repeat' with_reducible first
    | assumption | exact id | intro _ | apply Keeps.ite | apply Keeps.foldl | dsimp only | split | apply State.flushLine_keeps
    | refine Keeps.mk' ?_ rfl rfl (fun _ => id) rfl rfl ?_ ?_ ?_ ?_ ?_

theorem State.ladleRefresh_keeps {s0 s : State} (site : Nat) (pc : Nat) (banks : List Nat) (hs : Keeps s0 s) :
    Keeps s0 (State.ladleRefresh s site pc banks) := by
  unfold State.ladleRefresh
  repeat' with_reducible first
    | assumption | intro _ | apply Keeps.ite | apply Keeps.foldl | dsimp only | split | apply State.fadd_keeps
    | apply State.setFarPort_keeps

theorem State.ladleRow_keeps {s0 s : State} (cmd : LadleCmd) (dst : RowId) (bufs : List (List Byte)) (hs : Keeps s0 s) :
    Keeps s0 (State.ladleRow s cmd dst bufs) := by
  unfold State.ladleRow
  repeat' with_reducible first | assumption | intro _ | apply Keeps.foldl | dsimp only | split | apply State.farPut_keeps

theorem State.readRow_keeps {s0 s : State} (r : RowId) (hs : Keeps s0 s) :
    Keeps s0 (State.readRow s r).1 := by
  unfold State.readRow
  repeat' with_reducible first
    | assumption | intro _ | refine Keeps.of_fst (by assumption) ?_ | dsimp only | split | apply State.checkRow_keeps

theorem State.readRows_keeps {s0 a0 : State} (a1 : List RowId) (hs : Keeps s0 a0) :
    Keeps s0 (State.readRows a0 a1).1 := by
  induction a1 generalizing a0 with
  | nil =>
    unfold State.readRows
    repeat' with_reducible first | assumption
  | cons b bs ih =>
    unfold State.readRows
    repeat' with_reducible first
      | assumption | intro _ | refine Keeps.of_fst (by assumption) ?_ | dsimp only | split | apply ih | apply State.readRow_keeps

theorem State.ladleRowsNow_keeps {s0 a3 : State} (cmd : LadleCmd) (mirror : Bool) (site : Nat) (a4 : List Nat) (hs : Keeps s0 a3) :
    Keeps s0 (State.ladleRowsNow cmd mirror site a3 a4).1 := by
  induction a4 generalizing a3 with
  | nil =>
    unfold State.ladleRowsNow
    repeat' with_reducible first | assumption
  | cons b bs ih =>
    unfold State.ladleRowsNow
    repeat' with_reducible first
      | assumption | intro _ | refine Keeps.of_fst (by assumption) ?_ | dsimp only | split | apply ih | apply State.fadd_keeps
      | apply State.ladleRefresh_keeps | apply State.readRows_keeps | apply State.ladleRow_keeps

theorem State.ladleRunNow_keeps {s0 s : State} (cmd : LadleCmd) (hs : Keeps s0 s) :
    Keeps s0 (State.ladleRunNow s cmd).1 := by
  unfold State.ladleRunNow
  repeat' with_reducible first
    | assumption | intro _ | refine Keeps.of_fst (by assumption) ?_ | apply Keeps.ite_fst | apply Keeps.foldl_fst | dsimp only | split
    | apply State.arbServe_keeps | apply State.arbAsk_keeps | apply State.ladleCount_keeps | apply State.ladleRowsNow_keeps
    | apply State.ladleFail_keeps | apply State.ladleFlush_keeps

theorem State.ladleStart_keeps {s0 s : State} (port : Nat) (hs : Keeps s0 s) :
    Keeps s0 (State.ladleStart s port) := by
  unfold State.ladleStart
  repeat' with_reducible first
    | assumption | intro _ | apply Keeps.ite | dsimp only | split | apply State.setLadle_keeps | apply State.ladleEnd_keeps
    | apply State.ladleBegin_keeps | apply State.ladleFlush_keeps

theorem State.seqEnd_keeps {s0 s : State} (site : Nat) (q : LadleSeq) (status : Nat) (hs : Keeps s0 s) :
    Keeps s0 (State.seqEnd s site q status) := by
  unfold State.seqEnd
  repeat' with_reducible first
    | assumption | intro _ | apply Keeps.ite | dsimp only | split | apply State.setLadle_keeps | apply State.copyEnd_keeps

theorem State.ladleStep_keeps {s0 s : State} (site : Nat) (q : LadleSeq) (hs : Keeps s0 s) :
    Keeps s0 (State.ladleStep s site q) := by
  unfold State.ladleStep
  repeat' with_reducible first
    | assumption | intro _ | refine Keeps.of_fst (by assumption) ?_ | apply Keeps.ite | dsimp only | split | apply State.fadd_keeps
    | apply State.ladleRefresh_keeps | apply State.readRows_keeps | apply State.seqEnd_keeps | apply State.ladleFail_keeps
    | apply State.setLadle_keeps | apply State.ladleRow_keeps | apply State.releaseHeld_keeps

theorem State.ladleSubmit_keeps {s0 s : State} (port : Nat) (op : Nat) (words : List Nat) (issuer : Requester) (hs : Keeps s0 s) :
    Keeps s0 (State.ladleSubmit s port op words issuer) := by
  unfold State.ladleSubmit
  repeat' with_reducible first
    | assumption | intro _ | apply Keeps.ite | dsimp only | split | apply State.ladleEnd_keeps | apply State.arbAsk_keeps
    | apply State.setLadle_keeps | apply State.enterLadle_keeps | apply State.arbServe_keeps

theorem execLadleAnd_keeps {s0 s : State} (port : Nat) (words : List Nat) (issuer : Requester) (hs : Keeps s0 s) :
    KeepsOutcome s0 (execLadleAnd port words issuer s) := by
  unfold execLadleAnd
  repeat' with_reducible first | assumption | intro _ | apply KeepsOutcome.next | dsimp only | split | apply State.ladleSubmit_keeps

theorem execLadleClearSet_keeps {s0 s : State} (port : Nat) (words : List Nat) (issuer : Requester) (hs : Keeps s0 s) :
    KeepsOutcome s0 (execLadleClearSet port words issuer s) := by
  unfold execLadleClearSet
  repeat' with_reducible first | assumption | intro _ | apply KeepsOutcome.next | dsimp only | split | apply State.ladleSubmit_keeps

theorem execLadleCopy_keeps {s0 s : State} (port : Nat) (words : List Nat) (issuer : Requester) (hs : Keeps s0 s) :
    KeepsOutcome s0 (execLadleCopy port words issuer s) := by
  unfold execLadleCopy
  repeat' with_reducible first | assumption | intro _ | apply KeepsOutcome.next | dsimp only | split | apply State.ladleSubmit_keeps

theorem execLadleFill_keeps {s0 s : State} (port : Nat) (words : List Nat) (issuer : Requester) (hs : Keeps s0 s) :
    KeepsOutcome s0 (execLadleFill port words issuer s) := by
  unfold execLadleFill
  repeat' with_reducible first | assumption | intro _ | apply KeepsOutcome.next | dsimp only | split | apply State.ladleSubmit_keeps

theorem execLadleFlushComplete_keeps {s0 s : State} (port : Nat) (pc : Nat) (hs : Keeps s0 s) :
    KeepsOutcome s0 (execLadleFlushComplete port pc s) := by
  unfold execLadleFlushComplete
  repeat' with_reducible first | assumption | intro _ | apply KeepsOutcome.next | dsimp only | split | apply State.setLadle_keeps

theorem execLadleNot_keeps {s0 s : State} (port : Nat) (words : List Nat) (issuer : Requester) (hs : Keeps s0 s) :
    KeepsOutcome s0 (execLadleNot port words issuer s) := by
  unfold execLadleNot
  repeat' with_reducible first | assumption | intro _ | apply KeepsOutcome.next | dsimp only | split | apply State.ladleSubmit_keeps

theorem execLadleOr_keeps {s0 s : State} (port : Nat) (words : List Nat) (issuer : Requester) (hs : Keeps s0 s) :
    KeepsOutcome s0 (execLadleOr port words issuer s) := by
  unfold execLadleOr
  repeat' with_reducible first | assumption | intro _ | apply KeepsOutcome.next | dsimp only | split | apply State.ladleSubmit_keeps

theorem execLadleXor_keeps {s0 s : State} (port : Nat) (words : List Nat) (issuer : Requester) (hs : Keeps s0 s) :
    KeepsOutcome s0 (execLadleXor port words issuer s) := by
  unfold execLadleXor
  repeat' with_reducible first | assumption | intro _ | apply KeepsOutcome.next | dsimp only | split | apply State.ladleSubmit_keeps

theorem execLdlStatClear_keeps {s0 s : State} (port : Nat) (w : RegWrite) (hs : Keeps s0 s) :
    KeepsOutcome s0 (execLdlStatClear port w s) := by
  unfold execLdlStatClear
  repeat' with_reducible first
    | assumption | intro _ | apply KeepsOutcome.next | dsimp only | split | apply State.guarded_keeps | apply State.clearStat_keeps

theorem State.copyGrain_keeps {s0 s : State} (d : Nat) (hr : Nat) (a3 : Nat) (b : Nat) (hs : Keeps s0 s) :
    Keeps s0 (State.copyGrain s d hr a3 b).1 := by
  unfold State.copyGrain
  repeat' with_reducible first
    | assumption | intro _ | refine Keeps.of_fst (by assumption) ?_ | dsimp only | split | apply State.lineRead_keeps
    | apply State.farTurn_keeps | apply State.lineWrite_keeps

theorem State.copyThrough_keeps {s0 s : State} (d : Nat) (hr : Nat) (src : RowId) (dst : RowId) (hs : Keeps s0 s) :
    Keeps s0 (State.copyThrough s d hr src dst).1 := by
  unfold State.copyThrough
  repeat' with_reducible first
    | assumption | intro _ | apply Keeps.ite_fst | apply Keeps.foldl_fst | dsimp only | split | apply State.copyGrain_keeps

theorem State.copyPail_keeps {s0 s : State} (d : Nat) (hr : Nat) (src : RowId) (dst : RowId) (hs : Keeps s0 s) :
    Keeps s0 (State.copyPail s d hr src dst).1 := by
  unfold State.copyPail
  repeat' with_reducible first
    | assumption | intro _ | apply Keeps.ite_fst | dsimp only | split | apply State.copyThrough_keeps | apply State.ladleRunNow_keeps

theorem State.copyYoke_keeps {s0 s : State} (d : Nat) (t : Tree) (old : Nat) (new : Nat) (hs : Keeps s0 s) :
    Keeps s0 (State.copyYoke s d t old new).1 := by
  unfold State.copyYoke
  repeat' with_reducible first
    | assumption | intro _ | apply Keeps.ite_fst | apply Keeps.foldl_fst | dsimp only | split | apply State.copyPail_keeps

theorem State.pailError_keeps {s0 s : State} (d : Nat) (n : Nat) (yoke : Nat) (status : Nat) (hs : Keeps s0 s) :
    Keeps s0 (State.pailError s d n yoke status) := by
  unfold State.pailError
  repeat' with_reducible first | assumption | intro _ | dsimp only | split | apply State.fput_keeps

theorem pailFail_keeps {s0 st : State} {α : Type} (status : Nat) (hs : Keeps s0 st) :
    Keeps s0 ((pailFail status (α := α)).run st).2 := by
  unfold pailFail
  repeat' with_reducible first | assumption | intro _ | apply Keeps.run_throw

theorem getTree_keeps {s0 st : State} (d : Nat) (n : Nat) (hs : Keeps s0 st) :
    Keeps s0 ((getTree d n).run st).2 := by
  unfold getTree
  repeat' with_reducible first
    | assumption | intro _ | apply Keeps.run_pure | apply Keeps.run_get_bind | dsimp only | split | apply pailFail_keeps

theorem pailAccess_keeps {s0 st : State} {α : Type} (a1 : Nat) (f : State → State × Res α) (hs : Keeps s0 st) (hf : ∀ t, Keeps s0 t → Keeps s0 (f t).1) :
    Keeps s0 ((pailAccess a1 f (α := α)).run st).2 := by
  unfold pailAccess
  repeat' with_reducible first
    | assumption | intro _ | apply Keeps.run_pure | apply Keeps.run_get_bind | apply Keeps.run_set | apply Keeps.run_bind | dsimp only
    | split | apply pailFail_keeps | apply hf

theorem pailAtom_keeps {s0 st : State} (d : Nat) (hr : Nat) (a2 : Nat) (op : AtomOp) (width : Nat) (v : Nat) (hs : Keeps s0 st) :
    Keeps s0 ((pailAtom d hr a2 op width v).run st).2 := by
  unfold pailAtom
  repeat' with_reducible first | assumption | intro _ | dsimp only | split | apply pailAccess_keeps | apply State.farAtomic_keeps

theorem addCount_keeps {s0 st : State} (d : Nat) (n : Nat) (y : Nat) (k : Nat) (hs : Keeps s0 st) :
    Keeps s0 ((addCount d n y k).run st).2 := by
  unfold addCount
  repeat' with_reducible first
    | assumption | intro _ | apply Keeps.run_pure | apply Keeps.run_bind | dsimp only | split | apply getTree_keeps | apply pailAtom_keeps

theorem pailRead_keeps {s0 st : State} (d : Nat) (hr : Nat) (a2 : Nat) (n : Nat) (hs : Keeps s0 st) :
    Keeps s0 ((pailRead d hr a2 n).run st).2 := by
  unfold pailRead
  repeat' with_reducible first | assumption | intro _ | dsimp only | split | apply pailAccess_keeps | apply State.readAt_keeps

theorem setTree_keeps {s0 st : State} (d : Nat) (n : Nat) (t : Tree) (hs : Keeps s0 st) :
    Keeps s0 ((setTree d n t).run st).2 := by
  unfold setTree
  repeat' with_reducible first | assumption | intro _ | apply Keeps.run_modify | dsimp only | split | apply State.setPail_keeps

theorem allocYoke_keeps {s0 st : State} (d : Nat) (n : Nat) (hs : Keeps s0 st) :
    Keeps s0 ((allocYoke d n).run st).2 := by
  unfold allocYoke
  repeat' with_reducible first
    | assumption | intro _ | apply Keeps.run_pure | apply Keeps.run_ite | apply Keeps.run_bind | dsimp only | split | apply getTree_keeps
    | apply pailAtom_keeps | apply pailRead_keeps | apply setTree_keeps | apply pailFail_keeps

theorem pailWrite_keeps {s0 st : State} (d : Nat) (hr : Nat) (a2 : Nat) (bs : List Byte) (hs : Keeps s0 st) :
    Keeps s0 ((pailWrite d hr a2 bs).run st).2 := by
  unfold pailWrite
  repeat' with_reducible first | assumption | intro _ | dsimp only | split | apply pailAccess_keeps | apply State.writeAt_keeps

theorem pushYoke_keeps {s0 st : State} (d : Nat) (n : Nat) (y : Nat) (hs : Keeps s0 st) :
    Keeps s0 ((pushYoke d n y).run st).2 := by
  unfold pushYoke
  repeat' with_reducible first
    | assumption | intro _ | apply Keeps.run_throw | apply Keeps.run_ite | apply Keeps.run_modify | apply Keeps.run_bind
    | apply Keeps.run_tryCatch | dsimp only | split | apply getTree_keeps | apply pailWrite_keeps | apply setTree_keeps
    | apply State.pailError_keeps | apply pailFail_keeps

theorem freeYoke_keeps {s0 st : State} (d : Nat) (n : Nat) (y : Nat) (hs : Keeps s0 st) :
    Keeps s0 ((freeYoke d n y).run st).2 := by
  unfold freeYoke
  repeat' with_reducible first
    | assumption | intro _ | apply Keeps.run_ite | apply Keeps.run_get_bind | apply Keeps.run_modify | dsimp only | split
    | apply pushYoke_keeps | apply State.setPail_keeps

theorem dropCount_keeps {s0 st : State} (d : Nat) (n : Nat) (y : Nat) (k : Nat) (hs : Keeps s0 st) :
    Keeps s0 ((dropCount d n y k).run st).2 := by
  unfold dropCount
  repeat' with_reducible first
    | assumption | intro _ | apply Keeps.run_pure | apply Keeps.run_ite | apply Keeps.run_bind | dsimp only | split | apply getTree_keeps
    | apply pailAtom_keeps | apply freeYoke_keeps

theorem readBucket_keeps {s0 st : State} (d : Nat) (t : Tree) (bucket : Nat) (hs : Keeps s0 st) :
    Keeps s0 ((readBucket d t bucket).run st).2 := by
  unfold readBucket
  repeat' with_reducible first
    | assumption | intro _ | apply Keeps.run_pure | apply Keeps.run_bind | dsimp only | split | apply pailRead_keeps

theorem writeWay_keeps {s0 st : State} (d : Nat) (t : Tree) (bucket : Nat) (w : Nat) (n : Node) (hs : Keeps s0 st) :
    Keeps s0 ((writeWay d t bucket w n).run st).2 := by
  unfold writeWay
  repeat' with_reducible first | assumption | intro _ | dsimp only | split | apply pailWrite_keeps

theorem dropNodes_keeps {s0 st : State} (d : Nat) (n : Nat) (y : Nat) (hs : Keeps s0 st) :
    Keeps s0 ((dropNodes d n y).run st).2 := by
  unfold dropNodes
  repeat' with_reducible first
    | assumption | intro _ | apply Keeps.run_pure | apply Keeps.run_ite | apply Keeps.run_bind | apply Keeps.run_forM | dsimp only | split
    | apply getTree_keeps | apply readBucket_keeps | apply writeWay_keeps | apply dropCount_keeps

theorem copyFresh_keeps {s0 st : State} (d : Nat) (n : Nat) (old : Nat) (hs : Keeps s0 st) :
    Keeps s0 ((copyFresh d n old).run st).2 := by
  unfold copyFresh
  repeat' with_reducible first
    | assumption | intro _ | apply Keeps.run_pure | apply Keeps.run_ite | apply Keeps.run_get_bind | apply Keeps.run_set
    | apply Keeps.run_modify | apply Keeps.run_bind | dsimp only | split | apply getTree_keeps | apply allocYoke_keeps
    | apply State.copyYoke_keeps | apply State.fadd_keeps | apply pailFail_keeps | apply State.pailError_keeps | apply dropCount_keeps
    | apply dropNodes_keeps

theorem getSeq_keeps {s0 st : State} (d : Nat) (k : Nat) (hs : Keeps s0 st) :
    Keeps s0 ((getSeq d k).run st).2 := by
  unfold getSeq
  repeat' with_reducible first
    | assumption | intro _ | apply Keeps.run_pure | apply Keeps.run_get_bind | dsimp only | split | apply pailFail_keeps

theorem readEntry_keeps {s0 st : State} (d : Nat) (hr : Nat) (q : Seq) (vis : Nat) (b : Nat) (hs : Keeps s0 st) :
    Keeps s0 ((readEntry d hr q vis b).run st).2 := by
  unfold readEntry
  repeat' with_reducible first
    | assumption | intro _ | apply Keeps.run_pure | apply Keeps.run_ite | apply Keeps.run_bind | dsimp only | split | apply pailRead_keeps

theorem mateEntry_keeps {s0 st : State} (d : Nat) (n : Nat) (k : Nat) (vis : Nat) (b : Nat) (hs : Keeps s0 st) :
    Keeps s0 ((mateEntry d n k vis b).run st).2 := by
  unfold mateEntry
  repeat' with_reducible first
    | assumption | intro _ | apply Keeps.run_pure | apply Keeps.run_bind | dsimp only | split | apply getTree_keeps | apply getSeq_keeps
    | apply readEntry_keeps

theorem pailUndo_keeps {s0 st : State} {α : Type} (m : PailM α) (undo : PailM Unit) (hs : Keeps s0 st) (hm : ∀ t, Keeps s0 t → Keeps s0 (m.run t).2) (hundo : ∀ t, Keeps s0 t → Keeps s0 (undo.run t).2) :
    Keeps s0 ((pailUndo m undo (α := α)).run st).2 := by
  unfold pailUndo
  repeat' with_reducible first
    | assumption | intro _ | apply Keeps.run_throw | apply Keeps.run_ite | apply Keeps.run_bind | apply Keeps.run_tryCatch | dsimp only
    | split | apply hm | apply hundo

theorem setSeq_keeps {s0 st : State} (d : Nat) (k : Nat) (q : Seq) (hs : Keeps s0 st) :
    Keeps s0 ((setSeq d k q).run st).2 := by
  unfold setSeq
  repeat' with_reducible first | assumption | intro _ | apply Keeps.run_modify | dsimp only | split | apply State.setPail_keeps

theorem writeEntry_keeps {s0 st : State} (d : Nat) (hr : Nat) (k : Nat) (b : Nat) (e : PailEntry) (hs : Keeps s0 st) :
    Keeps s0 ((writeEntry d hr k b e).run st).2 := by
  unfold writeEntry
  repeat' with_reducible first
    | assumption | intro _ | apply Keeps.run_bind | dsimp only | split | apply getSeq_keeps | apply pailWrite_keeps | apply setSeq_keeps

theorem placeEntry_keeps {s0 st : State} (d : Nat) (n : Nat) (k : Nat) (b : Nat) (e : PailEntry) (hs : Keeps s0 st) :
    Keeps s0 ((placeEntry d n k b e).run st).2 := by
  unfold placeEntry
  repeat' with_reducible first
    | assumption | intro _ | apply Keeps.run_bind | dsimp only | split | apply getTree_keeps | apply pailUndo_keeps
    | apply writeEntry_keeps | apply dropCount_keeps

theorem moveEntry_keeps {s0 st : State} (d : Nat) (n : Nat) (k : Nat) (b : Nat) (e : PailEntry) (hs : Keeps s0 st) :
    Keeps s0 ((moveEntry d n k b e).run st).2 := by
  unfold moveEntry
  repeat' with_reducible first
    | assumption | intro _ | apply Keeps.run_bind | dsimp only | split | apply addCount_keeps | apply placeEntry_keeps

theorem pailNeed_keeps {s0 st : State} (ok : Bool) (status : Nat) (hs : Keeps s0 st) :
    Keeps s0 ((pailNeed ok status).run st).2 := by
  unfold pailNeed
  repeat' with_reducible first
    | assumption | intro _ | apply Keeps.run_pure | apply Keeps.run_ite | dsimp only | split | apply pailFail_keeps

theorem ownSeq_keeps {s0 st : State} (d : Nat) (n : Nat) (k : Nat) (hs : Keeps s0 st) :
    Keeps s0 ((ownSeq d n k).run st).2 := by
  unfold ownSeq
  repeat' with_reducible first
    | assumption | intro _ | apply Keeps.run_pure | apply Keeps.run_bind | dsimp only | split | apply getSeq_keeps | apply pailNeed_keeps

theorem ownTree_keeps {s0 st : State} (d : Nat) (hr : Nat) (n : Nat) (hs : Keeps s0 st) :
    Keeps s0 ((ownTree d hr n).run st).2 := by
  unfold ownTree
  repeat' with_reducible first
    | assumption | intro _ | apply Keeps.run_pure | apply Keeps.run_bind | dsimp only | split | apply getTree_keeps | apply pailNeed_keeps

theorem replaceLost_keeps {s0 st : State} (d : Nat) (n : Nat) (k : Nat) (b : Nat) (e : PailEntry) (mate : Option (Nat × PailEntry)) (hs : Keeps s0 st) :
    Keeps s0 ((replaceLost d n k b e mate).run st).2 := by
  unfold replaceLost
  repeat' with_reducible first
    | assumption | intro _ | apply Keeps.run_pure | apply Keeps.run_bind | dsimp only | split | apply allocYoke_keeps
    | apply placeEntry_keeps | apply dropCount_keeps | apply moveEntry_keeps

theorem yokeCount_keeps {s0 st : State} (d : Nat) (n : Nat) (y : Nat) (hs : Keeps s0 st) :
    Keeps s0 ((yokeCount d n y).run st).2 := by
  unfold yokeCount
  repeat' with_reducible first
    | assumption | intro _ | apply Keeps.run_pure | apply Keeps.run_bind | dsimp only | split | apply getTree_keeps | apply pailRead_keeps

theorem unshare_keeps {s0 st : State} (d : Nat) (n : Nat) (k : Nat) (b : Nat) (e : PailEntry) (mate : Option (Nat × PailEntry)) (hs : Keeps s0 st) :
    Keeps s0 ((unshare d n k b e mate).run st).2 := by
  unfold unshare
  repeat' with_reducible first
    | assumption | intro _ | apply Keeps.run_pure | apply Keeps.run_ite | apply Keeps.run_bind | dsimp only | split
    | apply yokeCount_keeps | apply copyFresh_keeps | apply placeEntry_keeps | apply dropCount_keeps | apply moveEntry_keeps

theorem prepareBlock_keeps {s0 st : State} (d : Nat) (n : Nat) (k : Nat) (vis : Nat) (b : Nat) (hs : Keeps s0 st) :
    Keeps s0 ((prepareBlock d n k vis b).run st).2 := by
  unfold prepareBlock
  repeat' with_reducible first
    | assumption | intro _ | apply Keeps.run_ite | apply Keeps.run_bind | dsimp only | split | apply getTree_keeps | apply getSeq_keeps
    | apply readEntry_keeps | apply mateEntry_keeps | apply replaceLost_keeps | apply unshare_keeps | apply moveEntry_keeps
    | apply allocYoke_keeps | apply placeEntry_keeps

theorem prepareRange_keeps {s0 st : State} (d : Nat) (n : Nat) (k : Nat) (vis : Nat) (first : Nat) (count : Nat) (hs : Keeps s0 st) :
    Keeps s0 ((prepareRange d n k vis first count).run st).2 := by
  unfold prepareRange
  repeat' with_reducible first | assumption | intro _ | apply Keeps.run_forM | dsimp only | split | apply prepareBlock_keeps

theorem writeSlots_keeps {s0 st : State} (d : Nat) (n : Nat) (k : Nat) (vis : Nat) (addr : Nat) (first : Nat) (count : Nat) (hs : Keeps s0 st) :
    Keeps s0 ((writeSlots d n k vis addr first count).run st).2 := by
  unfold writeSlots
  repeat' with_reducible first
    | assumption | intro _ | apply Keeps.run_pure | apply Keeps.run_get_bind | apply Keeps.run_bind | apply Keeps.run_mapM | dsimp only
    | split | apply getTree_keeps | apply getSeq_keeps | apply readEntry_keeps | apply pailWrite_keeps

theorem State.churnEnd_keeps {s0 s : State} (d : Nat) (k : Nat) (status : Nat) (hs : Keeps s0 s) :
    Keeps s0 (State.churnEnd s d k status) := by
  unfold State.churnEnd
  repeat' with_reducible first | assumption | intro _ | dsimp only | split | apply State.sendRecord_keeps | apply State.setPail_keeps

theorem State.gatherDone_keeps {s0 s : State} (d : Nat) (c : Nat) (arrayB : Bool) (hs : Keeps s0 s) :
    Keeps s0 (State.gatherDone s d c arrayB) := by
  unfold State.gatherDone
  repeat' with_reducible first | assumption | intro _ | dsimp only | split | apply State.setPail_keeps

theorem State.pailEnd_keeps {s0 s : State} (d : Nat) (tag : Nat) (status : Nat) (result : Nat) (hs : Keeps s0 s) :
    Keeps s0 (State.pailEnd s d tag status result) := by
  unfold State.pailEnd
  repeat' with_reducible first | assumption | intro _ | dsimp only | split | apply State.sendRecord_keeps

theorem treeOpenBody_keeps {s0 st : State} (d : Nat) (c : PailCmd) (hs : Keeps s0 st) :
    Keeps s0 ((treeOpenBody d c).run st).2 := by
  unfold treeOpenBody
  repeat' with_reducible first
    | assumption | intro _ | apply Keeps.run_pure | apply Keeps.run_get_bind | apply Keeps.run_bind | dsimp only | split
    | apply pailNeed_keeps | apply pailRead_keeps | apply setTree_keeps

theorem treeCloseBody_keeps {s0 st : State} (d : Nat) (c : PailCmd) (hs : Keeps s0 st) :
    Keeps s0 ((treeCloseBody d c).run st).2 := by
  unfold treeCloseBody
  repeat' with_reducible first
    | assumption | intro _ | apply Keeps.run_pure | apply Keeps.run_get_bind | apply Keeps.run_modify | apply Keeps.run_bind | dsimp only
    | split | apply ownTree_keeps | apply pailNeed_keeps | apply State.setPail_keeps

theorem evictLoop_keeps {s0 st : State} (d n fuel left : Nat) (hs : Keeps s0 st) : Keeps s0 ((evictLoop d n fuel left).run st).2 := by
  induction fuel generalizing left st with
  | zero =>
    rw [evictLoop]
    repeat' with_reducible first | assumption | intro _ | apply Keeps.run_pure
  | succ fuel ih =>
    cases left with
    | zero =>
      unfold evictLoop
      repeat' with_reducible first | assumption | intro _ | apply Keeps.run_pure
    | succ left =>
      unfold evictLoop
      repeat' with_reducible first
        | assumption | intro _ | apply Keeps.run_pure | apply Keeps.run_ite | apply Keeps.run_bind | dsimp only | split | apply ih
        | apply getTree_keeps | apply setTree_keeps | apply readBucket_keeps | apply writeWay_keeps | apply yokeCount_keeps
        | apply dropCount_keeps

theorem evictBody_keeps {s0 st : State} (d : Nat) (c : PailCmd) (hs : Keeps s0 st) :
    Keeps s0 ((evictBody d c).run st).2 := by
  unfold evictBody
  repeat' with_reducible first
    | assumption | intro _ | apply Keeps.run_bind | dsimp only | split | apply ownTree_keeps | apply evictLoop_keeps

theorem sendTwin_keeps {s0 st : State} (d : Nat) (msg : Nat) (t : Tree) (key : Nat) (data : List Byte) (hs : Keeps s0 st) :
    Keeps s0 ((sendTwin d msg t key data).run st).2 := by
  unfold sendTwin
  repeat' with_reducible first
    | assumption | intro _ | apply Keeps.run_pure | apply Keeps.run_ite | apply Keeps.run_get_bind | apply Keeps.run_set
    | apply Keeps.run_bind | dsimp only | split | apply State.sendPailMsg_keeps | apply pailFail_keeps

end Sys2Proof.Machine
end

