-- ==== Sys2Proof/Laws/Keeps2.lean ====
section
/-! SUPPORT. What the operations of Machine/ keep (`Keeps`), file 2 of 5:
Pails, Churn, Operands, Flags, Lessons, Loss, Matrix, Movers, Cores. -/

namespace Sys2Proof.Machine

theorem seqOpenBody_keeps {s0 st : State} (d : Nat) (c : PailCmd) (hs : Keeps s0 st) :
    Keeps s0 ((seqOpenBody d c).run st).2 := by
  unfold seqOpenBody
  repeat' with_reducible first
    | assumption | intro _ | apply Keeps.run_pure | apply Keeps.run_throw | apply Keeps.run_ite | apply Keeps.run_get_bind
    | apply Keeps.run_bind | apply Keeps.run_tryCatch | dsimp only | split | apply ownTree_keeps | apply pailNeed_keeps
    | apply setSeq_keeps | apply sendTwin_keeps

theorem cutSeq_keeps {s0 st : State} (d : Nat) (n : Nat) (k : Nat) (lo : Nat) (hs : Keeps s0 st) :
    Keeps s0 ((cutSeq d n k lo).run st).2 := by
  unfold cutSeq
  repeat' with_reducible first
    | assumption | intro _ | apply Keeps.run_pure | apply Keeps.run_ite | apply Keeps.run_bind | apply Keeps.run_forM | dsimp only | split
    | apply getTree_keeps | apply getSeq_keeps | apply readEntry_keeps | apply writeEntry_keeps | apply dropCount_keeps

theorem truncateSeq_keeps {s0 st : State} (d : Nat) (n : Nat) (k : Nat) (len : Nat) (hs : Keeps s0 st) :
    Keeps s0 ((truncateSeq d n k len).run st).2 := by
  unfold truncateSeq
  repeat' with_reducible first
    | assumption | intro _ | apply Keeps.run_bind | dsimp only | split | apply cutSeq_keeps | apply getSeq_keeps | apply setSeq_keeps

theorem seqCloseBody_keeps {s0 st : State} (d : Nat) (c : PailCmd) (hs : Keeps s0 st) :
    Keeps s0 ((seqCloseBody d c).run st).2 := by
  unfold seqCloseBody
  repeat' with_reducible first
    | assumption | intro _ | apply Keeps.run_pure | apply Keeps.run_modify | apply Keeps.run_bind | dsimp only | split
    | apply ownTree_keeps | apply ownSeq_keeps | apply truncateSeq_keeps | apply State.setPail_keeps

theorem matchLoop_keeps {s0 st : State} (d : Nat) (c : PailCmd) (a2 : Nat) (a3 : Nat) (a4 : List Byte) (hs : Keeps s0 st) :
    Keeps s0 ((matchLoop d c a2 a3 a4).run st).2 := by
  induction a2 generalizing st a3 a4 with
  | zero =>
    unfold matchLoop
    repeat' with_reducible first | assumption | intro _ | apply Keeps.run_pure

  | succ n ih =>
    unfold matchLoop
    repeat' with_reducible first
      | assumption | intro _ | apply Keeps.run_pure | apply Keeps.run_throw | apply Keeps.run_ite | apply Keeps.run_get_bind
      | apply Keeps.run_modify | apply Keeps.run_bind | dsimp only | split | apply ih | apply getTree_keeps | apply getSeq_keeps
      | apply pailRead_keeps | apply readBucket_keeps | apply State.fadd_keeps | apply moveEntry_keeps | apply setSeq_keeps
      | apply setTree_keeps | apply writeWay_keeps

theorem matchBody_keeps {s0 st : State} (d : Nat) (c : PailCmd) (hs : Keeps s0 st) :
    Keeps s0 ((matchBody d c).run st).2 := by
  unfold matchBody
  repeat' with_reducible first
    | assumption | intro _ | apply Keeps.run_bind | dsimp only | split | apply ownTree_keeps | apply ownSeq_keeps | apply pailNeed_keeps
    | apply matchLoop_keeps

theorem undoBeyond_keeps {s0 st : State} (d : Nat) (n : Nat) (k : Nat) (hs : Keeps s0 st) :
    Keeps s0 ((undoBeyond d n k).run st).2 := by
  unfold undoBeyond
  repeat' with_reducible first
    | assumption | intro _ | apply Keeps.run_pure | apply Keeps.run_ite | apply Keeps.run_bind | apply Keeps.run_forM | dsimp only | split
    | apply getTree_keeps | apply getSeq_keeps | apply readEntry_keeps | apply writeEntry_keeps | apply dropCount_keeps
    | apply setSeq_keeps

theorem appendBody_keeps {s0 st : State} (d : Nat) (c : PailCmd) (hs : Keeps s0 st) :
    Keeps s0 ((appendBody d c).run st).2 := by
  unfold appendBody
  repeat' with_reducible first
    | assumption | intro _ | apply Keeps.run_pure | apply Keeps.run_bind | dsimp only | split | apply ownTree_keeps | apply ownSeq_keeps
    | apply pailNeed_keeps | apply pailUndo_keeps | apply prepareRange_keeps | apply writeSlots_keeps | apply undoBeyond_keeps
    | apply getSeq_keeps | apply setSeq_keeps

theorem rangeLost_keeps {s0 st : State} (d : Nat) (t : Tree) (q : Seq) (first : Nat) (count : Nat) (hs : Keeps s0 st) :
    Keeps s0 ((rangeLost d t q first count).run st).2 := by
  unfold rangeLost
  repeat' with_reducible first
    | assumption | intro _ | apply Keeps.run_pure | apply Keeps.run_bind | apply Keeps.run_mapM | dsimp only | split
    | apply readEntry_keeps

theorem resolveBody_keeps {s0 st : State} (d : Nat) (c : PailCmd) (hs : Keeps s0 st) :
    Keeps s0 ((resolveBody d c).run st).2 := by
  unfold resolveBody
  repeat' with_reducible first
    | assumption | intro _ | apply Keeps.run_ite | apply Keeps.run_bind | dsimp only | split | apply ownTree_keeps | apply ownSeq_keeps
    | apply pailNeed_keeps | apply writeSlots_keeps | apply prepareRange_keeps | apply rangeLost_keeps

theorem chooseWay_keeps {s0 st : State} (d : Nat) (n : Nat) (ways : List Node) (hs : Keeps s0 st) :
    Keeps s0 ((chooseWay d n ways).run st).2 := by
  unfold chooseWay
  repeat' with_reducible first
    | assumption | intro _ | apply Keeps.run_pure | apply Keeps.run_bind | apply Keeps.run_filterM | dsimp only | split
    | apply yokeCount_keeps

theorem insertNode_keeps {s0 st : State} (d : Nat) (n : Nat) (key : List Byte) (e : PailEntry) (b : Nat) (done : Nat) (hs : Keeps s0 st) :
    Keeps s0 ((insertNode d n key e b done).run st).2 := by
  unfold insertNode
  repeat' with_reducible first
    | assumption | intro _ | apply Keeps.run_pure | apply Keeps.run_throw | apply Keeps.run_ite | apply Keeps.run_modify
    | apply Keeps.run_bind | dsimp only | split | apply getTree_keeps | apply readBucket_keeps | apply chooseWay_keeps
    | apply addCount_keeps | apply pailUndo_keeps | apply writeWay_keeps | apply dropCount_keeps | apply State.fadd_keeps

theorem publishLoop_keeps {s0 st : State} (d : Nat) (c : PailCmd) (a2 : Nat) (a3 : Nat) (a4 : Nat) (hs : Keeps s0 st) :
    Keeps s0 ((publishLoop d c a2 a3 a4).run st).2 := by
  induction a2 generalizing st a3 a4 with
  | zero =>
    unfold publishLoop
    repeat' with_reducible first | assumption | intro _ | apply Keeps.run_pure

  | succ n ih =>
    unfold publishLoop
    repeat' with_reducible first
      | assumption | intro _ | apply Keeps.run_pure | apply Keeps.run_throw | apply Keeps.run_ite | apply Keeps.run_get_bind
      | apply Keeps.run_bind | apply Keeps.run_tryCatch | dsimp only | split | apply ih | apply getTree_keeps | apply getSeq_keeps
      | apply pailRead_keeps | apply readEntry_keeps | apply insertNode_keeps | apply setSeq_keeps | apply sendTwin_keeps

theorem publishBody_keeps {s0 st : State} (d : Nat) (c : PailCmd) (hs : Keeps s0 st) :
    Keeps s0 ((publishBody d c).run st).2 := by
  unfold publishBody
  repeat' with_reducible first
    | assumption | intro _ | apply Keeps.run_bind | dsimp only | split | apply ownTree_keeps | apply ownSeq_keeps | apply pailNeed_keeps
    | apply publishLoop_keeps

theorem forkBody_keeps {s0 st : State} (d : Nat) (c : PailCmd) (hs : Keeps s0 st) :
    Keeps s0 ((forkBody d c).run st).2 := by
  unfold forkBody
  repeat' with_reducible first
    | assumption | intro _ | apply Keeps.run_pure | apply Keeps.run_ite | apply Keeps.run_bind | apply Keeps.run_forM | dsimp only | split
    | apply ownTree_keeps | apply ownSeq_keeps | apply pailNeed_keeps | apply pailUndo_keeps | apply readEntry_keeps
    | apply moveEntry_keeps | apply writeEntry_keeps | apply undoBeyond_keeps | apply getSeq_keeps | apply setSeq_keeps

theorem truncateBody_keeps {s0 st : State} (d : Nat) (c : PailCmd) (hs : Keeps s0 st) :
    Keeps s0 ((truncateBody d c).run st).2 := by
  unfold truncateBody
  repeat' with_reducible first
    | assumption | intro _ | apply Keeps.run_pure | apply Keeps.run_bind | dsimp only | split | apply ownTree_keeps | apply ownSeq_keeps
    | apply pailNeed_keeps | apply truncateSeq_keeps

theorem markLostBody_keeps {s0 st : State} (d : Nat) (c : PailCmd) (hs : Keeps s0 st) :
    Keeps s0 ((markLostBody d c).run st).2 := by
  unfold markLostBody
  repeat' with_reducible first
    | assumption | intro _ | apply Keeps.run_pure | apply Keeps.run_ite | apply Keeps.run_bind | dsimp only | split | apply ownTree_keeps
    | apply ownSeq_keeps | apply pailNeed_keeps | apply readEntry_keeps | apply writeEntry_keeps | apply dropNodes_keeps

theorem readKept_keeps {s0 st : State} (d : Nat) (hr : Nat) (q : Seq) (b : Nat) (hs : Keeps s0 st) :
    Keeps s0 ((readKept d hr q b).run st).2 := by
  unfold readKept
  repeat' with_reducible first
    | assumption | intro _ | apply Keeps.run_pure | apply Keeps.run_bind | dsimp only | split | apply readEntry_keeps
    | apply pailNeed_keeps

theorem shadowSyncBody_keeps {s0 st : State} (d : Nat) (c : PailCmd) (hs : Keeps s0 st) :
    Keeps s0 ((shadowSyncBody d c).run st).2 := by
  unfold shadowSyncBody
  repeat' with_reducible first
    | assumption | intro _ | apply Keeps.run_pure | apply Keeps.run_ite | apply Keeps.run_get_bind | apply Keeps.run_modify
    | apply Keeps.run_bind | apply Keeps.run_mapM | dsimp only | split | apply ownTree_keeps | apply ownSeq_keeps | apply pailNeed_keeps
    | apply readEntry_keeps | apply readKept_keeps | apply pailRead_keeps | apply sendTwin_keeps | apply State.setPail_keeps

theorem adoptBody_keeps {s0 st : State} (d : Nat) (c : PailCmd) (hs : Keeps s0 st) :
    Keeps s0 ((adoptBody d c).run st).2 := by
  unfold adoptBody
  repeat' with_reducible first
    | assumption | intro _ | apply Keeps.run_pure | apply Keeps.run_bind | dsimp only | split | apply ownTree_keeps | apply ownSeq_keeps
    | apply pailNeed_keeps | apply setSeq_keeps

theorem fillBuffer_keeps {s0 st : State} (d : Nat) (n : Nat) (k : Nat) (c : Nat) (hs : Keeps s0 st) :
    Keeps s0 ((fillBuffer d n k c).run st).2 := by
  unfold fillBuffer
  repeat' with_reducible first
    | assumption | intro _ | apply Keeps.run_bind | apply Keeps.run_forM | dsimp only | split | apply getSeq_keeps | apply pailNeed_keeps
    | apply pailUndo_keeps | apply prepareBlock_keeps | apply undoBeyond_keeps | apply setSeq_keeps

theorem setRing_keeps {s0 st : State} (d : Nat) (k : Nat) (r : ChurnRing) (hs : Keeps s0 st) :
    Keeps s0 ((setRing d k r).run st).2 := by
  unfold setRing
  repeat' with_reducible first | assumption | intro _ | apply Keeps.run_modify | dsimp only | split | apply State.setPail_keeps

theorem getRing_keeps {s0 st : State} (d : Nat) (k : Nat) (hs : Keeps s0 st) :
    Keeps s0 ((getRing d k).run st).2 := by
  unfold getRing
  repeat' with_reducible first
    | assumption | intro _ | apply Keeps.run_pure | apply Keeps.run_get_bind | dsimp only | split | apply pailFail_keeps

theorem State.ringLost_keeps {s0 s : State} (d : Nat) (k : Nat) (hs : Keeps s0 s) :
    Keeps s0 (State.ringLost s d k) := by
  unfold State.ringLost
  repeat' with_reducible first | assumption | intro _ | dsimp only | split | apply State.churnEnd_keeps | apply State.setPail_keeps

theorem sendChurnAt_keeps {s0 st : State} (d : Nat) (k : Nat) (msg : Nat) (next : Bool) (step : Nat) (run : Nat) (data : List Byte) (hs : Keeps s0 st) :
    Keeps s0 ((sendChurnAt d k msg next step run data).run st).2 := by
  unfold sendChurnAt
  repeat' with_reducible first
    | assumption | intro _ | apply Keeps.run_pure | apply Keeps.run_ite | apply Keeps.run_get_bind | apply Keeps.run_set
    | apply Keeps.run_modify | apply Keeps.run_bind | dsimp only | split | apply getRing_keeps | apply getTree_keeps
    | apply State.sendPailMsg_keeps | apply State.ringLost_keeps

theorem sendChurn_keeps {s0 st : State} (d : Nat) (k : Nat) (msg : Nat) (next : Bool) (step : Nat) (data : List Byte) (hs : Keeps s0 st) :
    Keeps s0 ((sendChurn d k msg next step data).run st).2 := by
  unfold sendChurn
  repeat' with_reducible first
    | assumption | intro _ | apply Keeps.run_bind | dsimp only | split | apply getRing_keeps | apply sendChurnAt_keeps

theorem churnOpenBody_keeps {s0 st : State} (d : Nat) (c : PailCmd) (hs : Keeps s0 st) :
    Keeps s0 ((churnOpenBody d c).run st).2 := by
  unfold churnOpenBody
  repeat' with_reducible first
    | assumption | intro _ | apply Keeps.run_pure | apply Keeps.run_get_bind | apply Keeps.run_bind | dsimp only | split
    | apply ownTree_keeps | apply ownSeq_keeps | apply pailNeed_keeps | apply pailRead_keeps | apply fillBuffer_keeps
    | apply pailUndo_keeps | apply truncateSeq_keeps | apply setRing_keeps | apply sendChurn_keeps

theorem churnGuard_keeps {s0 st : State} (d : Nat) (k : Nat) (m : PailM Unit) (hs : Keeps s0 st) (hm : ∀ t, Keeps s0 t → Keeps s0 (m.run t).2) :
    Keeps s0 ((churnGuard d k m).run st).2 := by
  unfold churnGuard
  repeat' with_reducible first
    | assumption | intro _ | apply Keeps.run_throw | apply Keeps.run_ite | apply Keeps.run_modify | apply Keeps.run_tryCatch | dsimp only
    | split | apply State.churnEnd_keeps | apply hm

theorem readBlock_keeps {s0 st : State} (d : Nat) (k : Nat) (r : ChurnRing) (layer : Nat) (step : Nat) (hs : Keeps s0 st) :
    Keeps s0 ((readBlock d k r layer step).run st).2 := by
  unfold readBlock
  repeat' with_reducible first
    | assumption | intro _ | apply Keeps.run_pure | apply Keeps.run_get_bind | apply Keeps.run_bind | apply Keeps.run_mapM | dsimp only
    | split | apply getTree_keeps | apply getSeq_keeps | apply readKept_keeps | apply pailRead_keeps

theorem setRun_keeps {s0 st : State} (d : Nat) (k : Nat) (a2 : ChurnRun) (hs : Keeps s0 st) :
    Keeps s0 ((setRun d k a2).run st).2 := by
  unfold setRun
  repeat' with_reducible first
    | assumption | intro _ | apply Keeps.run_bind | dsimp only | split | apply getRing_keeps | apply setRing_keeps

theorem churnAct_keeps {s0 st : State} (d : Nat) (k : Nat) (hs : Keeps s0 st) :
    Keeps s0 ((churnAct d k).run st).2 := by
  unfold churnAct
  repeat' with_reducible first
    | assumption | intro _ | apply Keeps.run_pure | apply Keeps.run_ite | apply Keeps.run_modify | apply Keeps.run_bind | dsimp only
    | split | apply getRing_keeps | apply getTree_keeps | apply readBlock_keeps | apply setRun_keeps | apply sendChurn_keeps
    | apply pailRead_keeps | apply pailAtom_keeps | apply State.churnEnd_keeps

theorem churnPump_keeps {s0 st : State} (d : Nat) (k : Nat) (a2 : Nat) (hs : Keeps s0 st) :
    Keeps s0 ((churnPump d k a2).run st).2 := by
  induction a2 generalizing st with
  | zero =>
    unfold churnPump
    repeat' with_reducible first | assumption | intro _ | apply Keeps.run_pure
  | succ n ih =>
    unfold churnPump
    repeat' with_reducible first
      | assumption | intro _ | apply Keeps.run_pure | apply Keeps.run_ite | apply Keeps.run_bind | dsimp only | split | apply ih
      | apply churnAct_keeps

theorem churnRunBody_keeps {s0 st : State} (d : Nat) (c : PailCmd) (hs : Keeps s0 st) :
    Keeps s0 ((churnRunBody d c).run st).2 := by
  unfold churnRunBody
  repeat' with_reducible first
    | assumption | intro _ | apply Keeps.run_pure | apply Keeps.run_ite | apply Keeps.run_bind | dsimp only | split | apply ownTree_keeps
    | apply ownSeq_keeps | apply getRing_keeps | apply pailNeed_keeps | apply pailRead_keeps | apply pailAtom_keeps | apply setRing_keeps
    | apply sendChurn_keeps | apply churnGuard_keeps | apply churnPump_keeps

theorem churnCloseBody_keeps {s0 st : State} (d : Nat) (c : PailCmd) (hs : Keeps s0 st) :
    Keeps s0 ((churnCloseBody d c).run st).2 := by
  unfold churnCloseBody
  repeat' with_reducible first
    | assumption | intro _ | apply Keeps.run_pure | apply Keeps.run_modify | apply Keeps.run_bind | dsimp only | split
    | apply ownTree_keeps | apply ownSeq_keeps | apply getRing_keeps | apply sendChurn_keeps | apply truncateSeq_keeps
    | apply State.setPail_keeps

theorem pailBody_keeps {s0 st : State} (d : Nat) (op : Nat) (c : PailCmd) (hs : Keeps s0 st) :
    Keeps s0 ((pailBody d op c).run st).2 := by
  unfold pailBody
  repeat' with_reducible first
    | assumption | intro _ | apply Keeps.run_pure | apply Keeps.run_bind | dsimp only | split | apply treeOpenBody_keeps
    | apply treeCloseBody_keeps | apply evictBody_keeps | apply seqOpenBody_keeps | apply seqCloseBody_keeps | apply matchBody_keeps
    | apply appendBody_keeps | apply resolveBody_keeps | apply publishBody_keeps | apply forkBody_keeps | apply truncateBody_keeps
    | apply markLostBody_keeps | apply shadowSyncBody_keeps | apply adoptBody_keeps | apply churnOpenBody_keeps | apply churnRunBody_keeps
    | apply churnCloseBody_keeps | apply pailFail_keeps

theorem State.pailPerform_keeps {s0 s : State} (d : Nat) (op : Nat) (c : PailCmd) (hs : Keeps s0 s) :
    Keeps s0 (State.pailPerform s d op c) := by
  unfold State.pailPerform
  repeat' with_reducible first
    | assumption | intro _ | refine Keeps.of_snd (by assumption) ?_ | apply Keeps.ite | dsimp only | split | apply State.setPail_keeps
    | apply State.pailEnd_keeps | apply pailBody_keeps | apply State.keepHeld_keeps

theorem State.pailRetry_keeps {s0 s : State} (d : Nat) (hs : Keeps s0 s) :
    Keeps s0 (State.pailRetry s d) := by
  unfold State.pailRetry
  repeat' with_reducible first
    | assumption | intro _ | apply Keeps.ite | apply Keeps.foldl | dsimp only | split | apply State.pailPerform_keeps
    | apply State.setPail_keeps | apply State.settle_keeps

theorem State.pailDrop_keeps {s0 s : State} (d : Nat) (hs : Keeps s0 s) :
    Keeps s0 (State.pailDrop s d) := by
  unfold State.pailDrop
  repeat' with_reducible first | assumption | intro _ | dsimp only | split | apply State.fadd_keeps

theorem dropMessage_keeps {s0 st : State} (d : Nat) (hs : Keeps s0 st) :
    Keeps s0 ((dropMessage d).run st).2 := by
  unfold dropMessage
  repeat' with_reducible first | assumption | intro _ | apply Keeps.run_modify | dsimp only | split | apply State.pailDrop_keeps

theorem churnBody_keeps {s0 st : State} (d : Nat) (msg : PailMsg) (body : Nat → ChurnRing → PailM Unit) (hs : Keeps s0 st) (hbody : ∀ y0 y1 t, Keeps s0 t → Keeps s0 ((body y0 y1).run t).2) :
    Keeps s0 ((churnBody d msg body).run st).2 := by
  unfold churnBody
  repeat' with_reducible first
    | assumption | intro _ | apply Keeps.run_ite | apply Keeps.run_get_bind | dsimp only | split | apply dropMessage_keeps
    | apply churnGuard_keeps | apply hbody

theorem helloBody_keeps {s0 st : State} (d : Nat) (msg : PailMsg) (k : Nat) (r : ChurnRing) (hs : Keeps s0 st) :
    Keeps s0 ((helloBody d msg k r).run st).2 := by
  unfold helloBody
  repeat' with_reducible first
    | assumption | intro _ | apply Keeps.run_pure | apply Keeps.run_ite | dsimp only | split | apply setRing_keeps

theorem creditBody_keeps {s0 st : State} (d : Nat) (msg : PailMsg) (k : Nat) (r : ChurnRing) (hs : Keeps s0 st) :
    Keeps s0 ((creditBody d msg k r).run st).2 := by
  unfold creditBody
  repeat' with_reducible first
    | assumption | intro _ | apply Keeps.run_ite | apply Keeps.run_bind | dsimp only | split | apply dropMessage_keeps
    | apply setRun_keeps | apply churnPump_keeps | apply setRing_keeps

theorem writeBlock_keeps {s0 st : State} (d : Nat) (k : Nat) (r : ChurnRing) (layer : Nat) (step : Nat) (data : List Byte) (hs : Keeps s0 st) :
    Keeps s0 ((writeBlock d k r layer step data).run st).2 := by
  unfold writeBlock
  repeat' with_reducible first
    | assumption | intro _ | apply Keeps.run_get_bind | apply Keeps.run_bind | apply Keeps.run_forM | dsimp only | split
    | apply getTree_keeps | apply getSeq_keeps | apply readEntry_keeps | apply pailWrite_keeps

theorem dataBody_keeps {s0 st : State} (d : Nat) (msg : PailMsg) (k : Nat) (r : ChurnRing) (hs : Keeps s0 st) :
    Keeps s0 ((dataBody d msg k r).run st).2 := by
  unfold dataBody
  repeat' with_reducible first
    | assumption | intro _ | apply Keeps.run_ite | apply Keeps.run_bind | dsimp only | split | apply writeBlock_keeps | apply setRun_keeps
    | apply churnPump_keeps | apply dropMessage_keeps

theorem riderBody_keeps {s0 st : State} (d : Nat) (msg : PailMsg) (k : Nat) (r : ChurnRing) (hs : Keeps s0 st) :
    Keeps s0 ((riderBody d msg k r).run st).2 := by
  unfold riderBody
  repeat' with_reducible first
    | assumption | intro _ | apply Keeps.run_pure | apply Keeps.run_ite | apply Keeps.run_bind | dsimp only | split | apply getTree_keeps
    | apply dropMessage_keeps | apply pailWrite_keeps | apply sendChurnAt_keeps | apply setRun_keeps | apply churnPump_keeps

theorem dataAckBody_keeps {s0 st : State} (d : Nat) (msg : PailMsg) (k : Nat) (r : ChurnRing) (hs : Keeps s0 st) :
    Keeps s0 ((dataAckBody d msg k r).run st).2 := by
  unfold dataAckBody
  repeat' with_reducible first
    | assumption | intro _ | apply Keeps.run_ite | apply Keeps.run_bind | dsimp only | split | apply setRun_keeps | apply churnPump_keeps
    | apply dropMessage_keeps

theorem closeBody_keeps {s0 st : State} (d : Nat) (msg : PailMsg) (k : Nat) (r : ChurnRing) (hs : Keeps s0 st) :
    Keeps s0 ((closeBody d msg k r).run st).2 := by
  unfold closeBody
  repeat' with_reducible first | assumption | intro _ | dsimp only | split | apply setRing_keeps

theorem openShadow_keeps {s0 st : State} (d : Nat) (n : Nat) (m : ShadowData) (hs : Keeps s0 st) :
    Keeps s0 ((openShadow d n m).run st).2 := by
  unfold openShadow
  repeat' with_reducible first
    | assumption | intro _ | apply Keeps.run_get_bind | apply Keeps.run_modify | apply Keeps.run_bind | dsimp only | split
    | apply State.setPail_keeps | apply setSeq_keeps | apply truncateSeq_keeps

theorem shadowGrains_keeps {s0 st : State} (d : Nat) (n : Nat) (m : ShadowData) (hs : Keeps s0 st) :
    Keeps s0 ((shadowGrains d n m).run st).2 := by
  unfold shadowGrains
  repeat' with_reducible first
    | assumption | intro _ | apply Keeps.run_pure | apply Keeps.run_get_bind | apply Keeps.run_bind | apply Keeps.run_forM | dsimp only
    | split | apply getTree_keeps | apply getSeq_keeps | apply readEntry_keeps | apply pailWrite_keeps

theorem insertNodes_keeps {s0 st : State} (d : Nat) (n : Nat) (k : Nat) (hs : Keeps s0 st) :
    Keeps s0 ((insertNodes d n k).run st).2 := by
  unfold insertNodes
  repeat' with_reducible first
    | assumption | intro _ | apply Keeps.run_pure | apply Keeps.run_throw | apply Keeps.run_ite | apply Keeps.run_get_bind
    | apply Keeps.run_modify | apply Keeps.run_bind | apply Keeps.run_tryCatch | apply Keeps.run_forM | dsimp only | split
    | apply getSeq_keeps | apply State.setPail_keeps | apply getTree_keeps | apply readEntry_keeps | apply insertNode_keeps

theorem takeSync_keeps {s0 st : State} (d : Nat) (n : Nat) (msg : PailMsg) (m : ShadowData) (hs : Keeps s0 st) :
    Keeps s0 ((takeSync d n msg m).run st).2 := by
  unfold takeSync
  repeat' with_reducible first
    | assumption | intro _ | apply Keeps.run_pure | apply Keeps.run_ite | apply Keeps.run_get_bind | apply Keeps.run_set
    | apply Keeps.run_bind | apply Keeps.run_forM | dsimp only | split | apply getTree_keeps | apply getSeq_keeps
    | apply truncateSeq_keeps | apply prepareRange_keeps | apply readEntry_keeps | apply writeEntry_keeps | apply shadowGrains_keeps
    | apply setSeq_keeps | apply insertNodes_keeps | apply State.sendPailMsg_keeps

theorem shadowBody_keeps {s0 st : State} (d : Nat) (msg : PailMsg) (hs : Keeps s0 st) :
    Keeps s0 ((shadowBody d msg).run st).2 := by
  unfold shadowBody
  repeat' with_reducible first
    | assumption | intro _ | apply Keeps.run_pure | apply Keeps.run_ite | apply Keeps.run_get_bind | apply Keeps.run_bind | dsimp only
    | split | apply dropMessage_keeps | apply openShadow_keeps | apply takeSync_keeps

theorem shadowAckBody_keeps {s0 st : State} (d : Nat) (msg : PailMsg) (hs : Keeps s0 st) :
    Keeps s0 ((shadowAckBody d msg).run st).2 := by
  unfold shadowAckBody
  repeat' with_reducible first
    | assumption | intro _ | apply Keeps.run_ite | apply Keeps.run_get_bind | apply Keeps.run_modify | dsimp only | split
    | apply dropMessage_keeps | apply State.setPail_keeps | apply State.pailEnd_keeps

theorem shadowNodeBody_keeps {s0 st : State} (d : Nat) (msg : PailMsg) (hs : Keeps s0 st) :
    Keeps s0 ((shadowNodeBody d msg).run st).2 := by
  unfold shadowNodeBody
  repeat' with_reducible first
    | assumption | intro _ | apply Keeps.run_ite | apply Keeps.run_get_bind | apply Keeps.run_modify | apply Keeps.run_bind | dsimp only
    | split | apply dropMessage_keeps | apply State.setPail_keeps | apply insertNodes_keeps

theorem messageBody_keeps {s0 st : State} (d : Nat) (msg : Nat) (m : PailMsg) (hs : Keeps s0 st) :
    Keeps s0 ((messageBody d msg m).run st).2 := by
  unfold messageBody
  repeat' with_reducible first
    | assumption | intro _ | apply Keeps.run_pure | dsimp only | split | apply churnBody_keeps | apply helloBody_keeps
    | apply creditBody_keeps | apply dataBody_keeps | apply riderBody_keeps | apply dataAckBody_keeps | apply closeBody_keeps
    | apply shadowBody_keeps | apply shadowAckBody_keeps | apply shadowNodeBody_keeps

theorem State.pailInbox_keeps {s0 a2 : State} (d : Nat) (a1 : Nat) (hs : Keeps s0 a2) :
    Keeps s0 (State.pailInbox d a1 a2) := by
  induction a1 generalizing a2 with
  | zero =>
    unfold State.pailInbox
    repeat' with_reducible first | assumption
  | succ n ih =>
    unfold State.pailInbox
    repeat' with_reducible first
      | assumption | intro _ | refine Keeps.of_snd (by assumption) ?_ | apply Keeps.ite | dsimp only | split | apply ih
      | apply messageBody_keeps | apply State.setPail_keeps | apply State.keepHeld_keeps

theorem State.pailWork_keeps {s0 s : State} (d : Nat) (hs : Keeps s0 s) :
    Keeps s0 (State.pailWork s d) := by
  unfold State.pailWork
  repeat' with_reducible first
    | assumption | intro _ | apply Keeps.ite | dsimp only | split | apply State.pailRetry_keeps | apply State.pailInbox_keeps

theorem State.pailCommand_keeps {s0 s : State} (d : Nat) (op : Nat) (c : PailCmd) (hs : Keeps s0 s) :
    Keeps s0 (State.pailCommand s d op c) := by
  unfold State.pailCommand
  repeat' with_reducible first
    | assumption | intro _ | apply Keeps.ite | dsimp only | split | apply State.setPail_keeps | apply State.pailWork_keeps

theorem State.pailDeliver_keeps {s0 s : State} (d : Nat) (msg : Nat) (m : PailMsg) (hs : Keeps s0 s) :
    Keeps s0 (State.pailDeliver s d msg m) := by
  unfold State.pailDeliver
  repeat' with_reducible first
    | assumption | intro _ | apply Keeps.ite | dsimp only | split | apply State.pailWork_keeps | apply State.setPail_keeps

theorem State.pailDo_keeps {s0 s : State} (d : Nat) (m : PailM Unit) (hs : Keeps s0 s) (hm : ∀ t, Keeps s0 t → Keeps s0 (m.run t).2) :
    Keeps s0 (State.pailDo s d m) := by
  unfold State.pailDo
  repeat' with_reducible first
    | assumption | intro _ | refine Keeps.of_snd (by assumption) ?_ | apply Keeps.ite | dsimp only | split | apply State.pailWork_keeps
    | apply State.keepHeld_keeps | apply hm

theorem State.wake_keeps {s0 s : State} (hs : Keeps s0 s) :
    Keeps s0 (State.wake s) := by
  unfold State.wake
  repeat' with_reducible first
    | assumption | intro _ | apply Keeps.ite | apply Keeps.foldl | dsimp only | split | apply State.pailWork_keeps

theorem execAdopt_keeps {s0 s : State} (d : Nat) (cmd : PailCmd) (hs : Keeps s0 s) :
    KeepsOutcome s0 (execAdopt d cmd s) := by
  unfold execAdopt
  repeat' with_reducible first | assumption | intro _ | apply KeepsOutcome.next | dsimp only | split | apply State.pailCommand_keeps

theorem execAppend_keeps {s0 s : State} (d : Nat) (cmd : PailCmd) (hs : Keeps s0 s) :
    KeepsOutcome s0 (execAppend d cmd s) := by
  unfold execAppend
  repeat' with_reducible first | assumption | intro _ | apply KeepsOutcome.next | dsimp only | split | apply State.pailCommand_keeps

theorem execChurnClose_keeps {s0 s : State} (d : Nat) (cmd : PailCmd) (hs : Keeps s0 s) :
    KeepsOutcome s0 (execChurnClose d cmd s) := by
  unfold execChurnClose
  repeat' with_reducible first | assumption | intro _ | apply KeepsOutcome.next | dsimp only | split | apply State.pailCommand_keeps

theorem execChurnOpen_keeps {s0 s : State} (d : Nat) (cmd : PailCmd) (hs : Keeps s0 s) :
    KeepsOutcome s0 (execChurnOpen d cmd s) := by
  unfold execChurnOpen
  repeat' with_reducible first | assumption | intro _ | apply KeepsOutcome.next | dsimp only | split | apply State.pailCommand_keeps

theorem execChurnRun_keeps {s0 s : State} (d : Nat) (cmd : PailCmd) (hs : Keeps s0 s) :
    KeepsOutcome s0 (execChurnRun d cmd s) := by
  unfold execChurnRun
  repeat' with_reducible first | assumption | intro _ | apply KeepsOutcome.next | dsimp only | split | apply State.pailCommand_keeps

theorem execEvict_keeps {s0 s : State} (d : Nat) (cmd : PailCmd) (hs : Keeps s0 s) :
    KeepsOutcome s0 (execEvict d cmd s) := by
  unfold execEvict
  repeat' with_reducible first | assumption | intro _ | apply KeepsOutcome.next | dsimp only | split | apply State.pailCommand_keeps

theorem execFork_keeps {s0 s : State} (d : Nat) (cmd : PailCmd) (hs : Keeps s0 s) :
    KeepsOutcome s0 (execFork d cmd s) := by
  unfold execFork
  repeat' with_reducible first | assumption | intro _ | apply KeepsOutcome.next | dsimp only | split | apply State.pailCommand_keeps

theorem execMarkLost_keeps {s0 s : State} (d : Nat) (cmd : PailCmd) (hs : Keeps s0 s) :
    KeepsOutcome s0 (execMarkLost d cmd s) := by
  unfold execMarkLost
  repeat' with_reducible first | assumption | intro _ | apply KeepsOutcome.next | dsimp only | split | apply State.pailCommand_keeps

theorem execMatchBlocks_keeps {s0 s : State} (d : Nat) (cmd : PailCmd) (hs : Keeps s0 s) :
    KeepsOutcome s0 (execMatchBlocks d cmd s) := by
  unfold execMatchBlocks
  repeat' with_reducible first | assumption | intro _ | apply KeepsOutcome.next | dsimp only | split | apply State.pailCommand_keeps

theorem fetchEntries_keeps {s0 st : State} (d : Nat) (c : Nat) (arrayB : Bool) (n : Nat) (k : Nat) (first : Nat) (count : Nat) (hs : Keeps s0 st) :
    Keeps s0 ((fetchEntries d c arrayB n k first count).run st).2 := by
  unfold fetchEntries
  repeat' with_reducible first
    | assumption | intro _ | apply Keeps.run_pure | apply Keeps.run_get_bind | apply Keeps.run_modify | apply Keeps.run_bind
    | apply Keeps.run_mapM | dsimp only | split | apply getTree_keeps | apply ownSeq_keeps | apply readEntry_keeps
    | apply State.setPail_keeps

theorem execPailListFetch_keeps {s0 s : State} (d : Nat) (c : Nat) (arrayB : Bool) (seq : Nat) (tree : Nat) (first : Nat) (count : Nat) (hs : Keeps s0 s) :
    KeepsOutcome s0 (execPailListFetch d c arrayB seq tree first count s) := by
  unfold execPailListFetch
  repeat' with_reducible first
    | assumption | intro _ | refine Keeps.of_snd (by assumption) ?_ | apply KeepsOutcome.next | apply KeepsOutcome.ite | apply Keeps.ite
    | dsimp only | split | apply fetchEntries_keeps | apply State.emit_keeps | apply State.keepHeld_keeps

theorem execPublish_keeps {s0 s : State} (d : Nat) (cmd : PailCmd) (hs : Keeps s0 s) :
    KeepsOutcome s0 (execPublish d cmd s) := by
  unfold execPublish
  repeat' with_reducible first | assumption | intro _ | apply KeepsOutcome.next | dsimp only | split | apply State.pailCommand_keeps

theorem execResolve_keeps {s0 s : State} (d : Nat) (cmd : PailCmd) (hs : Keeps s0 s) :
    KeepsOutcome s0 (execResolve d cmd s) := by
  unfold execResolve
  repeat' with_reducible first | assumption | intro _ | apply KeepsOutcome.next | dsimp only | split | apply State.pailCommand_keeps

theorem execSeqClose_keeps {s0 s : State} (d : Nat) (cmd : PailCmd) (hs : Keeps s0 s) :
    KeepsOutcome s0 (execSeqClose d cmd s) := by
  unfold execSeqClose
  repeat' with_reducible first | assumption | intro _ | apply KeepsOutcome.next | dsimp only | split | apply State.pailCommand_keeps

theorem execSeqOpen_keeps {s0 s : State} (d : Nat) (cmd : PailCmd) (hs : Keeps s0 s) :
    KeepsOutcome s0 (execSeqOpen d cmd s) := by
  unfold execSeqOpen
  repeat' with_reducible first | assumption | intro _ | apply KeepsOutcome.next | dsimp only | split | apply State.pailCommand_keeps

theorem execShadowSync_keeps {s0 s : State} (d : Nat) (cmd : PailCmd) (hs : Keeps s0 s) :
    KeepsOutcome s0 (execShadowSync d cmd s) := by
  unfold execShadowSync
  repeat' with_reducible first | assumption | intro _ | apply KeepsOutcome.next | dsimp only | split | apply State.pailCommand_keeps

theorem execTreeClose_keeps {s0 s : State} (d : Nat) (cmd : PailCmd) (hs : Keeps s0 s) :
    KeepsOutcome s0 (execTreeClose d cmd s) := by
  unfold execTreeClose
  repeat' with_reducible first | assumption | intro _ | apply KeepsOutcome.next | dsimp only | split | apply State.pailCommand_keeps

theorem execTreeOpen_keeps {s0 s : State} (d : Nat) (cmd : PailCmd) (hs : Keeps s0 s) :
    KeepsOutcome s0 (execTreeOpen d cmd s) := by
  unfold execTreeOpen
  repeat' with_reducible first | assumption | intro _ | apply KeepsOutcome.next | dsimp only | split | apply State.pailCommand_keeps

theorem execTruncate_keeps {s0 s : State} (d : Nat) (cmd : PailCmd) (hs : Keeps s0 s) :
    KeepsOutcome s0 (execTruncate d cmd s) := by
  unfold execTruncate
  repeat' with_reducible first | assumption | intro _ | apply KeepsOutcome.next | dsimp only | split | apply State.pailCommand_keeps

theorem pushWaiting_keeps {s0 st : State} (d : Nat) (tree : Nat) (yoke : Nat) (hs : Keeps s0 st) :
    Keeps s0 ((pushWaiting d tree yoke).run st).2 := by
  unfold pushWaiting
  repeat' with_reducible first
    | assumption | intro _ | apply Keeps.run_pure | apply Keeps.run_get_bind | apply Keeps.run_modify | apply Keeps.run_bind | dsimp only
    | split | apply State.setPail_keeps | apply pushYoke_keeps

theorem execYokePush_keeps {s0 s : State} (d : Nat) (tree : Nat) (yoke : Nat) (hs : Keeps s0 s) :
    KeepsOutcome s0 (execYokePush d tree yoke s) := by
  unfold execYokePush
  repeat' with_reducible first
    | assumption | intro _ | apply KeepsOutcome.next | dsimp only | split | apply State.pailDo_keeps | apply pushWaiting_keeps

theorem State.pailAccept_keeps {s0 s : State} (d : Nat) (hs : Keeps s0 s) :
    Keeps s0 (State.pailAccept s d) := by
  unfold State.pailAccept
  repeat' with_reducible first
    | assumption | intro _ | apply Keeps.ite | dsimp only | split | apply State.pailWork_keeps | apply State.setPail_keeps

theorem State.pailCtlWrite_keeps {s0 s : State} (d : Nat) (w : RegWrite) (hs : Keeps s0 s) :
    Keeps s0 (State.pailCtlWrite s d w) := by
  unfold State.pailCtlWrite
  repeat' with_reducible first | assumption | intro _ | dsimp only | split | apply State.pailAccept_keeps | apply State.put_keeps

theorem State.pailStatWrite_keeps {s0 s : State} (d : Nat) (w : RegWrite) (hs : Keeps s0 s) :
    Keeps s0 (State.pailStatWrite s d w) := by
  unfold State.pailStatWrite
  repeat' with_reducible first | assumption | intro _ | apply Keeps.ite | dsimp only | split | apply State.put_keeps

theorem execChurnCredit_keeps {s0 s : State} (d : Nat) (msg : PailMsg) (hs : Keeps s0 s) :
    KeepsOutcome s0 (execChurnCredit d msg s) := by
  unfold execChurnCredit
  repeat' with_reducible first | assumption | intro _ | apply KeepsOutcome.next | dsimp only | split | apply State.pailDeliver_keeps

theorem execChurnData_keeps {s0 s : State} (d : Nat) (msg : PailMsg) (hs : Keeps s0 s) :
    KeepsOutcome s0 (execChurnData d msg s) := by
  unfold execChurnData
  repeat' with_reducible first | assumption | intro _ | apply KeepsOutcome.next | dsimp only | split | apply State.pailDeliver_keeps

theorem execCloseMessage_keeps {s0 s : State} (d : Nat) (msg : PailMsg) (hs : Keeps s0 s) :
    KeepsOutcome s0 (execCloseMessage d msg s) := by
  unfold execCloseMessage
  repeat' with_reducible first | assumption | intro _ | apply KeepsOutcome.next | dsimp only | split | apply State.pailDeliver_keeps

theorem execDataAck_keeps {s0 s : State} (d : Nat) (msg : PailMsg) (hs : Keeps s0 s) :
    KeepsOutcome s0 (execDataAck d msg s) := by
  unfold execDataAck
  repeat' with_reducible first | assumption | intro _ | apply KeepsOutcome.next | dsimp only | split | apply State.pailDeliver_keeps

theorem execHello_keeps {s0 s : State} (d : Nat) (msg : PailMsg) (hs : Keeps s0 s) :
    KeepsOutcome s0 (execHello d msg s) := by
  unfold execHello
  repeat' with_reducible first | assumption | intro _ | apply KeepsOutcome.next | dsimp only | split | apply State.pailDeliver_keeps

theorem execHelloResend_keeps {s0 s : State} (d : Nat) (ring : Nat) (hs : Keeps s0 s) :
    KeepsOutcome s0 (execHelloResend d ring s) := by
  unfold execHelloResend
  repeat' with_reducible first
    | assumption | intro _ | apply KeepsOutcome.next | apply Keeps.run_pure | apply Keeps.run_bind | dsimp only | split
    | apply State.pailDo_keeps | apply setRing_keeps | apply sendChurn_keeps

theorem execPailDrainWrite_keeps {s0 s : State} (d : Nat) (w : RegWrite) (hs : Keeps s0 s) :
    KeepsOutcome s0 (execPailDrainWrite d w s) := by
  unfold execPailDrainWrite
  repeat' with_reducible first
    | assumption | intro _ | apply KeepsOutcome.next | dsimp only | split | apply State.guarded_keeps | apply State.pailCtlWrite_keeps

theorem execPailStatClear_keeps {s0 s : State} (d : Nat) (w : RegWrite) (hs : Keeps s0 s) :
    KeepsOutcome s0 (execPailStatClear d w s) := by
  unfold execPailStatClear
  repeat' with_reducible first
    | assumption | intro _ | apply KeepsOutcome.next | dsimp only | split | apply State.guarded_keeps | apply State.pailStatWrite_keeps

theorem execReleasePoll_keeps {s0 s : State} (d : Nat) (ring : Nat) (hs : Keeps s0 s) :
    KeepsOutcome s0 (execReleasePoll d ring s) := by
  unfold execReleasePoll
  repeat' with_reducible first
    | assumption | intro _ | apply KeepsOutcome.next | apply Keeps.run_pure | apply Keeps.run_bind | dsimp only | split
    | apply State.pailDo_keeps | apply churnGuard_keeps | apply getTree_keeps | apply pailRead_keeps | apply setRun_keeps
    | apply churnPump_keeps

theorem execRider_keeps {s0 s : State} (d : Nat) (msg : PailMsg) (hs : Keeps s0 s) :
    KeepsOutcome s0 (execRider d msg s) := by
  unfold execRider
  repeat' with_reducible first | assumption | intro _ | apply KeepsOutcome.next | dsimp only | split | apply State.pailDeliver_keeps

theorem execShadowAck_keeps {s0 s : State} (d : Nat) (msg : PailMsg) (hs : Keeps s0 s) :
    KeepsOutcome s0 (execShadowAck d msg s) := by
  unfold execShadowAck
  repeat' with_reducible first | assumption | intro _ | apply KeepsOutcome.next | dsimp only | split | apply State.pailDeliver_keeps

theorem execShadowData_keeps {s0 s : State} (d : Nat) (msg : PailMsg) (hs : Keeps s0 s) :
    KeepsOutcome s0 (execShadowData d msg s) := by
  unfold execShadowData
  repeat' with_reducible first | assumption | intro _ | apply KeepsOutcome.next | dsimp only | split | apply State.pailDeliver_keeps

theorem execShadowNode_keeps {s0 s : State} (d : Nat) (msg : PailMsg) (hs : Keeps s0 s) :
    KeepsOutcome s0 (execShadowNode d msg s) := by
  unfold execShadowNode
  repeat' with_reducible first | assumption | intro _ | apply KeepsOutcome.next | dsimp only | split | apply State.pailDeliver_keeps

theorem stepFail_keeps {s0 st : State} {α : Type} (e : LStatus) (hs : Keeps s0 st) :
    Keeps s0 ((stepFail e (α := α)).run st).2 := by
  unfold stepFail
  repeat' with_reducible first | assumption | intro _ | apply Keeps.run_throw

theorem stepAccess_keeps {s0 st : State} {α : Type} (f : State → State × Res α) (hs : Keeps s0 st) (hf : ∀ t, Keeps s0 t → Keeps s0 (f t).1) :
    Keeps s0 ((stepAccess f (α := α)).run st).2 := by
  unfold stepAccess
  repeat' with_reducible first
    | assumption | intro _ | apply Keeps.run_pure | apply Keeps.run_throw | apply Keeps.run_get_bind | apply Keeps.run_set
    | apply Keeps.run_bind | dsimp only | split | apply stepFail_keeps | apply hf

theorem stepRead_keeps {s0 st : State} (c : Nat) (role : Role) (a2 : Nat) (n : Nat) (hs : Keeps s0 st) :
    Keeps s0 ((stepRead c role a2 n).run st).2 := by
  unfold stepRead
  repeat' with_reducible first | assumption | intro _ | dsimp only | split | apply stepAccess_keeps | apply State.readAt_keeps

theorem readEach_keeps {s0 st : State} (c : Nat) (role : Role) (n : Nat) (a3 : List Nat) (hs : Keeps s0 st) :
    Keeps s0 ((readEach c role n a3).run st).2 := by
  induction a3 generalizing st with
  | nil =>
    unfold readEach
    repeat' with_reducible first | assumption | intro _ | apply Keeps.run_pure
  | cons b bs ih =>
    unfold readEach
    repeat' with_reducible first
      | assumption | intro _ | apply Keeps.run_pure | apply Keeps.run_bind | dsimp only | split | apply ih | apply stepRead_keeps

theorem readOperand_keeps {s0 st : State} (c : Nat) (role : Role) (r : MatRec) (len : Nat) (addrs : List Nat) (nums : List Nat) (hs : Keeps s0 st) :
    Keeps s0 ((readOperand c role r len addrs nums).run st).2 := by
  unfold readOperand
  repeat' with_reducible first
    | assumption | intro _ | apply Keeps.run_pure | apply Keeps.run_ite | apply Keeps.run_bind | dsimp only | split | apply readEach_keeps

theorem stepNeed_keeps {s0 st : State} (ok : Bool) (e : LStatus) (hs : Keeps s0 st) :
    Keeps s0 ((stepNeed ok e).run st).2 := by
  unfold stepNeed
  repeat' with_reducible first
    | assumption | intro _ | apply Keeps.run_pure | apply Keeps.run_ite | dsimp only | split | apply stepFail_keeps

theorem readRec_keeps {s0 st : State} (c : Nat) (i : Nat) (hs : Keeps s0 st) :
    Keeps s0 ((readRec c i).run st).2 := by
  unfold readRec
  repeat' with_reducible first
    | assumption | intro _ | apply Keeps.run_pure | apply Keeps.run_bind | dsimp only | split | apply stepRead_keeps
    | apply stepFail_keeps | apply stepNeed_keeps

theorem stepWhen_keeps {s0 st : State} {α : Type} (c : Bool) (x : StepM α) (hs : Keeps s0 st) (hx : ∀ t, Keeps s0 t → Keeps s0 (x.run t).2) :
    Keeps s0 ((stepWhen c x).run st).2 := by
  unfold stepWhen
  exact Keeps.run_ite (Keeps.run_map (hx _ hs)) (Keeps.run_pure hs)

theorem stepWrite_keeps {s0 st : State} (c : Nat) (role : Role) (a2 : Nat) (bs : List Byte) (hs : Keeps s0 st) :
    Keeps s0 ((stepWrite c role a2 bs).run st).2 := by
  unfold stepWrite
  repeat' with_reducible first | assumption | intro _ | dsimp only | split | apply stepAccess_keeps | apply State.writeAt_keeps

theorem State.evtAdd_keeps {s0 s : State} (c : Nat) (i : Nat) (v : Nat) (hs : Keeps s0 s) :
    Keeps s0 (State.evtAdd s c i v) := by
  unfold State.evtAdd
  repeat' with_reducible first | assumption | intro _ | dsimp only | split | apply State.fput_keeps

theorem State.lsnState_keeps {s0 s : State} (c : Nat) (v : Nat) (hs : Keeps s0 s) :
    Keeps s0 (State.lsnState s c v) := by
  unfold State.lsnState
  repeat' with_reducible first | assumption | intro _ | dsimp only | split | apply State.fput_keeps

theorem State.setKEmpty_keeps {s0 s : State} (c : Nat) (hs : Keeps s0 s) :
    Keeps s0 (State.setKEmpty s c) := by
  unfold State.setKEmpty
  repeat' with_reducible first | assumption | intro _ | dsimp only | split | apply State.modCore_keeps

theorem State.setNanCleared_keeps {s0 s : State} (c : Nat) (hs : Keeps s0 s) :
    Keeps s0 (State.setNanCleared s c) := by
  unfold State.setNanCleared
  repeat' with_reducible first | assumption | intro _ | dsimp only | split | apply State.modCore_keeps

theorem State.signalDone_keeps {s0 s : State} (c : Nat) (t : StepRec) (hs : Keeps s0 s) :
    Keeps s0 (State.signalDone s c t) := by
  unfold State.signalDone
  repeat' with_reducible first | assumption | intro _ | apply Keeps.ite | dsimp only | split | apply State.evtAdd_keeps

theorem State.stepFails_keeps {s0 s : State} (c : Nat) (f : LessonFail) (hs : Keeps s0 s) :
    Keeps s0 (State.stepFails s c f) := by
  unfold State.stepFails
  repeat' with_reducible first | assumption | intro _ | dsimp only | split | apply State.lsnState_keeps | apply State.setCore_keeps

theorem State.atWork_keeps {s0 s : State} (c : Nat) (t : StepRec) (hs : Keeps s0 s) :
    Keeps s0 (State.atWork s c t) := by
  unfold State.atWork
  repeat' with_reducible first | assumption | intro _ | dsimp only | split | apply State.modCore_keeps

theorem State.clearHangs_keeps {s0 s : State} (c : Nat) (b : Bool) (hs : Keeps s0 s) :
    Keeps s0 (State.clearHangs s c b) := by
  unfold State.clearHangs
  repeat' with_reducible first | assumption | intro _ | apply Keeps.ite | dsimp only | split | apply State.fput_keeps

theorem State.lessonRecord_keeps {s0 s : State} (c : Nat) (l : Launch) (f : Option LessonFail) (hs : Keeps s0 s) :
    Keeps s0 (State.lessonRecord s c l f).1 := by
  unfold State.lessonRecord
  repeat' with_reducible first | assumption | intro _ | dsimp only | split | apply State.draw_keeps

theorem State.endLesson_keeps {s0 s : State} (c : Nat) (l : Launch) (f : Option LessonFail) (hs : Keeps s0 s) :
    Keeps s0 (State.endLesson s c l f) := by
  unfold State.endLesson
  repeat' with_reducible first
    | assumption | intro _ | dsimp only | split | apply State.lessonRecord_keeps | apply State.sendRecord_keeps
    | apply State.clearHangs_keeps | apply State.lsnState_keeps | apply State.fput_keeps | apply State.modCore_keeps
    | apply State.settle_keeps

theorem State.stepDone_keeps {s0 s : State} (c : Nat) (e : Engine) (t : StepRec) (st : LStatus) (word1 : Nat) (hs : Keeps s0 s) :
    Keeps s0 (State.stepDone s c e t st word1) := by
  unfold State.stepDone
  repeat' with_reducible first
    | assumption | intro _ | apply Keeps.ite | dsimp only | split | apply State.modCore_keeps | apply State.stepFails_keeps

theorem State.pointFail_keeps {s0 s : State} (c : Nat) (t : StepRec) (e : LStatus) (hs : Keeps s0 s) :
    Keeps s0 (State.pointFail s c t e) := by
  unfold State.pointFail
  repeat' with_reducible first | assumption | intro _ | dsimp only | split | apply State.stepFails_keeps

theorem State.failWait_keeps {s0 s : State} (c : Nat) (key : Nat) (e : LStatus) (hs : Keeps s0 s) :
    Keeps s0 (State.failWait s c key e) := by
  unfold State.failWait
  repeat' with_reducible first
    | assumption | intro _ | apply Keeps.ite | dsimp only | split | apply State.modCore_keeps | apply State.stepFails_keeps
    | apply State.stepDone_keeps | apply State.pointFail_keeps

theorem State.failWaits_keeps {s0 s : State} (gone : WaitsOn → Bool) (e : LStatus) (hs : Keeps s0 s) :
    Keeps s0 (State.failWaits s gone e) := by
  unfold State.failWaits
  repeat' with_reducible first | assumption | intro _ | apply Keeps.foldl | dsimp only | split | apply State.failWait_keeps

theorem State.fetchStep_keeps {s0 s : State} (c : Nat) (hs : Keeps s0 s) :
    Keeps s0 (State.fetchStep s c) := by
  unfold State.fetchStep
  repeat' with_reducible first
    | assumption | intro _ | apply Keeps.ite | dsimp only | split | apply State.nearRead_keeps | apply State.modCore_keeps

theorem State.issue_keeps {s0 s : State} (c : Nat) (t0 : StepRec) (hs : Keeps s0 s) :
    Keeps s0 (State.issue s c t0) := by
  unfold State.issue
  repeat' with_reducible first
    | assumption | intro _ | apply Keeps.ite | dsimp only | split | apply State.modCore_keeps | apply State.fput_keeps
    | apply State.stepFails_keeps

theorem State.prefetch_keeps {s0 s : State} (c : Nat) (hs : Keeps s0 s) :
    Keeps s0 (State.prefetch s c) := by
  unfold State.prefetch
  repeat' with_reducible first | assumption | intro _ | apply Keeps.repeat | dsimp only | split | apply State.fetchStep_keeps

theorem State.issueLesson_keeps {s0 s : State} (c : Nat) (hs : Keeps s0 s) :
    Keeps s0 (State.issueLesson s c) := by
  unfold State.issueLesson
  repeat' with_reducible first
    | assumption | intro _ | apply Keeps.ite | dsimp only | split | apply State.prefetch_keeps | apply State.issue_keeps
    | apply State.modCore_keeps | apply State.stepFails_keeps

theorem State.refuseLaunch_keeps {s0 s : State} (c : Nat) (l : Launch) (e : LStatus) (hs : Keeps s0 s) :
    Keeps s0 (State.refuseLaunch s c l e) := by
  unfold State.refuseLaunch
  repeat' with_reducible first | assumption | intro _ | dsimp only | split | apply State.sendRecord_keeps

theorem State.lessonStarted_keeps {s0 s : State} (c : Nat) (l : Launch) (hs : Keeps s0 s) :
    Keeps s0 (State.lessonStarted s c l) := by
  unfold State.lessonStarted
  repeat' with_reducible first
    | assumption | intro _ | apply Keeps.foldl | dsimp only | split | apply State.lsnState_keeps | apply State.modCore_keeps
    | apply State.put_keeps

theorem State.startLesson_keeps {s0 s : State} (c : Nat) (l : Launch) (hs : Keeps s0 s) :
    Keeps s0 (State.startLesson s c l) := by
  unfold State.startLesson
  repeat' with_reducible first
    | assumption | intro _ | apply Keeps.ite | dsimp only | split | apply State.lessonStarted_keeps | apply State.prefetch_keeps

theorem State.launch_keeps {s0 s : State} (c : Nat) (l : Launch) (hs : Keeps s0 s) :
    Keeps s0 (State.launch s c l) := by
  unfold State.launch
  repeat' with_reducible first
    | assumption | intro _ | apply Keeps.ite | dsimp only | split | apply State.refuseLaunch_keeps | apply State.fput_keeps
    | apply State.modCore_keeps | apply State.startLesson_keeps

theorem State.localExpiry_keeps {s0 s : State} (c : Nat) (post : Bool) (hs : Keeps s0 s) :
    Keeps s0 (State.localExpiry s c post) := by
  unfold State.localExpiry
  repeat' with_reducible first | assumption | intro _ | apply Keeps.ite | dsimp only | split | apply State.pointFail_keeps

theorem State.modArr_keeps {s0 s : State} (c : Nat) (b : Bool) (f : ArrayState → ArrayState) (hs : Keeps s0 s) :
    Keeps s0 (State.modArr s c b f) := by
  unfold State.modArr
  repeat' with_reducible first | assumption | intro _ | dsimp only | split | apply State.modCore_keeps

theorem State.setPoint_keeps {s0 s : State} (c : Nat) (post : Bool) (p : Option PointStep) (hs : Keeps s0 s) :
    Keeps s0 (State.setPoint s c post p) := by
  unfold State.setPoint
  repeat' with_reducible first | assumption | intro _ | dsimp only | split | apply State.modCore_keeps

theorem State.pointDone_keeps {s0 s : State} (c : Nat) (t : StepRec) (hs : Keeps s0 s) :
    Keeps s0 (State.pointDone s c t) := by
  unfold State.pointDone
  repeat' with_reducible first | assumption | intro _ | dsimp only | split | apply State.signalDone_keeps | apply State.setPoint_keeps

theorem State.workDone_keeps {s0 s : State} (c : Nat) (key : Nat) (hs : Keeps s0 s) :
    Keeps s0 (State.workDone s c key) := by
  unfold State.workDone
  repeat' with_reducible first
    | assumption | intro _ | apply Keeps.ite | dsimp only | split | apply State.modCore_keeps | apply State.settle_keeps

theorem State.pointWait_keeps {s0 s : State} (c : Nat) (t : StepRec) (hs : Keeps s0 s) :
    Keeps s0 (State.pointWait s c t) := by
  unfold State.pointWait
  repeat' with_reducible first | assumption | intro _ | dsimp only | split | apply State.setPoint_keeps

theorem State.workWaits_keeps {s0 s : State} (u : State) (c : Nat) (key : Nat) (on : WaitsOn) (hs : Keeps s0 s) :
    Keeps s0 (State.workWaits s u c key on) := by
  unfold State.workWaits
  repeat' with_reducible first | assumption | intro _ | dsimp only | split | apply State.modCore_keeps | apply State.keepHeld_keeps

theorem State.performPoint_keeps {s0 s : State} (c : Nat) (t : StepRec) (act : StepM Bool) (hs : Keeps s0 s) (hact : ∀ t, Keeps s0 t → Keeps s0 (act.run t).2) :
    Keeps s0 (State.performPoint s c t act) := by
  unfold State.performPoint
  repeat' with_reducible first
    | assumption | intro _ | refine Keeps.of_snd (by assumption) ?_ | dsimp only | split | apply State.atWork_keeps
    | apply State.pointDone_keeps | apply State.workDone_keeps | apply State.pointWait_keeps | apply State.workWaits_keeps
    | apply State.pointFail_keeps | apply hact

theorem State.performStep_keeps {s0 s : State} (c : Nat) (e : Engine) (t : StepRec) (act : StepM Unit) (hs : Keeps s0 s) (hact : ∀ t, Keeps s0 t → Keeps s0 (act.run t).2) :
    Keeps s0 (State.performStep s c e t act) := by
  unfold State.performStep
  repeat' with_reducible first
    | assumption | intro _ | refine Keeps.of_snd (by assumption) ?_ | dsimp only | split | apply State.atWork_keeps
    | apply State.stepDone_keeps | apply State.workDone_keeps | apply State.workWaits_keeps | apply hact

theorem State.startStep_keeps {s0 s : State} (c : Nat) (e : Engine) (hs : Keeps s0 s) :
    Keeps s0 (State.startStep s c e) := by
  unfold State.startStep
  repeat' with_reducible first | assumption | intro _ | apply Keeps.ite | dsimp only | split | apply State.setCore_keeps

theorem execEndStep_keeps {s0 s : State} (c : Nat) (hs : Keeps s0 s) :
    KeepsOutcome s0 (execEndStep c s) := by
  unfold execEndStep
  repeat' with_reducible first
    | assumption | intro _ | apply KeepsOutcome.next | dsimp only | split | apply State.lsnState_keeps | apply State.modCore_keeps
    | apply State.pointDone_keeps

theorem execFenceStep_keeps {s0 s : State} (c : Nat) (post : Bool) (hs : Keeps s0 s) :
    KeepsOutcome s0 (execFenceStep c post s) := by
  unfold execFenceStep
  repeat' with_reducible first
    | assumption | intro _ | apply KeepsOutcome.next | apply Keeps.ite | dsimp only | split | apply State.pointDone_keeps
    | apply State.pointWait_keeps

theorem execLessonComplete_keeps {s0 s : State} (c : Nat) (hs : Keeps s0 s) :
    KeepsOutcome s0 (execLessonComplete c s) := by
  unfold execLessonComplete
  repeat' with_reducible first
    | assumption | intro _ | apply KeepsOutcome.next | apply Keeps.ite | dsimp only | split | apply State.endLesson_keeps

theorem execLessonLaunch_keeps {s0 s : State} (c : Nat) (l : Launch) (hs : Keeps s0 s) :
    KeepsOutcome s0 (execLessonLaunch c l s) := by
  unfold execLessonLaunch
  repeat' with_reducible first | assumption | intro _ | apply KeepsOutcome.next | dsimp only | split | apply State.launch_keeps

theorem execNopStep_keeps {s0 s : State} (c : Nat) (post : Bool) (hs : Keeps s0 s) :
    KeepsOutcome s0 (execNopStep c post s) := by
  unfold execNopStep
  repeat' with_reducible first | assumption | intro _ | apply KeepsOutcome.next | dsimp only | split | apply State.pointDone_keeps

theorem preloadCopy_keeps {s0 st : State} (c : Nat) (l : Launch) (hs : Keeps s0 st) :
    Keeps s0 ((preloadCopy c l).run st).2 := by
  unfold preloadCopy
  repeat' with_reducible first
    | assumption | intro _ | apply Keeps.run_bind | dsimp only | split | apply stepRead_keeps | apply stepWrite_keeps

theorem execPreloadComplete_keeps {s0 s : State} (c : Nat) (hs : Keeps s0 s) :
    KeepsOutcome s0 (execPreloadComplete c s) := by
  unfold execPreloadComplete
  repeat' with_reducible first
    | assumption | intro _ | refine Keeps.of_snd (by assumption) ?_ | apply KeepsOutcome.next | dsimp only | split
    | apply preloadCopy_keeps | apply State.modCore_keeps | apply State.prefetch_keeps | apply State.workDone_keeps
    | apply State.workWaits_keeps | apply State.stepFails_keeps

theorem execSliceClear_keeps {s0 s : State} (c : Nat) (hs : Keeps s0 s) :
    KeepsOutcome s0 (execSliceClear c s) := by
  unfold execSliceClear
  repeat' with_reducible first
    | assumption | intro _ | apply KeepsOutcome.next | apply KeepsOutcome.ite | dsimp only | split | apply State.fput_keeps

theorem execSliceFillComplete_keeps {s0 s : State} (c : Nat) (hs : Keeps s0 s) :
    KeepsOutcome s0 (execSliceFillComplete c s) := by
  unfold execSliceFillComplete
  repeat' with_reducible first
    | assumption | exact id | exact memWf_smClear _ _ | intro _ | apply KeepsOutcome.next | apply KeepsOutcome.ite | apply Keeps.ite
    | dsimp only | split | apply State.fput_keeps | apply State.modCore_keeps | apply State.setNear_keeps | apply State.startLesson_keeps
    | refine Keeps.mk' ?_ rfl rfl (fun _ => id) rfl rfl ?_ ?_ ?_ ?_ ?_

theorem execStepComplete_keeps {s0 s : State} (c : Nat) (e : Engine) (order : Nat) (hs : Keeps s0 s) :
    KeepsOutcome s0 (execStepComplete c e order s) := by
  unfold execStepComplete
  repeat' with_reducible first
    | assumption | intro _ | apply KeepsOutcome.next | apply KeepsOutcome.ite | apply Keeps.ite | dsimp only | split
    | apply State.setCore_keeps | apply State.signalDone_keeps

theorem execStepIssue_keeps {s0 s : State} (c : Nat) (hs : Keeps s0 s) :
    KeepsOutcome s0 (execStepIssue c s) := by
  unfold execStepIssue
  repeat' with_reducible first
    | assumption | intro _ | apply KeepsOutcome.next | apply KeepsOutcome.ite | dsimp only | split | apply State.issue_keeps
    | apply State.modCore_keeps | apply State.issueLesson_keeps

theorem syncTest_keeps {s0 st : State} (c : Nat) (t : StepRec) (hs : Keeps s0 st) :
    Keeps s0 ((syncTest c t).run st).2 := by
  unfold syncTest
  repeat' with_reducible first
    | assumption | intro _ | apply Keeps.run_pure | apply Keeps.run_bind | dsimp only | split | apply stepRead_keeps

theorem execSyncPoll_keeps {s0 s : State} (c : Nat) (post : Bool) (hs : Keeps s0 s) :
    KeepsOutcome s0 (execSyncPoll c post s) := by
  unfold execSyncPoll
  repeat' with_reducible first
    | assumption | intro _ | apply KeepsOutcome.next | apply Keeps.ite | dsimp only | split | apply State.performPoint_keeps
    | apply syncTest_keeps

theorem execSyncSignalLocal_keeps {s0 s : State} (c : Nat) (post : Bool) (hs : Keeps s0 s) :
    KeepsOutcome s0 (execSyncSignalLocal c post s) := by
  unfold execSyncSignalLocal
  repeat' with_reducible first
    | assumption | intro _ | apply KeepsOutcome.next | dsimp only | split | apply State.pointDone_keeps | apply State.evtAdd_keeps

theorem stepCombine_keeps {s0 st : State} (c : Nat) (a1 : Nat) (op : AtomOp) (width : Nat) (elems : List (Nat × Nat × Nat)) (hs : Keeps s0 st) :
    Keeps s0 ((stepCombine c a1 op width elems).run st).2 := by
  unfold stepCombine
  repeat' with_reducible first
    | assumption | intro _ | apply Keeps.run_pure | apply Keeps.run_bind | dsimp only | split | apply stepAccess_keeps
    | apply State.farCombine_keeps

theorem stepAtomic_keeps {s0 st : State} (c : Nat) (a1 : Nat) (op : AtomOp) (width : Nat) (v : Nat) (hs : Keeps s0 st) :
    Keeps s0 ((stepAtomic c a1 op width v).run st).2 := by
  unfold stepAtomic
  repeat' with_reducible first | assumption | intro _ | dsimp only | split | apply stepCombine_keeps

theorem execSyncSignalRemote_keeps {s0 s : State} (c : Nat) (post : Bool) (hs : Keeps s0 s) :
    KeepsOutcome s0 (execSyncSignalRemote c post s) := by
  unfold execSyncSignalRemote
  repeat' with_reducible first
    | assumption | intro _ | apply KeepsOutcome.next | apply KeepsOutcome.ite | apply Keeps.run_pure | apply Keeps.run_bind | dsimp only
    | split | apply State.pointFail_keeps | apply State.pointWait_keeps | apply State.performPoint_keeps | apply stepAtomic_keeps

theorem execSyncTimeout_keeps {s0 s : State} (c : Nat) (post : Bool) (hs : Keeps s0 s) :
    KeepsOutcome s0 (execSyncTimeout c post s) := by
  unfold execSyncTimeout
  repeat' with_reducible first
    | assumption | intro _ | apply KeepsOutcome.next | apply Keeps.ite | dsimp only | split | apply State.pointFail_keeps

theorem execSyncWaitLocal_keeps {s0 s : State} (c : Nat) (post : Bool) (hs : Keeps s0 s) :
    KeepsOutcome s0 (execSyncWaitLocal c post s) := by
  unfold execSyncWaitLocal
  repeat' with_reducible first
    | assumption | intro _ | apply KeepsOutcome.next | apply Keeps.ite | dsimp only | split | apply State.pointDone_keeps
    | apply State.pointWait_keeps

theorem execSyncWaitRemote_keeps {s0 s : State} (c : Nat) (post : Bool) (hs : Keeps s0 s) :
    KeepsOutcome s0 (execSyncWaitRemote c post s) := by
  unfold execSyncWaitRemote
  repeat' with_reducible first
    | assumption | intro _ | apply KeepsOutcome.next | apply KeepsOutcome.ite | dsimp only | split | apply State.pointFail_keeps
    | apply State.performPoint_keeps | apply syncTest_keeps

theorem execWaitLimitExpiry_keeps {s0 s : State} (c : Nat) (who : Waiter) (hs : Keeps s0 s) :
    KeepsOutcome s0 (execWaitLimitExpiry c who s) := by
  unfold execWaitLimitExpiry
  repeat' with_reducible first
    | assumption | intro _ | apply KeepsOutcome.next | apply KeepsOutcome.ite | apply Keeps.ite | dsimp only | split
    | apply State.localExpiry_keeps | apply State.stepDone_keeps

theorem State.farDies_keeps {s0 s : State} (e : AccErr) (st : LStatus) (hs : Keeps s0 s) :
    Keeps s0 (State.farDies s e st) := by
  unfold State.farDies
  repeat' with_reducible first
    | assumption | exact id | intro _ | apply Keeps.foldl | dsimp only | split | apply State.emit_keeps | apply State.failWaits_keeps
    | apply State.popMiss_keeps | refine Keeps.mk' ?_ rfl rfl (fun _ => id) rfl rfl ?_ ?_ ?_ ?_ ?_

theorem State.ladleLost_keeps {s0 s : State} (f : Nat) (status : Nat) (hs : Keeps s0 s) :
    Keeps s0 (State.ladleLost s f status) := by
  unfold State.ladleLost
  repeat' with_reducible first
    | assumption | intro _ | apply Keeps.ite | apply Keeps.foldl | dsimp only | split | apply State.setLadle_keeps
    | apply State.arbCounts_keeps | apply State.ladleEnd_keeps

theorem State.movePort_keeps {s0 s : State} (f : Nat) (hs : Keeps s0 s) :
    Keeps s0 (State.movePort s f) := by
  unfold State.movePort
  repeat' with_reducible first
    | assumption | intro _ | apply Keeps.ite | apply Keeps.foldl | dsimp only | split | apply State.setFarPort_keeps
    | apply State.arbCounts_keeps | apply State.askPort_keeps

theorem State.loseFarStack_keeps {s0 s : State} (f : Nat) (hs : Keeps s0 s) :
    Keeps s0 (State.loseFarStack s f) := by
  unfold State.loseFarStack
  repeat' with_reducible first
    | assumption | intro _ | apply Keeps.ite | dsimp only | split | apply State.ladleLost_keeps | apply State.movePort_keeps
    | apply State.farDies_keeps | apply State.fput_keeps | apply State.relEvent_keeps

theorem State.arrayRan_keeps {s0 s : State} (c : Nat) (b : Bool) (t : StepRec) (k : Checked) (f : Fetched) (tout : Nat) (lo : Nat) (hi : Nat) (accs : List (List Nat)) (hs : Keeps s0 s) :
    Keeps s0 (State.arrayRan s c b t k f tout lo hi accs) := by
  unfold State.arrayRan
  repeat' with_reducible first
    | assumption | intro _ | dsimp only | split | apply State.draw_keeps | apply State.fadd_keeps | apply State.modArr_keeps

theorem State.freeze_keeps {s0 s : State} (c : Nat) (b : Bool) (hs : Keeps s0 s) :
    Keeps s0 (State.freeze s c b) := by
  unfold State.freeze
  repeat' with_reducible first
    | assumption | intro _ | apply Keeps.ite | dsimp only | split | apply State.fadd_keeps | apply State.modArr_keeps

theorem State.colHeld_keeps {s0 s : State} (c : Nat) (b : Bool) (t : StepRec) (a4 : Nat × Nat) (hs : Keeps s0 s) :
    Keeps s0 (State.colHeld s c b t a4) := by
  unfold State.colHeld
  repeat' with_reducible first
    | assumption | intro _ | apply Keeps.ite | dsimp only | split | apply State.modArr_keeps | apply State.freeze_keeps

theorem State.gatherEnds_keeps {s0 s : State} (c : Nat) (b : Bool) (hs : Keeps s0 s) :
    Keeps s0 (State.gatherEnds s c b) := by
  unfold State.gatherEnds
  repeat' with_reducible first | assumption | intro _ | apply Keeps.foldl | dsimp only | split | apply State.gatherDone_keeps

theorem State.loadSeed_keeps {s0 s : State} (c : Nat) (g : GenSet) (hs : Keeps s0 s) :
    Keeps s0 (State.loadSeed s c g) := by
  unfold State.loadSeed
  repeat' with_reducible first
    | assumption | intro _ | apply Keeps.ite | dsimp only | split | apply State.modArr_keeps | apply State.modCore_keeps

theorem State.rowLate_keeps {s0 s : State} (c : Nat) (b : Bool) (t : StepRec) (a4 : Nat × Nat) (hs : Keeps s0 s) :
    Keeps s0 (State.rowLate s c b t a4) := by
  unfold State.rowLate
  repeat' with_reducible first
    | assumption | intro _ | apply Keeps.ite | dsimp only | split | apply State.modArr_keeps | apply State.fadd_keeps

theorem listEntries_keeps {s0 st : State} (d : Nat) (c : Nat) (b : Bool) (n : Nat) (seq : Nat) (first : Nat) (count : Nat) (hs : Keeps s0 st) :
    Keeps s0 ((listEntries d c b n seq first count).run st).2 := by
  unfold listEntries
  repeat' with_reducible first
    | assumption | intro _ | refine Keeps.of_snd (by assumption) ?_ | apply Keeps.run_pure | apply Keeps.run_throw
    | apply Keeps.run_get_bind | apply Keeps.run_set | apply Keeps.run_bind | dsimp only | split | apply fetchEntries_keeps
    | apply stepFail_keeps

theorem pailList_keeps {s0 st : State} (c : Nat) (b : Bool) (t : StepRec) (fetch : Bool) (hs : Keeps s0 st) :
    Keeps s0 ((pailList c b t fetch).run st).2 := by
  unfold pailList
  repeat' with_reducible first
    | assumption | intro _ | apply Keeps.run_pure | apply Keeps.run_ite | apply Keeps.run_get_bind | apply Keeps.run_bind | dsimp only
    | split | apply stepRead_keeps | apply stepNeed_keeps | apply listEntries_keeps | apply stepFail_keeps

theorem State.startList_keeps {s0 s : State} (c : Nat) (b : Bool) (hs : Keeps s0 s) :
    Keeps s0 (State.startList s c b) := by
  unfold State.startList
  repeat' with_reducible first
    | assumption | intro _ | refine Keeps.of_snd (by assumption) ?_ | apply Keeps.ite | dsimp only | split | apply pailList_keeps

theorem slateOf_keeps {s0 st : State} (a0 : ArrayState) (reuse : Bool) (hs : Keeps s0 st) :
    Keeps s0 ((slateOf a0 reuse).run st).2 := by
  unfold slateOf
  repeat' with_reducible first | assumption | intro _ | apply Keeps.run_pure | dsimp only | split | apply stepFail_keeps

theorem checkStep_keeps {s0 st : State} (c : Nat) (t : StepRec) (arr : Option Bool) (hs : Keeps s0 st) :
    Keeps s0 ((checkStep c t arr).run st).2 := by
  unfold checkStep
  repeat' with_reducible first
    | assumption | intro _ | apply Keeps.run_pure | apply Keeps.run_get_bind | apply Keeps.run_bind | dsimp only | split
    | apply stepNeed_keeps | apply stepWhen_keeps | apply pailList_keeps | apply readRec_keeps | apply slateOf_keeps
    | apply stepFail_keeps

theorem convertStep_keeps {s0 st : State} (c : Nat) (t : StepRec) (hs : Keeps s0 st) :
    Keeps s0 ((convertStep c t).run st).2 := by
  unfold convertStep
  repeat' with_reducible first
    | assumption | intro _ | apply Keeps.run_pure | apply Keeps.run_ite | apply Keeps.run_get_bind | apply Keeps.run_modify
    | apply Keeps.run_bind | apply Keeps.run_forM | dsimp only | split | apply readRec_keeps | apply stepNeed_keeps
    | apply readOperand_keeps | apply State.loadSeed_keeps | apply stepWrite_keeps | apply State.modCore_keeps
    | apply State.setNanCleared_keeps

theorem execArrayHung_keeps {s0 s : State} (c : Nat) (arrayB : Bool) (hs : Keeps s0 s) :
    KeepsOutcome s0 (execArrayHung c arrayB s) := by
  unfold execArrayHung
  repeat' with_reducible first
    | assumption | intro _ | apply KeepsOutcome.next | apply KeepsOutcome.ite | apply Keeps.ite | dsimp only | split
    | apply State.fadd_keeps | apply State.modArr_keeps | apply State.stepDone_keeps | apply State.beginFence_keeps

theorem execConvert_keeps {s0 s : State} (c : Nat) (hs : Keeps s0 s) :
    KeepsOutcome s0 (execConvert c s) := by
  unfold execConvert
  repeat' with_reducible first
    | assumption | intro _ | apply KeepsOutcome.next | dsimp only | split | apply State.performStep_keeps | apply convertStep_keeps

theorem execFreezeRelease_keeps {s0 s : State} (c : Nat) (arrayB : Bool) (hs : Keeps s0 s) :
    KeepsOutcome s0 (execFreezeRelease c arrayB s) := by
  unfold execFreezeRelease
  repeat' with_reducible first
    | assumption | intro _ | apply KeepsOutcome.next | apply Keeps.ite | dsimp only | split | apply State.modArr_keeps

theorem readSplit_keeps {s0 st : State} (c : Nat) (role : Role) (base : Nat) (idx : Nat) (count : Nat) (hs : Keeps s0 st) :
    Keeps s0 ((readSplit c role base idx count).run st).2 := by
  unfold readSplit
  repeat' with_reducible first
    | assumption | intro _ | apply Keeps.run_pure | apply Keeps.run_bind | dsimp only | split | apply stepRead_keeps

theorem readSegments_keeps {s0 st : State} (c : Nat) (n : Nat) (segs : List Nat) (hs : Keeps s0 st) :
    Keeps s0 ((readSegments c n segs).run st).2 := by
  unfold readSegments
  repeat' with_reducible first
    | assumption | intro _ | apply Keeps.run_pure | apply Keeps.run_bind | apply Keeps.run_mapM | dsimp only | split
    | apply stepRead_keeps

theorem readList_keeps {s0 st : State} (c : Nat) (t : StepRec) (r : MatRec) (count : Nat) (len : Nat) (hs : Keeps s0 st) :
    Keeps s0 ((readList c t r count len).run st).2 := by
  unfold readList
  repeat' with_reducible first
    | assumption | intro _ | apply Keeps.run_pure | apply Keeps.run_get_bind | apply Keeps.run_bind | dsimp only | split
    | apply stepRead_keeps | apply stepNeed_keeps

theorem fetchStep_keeps {s0 st : State} (c : Nat) (t : StepRec) (arr : Option Bool) (k : Checked) (hs : Keeps s0 st) :
    Keeps s0 ((fetchStep c t arr k).run st).2 := by
  unfold fetchStep
  repeat' with_reducible first
    | assumption | intro _ | apply Keeps.run_pure | apply Keeps.run_ite | apply Keeps.run_bind | apply Keeps.run_mapM | dsimp only | split
    | apply readOperand_keeps | apply readSplit_keeps | apply pailList_keeps | apply readSegments_keeps | apply readList_keeps

theorem readInit_keeps {s0 st : State} (c : Nat) (t : StepRec) (r : Option MatRec) (hs : Keeps s0 st) :
    Keeps s0 ((readInit c t r).run st).2 := by
  unfold readInit
  repeat' with_reducible first
    | assumption | intro _ | apply Keeps.run_pure | apply Keeps.run_bind | dsimp only | split | apply readEach_keeps

theorem matrixStep_keeps {s0 st : State} (c : Nat) (t : StepRec) (arr : Option Bool) (hs : Keeps s0 st) :
    Keeps s0 ((matrixStep c t arr).run st).2 := by
  unfold matrixStep
  repeat' with_reducible first
    | assumption | intro _ | apply Keeps.ite | apply Keeps.run_pure | apply Keeps.run_ite | apply Keeps.run_get_bind
    | apply Keeps.run_modify | apply Keeps.run_bind | apply Keeps.run_forM | dsimp only | split | apply checkStep_keeps
    | apply State.setKEmpty_keeps | apply stepWhen_keeps | apply fetchStep_keeps | apply readInit_keeps | apply State.loadSeed_keeps
    | apply stepWrite_keeps | apply State.modCore_keeps | apply State.arrayRan_keeps

theorem execGather_keeps {s0 s : State} (c : Nat) (arrayB : Bool) (ready : Bool) (late : List (Nat × Nat)) (held : List (Nat × Nat)) (hs : Keeps s0 s) :
    KeepsOutcome s0 (execGather c arrayB ready late held s) := by
  unfold execGather
  repeat' with_reducible first
    | assumption | intro _ | apply KeepsOutcome.next | apply KeepsOutcome.ite | apply Keeps.ite | apply Keeps.foldl | dsimp only | split
    | apply State.freeze_keeps | apply State.colHeld_keeps | apply State.rowLate_keeps | apply State.performStep_keeps
    | apply State.startList_keeps | apply matrixStep_keeps | apply State.gatherEnds_keeps

theorem execGatherRowData_keeps {s0 s : State} (c : Nat) (arrayB : Bool) (row : Nat) (hs : Keeps s0 s) :
    KeepsOutcome s0 (execGatherRowData c arrayB row s) := by
  unfold execGatherRowData
  repeat' with_reducible first | assumption | intro _ | apply KeepsOutcome.next | dsimp only | split | apply State.modArr_keeps

theorem tileFromImage_keeps {s0 st : State} (c : Nat) (cls : FmtClass) (r : MatRec) (k0 : Nat) (klen : Nat) (nlen : Nat) (noSide : Bool) (hs : Keeps s0 st) :
    Keeps s0 ((tileFromImage c cls r k0 klen nlen noSide).run st).2 := by
  unfold tileFromImage
  repeat' with_reducible first
    | assumption | intro _ | apply Keeps.run_pure | apply Keeps.run_ite | apply Keeps.run_bind | dsimp only | split | apply stepRead_keeps

theorem tileFromLines_keeps {s0 st : State} (c : Nat) (cls : FmtClass) (r : MatRec) (k0 : Nat) (n0 : Nat) (klen : Nat) (nlen : Nat) (ktotal : Nat) (noSide : Bool) (hs : Keeps s0 st) :
    Keeps s0 ((tileFromLines c cls r k0 n0 klen nlen ktotal noSide).run st).2 := by
  unfold tileFromLines
  repeat' with_reducible first
    | assumption | intro _ | apply Keeps.run_pure | apply Keeps.run_ite | apply Keeps.run_bind | apply Keeps.run_mapM | dsimp only | split
    | apply readEach_keeps | apply readSplit_keeps

theorem slateTile_keeps {s0 st : State} (c : Nat) (t : StepRec) (hs : Keeps s0 st) :
    Keeps s0 ((slateTile c t).run st).2 := by
  unfold slateTile
  repeat' with_reducible first
    | assumption | intro _ | apply Keeps.run_ite | apply Keeps.run_get_bind | apply Keeps.run_bind | dsimp only | split
    | apply stepNeed_keeps | apply stepFail_keeps | apply readRec_keeps | apply tileFromImage_keeps | apply tileFromLines_keeps

theorem execLoadSlate_keeps {s0 s : State} (c : Nat) (arrayB : Bool) (hs : Keeps s0 s) :
    KeepsOutcome s0 (execLoadSlate c arrayB s) := by
  unfold execLoadSlate
  repeat' with_reducible first
    | assumption | intro _ | apply KeepsOutcome.next | apply Keeps.run_modify | apply Keeps.run_bind | dsimp only | split
    | apply State.performStep_keeps | apply slateTile_keeps | apply State.modArr_keeps

theorem execSkim_keeps {s0 s : State} (c : Nat) (hs : Keeps s0 s) :
    KeepsOutcome s0 (execSkim c s) := by
  unfold execSkim
  repeat' with_reducible first
    | assumption | intro _ | apply KeepsOutcome.next | dsimp only | split | apply State.performStep_keeps | apply matrixStep_keeps

theorem execSlateLoadComplete_keeps {s0 s : State} (c : Nat) (arrayB : Bool) (hs : Keeps s0 s) :
    KeepsOutcome s0 (execSlateLoadComplete c arrayB s) := by
  unfold execSlateLoadComplete
  repeat' with_reducible first
    | assumption | intro _ | apply KeepsOutcome.next | apply KeepsOutcome.ite | dsimp only | split | apply State.modArr_keeps

theorem execStepStart_keeps {s0 s : State} (c : Nat) (e : Engine) (hs : Keeps s0 s) :
    KeepsOutcome s0 (execStepStart c e s) := by
  unfold execStepStart
  repeat' with_reducible first
    | assumption | intro _ | apply KeepsOutcome.next | dsimp only | split | apply State.startList_keeps | apply State.startStep_keeps

theorem execStream_keeps {s0 s : State} (c : Nat) (e : Engine) (ready : Bool) (hs : Keeps s0 s) :
    KeepsOutcome s0 (execStream c e ready s) := by
  unfold execStream
  repeat' with_reducible first
    | assumption | intro _ | apply KeepsOutcome.next | apply KeepsOutcome.ite | dsimp only | split | apply State.performStep_keeps
    | apply matrixStep_keeps | apply State.freeze_keeps

theorem copyRows_keeps {s0 st : State} (c : Nat) (rs : Role) (rd : Role) (n : Nat) (overlap : Bool) (a5 : List (Nat × Nat)) (hs : Keeps s0 st) :
    Keeps s0 ((copyRows c rs rd n overlap a5).run st).2 := by
  induction a5 generalizing st with
  | nil =>
    unfold copyRows
    repeat' with_reducible first | assumption | intro _ | apply Keeps.run_pure

  | cons b bs ih =>
    unfold copyRows
    repeat' with_reducible first
      | assumption | intro _ | apply Keeps.run_pure | apply Keeps.run_ite | apply Keeps.run_get_bind | apply Keeps.run_set
      | apply Keeps.run_bind | dsimp only | split | apply ih | apply stepRead_keeps | apply State.drawBytes_keeps | apply stepWrite_keeps

theorem copyStep_keeps {s0 st : State} (c : Nat) (t : StepRec) (rs : Role) (rd : Role) (hs : Keeps s0 st) :
    Keeps s0 ((copyStep c t rs rd).run st).2 := by
  unfold copyStep
  repeat' with_reducible first
    | assumption | intro _ | apply Keeps.run_pure | apply Keeps.run_ite | apply Keeps.run_get_bind | apply Keeps.run_bind | dsimp only
    | split | apply stepNeed_keeps | apply copyRows_keeps

theorem execLoadStep_keeps {s0 s : State} (c : Nat) (hs : Keeps s0 s) :
    KeepsOutcome s0 (execLoadStep c s) := by
  unfold execLoadStep
  repeat' with_reducible first
    | assumption | intro _ | apply KeepsOutcome.next | dsimp only | split | apply State.performStep_keeps | apply copyStep_keeps

theorem execMoveStep_keeps {s0 s : State} (c : Nat) (hs : Keeps s0 s) :
    KeepsOutcome s0 (execMoveStep c s) := by
  unfold execMoveStep
  repeat' with_reducible first
    | assumption | intro _ | apply KeepsOutcome.next | dsimp only | split | apply State.performStep_keeps | apply copyStep_keeps

theorem reduceStep_keeps {s0 st : State} (c : Nat) (t : StepRec) (hs : Keeps s0 st) :
    Keeps s0 ((reduceStep c t).run st).2 := by
  unfold reduceStep
  repeat' with_reducible first
    | assumption | intro _ | apply Keeps.run_pure | apply Keeps.run_ite | apply Keeps.run_get_bind | apply Keeps.run_bind
    | apply Keeps.run_forM | dsimp only | split | apply stepNeed_keeps | apply stepRead_keeps | apply stepCombine_keeps

theorem execReduce_keeps {s0 s : State} (c : Nat) (hs : Keeps s0 s) :
    KeepsOutcome s0 (execReduce c s) := by
  unfold execReduce
  repeat' with_reducible first
    | assumption | intro _ | apply KeepsOutcome.next | dsimp only | split | apply State.performStep_keeps | apply reduceStep_keeps

theorem execStoreStep_keeps {s0 s : State} (c : Nat) (hs : Keeps s0 s) :
    KeepsOutcome s0 (execStoreStep c s) := by
  unfold execStoreStep
  repeat' with_reducible first
    | assumption | intro _ | apply KeepsOutcome.next | dsimp only | split | apply State.performStep_keeps | apply copyStep_keeps

theorem State.arrCtlWrite_keeps {s0 s : State} (c : Nat) (a2 : Nat) (w : RegWrite) (hs : Keeps s0 s) :
    Keeps s0 (State.arrCtlWrite s c a2 w) := by
  unfold State.arrCtlWrite
  repeat' with_reducible first
    | assumption | intro _ | apply Keeps.ite | dsimp only | split | apply State.fput_keeps | apply State.put_keeps

theorem State.beginRecovery_keeps {s0 s : State} (c : Nat) (hs : Keeps s0 s) :
    Keeps s0 (State.beginRecovery s c) := by
  unfold State.beginRecovery
  repeat' with_reducible first | assumption | intro _ | dsimp only | split | apply State.resetIslands_keeps | apply State.fput_keeps

theorem State.emptyArrays_keeps {s0 s : State} (c : Nat) (hs : Keeps s0 s) :
    Keeps s0 (State.emptyArrays s c) := by
  unfold State.emptyArrays
  repeat' with_reducible first | assumption | intro _ | dsimp only | split | apply State.modArr_keeps

theorem State.emptyCore_keeps {s0 s : State} (c : Nat) (hs : Keeps s0 s) :
    Keeps s0 (State.emptyCore s c) := by
  unfold State.emptyCore
  repeat' with_reducible first
    | assumption | exact id | exact memWf_smClear _ _ | intro _ | dsimp only | split
    | refine Keeps.mk' ?_ rfl rfl (fun _ => id) rfl rfl ?_ ?_ ?_ ?_ ?_

theorem State.cutRequests_keeps {s0 s : State} (c : Nat) (e : LStatus) (hs : Keeps s0 s) :
    Keeps s0 (State.cutRequests s c e) := by
  unfold State.cutRequests
  repeat' with_reducible first
    | assumption | exact id | intro _ | apply Keeps.foldl | dsimp only | split | apply State.emit_keeps | apply State.setNear_keeps
    | apply State.failWaits_keeps | refine Keeps.mk' ?_ rfl rfl (fun _ => id) rfl rfl ?_ ?_ ?_ ?_ ?_

theorem State.cutLesson_keeps {s0 s : State} (c : Nat) (e : LStatus) (hs : Keeps s0 s) :
    Keeps s0 (State.cutLesson s c e) := by
  unfold State.cutLesson
  repeat' with_reducible first
    | assumption | intro _ | dsimp only | split | apply State.endLesson_keeps | apply State.refuseLaunch_keeps | apply State.modCore_keeps

theorem State.cutRead_keeps {s0 s : State} (c : Nat) (role : Role) (a3 : Nat) (n : Nat) (hs : Keeps s0 s) :
    Keeps s0 (State.cutRead s c role a3 n).1 := by
  unfold State.cutRead
  repeat' with_reducible first
    | assumption | intro _ | apply Keeps.ite_fst | dsimp only | split | apply State.nearRead_keeps | apply State.readAt_keeps

theorem State.cutGrain_keeps {s0 s : State} (c : Nat) (src : Nat) (dst : Nat) (n : Nat) (rs : Role) (rd : Role) (hs : Keeps s0 s) :
    Keeps s0 (State.cutGrain s c src dst n rs rd) := by
  unfold State.cutGrain
  repeat' with_reducible first
    | assumption | intro _ | refine Keeps.of_fst (by assumption) ?_ | apply Keeps.ite | dsimp only | split | apply State.draw_keeps
    | apply State.cutRead_keeps | apply State.writeAt_keeps

theorem State.cutCopy_keeps {s0 s : State} (c : Nat) (hs : Keeps s0 s) :
    Keeps s0 (State.cutCopy s c) := by
  unfold State.cutCopy
  repeat' with_reducible first
    | assumption | intro _ | apply Keeps.ite | apply Keeps.foldl | dsimp only | split | apply State.cutGrain_keeps

theorem State.stopCore_keeps {s0 s : State} (c : Nat) (e : LStatus) (hs : Keeps s0 s) :
    Keeps s0 (State.stopCore s c e) := by
  unfold State.stopCore
  repeat' with_reducible first
    | assumption | intro _ | dsimp only | split | apply State.emptyArrays_keeps | apply State.emptyCore_keeps
    | apply State.cutRequests_keeps | apply State.cutLesson_keeps | apply State.cutCopy_keeps | apply State.gatherEnds_keeps
    | apply State.setNear_keeps | apply State.fput_keeps

theorem State.completeFence_keeps {s0 s : State} (c : Nat) (e : LStatus) (hs : Keeps s0 s) :
    Keeps s0 (State.completeFence s c e) := by
  unfold State.completeFence
  repeat' with_reducible first
    | assumption | intro _ | apply Keeps.ite | dsimp only | split | apply State.fenceEvent_keeps | apply State.regrade_keeps
    | apply State.stopCore_keeps | apply State.fput_keeps | apply State.modCore_keeps | apply State.beginRecovery_keeps

theorem State.loadSeeds_keeps {s0 s : State} (c : Nat) (hs : Keeps s0 s) :
    Keeps s0 (State.loadSeeds s c) := by
  unfold State.loadSeeds
  repeat' with_reducible first | assumption | intro _ | dsimp only | split | apply State.modCore_keeps | apply State.loadSeed_keeps

theorem State.enterService_keeps {s0 s : State} (c : Nat) (hs : Keeps s0 s) :
    Keeps s0 (State.enterService s c) := by
  unfold State.enterService
  repeat' with_reducible first
    | assumption | intro _ | dsimp only | split | apply State.loadSeeds_keeps | apply State.emptyArrays_keeps
    | apply State.emptyCore_keeps | apply State.fput_keeps | apply State.modCore_keeps | apply State.setNear_keeps
    | apply State.regrade_keeps

theorem State.fenceCtl_keeps {s0 s : State} (c : Nat) (w : RegWrite) (hs : Keeps s0 s) :
    Keeps s0 (State.fenceCtl s c w) := by
  unfold State.fenceCtl
  repeat' with_reducible first
    | assumption | intro _ | apply Keeps.ite | dsimp only | split | apply State.beginFence_keeps | apply State.beginRecovery_keeps
    | apply State.modCore_keeps | apply State.fput_keeps

theorem State.seedWrite_keeps {s0 s : State} (c : Nat) (gen : GenSet) (w : RegWrite) (hs : Keeps s0 s) :
    Keeps s0 (State.seedWrite s c gen w) := by
  unfold State.seedWrite
  repeat' with_reducible first | assumption | intro _ | dsimp only | split | apply State.modCore_keeps | apply State.put_keeps

theorem execArrStatClear_keeps {s0 s : State} (c : Nat) (arrayB : Bool) (w : RegWrite) (hs : Keeps s0 s) :
    KeepsOutcome s0 (execArrStatClear c arrayB w s) := by
  unfold execArrStatClear
  repeat' with_reducible first
    | assumption | intro _ | apply KeepsOutcome.next | dsimp only | split | apply State.guarded_keeps | apply State.arrCtlWrite_keeps

theorem execCoreFence_keeps {s0 s : State} (c : Nat) (cause : Nat) (hs : Keeps s0 s) :
    KeepsOutcome s0 (execCoreFence c cause s) := by
  unfold execCoreFence
  repeat' with_reducible first
    | assumption | intro _ | apply KeepsOutcome.next | apply Keeps.ite | dsimp only | split | apply State.beginFence_keeps

theorem execCoreFenceRequest_keeps {s0 s : State} (c : Nat) (w : RegWrite) (hs : Keeps s0 s) :
    KeepsOutcome s0 (execCoreFenceRequest c w s) := by
  unfold execCoreFenceRequest
  repeat' with_reducible first
    | assumption | intro _ | apply KeepsOutcome.next | dsimp only | split | apply State.guarded_keeps | apply State.fenceCtl_keeps

end Sys2Proof.Machine
end

