-- ==== Sys2Proof/Laws/Keeps3.lean ====
section
/-! SUPPORT. What the operations of Machine/ keep (`Keeps`), file 3 of 5:
Cores, RingOps, Fabric, Rings, FarEvents, Security, Mesh. -/

namespace Sys2Proof.Machine

theorem execFenceComplete_keeps {s0 s : State} (c : Nat) (hs : Keeps s0 s) :
    KeepsOutcome s0 (execFenceComplete c s) := by
  unfold execFenceComplete
  repeat' with_reducible first
    | assumption | intro _ | apply KeepsOutcome.next | apply Keeps.ite | dsimp only | split | apply State.completeFence_keeps

theorem execLateReply_keeps {s0 s : State} (c : Nat) (hs : Keeps s0 s) :
    KeepsOutcome s0 (execLateReply c s) := by
  unfold execLateReply
  repeat' with_reducible first
    | assumption | intro _ | apply KeepsOutcome.next | apply Keeps.ite | dsimp only | split | apply State.fadd_keeps

theorem execRateWindow_keeps {s0 s : State} (c : Nat) (hs : Keeps s0 s) :
    KeepsOutcome s0 (execRateWindow c s) := by
  unfold execRateWindow
  repeat' with_reducible first
    | assumption | intro _ | apply KeepsOutcome.next | dsimp only | split | apply State.modArr_keeps | apply State.fput_keeps

theorem execSeedLoad_keeps {s0 s : State} (c : Nat) (gen : GenSet) (hs : Keeps s0 s) :
    KeepsOutcome s0 (execSeedLoad c gen s) := by
  unfold execSeedLoad
  repeat' with_reducible first | assumption | intro _ | apply KeepsOutcome.next | dsimp only | split | apply State.loadSeed_keeps

theorem execSeedWrite_keeps {s0 s : State} (c : Nat) (gen : GenSet) (w : RegWrite) (hs : Keeps s0 s) :
    KeepsOutcome s0 (execSeedWrite c gen w s) := by
  unfold execSeedWrite
  repeat' with_reducible first
    | assumption | intro _ | apply KeepsOutcome.next | dsimp only | split | apply State.guarded_keeps | apply State.seedWrite_keeps

theorem execUnfence_keeps {s0 s : State} (c : Nat) (w : RegWrite) (hs : Keeps s0 s) :
    KeepsOutcome s0 (execUnfence c w s) := by
  unfold execUnfence
  repeat' with_reducible first
    | assumption | intro _ | apply KeepsOutcome.next | dsimp only | split | apply State.guarded_keeps | apply State.fenceCtl_keeps

theorem execWarmRecoveryComplete_keeps {s0 s : State} (c : Nat) (found : RollResult) (hs : Keeps s0 s) :
    KeepsOutcome s0 (execWarmRecoveryComplete c found s) := by
  unfold execWarmRecoveryComplete
  repeat' with_reducible first
    | assumption | intro _ | apply KeepsOutcome.next | apply KeepsOutcome.ite | dsimp only | split | apply State.enterService_keeps
    | apply State.beginFence_keeps | apply State.addDefect_keeps | apply State.failSelfTest_keeps

theorem State.setSq_keeps {s0 s : State} (n : Nat) (r : RingSt) (hs : Keeps s0 s) :
    Keeps s0 (State.setSq s n r) := by
  unfold State.setSq
  repeat' with_reducible first
    | assumption | exact id | intro _ | dsimp only | split | refine Keeps.mk' ?_ rfl rfl (fun _ => id) rfl rfl ?_ ?_ ?_ ?_ ?_

theorem State.setDesc_keeps {s0 s : State} (n : Nat) (d : Desc) (hs : Keeps s0 s) :
    Keeps s0 (State.setDesc s n d) := by
  unfold State.setDesc
  repeat' with_reducible first | assumption | intro _ | dsimp only | split | apply State.setSq_keeps

theorem State.descWaits_keeps {s0 s : State} (u : State) (n : Nat) (d : Desc) (on : WaitsOn) (hs : Keeps s0 s) :
    Keeps s0 (State.descWaits s u n d on) := by
  unfold State.descWaits
  repeat' with_reducible first | assumption | intro _ | dsimp only | split | apply State.setDesc_keeps | apply State.keepHeld_keeps

theorem State.drainCq_keeps {s0 a1 : State} (a0 : Nat) (a2 : Nat) (hs : Keeps s0 a1) :
    Keeps s0 (State.drainCq a0 a1 a2) := by
  induction a0 generalizing a1 a2 with
  | zero =>
    unfold State.drainCq
    repeat' with_reducible first | assumption
  | succ n ih =>
    unfold State.drainCq
    repeat' with_reducible first
      | assumption | intro _ | apply Keeps.ite | dsimp only | split | apply ih | apply State.hostWrite_keeps | apply State.setSq_keeps
      | apply State.fput_keeps | apply State.msix_keeps

theorem State.registrarDone_keeps {s0 s : State} (hs : Keeps s0 s) :
    Keeps s0 (State.registrarDone s) := by
  unfold State.registrarDone
  repeat' with_reducible first | assumption | intro _ | apply Keeps.ite | dsimp only | split | apply State.settle_keeps

theorem State.updateDone_keeps {s0 s : State} (n : Nat) (hs : Keeps s0 s) :
    Keeps s0 (State.updateDone s n) := by
  unfold State.updateDone
  repeat' with_reducible first | assumption | intro _ | dsimp only | split | apply State.fput_keeps

theorem State.release_keeps {s0 s : State} (d : Desc) (hs : Keeps s0 s) :
    Keeps s0 (State.release s d) := by
  unfold State.release
  repeat' with_reducible first
    | assumption | exact id | intro _ | dsimp only | split | refine Keeps.mk' ?_ rfl rfl (fun _ => id) rfl rfl ?_ ?_ ?_ ?_ ?_

theorem State.pushCq_keeps {s0 s : State} (n : Nat) (e : CqEntry) (hs : Keeps s0 s) :
    Keeps s0 (State.pushCq s n e) := by
  unfold State.pushCq
  repeat' with_reducible first
    | assumption | intro _ | dsimp only | split | apply State.fput_keeps | apply State.setSq_keeps | apply State.drainCq_keeps

theorem State.finish_keeps {s0 s : State} (n : Nat) (d : Desc) (status : Nat) (unit : Nat) (flags : Nat) (r0 : Nat) (r1 : Nat) (hs : Keeps s0 s) :
    Keeps s0 (State.finish s n d status unit flags r0 r1) := by
  unfold State.finish
  repeat' with_reducible first
    | assumption | intro _ | apply Keeps.ite | dsimp only | split | apply State.updateDone_keeps | apply State.setSq_keeps
    | apply State.release_keeps | apply State.pushCq_keeps

theorem State.fabFinish_keeps {s0 s : State} (n : Nat) (d : Desc) (hs : Keeps s0 s) :
    Keeps s0 (State.fabFinish s n d) := by
  unfold State.fabFinish
  repeat' with_reducible first | assumption | intro _ | dsimp only | split | apply State.registrarDone_keeps | apply State.finish_keeps

theorem State.fabNext_keeps {s0 a2 : State} (n : Nat) (a1 : Nat) (a3 : Desc) (hs : Keeps s0 a2) :
    Keeps s0 (State.fabNext n a1 a2 a3) := by
  induction a1 generalizing a2 a3 with
  | zero =>
    unfold State.fabNext
    repeat' with_reducible first | assumption
  | succ n ih =>
    unfold State.fabNext
    repeat' with_reducible first
      | assumption | intro _ | refine Keeps.of_fst (by assumption) ?_ | apply Keeps.ite | dsimp only | split | apply ih
      | apply State.fabFinish_keeps | apply State.setDesc_keeps | apply State.draw_keeps | apply State.readAt_keeps
      | apply State.descWaits_keeps | apply State.fabIssue_keeps

theorem State.fabMore_keeps {s0 s : State} (n : Nat) (d : Desc) (hs : Keeps s0 s) :
    Keeps s0 (State.fabMore s n d) := by
  unfold State.fabMore
  repeat' with_reducible first | assumption | intro _ | dsimp only | split | apply State.fabNext_keeps

theorem State.fabAnswer_keeps {s0 s : State} (n : Nat) (seq : Nat) (req : FabReq) (status : Nat) (data : List Byte) (hs : Keeps s0 s) :
    Keeps s0 (State.fabAnswer s n seq req status data) := by
  unfold State.fabAnswer
  repeat' with_reducible first
    | assumption | exact id | intro _ | apply Keeps.ite | dsimp only | split | apply State.fabMore_keeps | apply State.writeAt_keeps
    | apply State.descWaits_keeps | refine Keeps.mk' ?_ rfl rfl (fun _ => id) rfl rfl ?_ ?_ ?_ ?_ ?_

theorem State.pailAnswer_keeps {s0 s : State} (d : Nat) (msg : Nat) (key : Nat) (req : FabReq) (status : Nat) (hs : Keeps s0 s) :
    Keeps s0 (State.pailAnswer s d msg key req status) := by
  unfold State.pailAnswer
  repeat' with_reducible first
    | assumption | intro _ | apply Keeps.ite | dsimp only | split | apply State.setPail_keeps | apply State.pailRetry_keeps
    | apply State.ringLost_keeps | apply State.pailEnd_keeps

theorem State.fabDone_keeps {s0 s : State} (req : FabReq) (status : Nat) (data : List Byte) (hs : Keeps s0 s) :
    Keeps s0 (State.fabDone s req status data) := by
  unfold State.fabDone
  repeat' with_reducible first
    | assumption | exact id | intro _ | apply Keeps.ite | dsimp only | split | apply State.fabAnswer_keeps | apply State.pailAnswer_keeps
    | refine Keeps.mk' ?_ rfl rfl (fun _ => id) rfl rfl ?_ ?_ ?_ ?_ ?_

theorem State.fabGoOn_keeps {s0 s : State} (n : Nat) (d : Desc) (hs : Keeps s0 s) :
    Keeps s0 (State.fabGoOn s n d) := by
  unfold State.fabGoOn
  repeat' with_reducible first | assumption | intro _ | dsimp only | split | apply State.fabDone_keeps | apply State.fabMore_keeps

theorem State.fabGone_keeps {s0 s : State} (n : Nat) (d : Desc) (status : Nat) (hs : Keeps s0 s) :
    Keeps s0 (State.fabGone s n d status) := by
  unfold State.fabGone
  repeat' with_reducible first
    | assumption | exact id | intro _ | dsimp only | split | apply State.fabMore_keeps
    | refine Keeps.mk' ?_ rfl rfl (fun _ => id) rfl rfl ?_ ?_ ?_ ?_ ?_

theorem State.ringError_keeps {s0 s : State} (n : Nat) (cause : Nat) (hs : Keeps s0 s) :
    Keeps s0 (State.ringError s n cause) := by
  unfold State.ringError
  repeat' with_reducible first | assumption | intro _ | apply Keeps.ite | dsimp only | split | apply State.fput_keeps

theorem State.replyArrives_keeps {s0 s : State} (d : Nat) (k : Packet) (hs : Keeps s0 s) :
    Keeps s0 (State.replyArrives s d k) := by
  unfold State.replyArrives
  repeat' with_reducible first
    | assumption | intro _ | apply Keeps.ite | dsimp only | split | apply State.fabDone_keeps | apply State.fadd_keeps

theorem State.fabReply_keeps {s0 s : State} (d : Nat) (req : Packet) (kind : Nat) (status : Nat) (data : List Byte) (cameX : Bool) (hs : Keeps s0 s) :
    Keeps s0 (State.fabReply s d req kind status data cameX) := by
  unfold State.fabReply
  repeat' with_reducible first
    | assumption | intro _ | apply Keeps.ite | dsimp only | split | apply State.enqueue_keeps | apply State.replyArrives_keeps
    | apply State.fadd_keeps

theorem State.unreachable_keeps {s0 s : State} (d : Nat) (k : Packet) (status : Nat) (hs : Keeps s0 s) :
    Keeps s0 (State.unreachable s d k status) := by
  unfold State.unreachable
  repeat' with_reducible first
    | assumption | intro _ | apply Keeps.ite | dsimp only | split | apply State.fadd_keeps | apply State.fabReply_keeps

theorem State.answerHeld_keeps {s0 s : State} (d : Nat) (ks : List Packet) (status : Nat) (hs : Keeps s0 s) :
    Keeps s0 (State.answerHeld s d ks status) := by
  unfold State.answerHeld
  repeat' with_reducible first
    | assumption | intro _ | apply Keeps.ite | apply Keeps.foldl | dsimp only | split | apply State.fabDone_keeps
    | apply State.unreachable_keeps

theorem State.returnCredits_keeps {s0 s : State} (d : Nat) (p : Nat) (k : Packet) (hs : Keeps s0 s) :
    Keeps s0 (State.returnCredits s d p k) := by
  unfold State.returnCredits
  repeat' with_reducible first | assumption | intro _ | dsimp only | split | apply State.sendControl_keeps

theorem State.leavePort_keeps {s0 s : State} (d : Nat) (port : Option Nat) (k : Packet) (hs : Keeps s0 s) :
    Keeps s0 (State.leavePort s d port k) := by
  unfold State.leavePort
  repeat' with_reducible first | assumption | intro _ | dsimp only | split | apply State.returnCredits_keeps

theorem State.servePut_keeps {s0 s : State} (d : Nat) (k : Packet) (hs : Keeps s0 s) :
    Keeps s0 (State.servePut s d k).1 := by
  unfold State.servePut
  repeat' with_reducible first | assumption | intro _ | apply Keeps.ite_fst | dsimp only | split | apply State.writeAt_keeps

theorem State.serveGet_keeps {s0 s : State} (d : Nat) (k : Packet) (hs : Keeps s0 s) :
    Keeps s0 (State.serveGet s d k).1 := by
  unfold State.serveGet
  repeat' with_reducible first | assumption | intro _ | apply Keeps.ite_fst | dsimp only | split | apply State.readAt_keeps

theorem State.serveAdd64_keeps {s0 s : State} (d : Nat) (k : Packet) (hs : Keeps s0 s) :
    Keeps s0 (State.serveAdd64 s d k).1 := by
  unfold State.serveAdd64
  repeat' with_reducible first | assumption | intro _ | apply Keeps.ite_fst | dsimp only | split | apply State.farAtomic_keeps

theorem State.servePail_keeps {s0 s : State} (io : Nat) (k : Packet) (hs : Keeps s0 s) :
    Keeps s0 (State.servePail s io k).1 := by
  unfold State.servePail
  repeat' with_reducible first
    | assumption | intro _ | apply Keeps.ite_fst | dsimp only | split | apply State.setPail_keeps | apply State.pailDeliver_keeps

theorem State.fabServe_keeps {s0 s : State} (d : Nat) (k : Packet) (hs : Keeps s0 s) :
    Keeps s0 (State.fabServe s d k).1 := by
  unfold State.fabServe
  repeat' with_reducible first
    | assumption | intro _ | dsimp only | split | apply State.servePut_keeps | apply State.serveGet_keeps | apply State.serveAdd64_keeps
    | apply State.servePail_keeps

theorem State.serveFab_keeps {s0 s : State} (w : FabWait) (hs : Keeps s0 s) :
    Keeps s0 (State.serveFab s w) := by
  unfold State.serveFab
  repeat' with_reducible first
    | assumption | exact id | intro _ | refine Keeps.of_fst (by assumption) ?_ | apply Keeps.ite | dsimp only | split
    | apply State.fabServe_keeps | apply State.keepHeld_keeps | apply State.leavePort_keeps | apply State.fabReply_keeps
    | apply State.settle_keeps | refine Keeps.mk' ?_ rfl rfl (fun _ => id) rfl rfl ?_ ?_ ?_ ?_ ?_

theorem State.fabDeliver_keeps {s0 s : State} (d : Nat) (port : Option Nat) (k : Packet) (hs : Keeps s0 s) :
    Keeps s0 (State.fabDeliver s d port k) := by
  unfold State.fabDeliver
  repeat' with_reducible first
    | assumption | intro _ | apply Keeps.ite | dsimp only | split | apply State.leavePort_keeps | apply State.replyArrives_keeps
    | apply State.serveFab_keeps

theorem State.fabWork_keeps {s0 s : State} (hs : Keeps s0 s) :
    Keeps s0 (State.fabWork s) := by
  unfold State.fabWork
  repeat' with_reducible first
    | assumption | exact id | intro _ | apply Keeps.foldl | dsimp only | split | apply State.serveFab_keeps
    | refine Keeps.mk' ?_ rfl rfl (fun _ => id) rfl rfl ?_ ?_ ?_ ?_ ?_

theorem State.portEvent_keeps {s0 s : State} (d : Nat) (p : Nat) (hs : Keeps s0 s) :
    Keeps s0 (State.portEvent s d p) := by
  unfold State.portEvent
  repeat' with_reducible first | assumption | intro _ | apply Keeps.ite | dsimp only | split | apply State.raise_keeps

theorem State.twinLoss_keeps {s0 s : State} (hs : Keeps s0 s) :
    Keeps s0 (State.twinLoss s) := by
  unfold State.twinLoss
  repeat' with_reducible first
    | assumption | intro _ | apply Keeps.ite | apply Keeps.foldl | dsimp only | split | apply State.setPail_keeps
    | apply State.pailDrop_keeps | apply State.pailRetry_keeps | apply State.pailEnd_keeps

theorem State.setPort_keeps {s0 s : State} (d : Nat) (p : Nat) (v : Nat) (hs : Keeps s0 s) :
    Keeps s0 (State.setPort s d p v) := by
  unfold State.setPort
  repeat' with_reducible first | assumption | intro _ | dsimp only | split | apply State.fput_keeps

theorem State.portDown_keeps {s0 s : State} (d : Nat) (p : Nat) (st : Nat) (status : Nat) (replay : Bool) (hs : Keeps s0 s) :
    Keeps s0 (State.portDown s d p st status replay) := by
  unfold State.portDown
  repeat' with_reducible first
    | assumption | intro _ | dsimp only | split | apply State.twinLoss_keeps | apply State.answerHeld_keeps | apply State.setFab_keeps
    | apply State.setPort_keeps

theorem State.fieldLanes_keeps {s0 s : State} (d : Nat) (p : Nat) (hs : Keeps s0 s) :
    Keeps s0 (State.fieldLanes s d p) := by
  unfold State.fieldLanes
  repeat' with_reducible first
    | assumption | intro _ | apply Keeps.ite | dsimp only | split | apply State.setFab_keeps | apply State.fput_keeps
    | apply State.portEvent_keeps | apply State.portDown_keeps | apply State.setPort_keeps

theorem State.lateLinkFlit_keeps {s0 s : State} (d : Nat) (p : Nat) (flit : LinkFlit) (hs : Keeps s0 s) :
    Keeps s0 (State.lateLinkFlit s d p flit) := by
  unfold State.lateLinkFlit
  repeat' with_reducible first
    | assumption | intro _ | apply Keeps.ite | dsimp only | split | apply State.fadd_keeps | apply State.setFab_keeps

theorem State.putAll_keeps {s0 s : State} (r : Nat → Reg) (v : W64) (hs : Keeps s0 s) :
    Keeps s0 (State.putAll s r v) := by
  unfold State.putAll
  repeat' with_reducible first | assumption | intro _ | apply Keeps.ite | apply Keeps.foldl | dsimp only | split | apply State.put_keeps

theorem State.linkCtlWrite_keeps {s0 s : State} (d : Nat) (w : RegWrite) (hs : Keeps s0 s) :
    Keeps s0 (State.linkCtlWrite s d w) := by
  unfold State.linkCtlWrite
  repeat' with_reducible first | assumption | intro _ | dsimp only | split | apply State.putAll_keeps

theorem State.linkIdWrite_keeps {s0 s : State} (d : Nat) (w : RegWrite) (hs : Keeps s0 s) :
    Keeps s0 (State.linkIdWrite s d w) := by
  unfold State.linkIdWrite
  repeat' with_reducible first | assumption | intro _ | dsimp only | split | apply State.putAll_keeps

theorem State.notePeer_keeps {s0 s : State} (d : Nat) (p : Nat) (t : Training) (hs : Keeps s0 s) :
    Keeps s0 (State.notePeer s d p t) := by
  unfold State.notePeer
  repeat' with_reducible first | assumption | intro _ | dsimp only | split | apply State.put_keeps

theorem State.packetArrives_keeps {s0 s : State} (d : Nat) (p : Nat) (k : Packet) (hs : Keeps s0 s) :
    Keeps s0 (State.packetArrives s d p k) := by
  unfold State.packetArrives
  repeat' with_reducible first
    | assumption | intro _ | apply Keeps.ite | dsimp only | split | apply State.fadd_keeps | apply State.returnCredits_keeps
    | apply State.fabDeliver_keeps | apply State.unreachable_keeps | apply State.enqueue_keeps

theorem State.replayPort_keeps {s0 s : State} (d : Nat) (p : Nat) (i : Nat) (hs : Keeps s0 s) :
    Keeps s0 (State.replayPort s d p i) := by
  unfold State.replayPort
  repeat' with_reducible first
    | assumption | intro _ | apply Keeps.ite | apply Keeps.foldl | dsimp only | split | apply State.sendFlit_keeps
    | apply State.fadd_keeps

theorem State.portNak_keeps {s0 s : State} (d : Nat) (p : Nat) (seq : Nat) (hs : Keeps s0 s) :
    Keeps s0 (State.portNak s d p seq) := by
  unfold State.portNak
  repeat' with_reducible first
    | assumption | intro _ | dsimp only | split | apply State.pumpPort_keeps | apply State.replayPort_keeps | apply State.setFab_keeps

theorem State.portCredits_keeps {s0 s : State} (d : Nat) (p : Nat) (base : Nat) (cs : List Nat) (hs : Keeps s0 s) :
    Keeps s0 (State.portCredits s d p base cs) := by
  unfold State.portCredits
  repeat' with_reducible first
    | assumption | intro _ | apply Keeps.ite | dsimp only | split | apply State.pumpPort_keeps | apply State.setFab_keeps

theorem State.portGoodbye_keeps {s0 s : State} (d : Nat) (p : Nat) (hs : Keeps s0 s) :
    Keeps s0 (State.portGoodbye s d p) := by
  unfold State.portGoodbye
  repeat' with_reducible first
    | assumption | intro _ | apply Keeps.ite | dsimp only | split | apply State.portEvent_keeps | apply State.portDown_keeps

theorem State.portControl_keeps {s0 s : State} (d : Nat) (p : Nat) (bs : List Byte) (hs : Keeps s0 s) :
    Keeps s0 (State.portControl s d p bs) := by
  unfold State.portControl
  repeat' with_reducible first
    | assumption | intro _ | dsimp only | split | apply State.portNak_keeps | apply State.portCredits_keeps
    | apply State.portGoodbye_keeps

theorem State.trainPort_keeps {s0 s : State} (d : Nat) (p : Nat) (hs : Keeps s0 s) :
    Keeps s0 (State.trainPort s d p) := by
  unfold State.trainPort
  repeat' with_reducible first
    | assumption | intro _ | dsimp only | split | apply State.setFab_keeps | apply State.put_keeps | apply State.setPort_keeps

theorem State.portCtlWrite_keeps {s0 s : State} (d : Nat) (p : Nat) (w : RegWrite) (hs : Keeps s0 s) :
    Keeps s0 (State.portCtlWrite s d p w) := by
  unfold State.portCtlWrite
  repeat' with_reducible first
    | assumption | intro _ | apply Keeps.ite | dsimp only | split | apply State.put_keeps | apply State.trainPort_keeps
    | apply State.draw_keeps | apply State.sendControl_keeps | apply State.portEvent_keeps | apply State.fput_keeps
    | apply State.portDown_keeps

theorem State.portTrained_keeps {s0 s : State} (d : Nat) (p : Nat) (state : Nat) (again : Bool) (hs : Keeps s0 s) :
    Keeps s0 (State.portTrained s d p state again) := by
  unfold State.portTrained
  repeat' with_reducible first
    | assumption | intro _ | apply Keeps.ite | apply Keeps.foldl | dsimp only | split | apply State.pumpPort_keeps
    | apply State.sendFlit_keeps | apply State.portDown_keeps

theorem State.takePackets_keeps {s0 s : State} (d p n : Nat) (bs : List Byte) (hs : Keeps s0 s) : Keeps s0 (State.takePackets d p n s bs) := by
  induction n generalizing s bs with
  | zero =>
    unfold State.takePackets
    exact hs
  | succ n ih =>
    cases bs with
    | nil =>
      unfold State.takePackets
      exact hs
    | cons b bs =>
      unfold State.takePackets
      repeat' with_reducible first
        | assumption | intro _ | apply Keeps.ite | dsimp only | split | apply ih | apply State.setFab_keeps
        | apply State.portControl_keeps | apply State.packetArrives_keeps

theorem execAdd64_keeps {s0 s : State} (d : Nat) (pkt : Packet) (hs : Keeps s0 s) :
    KeepsOutcome s0 (execAdd64 d pkt s) := by
  unfold execAdd64
  repeat' with_reducible first | assumption | intro _ | apply KeepsOutcome.next | dsimp only | split | apply State.serveFab_keeps

theorem execCreditR_keeps {s0 s : State} (d : Nat) (p : Nat) (credits : List Nat) (hs : Keeps s0 s) :
    KeepsOutcome s0 (execCreditR d p credits s) := by
  unfold execCreditR
  repeat' with_reducible first | assumption | intro _ | apply KeepsOutcome.next | dsimp only | split | apply State.portCredits_keeps

theorem execE2eTimeout_keeps {s0 s : State} (_d : Nat) (tag : Nat) (hs : Keeps s0 s) :
    KeepsOutcome s0 (execE2eTimeout _d tag s) := by
  unfold execE2eTimeout
  repeat' with_reducible first
    | assumption | exact id | intro _ | apply KeepsOutcome.next | dsimp only | split | apply State.fabDone_keeps
    | refine Keeps.mk' ?_ rfl rfl (fun _ => id) rfl rfl ?_ ?_ ?_ ?_ ?_

theorem execFabricAck_keeps {s0 s : State} (d : Nat) (pkt : Packet) (hs : Keeps s0 s) :
    KeepsOutcome s0 (execFabricAck d pkt s) := by
  unfold execFabricAck
  repeat' with_reducible first | assumption | intro _ | apply KeepsOutcome.next | dsimp only | split | apply State.replyArrives_keeps

theorem execFabricData_keeps {s0 s : State} (d : Nat) (pkt : Packet) (hs : Keeps s0 s) :
    KeepsOutcome s0 (execFabricData d pkt s) := by
  unfold execFabricData
  repeat' with_reducible first | assumption | intro _ | apply KeepsOutcome.next | dsimp only | split | apply State.replyArrives_keeps

theorem execFabricPail_keeps {s0 s : State} (d : Nat) (pkt : Packet) (hs : Keeps s0 s) :
    KeepsOutcome s0 (execFabricPail d pkt s) := by
  unfold execFabricPail
  repeat' with_reducible first | assumption | intro _ | apply KeepsOutcome.next | dsimp only | split | apply State.serveFab_keeps

theorem execFecErrorWindow_keeps {s0 s : State} (d : Nat) (p : Nat) (hs : Keeps s0 s) :
    KeepsOutcome s0 (execFecErrorWindow d p s) := by
  unfold execFecErrorWindow
  repeat' with_reducible first | assumption | intro _ | apply KeepsOutcome.next | dsimp only | split | apply State.setFab_keeps

theorem execGet_keeps {s0 s : State} (d : Nat) (pkt : Packet) (hs : Keeps s0 s) :
    KeepsOutcome s0 (execGet d pkt s) := by
  unfold execGet
  repeat' with_reducible first | assumption | intro _ | apply KeepsOutcome.next | dsimp only | split | apply State.serveFab_keeps

theorem execLinkCredit_keeps {s0 s : State} (d : Nat) (p : Nat) (credits : List Nat) (hs : Keeps s0 s) :
    KeepsOutcome s0 (execLinkCredit d p credits s) := by
  unfold execLinkCredit
  repeat' with_reducible first | assumption | intro _ | apply KeepsOutcome.next | dsimp only | split | apply State.portCredits_keeps

theorem execLinkFlitReceive_keeps {s0 s : State} (d : Nat) (p : Nat) (flit : LinkFlit) (hs : Keeps s0 s) :
    KeepsOutcome s0 (execLinkFlitReceive d p flit s) := by
  unfold execLinkFlitReceive
  repeat' with_reducible first
    | assumption | intro _ | apply KeepsOutcome.next | apply KeepsOutcome.ite | dsimp only | split | apply State.lateLinkFlit_keeps
    | apply State.fadd_keeps | apply State.setFab_keeps | apply State.fieldLanes_keeps | apply State.sendControl_keeps
    | apply State.pumpPort_keeps | apply State.takePackets_keeps

theorem execLinkGoodbye_keeps {s0 s : State} (d : Nat) (p : Nat) (_cause : Nat) (hs : Keeps s0 s) :
    KeepsOutcome s0 (execLinkGoodbye d p _cause s) := by
  unfold execLinkGoodbye
  repeat' with_reducible first | assumption | intro _ | apply KeepsOutcome.next | dsimp only | split | apply State.portGoodbye_keeps

theorem execLinkNak_keeps {s0 s : State} (d : Nat) (p : Nat) (seq : Nat) (hs : Keeps s0 s) :
    KeepsOutcome s0 (execLinkNak d p seq s) := by
  unfold execLinkNak
  repeat' with_reducible first | assumption | intro _ | apply KeepsOutcome.next | dsimp only | split | apply State.portNak_keeps

theorem execLinkPortStatClear_keeps {s0 s : State} (d : Nat) (p : Nat) (w : RegWrite) (hs : Keeps s0 s) :
    KeepsOutcome s0 (execLinkPortStatClear d p w s) := by
  unfold execLinkPortStatClear
  repeat' with_reducible first
    | assumption | intro _ | apply KeepsOutcome.next | dsimp only | split | apply State.guarded_keeps | apply State.clearStat_keeps

theorem execLinkReplayTimeout_keeps {s0 s : State} (d : Nat) (p : Nat) (hs : Keeps s0 s) :
    KeepsOutcome s0 (execLinkReplayTimeout d p s) := by
  unfold execLinkReplayTimeout
  repeat' with_reducible first | assumption | intro _ | apply KeepsOutcome.next | dsimp only | split | apply State.replayPort_keeps

theorem execLinkStatClear_keeps {s0 s : State} (d : Nat) (w : RegWrite) (hs : Keeps s0 s) :
    KeepsOutcome s0 (execLinkStatClear d w s) := by
  unfold execLinkStatClear
  repeat' with_reducible first
    | assumption | intro _ | apply KeepsOutcome.next | dsimp only | split | apply State.guarded_keeps | apply State.clearStat_keeps

theorem execPacketArrival_keeps {s0 s : State} (d : Nat) (p : Nat) (pkt : Packet) (hs : Keeps s0 s) :
    KeepsOutcome s0 (execPacketArrival d p pkt s) := by
  unfold execPacketArrival
  repeat' with_reducible first | assumption | intro _ | apply KeepsOutcome.next | dsimp only | split | apply State.packetArrives_keeps

theorem execPacketOriginate_keeps {s0 s : State} (d : Nat) (pkt : Packet) (hs : Keeps s0 s) :
    KeepsOutcome s0 (execPacketOriginate d pkt s) := by
  unfold execPacketOriginate
  repeat' with_reducible first
    | assumption | intro _ | apply KeepsOutcome.next | apply Keeps.ite | dsimp only | split | apply State.enqueue_keeps
    | apply State.fabDeliver_keeps | apply State.fadd_keeps | apply State.fabDone_keeps

theorem execPortDisable_keeps {s0 s : State} (d : Nat) (p : Nat) (w : RegWrite) (hs : Keeps s0 s) :
    KeepsOutcome s0 (execPortDisable d p w s) := by
  unfold execPortDisable
  repeat' with_reducible first
    | assumption | intro _ | apply KeepsOutcome.next | dsimp only | split | apply State.guarded_keeps | apply State.portCtlWrite_keeps

theorem execPortEnable_keeps {s0 s : State} (d : Nat) (p : Nat) (w : RegWrite) (hs : Keeps s0 s) :
    KeepsOutcome s0 (execPortEnable d p w s) := by
  unfold execPortEnable
  repeat' with_reducible first
    | assumption | intro _ | apply KeepsOutcome.next | dsimp only | split | apply State.guarded_keeps | apply State.portCtlWrite_keeps

theorem execPortTrainingComplete_keeps {s0 s : State} (d : Nat) (p : Nat) (t : Training) (hs : Keeps s0 s) :
    KeepsOutcome s0 (execPortTrainingComplete d p t s) := by
  unfold execPortTrainingComplete
  repeat' with_reducible first
    | assumption | intro _ | apply KeepsOutcome.next | apply KeepsOutcome.ite | dsimp only | split | apply State.portEvent_keeps
    | apply State.portTrained_keeps | apply State.notePeer_keeps | apply State.put_keeps

theorem execPortWatchdog_keeps {s0 s : State} (d : Nat) (p : Nat) (hs : Keeps s0 s) :
    KeepsOutcome s0 (execPortWatchdog d p s) := by
  unfold execPortWatchdog
  repeat' with_reducible first
    | assumption | intro _ | apply KeepsOutcome.next | apply Keeps.ite | dsimp only | split | apply State.portEvent_keeps
    | apply State.portDown_keeps

theorem execPut_keeps {s0 s : State} (d : Nat) (pkt : Packet) (hs : Keeps s0 s) :
    KeepsOutcome s0 (execPut d pkt s) := by
  unfold execPut
  repeat' with_reducible first | assumption | intro _ | apply KeepsOutcome.next | dsimp only | split | apply State.serveFab_keeps

theorem execRetrain_keeps {s0 s : State} (d : Nat) (p : Nat) (w : RegWrite) (hs : Keeps s0 s) :
    KeepsOutcome s0 (execRetrain d p w s) := by
  unfold execRetrain
  repeat' with_reducible first
    | assumption | intro _ | apply KeepsOutcome.next | dsimp only | split | apply State.guarded_keeps | apply State.portCtlWrite_keeps

theorem execRouteDataWrite_keeps {s0 s : State} (d : Nat) (dst : Nat) (w : RegWrite) (hs : Keeps s0 s) :
    KeepsOutcome s0 (execRouteDataWrite d dst w s) := by
  unfold execRouteDataWrite
  repeat' with_reducible first
    | assumption | intro _ | apply KeepsOutcome.next | apply Keeps.ite | dsimp only | split | apply State.guarded_keeps
    | apply State.put_keeps

theorem execUnreach_keeps {s0 s : State} (d : Nat) (pkt : Packet) (hs : Keeps s0 s) :
    KeepsOutcome s0 (execUnreach d pkt s) := by
  unfold execUnreach
  repeat' with_reducible first | assumption | intro _ | apply KeepsOutcome.next | dsimp only | split | apply State.replyArrives_keeps

theorem State.authFail_keeps {s0 s : State} (n : Nat) (seq : Nat) (hs : Keeps s0 s) :
    Keeps s0 (State.authFail s n seq) := by
  unfold State.authFail
  repeat' with_reducible first
    | assumption | intro _ | dsimp only | split | apply State.draw_keeps | apply State.pushCq_keeps | apply State.updateDone_keeps
    | apply State.ringError_keeps | apply State.raiseOffice_keeps

theorem State.writeRecord_keeps {s0 s : State} (hr : Nat) (w : Nat) (hb : Nat) (len : Nat) (i : Nat) (data : List Byte) (hs : Keeps s0 s) :
    Keeps s0 (State.writeRecord s hr w hb len i data).1 := by
  unfold State.writeRecord
  repeat' with_reducible first | assumption | intro _ | dsimp only | split | apply State.hostWrite_keeps | apply State.setHr_keeps

theorem State.movePart_keeps {s0 s : State} (hr : Nat) (src : Nat) (dst : Nat) (o : Nat) (n : Nat) (ps : Option (Nat × Nat × Nat × Nat)) (pd : Option (Nat × Nat × Nat × Nat)) (overlap : Bool) (drop : Bool) (hs : Keeps s0 s) :
    Keeps s0 (State.movePart s hr src dst o n ps pd overlap drop).1 := by
  unfold State.movePart
  repeat' with_reducible first
    | assumption | intro _ | refine Keeps.of_fst (by assumption) ?_ | apply Keeps.ite_fst | dsimp only | split | apply State.readAt_keeps
    | apply State.writeRecord_keeps | apply State.drawBytes_keeps | apply State.writeAt_keeps

theorem State.moveParts_keeps {s0 a10 : State} (hr : Nat) (src : Nat) (dst : Nat) (step : Nat) (ps : Option (Nat × Nat × Nat × Nat)) (pd : Option (Nat × Nat × Nat × Nat)) (overlap : Bool) (drop : Bool) (total : Nat) (a9 : Nat) (a11 : Nat) (hs : Keeps s0 a10) :
    Keeps s0 (State.moveParts hr src dst step ps pd overlap drop total a9 a10 a11).1 := by
  induction a9 generalizing a10 a11 with
  | zero =>
    unfold State.moveParts
    repeat' with_reducible first | assumption
  | succ n ih =>
    unfold State.moveParts
    repeat' with_reducible first
      | assumption | intro _ | refine Keeps.of_fst (by assumption) ?_ | apply Keeps.ite_fst | dsimp only | split | apply ih
      | apply State.movePart_keeps

theorem State.runMove_keeps {s0 s : State} (n : Nat) (d : Desc) (hs : Keeps s0 s) :
    Keeps s0 (State.runMove s n d) := by
  unfold State.runMove
  repeat' with_reducible first
    | assumption | intro _ | refine Keeps.of_fst (by assumption) ?_ | dsimp only | split | apply State.moveParts_keeps
    | apply State.descWaits_keeps | apply State.registrarDone_keeps | apply State.finish_keeps

theorem State.scrubGranule_keeps {s0 : State} (c : LineAt) (a g : Nat) {x : State × ScrubTally} (hs : Keeps s0 x.1) :
    Keeps s0 (State.scrubGranule c a g x).1 := by
  rcases x with ⟨s, t⟩
  have h : Keeps s0 s := hs
  unfold State.scrubGranule
  repeat' with_reducible first
    | assumption | intro _ | apply Keeps.ite_fst | dsimp only | split | apply State.fetchGranule_keeps | apply State.farPut_keeps
    | apply State.repaired_keeps

theorem State.scrubFar_keeps {s0 : State} (c : LineAt) (a : Nat) {x : State × ScrubTally} (hs : Keeps s0 x.1) :
    Keeps s0 (State.scrubFar c a x).1 := Keeps.foldl_fst _ hs fun _ g hy => State.scrubGranule_keeps c a g hy

theorem State.scrubCached_keeps {s0 : State} (c : LineAt) (a : Nat) {x : State × ScrubTally} (hs : Keeps s0 x.1) :
    Keeps s0 (State.scrubCached c a x).1 := by
  unfold State.scrubCached
  refine Keeps.foldl_fst _ hs fun y g hy => ?_
  have h := State.testLine_keeps .scrub c [g] hy
  split
  · exact Keeps.of_fst (by assumption) h
  · exact Keeps.of_fst (by assumption) h

theorem State.scrubGrain_keeps {s0 : State} (hr a : Nat) {x : State × ScrubTally} (hs : Keeps s0 x.1) :
    Keeps s0 (State.scrubGrain hr a x).1 := by
  unfold State.scrubGrain
  dsimp only
  repeat' split
  all_goals first
    | with_reducible exact hs
    | next e =>
      have h := Keeps.of_option e (State.takeGrants_keeps _ _ _ _ hs)
      with_reducible exact State.scrubFar_keeps _ _ (State.scrubCached_keeps _ _ (x := (_, x.2)) h)

theorem State.scrubNear_keeps {s0 : State} (m : NearMem) (c off a : Nat) {x : State × ScrubTally} (hs : Keeps s0 x.1) :
    Keeps s0 (State.scrubNear m c off a x).1 := by
  rcases x with ⟨s, t⟩
  have h : Keeps s0 s := hs
  unfold State.scrubNear
  repeat' with_reducible first
    | assumption | intro _ | refine Keeps.of_fst (by assumption) ?_ | apply Keeps.ite_fst | apply Keeps.foldl_fst | dsimp only | split
    | apply State.nearTest_keeps | apply State.nearReach_keeps

theorem State.scrubPass_keeps {s0 s t : State} {n : Nat} {d : Desc} {x : ScrubTally} (e : s.scrubPass n d = some (t, x)) (hs : Keeps s0 s) :
    Keeps s0 t := by
  have fold : ∀ (g : State × ScrubTally → Nat → State × ScrubTally) (l : List Nat) (y : ScrubTally),
      (∀ z a, Keeps s0 z.1 → Keeps s0 (g z a).1) → some (l.foldl g (s, y)) = some (t, x) → Keeps s0 t := by
    intro g l y hg h
    have h1 := Keeps.foldl_fst l (x := (s, y)) hs hg
    rwa [Option.some.inj h] at h1
  unfold State.scrubPass at e
  dsimp only at e
  split at e
  · cases e
  · split at e
    · cases e
      exact hs
    · split at e
      · split at e
        · exact fold _ _ _ (fun z a h => State.scrubGrain_keeps _ _ h) e
        · cases e
      · split at e
        · exact fold _ _ _ (fun z a h => State.scrubNear_keeps _ _ _ _ h) e
        · cases e
      · split at e
        · exact fold _ _ _ (fun z a h => State.scrubNear_keeps _ _ _ _ h) e
        · cases e
      · cases e

theorem State.runScrub_keeps {s0 s : State} (n : Nat) (d : Desc) (hs : Keeps s0 s) : Keeps s0 (s.runScrub n d) := by
  have pass : ∀ {t x}, s.scrubPass n d = some (t, x) → Keeps s0 t := fun e => State.scrubPass_keeps e hs
  unfold State.runScrub
  repeat' with_reducible first
    | assumption | intro _ | refine Keeps.of_fst (by assumption) ?_ | apply Keeps.ite_fst | dsimp only | split
    | apply State.registrarDone_keeps | apply State.finish_keeps | apply State.descWaits_keeps | apply State.writeAt_keeps
    | apply pass (by assumption)

theorem State.goOn_keeps {s0 s : State} (n : Nat) (d : Desc) (hs : Keeps s0 s) :
    Keeps s0 (State.goOn s n d) := by
  unfold State.goOn
  repeat' with_reducible first
    | assumption | intro _ | apply Keeps.ite | dsimp only | split | apply State.fabGone_keeps | apply State.registrarDone_keeps
    | apply State.finish_keeps | apply State.runMove_keeps | apply State.fabGoOn_keeps | apply State.runScrub_keeps

theorem State.dropRecords_keeps {s0 s : State} (c : Nat) (hs : Keeps s0 s) :
    Keeps s0 (State.dropRecords s c) := by
  unfold State.dropRecords
  repeat' with_reducible first
    | assumption | exact id | intro _ | dsimp only | split | refine Keeps.mk' ?_ rfl rfl (fun _ => id) rfl rfl ?_ ?_ ?_ ?_ ?_

theorem State.passOver_keeps {s0 s : State} (n : Nat) (d : Desc) (hs : Keeps s0 s) :
    Keeps s0 (State.passOver s n d) := by
  unfold State.passOver
  repeat' with_reducible first
    | assumption | exact id | intro _ | apply Keeps.ite | dsimp only | split | apply State.fadd_keeps
    | refine Keeps.mk' ?_ rfl rfl (fun _ => id) rfl rfl ?_ ?_ ?_ ?_ ?_

theorem State.markStarted_keeps {s0 s : State} (n : Nat) (d : Desc) (core : Option Nat) (power : Nat) (tag : Nat) (hs : Keeps s0 s) :
    Keeps s0 (State.markStarted s n d core power tag) := by
  unfold State.markStarted
  repeat' with_reducible first
    | assumption | exact id | intro _ | dsimp only | split | apply State.passOver_keeps | apply State.fadd_keeps
    | apply State.setDesc_keeps | refine Keeps.mk' ?_ rfl rfl (fun _ => id) rfl rfl ?_ ?_ ?_ ?_ ?_

theorem State.startLaunch_keeps {s0 s : State} (n : Nat) (d : Desc) (c : Nat) (power : Nat) (hs : Keeps s0 s) :
    Keeps s0 (State.startLaunch s n d c power) := by
  unfold State.startLaunch
  repeat' with_reducible first
    | assumption | intro _ | dsimp only | split | apply State.launch_keeps | apply State.dropRecords_keeps | apply State.markStarted_keeps

theorem State.startSliceMove_keeps {s0 s : State} (n : Nat) (d : Desc) (c : Nat) (power : Nat) (hs : Keeps s0 s) :
    Keeps s0 (State.startSliceMove s n d c power) := by
  unfold State.startSliceMove
  repeat' with_reducible first
    | assumption | intro _ | dsimp only | split | apply State.modCore_keeps | apply State.startLesson_keeps
    | apply State.dropRecords_keeps | apply State.markStarted_keeps

theorem State.startOwn_keeps {s0 s : State} (n : Nat) (d : Desc) (hs : Keeps s0 s) :
    Keeps s0 (State.startOwn s n d) := by
  unfold State.startOwn
  repeat' with_reducible first | assumption | intro _ | dsimp only | split | apply State.markStarted_keeps | apply State.goOn_keeps

theorem State.newTag_keeps {s0 s : State} (hs : Keeps s0 s) :
    Keeps s0 (State.newTag s).2 := by
  unfold State.newTag
  repeat' with_reducible first
    | assumption | exact id | intro _ | dsimp only | split | refine Keeps.mk' ?_ rfl rfl (fun _ => id) rfl rfl ?_ ?_ ?_ ?_ ?_

theorem State.startLadle_keeps {s0 s : State} (n : Nat) (d : Desc) (hs : Keeps s0 s) :
    Keeps s0 (State.startLadle s n d) := by
  unfold State.startLadle
  repeat' with_reducible first
    | assumption | intro _ | apply Keeps.ite | dsimp only | split | apply State.finish_keeps | apply State.newTag_keeps
    | apply State.ladleSubmit_keeps | apply State.markStarted_keeps

theorem State.startPail_keeps {s0 s : State} (n : Nat) (d : Desc) (hs : Keeps s0 s) :
    Keeps s0 (State.startPail s n d) := by
  unfold State.startPail
  repeat' with_reducible first
    | assumption | intro _ | apply Keeps.ite | dsimp only | split | apply State.finish_keeps | apply State.newTag_keeps
    | apply State.pailCommand_keeps | apply State.markStarted_keeps

theorem State.startDesc_keeps {s0 s : State} (n : Nat) (d : Desc) (core : Option Nat) (power : Nat) (hs : Keeps s0 s) :
    Keeps s0 (State.startDesc s n d core power) := by
  unfold State.startDesc
  repeat' with_reducible first
    | assumption | intro _ | dsimp only | split | apply State.startLaunch_keeps | apply State.startSliceMove_keeps
    | apply State.startOwn_keeps | apply State.startLadle_keeps | apply State.startPail_keeps | apply State.finish_keeps
    | apply State.passOver_keeps

theorem State.tryStart_keeps {s0 s : State} (n : Nat) (d : Desc) (hs : Keeps s0 s) :
    KeepsOption s0 (State.tryStart s n d) := by
  unfold State.tryStart
  repeat' with_reducible first
    | assumption | intro _ | apply KeepsOption.of_some | apply KeepsOption.of_none | apply KeepsOption.ite | dsimp only | split
    | apply State.finish_keeps | apply State.startDesc_keeps

theorem State.firstStart_keeps {s0 s t : State} {n q : Nat} (e : s.firstStart n = some (q, t)) (hs : Keeps s0 s) : Keeps s0 t := by
  unfold State.firstStart at e
  split at e
  · obtain ⟨d, -, hd⟩ := List.exists_of_findSome?_eq_some e
    rw [Option.map_eq_some_iff] at hd
    obtain ⟨u, hu, h⟩ := hd
    cases h
    exact (State.tryStart_keeps n d hs).kept _ hu
  · cases e

theorem State.noteDeferred_keeps {s0 s : State} (n : Nat) (hs : Keeps s0 s) :
    Keeps s0 (State.noteDeferred s n) := by
  unfold State.noteDeferred
  repeat' with_reducible first
    | assumption | intro _ | apply Keeps.ite | apply Keeps.foldl | dsimp only | split | apply State.setDesc_keeps | apply State.fadd_keeps

theorem State.descRow_keeps {s0 s : State} (n seq type : Nat) (hs : Keeps s0 s) : Keeps s0 (s.descRow n seq type) := by
  have start : ∀ {q t}, s.firstStart n = some (q, t) → Keeps s0 t := fun e => State.firstStart_keeps e hs
  unfold State.descRow
  repeat' with_reducible first
    | assumption | intro _ | apply Keeps.ite | dsimp only | split | apply State.goOn_keeps | apply State.noteDeferred_keeps
    | apply start (by assumption)

theorem State.drainRing_keeps {s0 s : State} (n : Nat) (hs : Keeps s0 s) :
    Keeps s0 (State.drainRing s n) := by
  unfold State.drainRing
  repeat' with_reducible first
    | assumption | intro _ | apply Keeps.foldl | dsimp only | split | apply State.fput_keeps | apply State.setSq_keeps
    | apply State.finish_keeps

theorem State.enableRing_keeps {s0 s : State} (n : Nat) (hs : Keeps s0 s) :
    Keeps s0 (State.enableRing s n) := by
  unfold State.enableRing
  repeat' with_reducible first
    | assumption | intro _ | dsimp only | split | apply State.fput_keeps | apply State.put_keeps | apply State.setSq_keeps

theorem State.endLessons_keeps {s0 s : State} (hr : Nat) (hs : Keeps s0 s) :
    Keeps s0 (State.endLessons s hr) := by
  unfold State.endLessons
  repeat' with_reducible first
    | assumption | exact id | intro _ | apply Keeps.foldl | dsimp only | split | apply State.stepFails_keeps | apply State.modCore_keeps
    | apply State.release_keeps | apply State.updateDone_keeps | refine Keeps.mk' ?_ rfl rfl (fun _ => id) rfl rfl ?_ ?_ ?_ ?_ ?_

theorem State.evqCfgWrite_keeps {s0 s : State} (w : RegWrite) (hs : Keeps s0 s) :
    Keeps s0 (State.evqCfgWrite s w) := by
  unfold State.evqCfgWrite
  repeat' with_reducible first
    | assumption | exact id | intro _ | apply Keeps.ite | dsimp only | split | apply State.put_keeps | apply State.fput_keeps
    | refine Keeps.mk' ?_ rfl rfl (fun _ => id) rfl rfl ?_ ?_ ?_ ?_ ?_

theorem State.functionReset_keeps {s0 s : State} (f : Nat) (hs : Keeps s0 s) :
    Keeps s0 (State.functionReset s f) := by
  unfold State.functionReset
  repeat' with_reducible first
    | assumption | exact id | intro _ | apply Keeps.foldl | dsimp only | split | apply State.setSq_keeps | apply State.fput_keeps
    | apply State.updateDone_keeps | apply State.endLessons_keeps | refine Keeps.mk' ?_ rfl rfl (fun _ => id) rfl rfl ?_ ?_ ?_ ?_ ?_

theorem State.hostError_keeps {s0 s : State} (f : Nat) (off : Nat) (cause : Nat) (hs : Keeps s0 s) :
    Keeps s0 (State.hostError s f off cause) := by
  unfold State.hostError
  repeat' with_reducible first | assumption | intro _ | dsimp only | split | apply State.fput_keeps

theorem State.hostHeld_keeps {s0 s : State} (u : State) (w : HostWait) (hs : Keeps s0 s) :
    Keeps s0 (State.hostHeld s u w) := by
  unfold State.hostHeld
  repeat' with_reducible first
    | assumption | exact id | intro _ | dsimp only | split | apply State.keepHeld_keeps
    | refine Keeps.mk' ?_ rfl rfl (fun _ => id) rfl rfl ?_ ?_ ?_ ?_ ?_

theorem State.hostDo_keeps {s0 s : State} (w : HostWait) (hs : Keeps s0 s) :
    Keeps s0 (State.hostDo s w) := by
  unfold State.hostDo
  repeat' with_reducible first
    | assumption | intro _ | refine Keeps.of_fst (by assumption) ?_ | apply Keeps.ite | dsimp only | split | apply State.emit_keeps
    | apply State.hostError_keeps | apply State.readAt_keeps | apply State.hostHeld_keeps | apply State.writeAt_keeps

theorem State.hostServe_keeps {s0 s : State} (w : HostWait) (hs : Keeps s0 s) :
    Keeps s0 (State.hostServe s w) := by
  unfold State.hostServe
  repeat' with_reducible first
    | assumption | exact id | intro _ | apply Keeps.ite | dsimp only | split | apply State.hostDo_keeps | apply State.settle_keeps
    | refine Keeps.mk' ?_ rfl rfl (fun _ => id) rfl rfl ?_ ?_ ?_ ?_ ?_

theorem State.hostWork_keeps {s0 s : State} (hs : Keeps s0 s) :
    Keeps s0 (State.hostWork s) := by
  unfold State.hostWork
  repeat' with_reducible first
    | assumption | exact id | intro _ | apply Keeps.ite | apply Keeps.foldl | dsimp only | split | apply State.hostServe_keeps
    | refine Keeps.mk' ?_ rfl rfl (fun _ => id) rfl rfl ?_ ?_ ?_ ?_ ?_

theorem State.onForecast_keeps {s0 s : State} (msg : Forecast) (hs : Keeps s0 s) :
    Keeps s0 (State.onForecast s msg) := by
  unfold State.onForecast
  repeat' with_reducible first
    | assumption | exact id | intro _ | apply Keeps.ite | dsimp only | split | apply State.fput_keeps
    | refine Keeps.mk' ?_ rfl rfl (fun _ => id) rfl rfl ?_ ?_ ?_ ?_ ?_

theorem State.recordDone_keeps {s0 s : State} (n : Nat) (d : Desc) (r : UnitRecord) (elapsed : Nat) (hs : Keeps s0 s) :
    Keeps s0 (State.recordDone s n d r elapsed) := by
  unfold State.recordDone
  repeat' with_reducible first
    | assumption | intro _ | apply Keeps.ite | dsimp only | split | apply State.finish_keeps | apply State.draw_keeps

theorem State.ringAdmitWrite_keeps {s0 s : State} (w : RegWrite) (hs : Keeps s0 s) :
    Keeps s0 (State.ringAdmitWrite s w) := by
  unfold State.ringAdmitWrite
  repeat' with_reducible first | assumption | intro _ | dsimp only | split | apply State.put_keeps

theorem State.ringBaseWrite_keeps {s0 s : State} (n : Nat) (r : Reg) (w : RegWrite) (hs : Keeps s0 s) :
    Keeps s0 (State.ringBaseWrite s n r w) := by
  unfold State.ringBaseWrite
  repeat' with_reducible first | assumption | intro _ | apply Keeps.ite | dsimp only | split | apply State.put_keeps

theorem State.ringCfgWrite_keeps {s0 s : State} (n : Nat) (w : RegWrite) (hs : Keeps s0 s) :
    Keeps s0 (State.ringCfgWrite s n w) := by
  unfold State.ringCfgWrite
  repeat' with_reducible first | assumption | intro _ | apply Keeps.ite | dsimp only | split | apply State.put_keeps

theorem State.ringCtlWrite_keeps {s0 s : State} (n : Nat) (w : RegWrite) (hs : Keeps s0 s) :
    Keeps s0 (State.ringCtlWrite s n w) := by
  unfold State.ringCtlWrite
  repeat' with_reducible first
    | assumption | intro _ | apply Keeps.ite | dsimp only | split | apply State.put_keeps | apply State.enableRing_keeps
    | apply State.fput_keeps | apply State.drainRing_keeps

theorem State.visitRing_keeps {s0 s : State} (n k : Nat) (hs : Keeps s0 s) : Keeps s0 (State.visitRing n k s) := by
  induction k generalizing s with
  | zero => exact hs
  | succ k ih =>
    have start : ∀ {q t}, s.firstStart n = some (q, t) → Keeps s0 t := fun e => State.firstStart_keeps e hs
    unfold State.visitRing
    repeat' with_reducible first
      | assumption | intro _ | apply Keeps.ite | dsimp only | split | apply ih | apply State.noteDeferred_keeps
      | apply start (by assumption)

theorem execAdmissionVisit_keeps {s0 s : State} (hs : Keeps s0 s) :
    KeepsOutcome s0 (execAdmissionVisit s) := by
  unfold execAdmissionVisit
  repeat' with_reducible first
    | assumption | exact id | intro _ | apply KeepsOutcome.next | apply KeepsOutcome.ite | apply Keeps.foldl | dsimp only | split
    | apply State.goOn_keeps | apply State.visitRing_keeps | refine Keeps.mk' ?_ rfl rfl (fun _ => id) rfl rfl ?_ ?_ ?_ ?_ ?_

theorem execBar4Access_keeps {s0 s : State} (f : Nat) (off : Nat) (acc : HostAccess) (hs : Keeps s0 s) :
    KeepsOutcome s0 (execBar4Access f off acc s) := by
  unfold execBar4Access
  repeat' with_reducible first
    | assumption | intro _ | apply KeepsOutcome.next | apply KeepsOutcome.ite | dsimp only | split | apply State.emit_keeps
    | apply State.hostServe_keeps

theorem execDescriptorArrival_keeps {s0 s : State} (ring : Nat) (hs : Keeps s0 s) :
    KeepsOutcome s0 (execDescriptorArrival ring s) := by
  unfold execDescriptorArrival
  repeat' with_reducible first
    | assumption | intro _ | apply KeepsOutcome.next | apply KeepsOutcome.ite | apply Keeps.ite | dsimp only | split
    | apply State.ringError_keeps | apply State.fput_keeps | apply State.authFail_keeps | apply State.updateDone_keeps
    | apply State.setSq_keeps | apply State.finish_keeps

theorem execDoorbell_keeps {s0 s : State} (f : Nat) (off : Nat) (size : Nat) (value : Nat) (hs : Keeps s0 s) :
    KeepsOutcome s0 (execDoorbell f off size value s) := by
  unfold execDoorbell
  repeat' with_reducible first
    | assumption | intro _ | apply KeepsOutcome.next | apply KeepsOutcome.ite | apply Keeps.ite | dsimp only | split
    | apply State.emit_keeps | apply State.fadd_keeps | apply State.ringError_keeps | apply State.setSq_keeps | apply State.drainCq_keeps

theorem execFabricDescriptor_keeps {s0 s : State} (ring : Nat) (seq : Nat) (hs : Keeps s0 s) :
    KeepsOutcome s0 (execFabricDescriptor ring seq s) := by
  unfold execFabricDescriptor
  repeat' with_reducible first | assumption | intro _ | apply KeepsOutcome.next | dsimp only | split | apply State.descRow_keeps

theorem execFenceDescriptor_keeps {s0 s : State} (ring : Nat) (seq : Nat) (hs : Keeps s0 s) :
    KeepsOutcome s0 (execFenceDescriptor ring seq s) := by
  unfold execFenceDescriptor
  repeat' with_reducible first | assumption | intro _ | apply KeepsOutcome.next | dsimp only | split | apply State.descRow_keeps

theorem execForecastMessage_keeps {s0 s : State} (msg : Forecast) (hs : Keeps s0 s) :
    KeepsOutcome s0 (execForecastMessage msg s) := by
  unfold execForecastMessage
  repeat' with_reducible first | assumption | intro _ | apply KeepsOutcome.next | dsimp only | split | apply State.onForecast_keeps

theorem execForecastStale_keeps {s0 s : State} (hs : Keeps s0 s) :
    KeepsOutcome s0 (execForecastStale s) := by
  unfold execForecastStale
  repeat' with_reducible first
    | assumption | exact id | intro _ | apply KeepsOutcome.next | apply Keeps.ite | dsimp only | split | apply State.fput_keeps
    | refine Keeps.mk' ?_ rfl rfl (fun _ => id) rfl rfl ?_ ?_ ?_ ?_ ?_

theorem execFunctionLevelReset_keeps {s0 s : State} (f : Nat) (hs : Keeps s0 s) :
    KeepsOutcome s0 (execFunctionLevelReset f s) := by
  unfold execFunctionLevelReset
  repeat' with_reducible first
    | assumption | intro _ | apply KeepsOutcome.next | apply Keeps.ite | dsimp only | split | apply State.functionReset_keeps

theorem execLadleDescriptor_keeps {s0 s : State} (ring : Nat) (seq : Nat) (hs : Keeps s0 s) :
    KeepsOutcome s0 (execLadleDescriptor ring seq s) := by
  unfold execLadleDescriptor
  repeat' with_reducible first | assumption | intro _ | apply KeepsOutcome.next | dsimp only | split | apply State.descRow_keeps

theorem execLaunchDescriptor_keeps {s0 s : State} (ring : Nat) (seq : Nat) (hs : Keeps s0 s) :
    KeepsOutcome s0 (execLaunchDescriptor ring seq s) := by
  unfold execLaunchDescriptor
  repeat' with_reducible first | assumption | intro _ | apply KeepsOutcome.next | dsimp only | split | apply State.descRow_keeps

theorem execLockstepHalt_keeps {s0 s : State} (hs : Keeps s0 s) :
    KeepsOutcome s0 (execLockstepHalt s) := by
  unfold execLockstepHalt
  repeat' with_reducible first
    | assumption | intro _ | apply KeepsOutcome.next | apply KeepsOutcome.ite | apply Keeps.foldl | dsimp only | split
    | apply State.fput_keeps | apply State.ringError_keeps | apply State.raiseOffice_keeps

theorem execMoveDescriptor_keeps {s0 s : State} (ring : Nat) (seq : Nat) (hs : Keeps s0 s) :
    KeepsOutcome s0 (execMoveDescriptor ring seq s) := by
  unfold execMoveDescriptor
  repeat' with_reducible first | assumption | intro _ | apply KeepsOutcome.next | dsimp only | split | apply State.descRow_keeps

theorem execNopDescriptor_keeps {s0 s : State} (ring : Nat) (seq : Nat) (hs : Keeps s0 s) :
    KeepsOutcome s0 (execNopDescriptor ring seq s) := by
  unfold execNopDescriptor
  repeat' with_reducible first | assumption | intro _ | apply KeepsOutcome.next | dsimp only | split | apply State.descRow_keeps

theorem execPailDescriptor_keeps {s0 s : State} (ring : Nat) (seq : Nat) (hs : Keeps s0 s) :
    KeepsOutcome s0 (execPailDescriptor ring seq s) := by
  unfold execPailDescriptor
  repeat' with_reducible first | assumption | intro _ | apply KeepsOutcome.next | dsimp only | split | apply State.descRow_keeps

theorem execRingAdmitStatClear_keeps {s0 s : State} (w : RegWrite) (hs : Keeps s0 s) :
    KeepsOutcome s0 (execRingAdmitStatClear w s) := by
  unfold execRingAdmitStatClear
  repeat' with_reducible first
    | assumption | intro _ | apply KeepsOutcome.next | dsimp only | split | apply State.guarded_keeps | apply State.clearStat_keeps

theorem execRingDisable_keeps {s0 s : State} (ring : Nat) (w : RegWrite) (hs : Keeps s0 s) :
    KeepsOutcome s0 (execRingDisable ring w s) := by
  unfold execRingDisable
  repeat' with_reducible first
    | assumption | intro _ | apply KeepsOutcome.next | dsimp only | split | apply State.guarded_keeps | apply State.ringCtlWrite_keeps

theorem execRingDrainComplete_keeps {s0 s : State} (ring : Nat) (hs : Keeps s0 s) :
    KeepsOutcome s0 (execRingDrainComplete ring s) := by
  unfold execRingDrainComplete
  repeat' with_reducible first
    | assumption | intro _ | apply KeepsOutcome.next | apply KeepsOutcome.ite | apply Keeps.ite | dsimp only | split
    | apply State.setSq_keeps | apply State.enableRing_keeps | apply State.fput_keeps

theorem execRingEnable_keeps {s0 s : State} (ring : Nat) (w : RegWrite) (hs : Keeps s0 s) :
    KeepsOutcome s0 (execRingEnable ring w s) := by
  unfold execRingEnable
  repeat' with_reducible first
    | assumption | intro _ | apply KeepsOutcome.next | dsimp only | split | apply State.guarded_keeps | apply State.ringCtlWrite_keeps

theorem execScrub_keeps {s0 s : State} (ring : Nat) (seq : Nat) (hs : Keeps s0 s) :
    KeepsOutcome s0 (execScrub ring seq s) := by
  unfold execScrub
  repeat' with_reducible first | assumption | intro _ | apply KeepsOutcome.next | dsimp only | split | apply State.descRow_keeps

theorem execUnitCompletion_keeps {s0 s : State} (ring seq elapsed : Nat) (hs : Keeps s0 s) : KeepsOutcome s0 (execUnitCompletion ring seq elapsed s) := by
  unfold execUnitCompletion
  split
  · exact .next hs
  · split
    · exact .next hs
    · rename_i d _ _ r _
      have ht : Keeps s0 { s with records := s.records.erase r } := Keeps.mk' hs rfl rfl (fun _ => id) rfl rfl id id id id id
      exact .next (Keeps.ite (State.recordDone_keeps _ _ _ _ ht) ht)

theorem execWaitDescriptor_keeps {s0 s : State} (ring : Nat) (seq : Nat) (hs : Keeps s0 s) :
    KeepsOutcome s0 (execWaitDescriptor ring seq s) := by
  unfold execWaitDescriptor
  repeat' with_reducible first | assumption | intro _ | apply KeepsOutcome.next | dsimp only | split | apply State.descRow_keeps

theorem execWaitTimeout_keeps {s0 s : State} (ring : Nat) (seq : Nat) (hs : Keeps s0 s) :
    KeepsOutcome s0 (execWaitTimeout ring seq s) := by
  unfold execWaitTimeout
  repeat' with_reducible first
    | assumption | intro _ | apply KeepsOutcome.next | apply Keeps.ite | dsimp only | split | apply State.finish_keeps

theorem State.rouse_keeps {s0 s : State} (hs : Keeps s0 s) :
    Keeps s0 (State.rouse s) := by
  unfold State.rouse
  repeat' with_reducible first
    | assumption | intro _ | dsimp only | split | apply State.hostWork_keeps | apply State.fabWork_keeps | apply State.wake_keeps

theorem State.ldlCtlWrite_keeps {s0 s : State} (port : Nat) (w : RegWrite) (hs : Keeps s0 s) :
    Keeps s0 (State.ldlCtlWrite s port w) := by
  unfold State.ldlCtlWrite
  repeat' with_reducible first
    | assumption | intro _ | apply Keeps.ite | dsimp only | split | apply State.rouse_keeps | apply State.put_keeps

theorem execFarGrant_keeps {s0 s : State} (f : Nat) (id : Nat) (hs : Keeps s0 s) :
    KeepsOutcome s0 (execFarGrant f id s) := by
  unfold execFarGrant
  repeat' with_reducible first
    | assumption | intro _ | apply KeepsOutcome.next | apply Keeps.ite | dsimp only | split | apply State.rouse_keeps
    | apply State.setFarPort_keeps

theorem execFarStackLoss_keeps {s0 s : State} (f : Nat) (hs : Keeps s0 s) :
    KeepsOutcome s0 (execFarStackLoss f s) := by
  unfold execFarStackLoss
  repeat' with_reducible first
    | assumption | intro _ | apply KeepsOutcome.next | dsimp only | split | apply State.rouse_keeps | apply State.loseFarStack_keeps

theorem execFarWindowClose_keeps {s0 s : State} (f : Nat) (hs : Keeps s0 s) :
    KeepsOutcome s0 (execFarWindowClose f s) := by
  unfold execFarWindowClose
  repeat' with_reducible first
    | assumption | intro _ | apply KeepsOutcome.next | apply Keeps.foldl | dsimp only | split | apply State.setFarPort_keeps
    | apply State.rouse_keeps | apply State.put_keeps

theorem execGranuleReread_keeps {s0 s : State} (grain : Nat) (transient : Nat) (hs : Keeps s0 s) :
    KeepsOutcome s0 (execGranuleReread grain transient s) := by
  unfold execGranuleReread
  repeat' with_reducible first
    | assumption | intro _ | apply KeepsOutcome.next | dsimp only | split | apply State.rouse_keeps | apply State.finishFill_keeps

theorem execLadleSequenceStart_keeps {s0 s : State} (port : Nat) (hs : Keeps s0 s) :
    KeepsOutcome s0 (execLadleSequenceStart port s) := by
  unfold execLadleSequenceStart
  repeat' with_reducible first
    | assumption | intro _ | apply KeepsOutcome.next | dsimp only | split | apply State.rouse_keeps | apply State.ladleStart_keeps

theorem execLdlDrainWrite_keeps {s0 s : State} (port : Nat) (w : RegWrite) (hs : Keeps s0 s) :
    KeepsOutcome s0 (execLdlDrainWrite port w s) := by
  unfold execLdlDrainWrite
  repeat' with_reducible first
    | assumption | intro _ | apply KeepsOutcome.next | dsimp only | split | apply State.guarded_keeps | apply State.ldlCtlWrite_keeps

theorem execRowStep_keeps {s0 s : State} (port : Nat) (pc : Nat) (hs : Keeps s0 s) :
    KeepsOutcome s0 (execRowStep port pc s) := by
  unfold execRowStep
  repeat' with_reducible first
    | assumption | intro _ | apply KeepsOutcome.next | apply Keeps.ite | dsimp only | split | apply State.rouse_keeps
    | apply State.ladleStep_keeps

theorem execScFillComplete_keeps {s0 s : State} (grain : Nat) (transient : Nat) (hs : Keeps s0 s) :
    KeepsOutcome s0 (execScFillComplete grain transient s) := by
  unfold execScFillComplete
  repeat' with_reducible first
    | assumption | exact id | intro _ | apply KeepsOutcome.next | apply KeepsOutcome.ite | dsimp only | split | apply State.rouse_keeps
    | apply State.finishFill_keeps | refine Keeps.mk' ?_ rfl rfl (fun _ => id) rfl rfl ?_ ?_ ?_ ?_ ?_

theorem execSepChangeComplete_keeps {s0 s : State} (set : Nat) (hs : Keeps s0 s) :
    KeepsOutcome s0 (execSepChangeComplete set s) := by
  unfold execSepChangeComplete
  repeat' with_reducible first
    | assumption | exact id | intro _ | apply KeepsOutcome.next | apply KeepsOutcome.ite | dsimp only | split | apply State.fput_keeps
    | apply State.rouse_keeps | apply State.releaseHeld_keeps | refine Keeps.mk' ?_ rfl rfl (fun _ => id) rfl rfl ?_ ?_ ?_ ?_ ?_

theorem State.clearConf_keeps {s0 s : State} (f : Nat) (hs : Keeps s0 s) :
    Keeps s0 (State.clearConf s f) := by
  unfold State.clearConf
  repeat' with_reducible first | assumption | intro _ | apply Keeps.foldl | dsimp only | split | apply State.fput_keeps

theorem State.cutLadles_keeps {s0 s : State} (h : Nat) (hs : Keeps s0 s) :
    Keeps s0 (State.cutLadles s h) := by
  unfold State.cutLadles
  repeat' with_reducible first
    | assumption | exact id | intro _ | dsimp only | split | refine Keeps.mk' ?_ rfl rfl (fun _ => id) rfl rfl ?_ ?_ ?_ ?_ ?_

theorem State.wantClear_keeps {s0 s : State} (c : Nat) (hs : Keeps s0 s) :
    Keeps s0 (State.wantClear s c) := by
  unfold State.wantClear
  repeat' with_reducible first | assumption | intro _ | dsimp only | split | apply State.setNear_keeps

theorem State.dropTrees_keeps {s0 s : State} (h : Nat) (d : Nat) (hs : Keeps s0 s) :
    Keeps s0 (State.dropTrees s h d) := by
  unfold State.dropTrees
  repeat' with_reducible first
    | assumption | intro _ | apply Keeps.foldl | dsimp only | split | apply State.pailEnd_keeps | apply State.churnEnd_keeps
    | apply State.setPail_keeps

theorem State.beginTeardown_keeps {s0 s : State} (h : Nat) (hs : Keeps s0 s) :
    Keeps s0 (State.beginTeardown s h) := by
  unfold State.beginTeardown
  repeat' with_reducible first
    | assumption | exact id | intro _ | apply Keeps.ite | apply Keeps.foldl | dsimp only | split | apply State.fput_keeps
    | apply State.setHr_keeps | apply State.functionReset_keeps | apply State.clearConf_keeps | apply State.cutLadles_keeps
    | apply State.endLessons_keeps | apply State.wantClear_keeps | apply State.rouse_keeps | apply State.dropTrees_keeps
    | refine Keeps.mk' ?_ rfl rfl (fun _ => id) rfl rfl ?_ ?_ ?_ ?_ ?_

theorem State.clearCore_keeps {s0 s : State} (c : Nat) (hs : Keeps s0 s) :
    Keeps s0 (State.clearCore s c) := by
  unfold State.clearCore
  repeat' with_reducible first
    | assumption | intro _ | dsimp only | split | apply State.emptyArrays_keeps | apply State.emptyCore_keeps | apply State.fput_keeps
    | apply State.modCore_keeps | apply State.setNear_keeps

theorem State.clearedCore_keeps {s0 s : State} (c : Nat) (hs : Keeps s0 s) :
    Keeps s0 (State.clearedCore s c) := by
  unfold State.clearedCore
  repeat' with_reducible first
    | assumption | intro _ | dsimp only | split | apply State.emptyArrays_keeps | apply State.emptyCore_keeps | apply State.fput_keeps
    | apply State.modCore_keeps | apply State.setNear_keeps

theorem State.unlockDebug_keeps {s0 s : State} (hs : Keeps s0 s) :
    Keeps s0 (State.unlockDebug s) := by
  unfold State.unlockDebug
  repeat' with_reducible first
    | assumption | intro _ | apply Keeps.ite | apply Keeps.foldl | dsimp only | split | apply State.beginTeardown_keeps
    | apply State.fput_keeps

theorem State.debugWrite_keeps {s0 s : State} (w : RegWrite) (authorised : Bool) (hs : Keeps s0 s) :
    Keeps s0 (State.debugWrite s w authorised) := by
  unfold State.debugWrite
  repeat' with_reducible first | assumption | intro _ | apply Keeps.ite | dsimp only | split | apply State.unlockDebug_keeps

theorem State.openHr_keeps {s0 s : State} (h : Nat) (hs : Keeps s0 s) :
    Keeps s0 (State.openHr s h) := by
  unfold State.openHr
  repeat' with_reducible first | assumption | intro _ | dsimp only | split | apply State.fput_keeps | apply State.setHr_keeps

theorem State.endTeardown_keeps {s0 s : State} (h : Nat) (hs : Keeps s0 s) :
    Keeps s0 (State.endTeardown s h) := by
  unfold State.endTeardown
  repeat' with_reducible first
    | assumption | exact id | intro _ | apply Keeps.ite | apply Keeps.foldl | dsimp only | split | apply State.clearRows_keeps
    | apply State.clearedCore_keeps | apply State.put_keeps | apply State.releaseHeld_keeps | apply State.setHr_keeps
    | apply State.raise_keeps | apply State.openHr_keeps | refine Keeps.mk' ?_ rfl rfl (fun _ => id) rfl rfl ?_ ?_ ?_ ?_ ?_

theorem State.hrAnswer_keeps {s0 s : State} (code : Nat) (status : Nat) (rest : List Byte) (hs : Keeps s0 s) :
    Keeps s0 (State.hrAnswer s code status rest) := by
  unfold State.hrAnswer
  repeat' with_reducible first | assumption | intro _ | dsimp only | split | apply State.emit_keeps

theorem State.hrCommand_keeps {s0 s : State} (h : Nat) (code : Nat) (check : Option Nat) (act : State → State × List Byte) (hs : Keeps s0 s) (hact : ∀ t, Keeps s0 t → Keeps s0 (act t).1) :
    Keeps s0 (State.hrCommand s h code check act) := by
  unfold State.hrCommand
  repeat' with_reducible first | assumption | intro _ | apply Keeps.ite | dsimp only | split | apply State.hrAnswer_keeps | apply hact

theorem State.refuseMove_keeps {s0 s : State} (hs : Keeps s0 s) :
    Keeps s0 (State.refuseMove s) := by
  unfold State.refuseMove
  repeat' with_reducible first | assumption | intro _ | dsimp only | split | apply State.fput_keeps

theorem State.moveCore_keeps {s0 s : State} (h : Nat) (c : Nat) (hs : Keeps s0 s) :
    Keeps s0 (State.moveCore s h c) := by
  unfold State.moveCore
  repeat' with_reducible first
    | assumption | intro _ | apply Keeps.ite | dsimp only | split | apply State.refuseMove_keeps | apply State.modCore_keeps
    | apply State.fput_keeps | apply State.wantClear_keeps

theorem State.hrCoresWrite_keeps {s0 s : State} (h : Nat) (i : Nat) (w : RegWrite) (hs : Keeps s0 s) :
    Keeps s0 (State.hrCoresWrite s h i w) := by
  unfold State.hrCoresWrite
  repeat' with_reducible first
    | assumption | intro _ | apply Keeps.ite | apply Keeps.foldl | dsimp only | split | apply State.moveCore_keeps
    | apply State.refuseMove_keeps

theorem State.moveFunc_keeps {s0 s : State} (h : Nat) (f : Nat) (hs : Keeps s0 s) :
    Keeps s0 (State.moveFunc s h f) := by
  unfold State.moveFunc
  repeat' with_reducible first
    | assumption | intro _ | apply Keeps.ite | dsimp only | split | apply State.refuseMove_keeps | apply State.fput_keeps
    | apply State.functionReset_keeps | apply State.clearConf_keeps

theorem State.hrCtlWrite_keeps {s0 s : State} (h : Nat) (w : RegWrite) (hs : Keeps s0 s) :
    Keeps s0 (State.hrCtlWrite s h w) := by
  unfold State.hrCtlWrite
  repeat' with_reducible first
    | assumption | intro _ | apply Keeps.ite | apply Keeps.foldl | dsimp only | split | apply State.refuseMove_keeps
    | apply State.fput_keeps | apply State.openHr_keeps | apply State.moveFunc_keeps | apply State.beginTeardown_keeps

theorem State.moveSet_keeps {s0 s : State} (h : Nat) (v : Nat) (b : Nat) (hs : Keeps s0 s) :
    Keeps s0 (State.moveSet s h v b) := by
  unfold State.moveSet
  repeat' with_reducible first
    | assumption | intro _ | apply Keeps.ite | dsimp only | split | apply State.refuseMove_keeps | apply State.clearSet_keeps
    | apply State.setHr_keeps | apply State.fput_keeps

theorem State.hrMapWrite_keeps {s0 s : State} (h : Nat) (i : Nat) (w : RegWrite) (hs : Keeps s0 s) :
    Keeps s0 (State.hrMapWrite s h i w) := by
  unfold State.hrMapWrite
  repeat' with_reducible first
    | assumption | intro _ | apply Keeps.ite | apply Keeps.foldl | dsimp only | split | apply State.rouse_keeps
    | apply State.moveSet_keeps | apply State.refuseMove_keeps

theorem State.hrWindowWrite_keeps {s0 s : State} (h : Nat) (r : Reg) (w : RegWrite) (hs : Keeps s0 s) :
    Keeps s0 (State.hrWindowWrite s h r w) := by
  unfold State.hrWindowWrite
  repeat' with_reducible first
    | assumption | intro _ | apply Keeps.ite | dsimp only | split | apply State.put_keeps | apply State.refuseMove_keeps

theorem State.installKey_keeps {s0 s : State} (h : Nat) (kind : Nat) (v : Nat) (key : List Byte) (hs : Keeps s0 s) :
    Keeps s0 (State.installKey s h kind v key) := by
  unfold State.installKey
  repeat' with_reducible first | assumption | intro _ | dsimp only | split | apply State.setHr_keeps | apply State.clearSet_keeps

theorem State.mboxEnd_keeps {s0 s : State} (result : Nat) (len : Nat) (hs : Keeps s0 s) :
    Keeps s0 (State.mboxEnd s result len) := by
  unfold State.mboxEnd
  repeat' with_reducible first | assumption | intro _ | apply Keeps.ite | dsimp only | split | apply State.fput_keeps

theorem State.mboxRun_keeps {s0 s : State} (resp : List Byte) (hs : Keeps s0 s) :
    Keeps s0 (State.mboxRun s resp) := by
  unfold State.mboxRun
  repeat' with_reducible first
    | assumption | exact id | intro _ | apply Keeps.ite | dsimp only | split | apply State.mboxEnd_keeps | apply State.hostWrite_keeps
    | refine Keeps.mk' ?_ rfl rfl (fun _ => id) rfl rfl ?_ ?_ ?_ ?_ ?_

theorem State.mboxCtlWrite_keeps {s0 s : State} (w : RegWrite) (resp : List Byte) (hs : Keeps s0 s) :
    Keeps s0 (State.mboxCtlWrite s w resp) := by
  unfold State.mboxCtlWrite
  repeat' with_reducible first
    | assumption | intro _ | apply Keeps.ite | dsimp only | split | apply State.put_keeps | apply State.mboxRun_keeps

theorem State.seal_keeps {s0 s : State} (h : Nat) (hs : Keeps s0 s) :
    Keeps s0 (State.seal s h) := by
  unfold State.seal
  repeat' with_reducible first
    | assumption | intro _ | apply Keeps.foldl | dsimp only | split | apply State.drawBytes_keeps | apply State.setHr_keeps
    | apply State.fput_keeps | apply State.setSq_keeps

theorem State.sign_keeps {s0 s : State} (key : Nat) (msg : List Byte) (hs : Keeps s0 s) :
    Keeps s0 (State.sign s key msg).2 := by
  unfold State.sign
  repeat' with_reducible first | assumption | intro _ | dsimp only | split | apply State.draw_keeps

theorem execCoreMoveClear_keeps {s0 s : State} (c : Nat) (hs : Keeps s0 s) :
    KeepsOutcome s0 (execCoreMoveClear c s) := by
  unfold execCoreMoveClear
  repeat' with_reducible first
    | assumption | intro _ | apply KeepsOutcome.next | apply Keeps.ite | dsimp only | split | apply State.clearCore_keeps

theorem execDebugUnlock_keeps {s0 s : State} (w : RegWrite) (authorised : Bool) (hs : Keeps s0 s) :
    KeepsOutcome s0 (execDebugUnlock w authorised s) := by
  unfold execDebugUnlock
  repeat' with_reducible first
    | assumption | intro _ | apply KeepsOutcome.next | dsimp only | split | apply State.guarded_keeps | apply State.debugWrite_keeps

theorem execFabricSet_keeps {s0 s : State} (hr : Nat) (protect : Bool) (entries : List (Nat × Bool)) (hs : Keeps s0 s) :
    KeepsOutcome s0 (execFabricSet hr protect entries s) := by
  unfold execFabricSet
  repeat' with_reducible first
    | assumption | intro _ | apply KeepsOutcome.next | dsimp only | split | apply State.hrCommand_keeps | apply State.setHr_keeps

theorem execHrCoresWrite_keeps {s0 s : State} (hr : Nat) (i : Nat) (w : RegWrite) (hs : Keeps s0 s) :
    KeepsOutcome s0 (execHrCoresWrite hr i w s) := by
  unfold execHrCoresWrite
  repeat' with_reducible first
    | assumption | intro _ | apply KeepsOutcome.next | dsimp only | split | apply State.guarded_keeps | apply State.hrCoresWrite_keeps

theorem execHrFuncsWrite_keeps {s0 s : State} (hr : Nat) (w : RegWrite) (hs : Keeps s0 s) :
    KeepsOutcome s0 (execHrFuncsWrite hr w s) := by
  unfold execHrFuncsWrite
  repeat' with_reducible first
    | assumption | intro _ | apply KeepsOutcome.next | dsimp only | split | apply State.guarded_keeps | apply State.hrCtlWrite_keeps

theorem execHrMapWrite_keeps {s0 s : State} (hr : Nat) (i : Nat) (w : RegWrite) (hs : Keeps s0 s) :
    KeepsOutcome s0 (execHrMapWrite hr i w s) := by
  unfold execHrMapWrite
  repeat' with_reducible first
    | assumption | intro _ | apply KeepsOutcome.next | dsimp only | split | apply State.guarded_keeps | apply State.hrMapWrite_keeps

theorem execHrOpen_keeps {s0 s : State} (hr : Nat) (w : RegWrite) (hs : Keeps s0 s) :
    KeepsOutcome s0 (execHrOpen hr w s) := by
  unfold execHrOpen
  repeat' with_reducible first
    | assumption | intro _ | apply KeepsOutcome.next | dsimp only | split | apply State.guarded_keeps | apply State.hrCtlWrite_keeps

theorem execHrQuery_keeps {s0 s : State} (hr : Nat) (hs : Keeps s0 s) :
    KeepsOutcome s0 (execHrQuery hr s) := by
  unfold execHrQuery
  repeat' with_reducible first | assumption | intro _ | apply KeepsOutcome.next | dsimp only | split | apply State.hrCommand_keeps

theorem execHrWindowWrite_keeps {s0 s : State} (hr : Nat) (win : Nat) (map : Bool) (w : RegWrite) (hs : Keeps s0 s) :
    KeepsOutcome s0 (execHrWindowWrite hr win map w s) := by
  unfold execHrWindowWrite
  repeat' with_reducible first
    | assumption | intro _ | apply KeepsOutcome.next | dsimp only | split | apply State.guarded_keeps | apply State.hrWindowWrite_keeps

theorem execKeySet_keeps {s0 s : State} (hr : Nat) (kind : Nat) (v : Nat) (key : List Byte) (hs : Keeps s0 s) :
    KeepsOutcome s0 (execKeySet hr kind v key s) := by
  unfold execKeySet
  repeat' with_reducible first
    | assumption | intro _ | apply KeepsOutcome.next | dsimp only | split | apply State.hrCommand_keeps | apply State.rouse_keeps
    | apply State.installKey_keeps

theorem execMailboxGo_keeps {s0 s : State} (w : RegWrite) (resp : MailboxReply) (hs : Keeps s0 s) :
    KeepsOutcome s0 (execMailboxGo w resp s) := by
  unfold execMailboxGo
  repeat' with_reducible first
    | assumption | intro _ | apply KeepsOutcome.next | dsimp only | split | apply State.guarded_keeps | apply State.mboxCtlWrite_keeps

theorem execRingConf_keeps {s0 s : State} (hr : Nat) (ring : Nat) (conf : Nat) (hs : Keeps s0 s) :
    KeepsOutcome s0 (execRingConf hr ring conf s) := by
  unfold execRingConf
  repeat' with_reducible first
    | assumption | intro _ | apply KeepsOutcome.next | dsimp only | split | apply State.hrCommand_keeps | apply State.fput_keeps

theorem execRingQuery_keeps {s0 s : State} (hr : Nat) (ring : Nat) (hs : Keeps s0 s) :
    KeepsOutcome s0 (execRingQuery hr ring s) := by
  unfold execRingQuery
  repeat' with_reducible first | assumption | intro _ | apply KeepsOutcome.next | dsimp only | split | apply State.hrCommand_keeps

theorem execRngHealthFail_keeps {s0 s : State} (hs : Keeps s0 s) :
    KeepsOutcome s0 (execRngHealthFail s) := by
  unfold execRngHealthFail
  repeat' with_reducible first | assumption | intro _ | apply KeepsOutcome.next | dsimp only | split | apply State.fput_keeps

theorem execSaltExport_keeps {s0 s : State} (hr : Nat) (hs : Keeps s0 s) :
    KeepsOutcome s0 (execSaltExport hr s) := by
  unfold execSaltExport
  repeat' with_reducible first | assumption | intro _ | apply KeepsOutcome.next | dsimp only | split | apply State.hrCommand_keeps

theorem execSaltSet_keeps {s0 s : State} (hr : Nat) (salt : List Byte) (hs : Keeps s0 s) :
    KeepsOutcome s0 (execSaltSet hr salt s) := by
  unfold execSaltSet
  repeat' with_reducible first
    | assumption | intro _ | apply KeepsOutcome.next | dsimp only | split | apply State.hrCommand_keeps | apply State.setHr_keeps

theorem execSealHomeroom_keeps {s0 s : State} (hr : Nat) (digest : List Byte) (hs : Keeps s0 s) :
    KeepsOutcome s0 (execSealHomeroom hr digest s) := by
  unfold execSealHomeroom
  repeat' with_reducible first
    | assumption | intro _ | apply KeepsOutcome.next | dsimp only | split | apply State.hrCommand_keeps | apply State.seal_keeps

theorem execTeardownComplete_keeps {s0 s : State} (hr : Nat) (hs : Keeps s0 s) :
    KeepsOutcome s0 (execTeardownComplete hr s) := by
  unfold execTeardownComplete
  repeat' with_reducible first
    | assumption | intro _ | apply KeepsOutcome.next | apply Keeps.ite | dsimp only | split | apply State.rouse_keeps
    | apply State.endTeardown_keeps

theorem execTeardownWrite_keeps {s0 s : State} (hr : Nat) (w : RegWrite) (hs : Keeps s0 s) :
    KeepsOutcome s0 (execTeardownWrite hr w s) := by
  unfold execTeardownWrite
  repeat' with_reducible first
    | assumption | intro _ | apply KeepsOutcome.next | dsimp only | split | apply State.guarded_keeps | apply State.hrCtlWrite_keeps

theorem execTenantTeardown_keeps {s0 s : State} (hr : Nat) (hs : Keeps s0 s) :
    KeepsOutcome s0 (execTenantTeardown hr s) := by
  unfold execTenantTeardown
  repeat' with_reducible first
    | assumption | intro _ | apply KeepsOutcome.next | apply KeepsOutcome.ite | dsimp only | split | apply State.hrAnswer_keeps
    | apply State.beginTeardown_keeps

theorem State.arbThaw_keeps {s0 s : State} (d : Nat) (sel : Nat) (hs : Keeps s0 s) :
    Keeps s0 (State.arbThaw s d sel) := by
  unfold State.arbThaw
  repeat' with_reducible first | assumption | intro _ | dsimp only | split | apply State.sliceDrain_keeps | apply State.releaseHeld_keeps

theorem State.arbCtlWrite_keeps {s0 s : State} (d : Nat) (sel : Nat) (w : RegWrite) (hs : Keeps s0 s) :
    Keeps s0 (State.arbCtlWrite s d sel w) := by
  unfold State.arbCtlWrite
  repeat' with_reducible first
    | assumption | intro _ | apply Keeps.ite | dsimp only | split | apply State.put_keeps | apply State.arbFrozenHints_keeps
    | apply State.rouse_keeps | apply State.arbThaw_keeps

theorem State.arbEnter_keeps {s0 s : State} (d : Nat) (sel : Nat) (r : Nat) (hs : Keeps s0 s) :
    Keeps s0 (State.arbEnter s d sel r) := by
  unfold State.arbEnter
  repeat' with_reducible first | assumption | intro _ | dsimp only | split | apply State.enterFar_keeps | apply State.enterLadle_keeps

theorem State.setStop_keeps {s0 s : State} (d : Nat) (stop : Nat) (t : StopSt) (hs : Keeps s0 s) :
    Keeps s0 (State.setStop s d stop t) := by
  unfold State.setStop
  repeat' with_reducible first
    | assumption | exact id | intro _ | dsimp only | split | refine Keeps.mk' ?_ rfl rfl (fun _ => id) rfl rfl ?_ ?_ ?_ ?_ ?_

theorem State.eject_keeps {s0 s : State} (d : Nat) (stop : Nat) (key : Nat) (hs : Keeps s0 s) :
    Keeps s0 (State.eject s d stop key) := by
  unfold State.eject
  repeat' with_reducible first
    | assumption | exact id | intro _ | apply Keeps.ite | dsimp only | split | apply State.setStop_keeps | apply State.fadd_keeps
    | refine Keeps.mk' ?_ rfl rfl (fun _ => id) rfl rfl ?_ ?_ ?_ ?_ ?_

theorem State.setRouter_keeps {s0 s : State} (d : Nat) (node : Nat) (r : RouterSt) (hs : Keeps s0 s) :
    Keeps s0 (State.setRouter s d node r) := by
  unfold State.setRouter
  repeat' with_reducible first
    | assumption | exact id | intro _ | dsimp only | split | refine Keeps.mk' ?_ rfl rfl (fun _ => id) rfl rfl ?_ ?_ ?_ ?_ ?_

theorem State.meshSend_keeps {s0 s : State} (d : Nat) (node : Nat) (out : RouterOut) (p : MeshPkt) (hs : Keeps s0 s) :
    Keeps s0 (State.meshSend s d node out p) := by
  unfold State.meshSend
  repeat' with_reducible first
    | assumption | intro _ | dsimp only | split | apply State.emit_keeps | apply State.setRouter_keeps | apply State.setStop_keeps

theorem State.stopDrain_keeps {s0 s : State} (d : Nat) (stop : Nat) (busy : Bool) (hs : Keeps s0 s) :
    Keeps s0 (State.stopDrain s d stop busy) := by
  unfold State.stopDrain
  repeat' with_reducible first
    | assumption | intro _ | apply Keeps.ite | apply Keeps.foldl | dsimp only | split | apply State.setStop_keeps
    | apply State.setRouter_keeps | apply State.emit_keeps

theorem State.stopEnter_keeps {s0 s : State} (d : Nat) (stop : Nat) (inject : List MeshPkt) (hs : Keeps s0 s) :
    Keeps s0 (State.stopEnter s d stop inject) := by
  unfold State.stopEnter
  repeat' with_reducible first | assumption | intro _ | apply Keeps.ite | dsimp only | split | apply State.setStop_keeps

theorem State.stopGrant_keeps {s0 s : State} (d : Nat) (stop : Nat) (next : Nat) (lane : Nat) (clockwise : Bool) (hs : Keeps s0 s) :
    Keeps s0 (State.stopGrant s d stop next lane clockwise) := by
  unfold State.stopGrant
  repeat' with_reducible first
    | assumption | exact id | intro _ | refine Keeps.of_fst (by assumption) ?_ | apply Keeps.ite | dsimp only | split
    | apply State.arbDecide_keeps | apply State.setStop_keeps | refine Keeps.mk' ?_ rfl rfl (fun _ => id) rfl rfl ?_ ?_ ?_ ?_ ?_

theorem State.stopPending_keeps {s0 s : State} (d : Nat) (stop : Nat) (clockwise : Bool) (hs : Keeps s0 s) :
    Keeps s0 (State.stopPending s d stop clockwise) := by
  unfold State.stopPending
  repeat' with_reducible first | assumption | intro _ | dsimp only | split | apply State.arbPending_keeps

end Sys2Proof.Machine
end

