-- ==== Sys2Proof/Laws/Keeps4.lean ====
section
/-! SUPPORT. What the operations of Machine/ keep (`Keeps`), file 4 of 5:
Mesh, Crossings, D2D, Supply, Bringup, Integrity, Power, Package, RegWrite, Office. -/

namespace Sys2Proof.Machine

theorem execArbDrainComplete_keeps {s0 s : State} (d : Nat) (sel : Nat) (hs : Keeps s0 s) :
    KeepsOutcome s0 (execArbDrainComplete d sel s) := by
  unfold execArbDrainComplete
  repeat' with_reducible first
    | assumption | intro _ | apply KeepsOutcome.next | apply Keeps.ite | dsimp only | split | apply State.fput_keeps

theorem execArbFreeze_keeps {s0 s : State} (d : Nat) (sel : Nat) (w : RegWrite) (hs : Keeps s0 s) :
    KeepsOutcome s0 (execArbFreeze d sel w s) := by
  unfold execArbFreeze
  repeat' with_reducible first
    | assumption | intro _ | apply KeepsOutcome.next | dsimp only | split | apply State.guarded_keeps | apply State.arbCtlWrite_keeps

theorem execArbGrant_keeps {s0 s : State} (d : Nat) (sel : Nat) (arrivals : List Nat) (hs : Keeps s0 s) :
    KeepsOutcome s0 (execArbGrant d sel arrivals s) := by
  unfold execArbGrant
  repeat' with_reducible first
    | assumption | intro _ | refine Keeps.of_fst (by assumption) ?_ | apply KeepsOutcome.next | apply KeepsOutcome.ite | dsimp only
    | split | apply State.setArb_keeps | apply State.arbPending_keeps | apply State.arbServe_keeps | apply State.rouse_keeps
    | apply State.arbEnter_keeps

theorem execArbStatClear_keeps {s0 s : State} (d : Nat) (sel : Nat) (w : RegWrite) (hs : Keeps s0 s) :
    KeepsOutcome s0 (execArbStatClear d sel w s) := by
  unfold execArbStatClear
  repeat' with_reducible first
    | assumption | intro _ | apply KeepsOutcome.next | dsimp only | split | apply State.guarded_keeps | apply State.clearStat_keeps

theorem execMeshStatClear_keeps {s0 s : State} (d : Nat) (w : RegWrite) (hs : Keeps s0 s) :
    KeepsOutcome s0 (execMeshStatClear d w s) := by
  unfold execMeshStatClear
  repeat' with_reducible first
    | assumption | intro _ | apply KeepsOutcome.next | dsimp only | split | apply State.guarded_keeps | apply State.clearStat_keeps

theorem execRingStopPacket_keeps {s0 s : State} (d : Nat) (stop : Nat) (lane : Nat) (clockwise : Bool) (busy : Bool) (inject : List MeshPkt) (hs : Keeps s0 s) :
    KeepsOutcome s0 (execRingStopPacket d stop lane clockwise busy inject s) := by
  unfold execRingStopPacket
  repeat' with_reducible first
    | assumption | intro _ | apply KeepsOutcome.next | apply KeepsOutcome.ite | dsimp only | split | apply State.eject_keeps
    | apply State.stopEnter_keeps | apply State.stopDrain_keeps | apply State.stopPending_keeps | apply State.stopGrant_keeps

theorem execRouterPacket_keeps {s0 s : State} (d : Nat) (node : Nat) (out : RouterOut) (inject : List MeshPkt) (hs : Keeps s0 s) :
    KeepsOutcome s0 (execRouterPacket d node out inject s) := by
  unfold execRouterPacket
  repeat' with_reducible first
    | assumption | intro _ | apply KeepsOutcome.next | apply KeepsOutcome.ite | dsimp only | split | apply State.draw_keeps
    | apply State.setRouter_keeps | apply State.meshSend_keeps

theorem State.setXing_keeps {s0 s : State} (d : Nat) (sel : Nat) (a3 : XingSt) (hs : Keeps s0 s) :
    Keeps s0 (State.setXing s d sel a3) := by
  unfold State.setXing
  repeat' with_reducible first
    | assumption | exact id | intro _ | dsimp only | split | refine Keeps.mk' ?_ rfl rfl (fun _ => id) rfl rfl ?_ ?_ ?_ ?_ ?_

theorem State.xingLatency_keeps {s0 s : State} (d : Nat) (sel : Nat) (lo : Nat) (n : Nat) (hs : Keeps s0 s) :
    Keeps s0 (State.xingLatency s d sel lo n) := by
  unfold State.xingLatency
  repeat' with_reducible first | assumption | intro _ | dsimp only | split | apply State.draw_keeps | apply State.fput_keeps

theorem State.xingEnter_keeps {s0 s : State} (d : Nat) (sel : Nat) (n : Nat) (vs : List Nat) (hs : Keeps s0 s) :
    Keeps s0 (State.xingEnter s d sel n vs) := by
  unfold State.xingEnter
  repeat' with_reducible first
    | assumption | intro _ | apply Keeps.foldl | dsimp only | split | apply State.setXing_keeps | apply State.xingLatency_keeps
    | apply State.emit_keeps

theorem State.xingEvent_keeps {s0 s : State} (d : Nat) (hs : Keeps s0 s) :
    Keeps s0 (State.xingEvent s d) := by
  unfold State.xingEvent
  repeat' with_reducible first | assumption | intro _ | apply Keeps.ite | dsimp only | split | apply State.raise_keeps

theorem State.xingWrite_keeps {s0 s : State} (d : Nat) (sel : Nat) (v : Nat) (hs : Keeps s0 s) :
    Keeps s0 (State.xingWrite s d sel v) := by
  unfold State.xingWrite
  repeat' with_reducible first
    | assumption | intro _ | dsimp only | split | apply State.draw_keeps | apply State.xingEnter_keeps | apply State.setXing_keeps

theorem State.xingFallback_keeps {s0 s : State} (d : Nat) (sel : Nat) (forced : Bool) (hs : Keeps s0 s) :
    Keeps s0 (State.xingFallback s d sel forced) := by
  unfold State.xingFallback
  repeat' with_reducible first
    | assumption | intro _ | apply Keeps.foldl | dsimp only | split | apply State.fput_keeps | apply State.xingEnter_keeps
    | apply State.setXing_keeps | apply State.xingEvent_keeps | apply State.xingWrite_keeps

theorem State.xingCtlWrite_keeps {s0 s : State} (d : Nat) (w : RegWrite) (hs : Keeps s0 s) :
    Keeps s0 (State.xingCtlWrite s d w) := by
  unfold State.xingCtlWrite
  repeat' with_reducible first
    | assumption | intro _ | apply Keeps.ite | dsimp only | split | apply State.put_keeps | apply State.xingFallback_keeps

theorem execCrossingStall_keeps {s0 s : State} (d : Nat) (sel : Nat) (hs : Keeps s0 s) :
    KeepsOutcome s0 (execCrossingStall d sel s) := by
  unfold execCrossingStall
  repeat' with_reducible first
    | assumption | intro _ | apply KeepsOutcome.next | apply Keeps.ite | dsimp only | split | apply State.xingEvent_keeps
    | apply State.fput_keeps

theorem execQueueWrite_keeps {s0 s : State} (d : Nat) (sel : Nat) (value : Nat) (hs : Keeps s0 s) :
    KeepsOutcome s0 (execQueueWrite d sel value s) := by
  unfold execQueueWrite
  repeat' with_reducible first
    | assumption | intro _ | apply KeepsOutcome.next | apply Keeps.ite | dsimp only | split | apply State.xingWrite_keeps

theorem execSampleFallback_keeps {s0 s : State} (d : Nat) (sel : Nat) (hs : Keeps s0 s) :
    KeepsOutcome s0 (execSampleFallback d sel s) := by
  unfold execSampleFallback
  repeat' with_reducible first
    | assumption | intro _ | apply KeepsOutcome.next | apply Keeps.ite | dsimp only | split | apply State.xingFallback_keeps

theorem execSamplePresent_keeps {s0 s : State} (d : Nat) (sel : Nat) (value : Nat) (attempts : Nat) (hs : Keeps s0 s) :
    KeepsOutcome s0 (execSamplePresent d sel value attempts s) := by
  unfold execSamplePresent
  repeat' with_reducible first
    | assumption | intro _ | apply KeepsOutcome.next | apply KeepsOutcome.ite | dsimp only | split | apply State.xingWrite_keeps
    | apply State.setXing_keeps | apply State.xingLatency_keeps | apply State.emit_keeps | apply State.fput_keeps | apply State.fadd_keeps

theorem execSignalRaise_keeps {s0 s : State} (d : Nat) (sel : Nat) (hs : Keeps s0 s) :
    KeepsOutcome s0 (execSignalRaise d sel s) := by
  unfold execSignalRaise
  repeat' with_reducible first
    | assumption | intro _ | apply KeepsOutcome.next | apply KeepsOutcome.ite | dsimp only | split | apply State.setXing_keeps

theorem execSignalRoundTrip_keeps {s0 s : State} (d : Nat) (sel : Nat) (hs : Keeps s0 s) :
    KeepsOutcome s0 (execSignalRoundTrip d sel s) := by
  unfold execSignalRoundTrip
  repeat' with_reducible first
    | assumption | intro _ | apply KeepsOutcome.next | apply KeepsOutcome.ite | dsimp only | split | apply State.xingLatency_keeps
    | apply State.emit_keeps | apply State.setXing_keeps

theorem execXingForce_keeps {s0 s : State} (d : Nat) (w : RegWrite) (hs : Keeps s0 s) :
    KeepsOutcome s0 (execXingForce d w s) := by
  unfold execXingForce
  repeat' with_reducible first
    | assumption | intro _ | apply KeepsOutcome.next | dsimp only | split | apply State.guarded_keeps | apply State.xingCtlWrite_keeps

theorem State.sendDieFlit_keeps {s0 s : State} (d : Nat) (e : Nat) (m : Nat) (seq : Nat) (content : List Byte) (hs : Keeps s0 s) :
    Keeps s0 (State.sendDieFlit s d e m seq content) := by
  unfold State.sendDieFlit
  repeat' with_reducible first | assumption | intro _ | dsimp only | split | apply State.emit_keeps

theorem State.putDieFlit_keeps {s0 s : State} (d : Nat) (e : Nat) (m : Nat) (content : List Byte) (ends : List LinkPkt) (hs : Keeps s0 s) :
    Keeps s0 (State.putDieFlit s d e m content ends) := by
  unfold State.putDieFlit
  repeat' with_reducible first | assumption | intro _ | dsimp only | split | apply State.sendDieFlit_keeps | apply State.setModule_keeps

theorem State.sendStream_keeps {s0 a3 : State} (d : Nat) (e : Nat) (m : Nat) (a4 : List (List Byte × List LinkPkt)) (hs : Keeps s0 a3) :
    Keeps s0 (State.sendStream d e m a3 a4) := by
  induction a4 generalizing a3 with
  | nil =>
    unfold State.sendStream
    repeat' with_reducible first | assumption
  | cons b bs ih =>
    unfold State.sendStream
    repeat' with_reducible first
      | assumption | intro _ | apply Keeps.ite | apply Keeps.repeat | dsimp only | split | apply ih | apply State.putDieFlit_keeps

theorem State.pumpModule_keeps {s0 s : State} (d : Nat) (e : Nat) (m : Nat) (hs : Keeps s0 s) :
    Keeps s0 (State.pumpModule s d e m) := by
  unfold State.pumpModule
  repeat' with_reducible first
    | assumption | intro _ | apply Keeps.ite | dsimp only | split | apply State.sendStream_keeps | apply State.setModule_keeps

theorem State.resend_keeps {s0 s : State} (d : Nat) (e : Nat) (m : Nat) (from' : Nat) (hs : Keeps s0 s) :
    Keeps s0 (State.resend s d e m from') := by
  unfold State.resend
  repeat' with_reducible first
    | assumption | intro _ | apply Keeps.ite | apply Keeps.foldl | dsimp only | split | apply State.sendDieFlit_keeps

theorem State.resendCounted_keeps {s0 s : State} (d : Nat) (e : Nat) (m : Nat) (from' : Nat) (hs : Keeps s0 s) :
    Keeps s0 (State.resendCounted s d e m from') := by
  unfold State.resendCounted
  repeat' with_reducible first
    | assumption | intro _ | apply Keeps.ite | dsimp only | split | apply State.resend_keeps | apply State.fadd_keeps

theorem State.nakArrives_keeps {s0 s : State} (d : Nat) (e : Nat) (m : Nat) (seq : Nat) (hs : Keeps s0 s) :
    Keeps s0 (State.nakArrives s d e m seq) := by
  unfold State.nakArrives
  repeat' with_reducible first
    | assumption | intro _ | apply Keeps.ite | dsimp only | split | apply State.setModule_keeps | apply State.pumpModule_keeps
    | apply State.resendCounted_keeps

theorem State.creditArrives_keeps {s0 s : State} (d : Nat) (e : Nat) (m : Nat) (req : Nat) (rep : Nat) (hs : Keeps s0 s) :
    Keeps s0 (State.creditArrives s d e m req rep) := by
  unfold State.creditArrives
  repeat' with_reducible first
    | assumption | intro _ | apply Keeps.ite | dsimp only | split | apply State.pumpModule_keeps | apply State.setModule_keeps

theorem State.goodbyeArrives_keeps {s0 s : State} (d : Nat) (e : Nat) (hs : Keeps s0 s) :
    Keeps s0 (State.goodbyeArrives s d e) := by
  unfold State.goodbyeArrives
  repeat' with_reducible first | assumption | intro _ | apply Keeps.ite | dsimp only | split | apply State.fput_keeps

theorem State.linkControlSend_keeps {s0 s : State} (d : Nat) (e : Nat) (m : Nat) (p : LinkPkt) (hs : Keeps s0 s) :
    Keeps s0 (State.linkControlSend s d e m p) := by
  unfold State.linkControlSend
  repeat' with_reducible first | assumption | intro _ | dsimp only | split | apply State.pumpModule_keeps | apply State.setModule_keeps

theorem State.handOver_keeps {s0 s : State} (d : Nat) (e : Nat) (m : Nat) (p : LinkPkt) (hs : Keeps s0 s) :
    Keeps s0 (State.handOver s d e m p) := by
  unfold State.handOver
  repeat' with_reducible first | assumption | intro _ | dsimp only | split | apply State.linkControlSend_keeps | apply State.emit_keeps

theorem State.routeArrives_keeps {s0 s : State} (d : Nat) (e : Nat) (key : Nat) (newModule : Nat) (hs : Keeps s0 s) :
    Keeps s0 (State.routeArrives s d e key newModule) := by
  unfold State.routeArrives
  repeat' with_reducible first
    | assumption | intro _ | apply Keeps.ite | apply Keeps.foldl | dsimp only | split | apply State.setEdge_keeps
    | apply State.handOver_keeps

theorem State.crossed_keeps {s0 s : State} (d : Nat) (e : Nat) (m : Nat) (p : LinkPkt) (hs : Keeps s0 s) :
    Keeps s0 (State.crossed s d e m p) := by
  unfold State.crossed
  repeat' with_reducible first
    | assumption | intro _ | apply Keeps.ite | dsimp only | split | apply State.nakArrives_keeps | apply State.creditArrives_keeps
    | apply State.goodbyeArrives_keeps | apply State.routeArrives_keeps | apply State.handOver_keeps | apply State.setEdge_keeps

theorem State.takeStream_keeps {s0 s : State} (d e m : Nat) (bs : List Byte) (ps : List LinkPkt) (hs : Keeps s0 s) :
    Keeps s0 (State.takeStream d e m s bs ps) := by
  induction ps generalizing s bs with
  | nil =>
    unfold State.takeStream
    repeat' with_reducible first | assumption | intro _ | dsimp only | split | apply State.setModule_keeps
  | cons p ps ih =>
    unfold State.takeStream
    repeat' with_reducible first | assumption | intro _ | dsimp only | split | apply ih | apply State.crossed_keeps

theorem State.peerIdle_keeps {s0 s : State} (d : Nat) (e : Nat) (m : Nat) (seq : Nat) (hs : Keeps s0 s) :
    Keeps s0 (State.peerIdle s d e m seq) := by
  unfold State.peerIdle
  repeat' with_reducible first | assumption | intro _ | apply Keeps.ite | dsimp only | split | apply State.setModule_keeps

theorem State.countModules_keeps {s0 s : State} (d : Nat) (e : Nat) (hs : Keeps s0 s) :
    Keeps s0 (State.countModules s d e) := by
  unfold State.countModules
  repeat' with_reducible first | assumption | intro _ | dsimp only | split | apply State.fput_keeps

theorem State.putBoth_keeps {s0 s : State} (d : Nat) (e : Nat) (m : Nat) (f : Fld) (v : Nat) (hs : Keeps s0 s) :
    Keeps s0 (State.putBoth s d e m f v) := by
  unfold State.putBoth
  repeat' with_reducible first | assumption | intro _ | dsimp only | split | apply State.countModules_keeps | apply State.fput_keeps

theorem State.failLanes_keeps {s0 s : State} (d : Nat) (e : Nat) (m : Nat) (bad : Nat) (hs : Keeps s0 s) :
    Keeps s0 (State.failLanes s d e m bad) := by
  unfold State.failLanes
  repeat' with_reducible first | assumption | intro _ | dsimp only | split | apply State.putBoth_keeps | apply State.setModule_keeps

theorem State.edgeBoth_keeps {s0 s : State} (d : Nat) (e : Nat) (v : Nat) (hs : Keeps s0 s) :
    Keeps s0 (State.edgeBoth s d e v) := by
  unfold State.edgeBoth
  repeat' with_reducible first | assumption | intro _ | dsimp only | split | apply State.fput_keeps

theorem State.linkLost_keeps {s0 s : State} (p : LinkPkt) (hs : Keeps s0 s) :
    Keeps s0 (State.linkLost s p) := by
  unfold State.linkLost
  repeat' with_reducible first | assumption | intro _ | dsimp only | split | apply State.emit_keeps

theorem State.sendLink_keeps {s0 s : State} (d : Nat) (p : LinkPkt) (hs : Keeps s0 s) :
    Keeps s0 (State.sendLink s d p) := by
  unfold State.sendLink
  repeat' with_reducible first
    | assumption | intro _ | dsimp only | split | apply State.linkLost_keeps | apply State.pumpModule_keeps | apply State.setModule_keeps
    | apply State.setEdge_keeps

theorem State.moveFlows_keeps {s0 s : State} (d : Nat) (e : Nat) (m : Nat) (hs : Keeps s0 s) :
    Keeps s0 (State.moveFlows s d e m) := by
  unfold State.moveFlows
  repeat' with_reducible first
    | assumption | intro _ | apply Keeps.foldl | dsimp only | split | apply State.setModule_keeps | apply State.sendLink_keeps
    | apply State.linkLost_keeps | apply State.setEdge_keeps | apply State.pumpModule_keeps

theorem State.moduleEvent_keeps {s0 s : State} (d : Nat) (e : Nat) (m : Nat) (hs : Keeps s0 s) :
    Keeps s0 (State.moduleEvent s d e m) := by
  unfold State.moduleEvent
  repeat' with_reducible first
    | assumption | intro _ | apply Keeps.ite | dsimp only | split | apply State.raiseOffice_keeps | apply State.raiseHost_keeps

theorem State.retire_keeps {s0 s : State} (d : Nat) (e : Nat) (m : Nat) (hs : Keeps s0 s) :
    Keeps s0 (State.retire s d e m) := by
  unfold State.retire
  repeat' with_reducible first
    | assumption | intro _ | apply Keeps.ite | dsimp only | split | apply State.putBoth_keeps | apply State.edgeBoth_keeps
    | apply State.moveFlows_keeps | apply State.moduleEvent_keeps

theorem State.markLanes_keeps {s0 s : State} (d : Nat) (e : Nat) (m : Nat) (hs : Keeps s0 s) :
    Keeps s0 (State.markLanes s d e m) := by
  unfold State.markLanes
  repeat' with_reducible first
    | assumption | intro _ | apply Keeps.ite | apply Keeps.foldl | dsimp only | split | apply State.addDefect_keeps
    | apply State.failLanes_keeps | apply State.setModule_keeps | apply State.retire_keeps

theorem State.acceptFlit_keeps {s0 s : State} (d : Nat) (e : Nat) (m : Nat) (bytes : List Byte) (hs : Keeps s0 s) :
    Keeps s0 (State.acceptFlit s d e m bytes) := by
  unfold State.acceptFlit
  repeat' with_reducible first
    | assumption | intro _ | dsimp only | split | apply State.setModule_keeps | apply State.takeStream_keeps | apply State.peerIdle_keeps
    | apply State.markLanes_keeps | apply State.pumpModule_keeps

theorem State.d2dCtlWrite_keeps {s0 s : State} (d : Nat) (w : RegWrite) (hs : Keeps s0 s) :
    Keeps s0 (State.d2dCtlWrite s d w) := by
  unfold State.d2dCtlWrite
  repeat' with_reducible first | assumption | intro _ | dsimp only | split | apply State.put_keeps

theorem State.dropIssued_keeps {s0 s : State} (d : Nat) (hs : Keeps s0 s) :
    Keeps s0 (State.dropIssued s d) := by
  unfold State.dropIssued
  repeat' with_reducible first
    | assumption | exact id | intro _ | dsimp only | split | refine Keeps.mk' ?_ rfl rfl (fun _ => id) rfl rfl ?_ ?_ ?_ ?_ ?_

theorem State.setDomain_keeps {s0 s : State} (d : Nat) (v : Nat) (hs : Keeps s0 s) :
    Keeps s0 (State.setDomain s d v) := by
  unfold State.setDomain
  repeat' with_reducible first
    | assumption | intro _ | apply Keeps.ite | dsimp only | split | apply State.fput_keeps | apply State.raise_keeps

theorem State.losePail_keeps {s0 s : State} (d : Nat) (goodbye : Bool) (hs : Keeps s0 s) :
    Keeps s0 (State.losePail s d goodbye) := by
  unfold State.losePail
  repeat' with_reducible first
    | assumption | exact id | intro _ | apply Keeps.foldl | dsimp only | split | apply State.pailEnd_keeps | apply State.setPail_keeps
    | apply State.churnEnd_keeps | apply State.failWaits_keeps | refine Keeps.mk' ?_ rfl rfl (fun _ => id) rfl rfl ?_ ?_ ?_ ?_ ?_

theorem State.loseStack_keeps {s0 s : State} (d : Nat) (goodbye : Bool) (hs : Keeps s0 s) :
    Keeps s0 (State.loseStack s d goodbye) := by
  unfold State.loseStack
  repeat' with_reducible first
    | assumption | exact id | intro _ | apply Keeps.foldl | dsimp only | split | apply State.farDies_keeps | apply State.ladleLost_keeps
    | apply State.movePort_keeps | refine Keeps.mk' ?_ rfl rfl (fun _ => id) rfl rfl ?_ ?_ ?_ ?_ ?_

theorem State.loseIo_keeps {s0 s : State} (d : Nat) (goodbye : Bool) (hs : Keeps s0 s) :
    Keeps s0 (State.loseIo s d goodbye) := by
  unfold State.loseIo
  repeat' with_reducible first
    | assumption | exact id | intro _ | apply Keeps.foldl | dsimp only | split | apply State.twinLoss_keeps | apply State.fabDone_keeps
    | refine Keeps.mk' ?_ rfl rfl (fun _ => id) rfl rfl ?_ ?_ ?_ ?_ ?_

theorem State.loseTransport_keeps {s0 s : State} (d : Nat) (hs : Keeps s0 s) :
    Keeps s0 (State.loseTransport s d) := by
  unfold State.loseTransport
  repeat' with_reducible first
    | assumption | exact id | intro _ | dsimp only | split | refine Keeps.mk' ?_ rfl rfl (fun _ => id) rfl rfl ?_ ?_ ?_ ?_ ?_

theorem State.dieDown_keeps {s0 s : State} (d : Nat) (goodbye : Bool) (hs : Keeps s0 s) :
    Keeps s0 (State.dieDown s d goodbye) := by
  unfold State.dieDown
  repeat' with_reducible first
    | assumption | intro _ | apply Keeps.ite | apply Keeps.foldl | dsimp only | split | apply State.dropIssued_keeps
    | apply State.setDomain_keeps | apply State.losePail_keeps | apply State.loseStack_keeps | apply State.beginFence_keeps
    | apply State.completeFence_keeps | apply State.loseIo_keeps | apply State.loseTransport_keeps | apply State.fput_keeps
    | apply State.rouse_keeps | apply State.raise_keeps

theorem State.peersSee_keeps {s0 s : State} (d : Nat) (v : Nat) (hs : Keeps s0 s) :
    Keeps s0 (State.peersSee s d v) := by
  unfold State.peersSee
  repeat' with_reducible first | assumption | intro _ | apply Keeps.ite | apply Keeps.foldl | dsimp only | split | apply State.fput_keeps

theorem State.dieOut_keeps {s0 s : State} (d : Nat) (hs : Keeps s0 s) :
    Keeps s0 (State.dieOut s d) := by
  unfold State.dieOut
  repeat' with_reducible first | assumption | intro _ | dsimp only | split | apply State.dieDown_keeps | apply State.peersSee_keeps

theorem State.fitWidth_keeps {s0 s : State} (d : Nat) (e : Nat) (m : Nat) (hs : Keeps s0 s) :
    Keeps s0 (State.fitWidth s d e m) := by
  unfold State.fitWidth
  repeat' with_reducible first
    | assumption | intro _ | apply Keeps.ite | dsimp only | split | apply State.retire_keeps | apply State.putBoth_keeps

theorem State.lateFlit_keeps {s0 s : State} (d : Nat) (e : Nat) (m : Nat) (bytes : List Byte) (hs : Keeps s0 s) :
    Keeps s0 (State.lateFlit s d e m bytes) := by
  unfold State.lateFlit
  repeat' with_reducible first | assumption | intro _ | dsimp only | split | apply State.fadd_keeps

theorem State.markLane_keeps {s0 s : State} (unit : Nat) (hs : Keeps s0 s) :
    Keeps s0 (State.markLane s unit) := by
  unfold State.markLane
  repeat' with_reducible first
    | assumption | intro _ | apply Keeps.ite | dsimp only | split | apply State.fitWidth_keeps | apply State.failLanes_keeps

theorem State.sendNak_keeps {s0 s : State} (d : Nat) (e : Nat) (m : Nat) (hs : Keeps s0 s) :
    Keeps s0 (State.sendNak s d e m) := by
  unfold State.sendNak
  repeat' with_reducible first
    | assumption | intro _ | dsimp only | split | apply State.linkControlSend_keeps | apply State.setModule_keeps

theorem execD2dCredit_keeps {s0 s : State} (d : Nat) (e : Nat) (m : Nat) (req : Nat) (rep : Nat) (hs : Keeps s0 s) :
    KeepsOutcome s0 (execD2dCredit d e m req rep s) := by
  unfold execD2dCredit
  repeat' with_reducible first | assumption | intro _ | apply KeepsOutcome.next | dsimp only | split | apply State.creditArrives_keeps

theorem execD2dFlitReceive_keeps {s0 s : State} (d : Nat) (e : Nat) (m : Nat) (bytes : List Byte) (hs : Keeps s0 s) :
    KeepsOutcome s0 (execD2dFlitReceive d e m bytes s) := by
  unfold execD2dFlitReceive
  repeat' with_reducible first
    | assumption | intro _ | apply KeepsOutcome.next | apply KeepsOutcome.ite | apply Keeps.ite | dsimp only | split
    | apply State.lateFlit_keeps | apply State.sendNak_keeps | apply State.setModule_keeps | apply State.acceptFlit_keeps

theorem execD2dGoodbye_keeps {s0 s : State} (d : Nat) (e : Nat) (_cause : Nat) (hs : Keeps s0 s) :
    KeepsOutcome s0 (execD2dGoodbye d e _cause s) := by
  unfold execD2dGoodbye
  repeat' with_reducible first | assumption | intro _ | apply KeepsOutcome.next | dsimp only | split | apply State.goodbyeArrives_keeps

theorem execD2dNak_keeps {s0 s : State} (d : Nat) (e : Nat) (m : Nat) (seq : Nat) (hs : Keeps s0 s) :
    KeepsOutcome s0 (execD2dNak d e m seq s) := by
  unfold execD2dNak
  repeat' with_reducible first | assumption | intro _ | apply KeepsOutcome.next | dsimp only | split | apply State.nakArrives_keeps

theorem execD2dPacketSend_keeps {s0 s : State} (d : Nat) (dst : Nat) (cls : PacketClass) (lane : Nat) (srcStop : Nat) (hdr : List Byte) (data : List Byte) (side : Sideband) (hs : Keeps s0 s) :
    KeepsOutcome s0 (execD2dPacketSend d dst cls lane srcStop hdr data side s) := by
  unfold execD2dPacketSend
  repeat' with_reducible first
    | assumption | intro _ | apply KeepsOutcome.next | apply KeepsOutcome.ite | dsimp only | split | apply State.sendLink_keeps

theorem execD2dRepairComplete_keeps {s0 s : State} (d : Nat) (e : Nat) (m : Nat) (trained : Bool) (hs : Keeps s0 s) :
    KeepsOutcome s0 (execD2dRepairComplete d e m trained s) := by
  unfold execD2dRepairComplete
  repeat' with_reducible first
    | assumption | intro _ | apply KeepsOutcome.next | apply KeepsOutcome.ite | dsimp only | split | apply State.retire_keeps
    | apply State.putBoth_keeps | apply State.fadd_keeps | apply State.setModule_keeps | apply State.moduleEvent_keeps
    | apply State.pumpModule_keeps | apply State.resend_keeps

theorem execD2dReplayTimeout_keeps {s0 s : State} (d : Nat) (e : Nat) (m : Nat) (hs : Keeps s0 s) :
    KeepsOutcome s0 (execD2dReplayTimeout d e m s) := by
  unfold execD2dReplayTimeout
  repeat' with_reducible first
    | assumption | intro _ | apply KeepsOutcome.next | apply Keeps.ite | dsimp only | split | apply State.resendCounted_keeps

theorem execD2dRoute_keeps {s0 s : State} (d : Nat) (e : Nat) (_m : Nat) (key : Nat) (newModule : Nat) (hs : Keeps s0 s) :
    KeepsOutcome s0 (execD2dRoute d e _m key newModule s) := by
  unfold execD2dRoute
  repeat' with_reducible first | assumption | intro _ | apply KeepsOutcome.next | dsimp only | split | apply State.routeArrives_keeps

theorem execD2dStatClear_keeps {s0 s : State} (d : Nat) (w : RegWrite) (hs : Keeps s0 s) :
    KeepsOutcome s0 (execD2dStatClear d w s) := by
  unfold execD2dStatClear
  repeat' with_reducible first
    | assumption | intro _ | apply KeepsOutcome.next | dsimp only | split | apply State.guarded_keeps | apply State.clearStat_keeps

theorem execD2dWatchdog_keeps {s0 s : State} (d : Nat) (e : Nat) (m : Nat) (whole : Bool) (hs : Keeps s0 s) :
    KeepsOutcome s0 (execD2dWatchdog d e m whole s) := by
  unfold execD2dWatchdog
  repeat' with_reducible first
    | assumption | intro _ | apply KeepsOutcome.next | apply KeepsOutcome.ite | apply Keeps.ite | dsimp only | split
    | apply State.retire_keeps | apply State.fput_keeps

theorem execDeputyTakeover_keeps {s0 s : State} (stack : Nat) (hs : Keeps s0 s) :
    KeepsOutcome s0 (execDeputyTakeover stack s) := by
  unfold execDeputyTakeover
  repeat' with_reducible first
    | assumption | exact id | intro _ | apply KeepsOutcome.next | apply Keeps.ite | dsimp only | split
    | refine Keeps.mk' ?_ rfl rfl (fun _ => id) rfl rfl ?_ ?_ ?_ ?_ ?_

theorem execDieLostDeclaration_keeps {s0 s : State} (die : Nat) (hs : Keeps s0 s) :
    KeepsOutcome s0 (execDieLostDeclaration die s) := by
  unfold execDieLostDeclaration
  repeat' with_reducible first
    | assumption | intro _ | apply KeepsOutcome.next | apply KeepsOutcome.ite | dsimp only | split | apply State.dieDown_keeps
    | apply State.peersSee_keeps

theorem execHeartbeat_keeps {s0 s : State} (d : Nat) (node : Nat) (missed : Bool) (hs : Keeps s0 s) :
    KeepsOutcome s0 (execHeartbeat d node missed s) := by
  unfold execHeartbeat
  repeat' with_reducible first
    | assumption | exact id | intro _ | apply KeepsOutcome.next | apply KeepsOutcome.ite | dsimp only | split | apply State.dieOut_keeps
    | apply State.fput_keeps | refine Keeps.mk' ?_ rfl rfl (fun _ => id) rfl rfl ?_ ?_ ?_ ?_ ?_

theorem execLaneErrorWindow_keeps {s0 s : State} (d : Nat) (e : Nat) (m : Nat) (hs : Keeps s0 s) :
    KeepsOutcome s0 (execLaneErrorWindow d e m s) := by
  unfold execLaneErrorWindow
  repeat' with_reducible first | assumption | intro _ | apply KeepsOutcome.next | dsimp only | split | apply State.setModule_keeps

theorem State.loseMain_keeps {s0 s : State} (hs : Keeps s0 s) :
    Keeps s0 (State.loseMain s) := by
  unfold State.loseMain
  repeat' with_reducible first
    | assumption | exact id | exact fun _ => memWf_nil | intro _ | dsimp only | split
    | refine Keeps.mk' ?_ rfl rfl (fun _ => id) rfl rfl ?_ ?_ ?_ ?_ ?_

theorem State.packageReset_keeps {s0 s : State} (hs : Keeps s0 s) :
    Keeps s0 (State.packageReset s) := by
  unfold State.packageReset
  repeat' with_reducible first
    | assumption | exact id | exact fun _ => memWf_init | exact fun _ => memWf_memWrite _ _ _ memWf_init | intro _ | dsimp only | split
    | apply State.drawBytes_keeps | apply State.loseMain_keeps | refine Keeps.mk' ?_ rfl rfl (fun _ => id) rfl rfl ?_ ?_ ?_ ?_ ?_

theorem State.coldStart_keeps {s0 s : State} (hs : Keeps s0 s) :
    Keeps s0 (State.coldStart s) := by
  unfold State.coldStart
  repeat' with_reducible first
    | assumption | exact id | intro _ | dsimp only | split | apply State.packageReset_keeps
    | refine Keeps.mk' ?_ rfl rfl (fun _ => id) rfl rfl ?_ ?_ ?_ ?_ ?_

theorem State.fenceWaits_keeps {s0 s : State} (d : Nat) (hs : Keeps s0 s) :
    Keeps s0 (State.fenceWaits s d) := by
  unfold State.fenceWaits
  repeat' with_reducible first
    | assumption | exact id | intro _ | apply Keeps.foldl | dsimp only | split | apply State.leavePort_keeps
    | apply State.unreachable_keeps | refine Keeps.mk' ?_ rfl rfl (fun _ => id) rfl rfl ?_ ?_ ?_ ?_ ?_

theorem State.sendGoodbye_keeps {s0 s : State} (cause : Nat) (d : Nat) (hs : Keeps s0 s) :
    Keeps s0 (State.sendGoodbye s cause d) := by
  unfold State.sendGoodbye
  repeat' with_reducible first
    | assumption | intro _ | apply Keeps.ite | apply Keeps.foldl | dsimp only | split | apply State.linkControlSend_keeps
    | apply State.sendControl_keeps | apply State.fenceWaits_keeps

theorem State.goodbyeAll_keeps {s0 s : State} (cause : Nat) (hs : Keeps s0 s) :
    Keeps s0 (State.goodbyeAll s cause) := by
  unfold State.goodbyeAll
  repeat' with_reducible first | assumption | intro _ | apply Keeps.foldl | dsimp only | split | apply State.sendGoodbye_keeps

theorem State.shutdownRecord_keeps {s0 s : State} (cause : Nat) (basis : Nat) (sa : Nat) (ta : Nat) (sb : Nat) (tb : Nat) (hs : Keeps s0 s) :
    Keeps s0 (State.shutdownRecord s cause basis sa ta sb tb).2 := by
  unfold State.shutdownRecord
  repeat' with_reducible first | assumption | intro _ | dsimp only | split | apply State.draw_keeps

theorem State.shutdownEvent_keeps {s0 s : State} (hs : Keeps s0 s) :
    Keeps s0 (State.shutdownEvent s) := by
  unfold State.shutdownEvent
  repeat' with_reducible first | assumption | intro _ | dsimp only | split | apply State.raiseOffice_keeps

theorem State.latchShutdown_keeps {s0 s : State} (cause : Nat) (basis : Nat) (sa : Nat) (ta : Nat) (sb : Nat) (tb : Nat) (hs : Keeps s0 s) :
    Keeps s0 (State.latchShutdown s cause basis sa ta sb tb) := by
  unfold State.latchShutdown
  repeat' with_reducible first
    | assumption | exact id | intro _ | apply Keeps.ite | dsimp only | split | apply State.shutdownRecord_keeps | apply State.emit_keeps
    | apply State.loseMain_keeps | apply State.shutdownEvent_keeps | refine Keeps.mk' ?_ rfl rfl (fun _ => id) rfl rfl ?_ ?_ ?_ ?_ ?_

theorem State.blow_keeps {s0 s : State} (i : Nat) (hs : Keeps s0 s) : Keeps s0 (s.blow i) := by
  unfold State.blow
  refine Keeps.mk' hs rfl rfl (fun j h => ?_) rfl rfl id id id id id
  rw [BitVec.getLsbD_or, h, Bool.true_or]

theorem State.advanceFuses_keeps {s0 s : State} (hs : Keeps s0 s) :
    Keeps s0 (State.advanceFuses s) := by
  unfold State.advanceFuses
  repeat' with_reducible first | assumption | intro _ | apply Keeps.foldl | dsimp only | split | apply State.blow_keeps

theorem State.preFence_keeps {s0 s : State} (c : Nat) (cause : Nat) (hs : Keeps s0 s) :
    Keeps s0 (State.preFence s c cause) := by
  unfold State.preFence
  repeat' with_reducible first | assumption | intro _ | apply Keeps.ite | dsimp only | split | apply State.fput_keeps

theorem State.applyDefect_keeps {s0 s : State} (d : Defect) (hs : Keeps s0 s) :
    Keeps s0 (State.applyDefect s d) := by
  unfold State.applyDefect
  repeat' with_reducible first
    | assumption | exact id | intro _ | apply Keeps.foldl | dsimp only | split | apply State.preFence_keeps | apply State.fput_keeps
    | apply State.setDomain_keeps | apply State.peersSee_keeps | refine Keeps.mk' ?_ rfl rfl (fun _ => id) rfl rfl ?_ ?_ ?_ ?_ ?_

theorem State.beginAction_keeps {s0 s : State} (d : Nat) (act : Nat) (hs : Keeps s0 s) :
    Keeps s0 (State.beginAction s d act) := by
  unfold State.beginAction
  repeat' with_reducible first
    | assumption | exact id | intro _ | apply Keeps.ite | dsimp only | split | apply State.setDomain_keeps | apply State.peersSee_keeps
    | apply State.sendGoodbye_keeps | refine Keeps.mk' ?_ rfl rfl (fun _ => id) rfl rfl ?_ ?_ ?_ ?_ ?_

theorem State.refuseStep_keeps {s0 s : State} (hs : Keeps s0 s) :
    Keeps s0 (State.refuseStep s) := by
  unfold State.refuseStep
  repeat' with_reducible first | assumption | intro _ | dsimp only | split | apply State.fput_keeps

theorem State.beginStep_keeps {s0 s : State} (step : Nat) (work : State → State) (hs : Keeps s0 s) (hwork : ∀ t, Keeps s0 t → Keeps s0 (work t)) :
    Keeps s0 (State.beginStep s step work) := by
  unfold State.beginStep
  repeat' with_reducible first
    | assumption | exact id | intro _ | apply Keeps.ite | dsimp only | split | apply State.fput_keeps | apply State.refuseStep_keeps
    | apply hwork | refine Keeps.mk' ?_ rfl rfl (fun _ => id) rfl rfl ?_ ?_ ?_ ?_ ?_

theorem State.releaseImage_keeps {s0 s : State} (hs : Keeps s0 s) :
    Keeps s0 (State.releaseImage s) := by
  unfold State.releaseImage
  repeat' with_reducible first
    | assumption | exact id | intro _ | dsimp only | split | refine Keeps.mk' ?_ rfl rfl (fun _ => id) rfl rfl ?_ ?_ ?_ ?_ ?_

theorem State.endAction_keeps {s0 s : State} (d : Nat) (v : Nat) (hs : Keeps s0 s) :
    Keeps s0 (State.endAction s d v) := by
  unfold State.endAction
  repeat' with_reducible first
    | assumption | exact id | intro _ | dsimp only | split | apply State.setDomain_keeps
    | refine Keeps.mk' ?_ rfl rfl (fun _ => id) rfl rfl ?_ ?_ ?_ ?_ ?_

theorem State.reImage_keeps {s0 s : State} (host : Bool) (hs : Keeps s0 s) :
    Keeps s0 (State.reImage s host) := by
  unfold State.reImage
  repeat' with_reducible first
    | assumption | exact id | intro _ | dsimp only | split | apply State.releaseImage_keeps | apply State.beginAction_keeps
    | apply State.endAction_keeps | apply State.fput_keeps | refine Keeps.mk' ?_ rfl rfl (fun _ => id) rfl rfl ?_ ?_ ?_ ?_ ?_

theorem State.verifyImage_keeps {s0 s : State} (host : Bool) (hs : Keeps s0 s) :
    Keeps s0 (State.verifyImage s host) := by
  unfold State.verifyImage
  repeat' with_reducible first
    | assumption | exact id | intro _ | apply Keeps.ite | dsimp only | split | apply State.fput_keeps | apply State.releaseImage_keeps
    | refine Keeps.mk' ?_ rfl rfl (fun _ => id) rfl rfl ?_ ?_ ?_ ?_ ?_

theorem State.stepImage_keeps {s0 s : State} (hs : Keeps s0 s) :
    Keeps s0 (State.stepImage s) := by
  unfold State.stepImage
  repeat' with_reducible first
    | assumption | intro _ | apply Keeps.ite | dsimp only | split | apply State.reImage_keeps | apply State.beginStep_keeps
    | apply State.verifyImage_keeps | apply State.fput_keeps

theorem State.trainMemories_keeps {s0 s : State} (d : Nat) (hs : Keeps s0 s) :
    Keeps s0 (State.trainMemories s d) := by
  unfold State.trainMemories
  repeat' with_reducible first | assumption | intro _ | apply Keeps.foldl | dsimp only | split | apply State.fput_keeps

theorem State.trainEdge_keeps {s0 s : State} (d : Nat) (e : Nat) (p : Nat) (g : Nat) (hs : Keeps s0 s) :
    Keeps s0 (State.trainEdge s d e p g) := by
  unfold State.trainEdge
  repeat' with_reducible first
    | assumption | exact id | intro _ | apply Keeps.foldl | dsimp only | split | apply State.resetIslands_keeps | apply State.put_keeps
    | apply State.edgeBoth_keeps | apply State.countModules_keeps | refine Keeps.mk' ?_ rfl rfl (fun _ => id) rfl rfl ?_ ?_ ?_ ?_ ?_

theorem State.trainEdges_keeps {s0 s : State} (d : Nat) (hs : Keeps s0 s) :
    Keeps s0 (State.trainEdges s d) := by
  unfold State.trainEdges
  repeat' with_reducible first
    | assumption | intro _ | apply Keeps.ite | apply Keeps.foldl | dsimp only | split | apply State.trainEdge_keeps
    | apply State.markLane_keeps

theorem State.trainDie_keeps {s0 s : State} (d : Nat) (hs : Keeps s0 s) :
    Keeps s0 (State.trainDie s d) := by
  unfold State.trainDie
  repeat' with_reducible first
    | assumption | intro _ | apply Keeps.ite | dsimp only | split | apply State.trainMemories_keeps | apply State.trainEdges_keeps

theorem State.stepLeads_keeps {s0 s : State} (next : Nat) (lost : List Defect) (hs : Keeps s0 s) :
    Keeps s0 (State.stepLeads s next lost) := by
  unfold State.stepLeads
  repeat' with_reducible first
    | assumption | exact id | intro _ | apply Keeps.ite | dsimp only | split
    | refine Keeps.mk' ?_ rfl rfl (fun _ => id) rfl rfl ?_ ?_ ?_ ?_ ?_

theorem State.trainFindings_keeps {s0 s : State} (ds : List Defect) (hs : Keeps s0 s) :
    Keeps s0 (State.trainFindings s ds) := by
  unfold State.trainFindings
  repeat' with_reducible first
    | assumption | intro _ | apply Keeps.foldl | dsimp only | split | apply State.applyDefect_keeps | apply State.markLane_keeps

theorem State.selfTests_keeps {s0 s : State} (fs : List Finding) (hs : Keeps s0 s) :
    Keeps s0 (State.selfTests s fs) := by
  unfold State.selfTests
  repeat' with_reducible first | assumption | intro _ | apply Keeps.foldl | dsimp only | split | apply State.failSelfTest_keeps

theorem State.trainAll_keeps {s0 s : State} (findings : List Finding) (hs : Keeps s0 s) :
    Keeps s0 (State.trainAll s findings) := by
  unfold State.trainAll
  repeat' with_reducible first
    | assumption | exact id | intro _ | apply Keeps.foldl | dsimp only | split | apply State.trainDie_keeps | apply State.stepLeads_keeps
    | apply State.trainFindings_keeps | apply State.selfTests_keeps | refine Keeps.mk' ?_ rfl rfl (fun _ => id) rfl rfl ?_ ?_ ?_ ?_ ?_

theorem State.mergeOne_keeps {s0 s : State} (d : Defect) (hs : Keeps s0 s) :
    Keeps s0 (State.mergeOne s d) := by
  unfold State.mergeOne
  repeat' with_reducible first
    | assumption | intro _ | apply Keeps.ite | dsimp only | split | apply State.applyDefect_keeps | apply State.addDefect_keeps

theorem State.merge_keeps {s0 s : State} (rec : List Defect) (found : List Defect) (hs : Keeps s0 s) :
    Keeps s0 (State.merge s rec found) := by
  unfold State.merge
  repeat' with_reducible first
    | assumption | intro _ | apply Keeps.foldl | dsimp only | split | apply State.mergeOne_keeps | apply State.fput_keeps

theorem State.rollAll_keeps {s0 s : State} (findings : List Finding) (hs : Keeps s0 s) :
    Keeps s0 (State.rollAll s findings) := by
  unfold State.rollAll
  repeat' with_reducible first
    | assumption | intro _ | dsimp only | split | apply State.merge_keeps | apply State.fput_keeps | apply State.stepLeads_keeps

theorem State.signedRecord_keeps {s0 s : State} (hs : Keeps s0 s) :
    Keeps s0 (State.signedRecord s).2 := by
  unfold State.signedRecord
  repeat' with_reducible first | assumption | intro _ | dsimp only | split | apply State.sign_keeps

theorem State.exportRecord_keeps {s0 s : State} (hs : Keeps s0 s) :
    Keeps s0 (State.exportRecord s).2 := by
  unfold State.exportRecord
  repeat' with_reducible first
    | assumption | intro _ | dsimp only | split | apply State.signedRecord_keeps | apply State.fput_keeps | apply State.hostWrite_keeps

theorem State.bootCtlWrite_keeps {s0 s : State} (w : RegWrite) (findings : List Finding) (hs : Keeps s0 s) :
    Keeps s0 (State.bootCtlWrite s w findings) := by
  unfold State.bootCtlWrite
  repeat' with_reducible first
    | assumption | intro _ | apply Keeps.ite | apply Keeps.of_id | dsimp only | split | apply State.stepImage_keeps
    | apply State.beginStep_keeps | apply State.trainAll_keeps | apply State.rollAll_keeps | apply State.refuseStep_keeps
    | apply State.exportRecord_keeps | apply State.coldStart_keeps | apply State.goodbyeAll_keeps

theorem State.domainAction_keeps {s0 s : State} (d : Nat) (act : Nat) (hs : Keeps s0 s) :
    Keeps s0 (State.domainAction s d act) := by
  unfold State.domainAction
  repeat' with_reducible first
    | assumption | exact id | intro _ | apply Keeps.ite | dsimp only | split | apply State.setDomain_keeps | apply State.beginAction_keeps
    | refine Keeps.mk' ?_ rfl rfl (fun _ => id) rfl rfl ?_ ?_ ?_ ?_ ?_

theorem State.bootDomainWrite_keeps {s0 s : State} (w : RegWrite) (hs : Keeps s0 s) :
    Keeps s0 (State.bootDomainWrite s w) := by
  unfold State.bootDomainWrite
  repeat' with_reducible first
    | assumption | intro _ | apply Keeps.ite | dsimp only | split | apply State.fadd_keeps | apply State.domainAction_keeps
    | apply State.put_keeps

theorem State.resetRegs_keeps {s0 s : State} (d : Nat) (hs : Keeps s0 s) :
    Keeps s0 (State.resetRegs s d) := by
  unfold State.resetRegs
  repeat' with_reducible first
    | assumption | exact id | intro _ | dsimp only | split | refine Keeps.mk' ?_ rfl rfl (fun _ => id) rfl rfl ?_ ?_ ?_ ?_ ?_

theorem State.resetStack_keeps {s0 s : State} (d : Nat) (hs : Keeps s0 s) :
    Keeps s0 (State.resetStack s d) := by
  unfold State.resetStack
  repeat' with_reducible first
    | assumption | exact id | exact memWf_smClear _ _ | intro _ | apply Keeps.ite | apply Keeps.foldl | dsimp only | split
    | apply State.resetRegs_keeps | apply State.fput_keeps | apply State.loseTransport_keeps
    | refine Keeps.mk' ?_ rfl rfl (fun _ => id) rfl rfl ?_ ?_ ?_ ?_ ?_

theorem State.resetIo_keeps {s0 s : State} (d : Nat) (hs : Keeps s0 s) :
    Keeps s0 (State.resetIo s d) := by
  unfold State.resetIo
  repeat' with_reducible first
    | assumption | exact id | intro _ | apply Keeps.ite | dsimp only | split | apply State.resetRegs_keeps
    | apply State.loseTransport_keeps | apply State.fput_keeps | refine Keeps.mk' ?_ rfl rfl (fun _ => id) rfl rfl ?_ ?_ ?_ ?_ ?_

theorem State.returnCores_keeps {s0 s : State} (d : Nat) (hs : Keeps s0 s) :
    Keeps s0 (State.returnCores s d) := by
  unfold State.returnCores
  repeat' with_reducible first
    | assumption | intro _ | apply Keeps.ite | apply Keeps.foldl | dsimp only | split | apply State.applyDefect_keeps
    | apply State.regrade_keeps | apply State.enterService_keeps

theorem State.bringUp_keeps {s0 s : State} (d : Nat) (findings : List Finding) (hs : Keeps s0 s) :
    Keeps s0 (State.bringUp s d findings) := by
  unfold State.bringUp
  repeat' with_reducible first
    | assumption | exact id | intro _ | apply Keeps.ite | apply Keeps.foldl | dsimp only | split | apply State.trainDie_keeps
    | apply State.resetStack_keeps | apply State.resetIo_keeps | apply State.fadd_keeps | apply State.trainFindings_keeps
    | apply State.mergeOne_keeps | apply State.selfTests_keeps | apply State.endAction_keeps | apply State.returnCores_keeps
    | refine Keeps.mk' ?_ rfl rfl (fun _ => id) rfl rfl ?_ ?_ ?_ ?_ ?_

theorem State.enableQueued_keeps {s0 s : State} (hs : Keeps s0 s) :
    Keeps s0 (State.enableQueued s) := by
  unfold State.enableQueued
  repeat' with_reducible first | assumption | intro _ | apply Keeps.foldl | dsimp only | split | apply State.enableRing_keeps

theorem State.showGrade_keeps {s0 s : State} (hs : Keeps s0 s) :
    Keeps s0 (State.showGrade s) := by
  unfold State.showGrade
  repeat' with_reducible first | assumption | intro _ | dsimp only | split | apply State.fput_keeps

theorem State.endReady_keeps {s0 s : State} (hs : Keeps s0 s) :
    Keeps s0 (State.endReady s) := by
  unfold State.endReady
  repeat' with_reducible first
    | assumption | exact id | intro _ | apply Keeps.foldl | dsimp only | split | apply State.exportRecord_keeps
    | apply State.showGrade_keeps | apply State.advanceFuses_keeps | apply State.fput_keeps | apply State.enterService_keeps
    | apply State.enableQueued_keeps | refine Keeps.mk' ?_ rfl rfl (fun _ => id) rfl rfl ?_ ?_ ?_ ?_ ?_

theorem State.storeImage_keeps {s0 s : State} (host : Bool) (off : Nat) (bytes : List Byte) (hs : Keeps s0 s) :
    Keeps s0 (State.storeImage s host off bytes) := by
  unfold State.storeImage
  repeat' with_reducible first
    | assumption | exact id | exact memWf_memWrite _ _ _ | exact fun _ => memWf_init | exact fun _ => memWf_memWrite _ _ _ memWf_init
    | intro _ | dsimp only | split | refine Keeps.mk' ?_ rfl rfl (fun _ => id) rfl rfl ?_ ?_ ?_ ?_ ?_

theorem execBootImage_keeps {s0 s : State} (w : RegWrite) (hs : Keeps s0 s) :
    KeepsOutcome s0 (execBootImage w s) := by
  unfold execBootImage
  repeat' with_reducible first
    | assumption | intro _ | apply KeepsOutcome.next | dsimp only | split | apply State.guarded_keeps | apply State.bootCtlWrite_keeps

theorem execBootReady_keeps {s0 s : State} (w : RegWrite) (hs : Keeps s0 s) :
    KeepsOutcome s0 (execBootReady w s) := by
  unfold execBootReady
  repeat' with_reducible first
    | assumption | intro _ | apply KeepsOutcome.next | dsimp only | split | apply State.guarded_keeps | apply State.bootCtlWrite_keeps

theorem execBootStepComplete_keeps {s0 s : State} (hs : Keeps s0 s) :
    KeepsOutcome s0 (execBootStepComplete s) := by
  unfold execBootStepComplete
  repeat' with_reducible first
    | assumption | exact id | intro _ | apply KeepsOutcome.next | apply KeepsOutcome.ite | apply Keeps.ite | dsimp only | split
    | apply State.fput_keeps | apply State.endReady_keeps | refine Keeps.mk' ?_ rfl rfl (fun _ => id) rfl rfl ?_ ?_ ?_ ?_ ?_

theorem execBootTrain_keeps {s0 s : State} (w : RegWrite) (findings : List Finding) (hs : Keeps s0 s) :
    KeepsOutcome s0 (execBootTrain w findings s) := by
  unfold execBootTrain
  repeat' with_reducible first
    | assumption | intro _ | apply KeepsOutcome.next | dsimp only | split | apply State.guarded_keeps | apply State.bootCtlWrite_keeps

theorem execColdRestart_keeps {s0 s : State} (w : RegWrite) (hs : Keeps s0 s) :
    KeepsOutcome s0 (execColdRestart w s) := by
  unfold execColdRestart
  repeat' with_reducible first
    | assumption | intro _ | apply KeepsOutcome.next | dsimp only | split | apply State.guarded_keeps | apply State.bootCtlWrite_keeps

theorem execDomainActionComplete_keeps {s0 s : State} (d : Nat) (findings : List Finding) (hs : Keeps s0 s) :
    KeepsOutcome s0 (execDomainActionComplete d findings s) := by
  unfold execDomainActionComplete
  repeat' with_reducible first
    | assumption | exact id | intro _ | apply KeepsOutcome.next | apply KeepsOutcome.ite | apply Keeps.ite | dsimp only | split
    | apply State.dieDown_keeps | apply State.bringUp_keeps | apply State.beginAction_keeps
    | refine Keeps.mk' ?_ rfl rfl (fun _ => id) rfl rfl ?_ ?_ ?_ ?_ ?_

theorem execDomainDown_keeps {s0 s : State} (w : RegWrite) (hs : Keeps s0 s) :
    KeepsOutcome s0 (execDomainDown w s) := by
  unfold execDomainDown
  repeat' with_reducible first
    | assumption | intro _ | apply KeepsOutcome.next | dsimp only | split | apply State.guarded_keeps | apply State.bootDomainWrite_keeps

theorem execDomainUp_keeps {s0 s : State} (w : RegWrite) (hs : Keeps s0 s) :
    KeepsOutcome s0 (execDomainUp w s) := by
  unfold execDomainUp
  repeat' with_reducible first
    | assumption | intro _ | apply KeepsOutcome.next | dsimp only | split | apply State.guarded_keeps | apply State.bootDomainWrite_keeps

theorem execExportRecord_keeps {s0 s : State} (w : RegWrite) (hs : Keeps s0 s) :
    KeepsOutcome s0 (execExportRecord w s) := by
  unfold execExportRecord
  repeat' with_reducible first
    | assumption | intro _ | apply KeepsOutcome.next | dsimp only | split | apply State.guarded_keeps | apply State.bootCtlWrite_keeps

theorem execImageBufferTimeout_keeps {s0 s : State} (hs : Keeps s0 s) :
    KeepsOutcome s0 (execImageBufferTimeout s) := by
  unfold execImageBufferTimeout
  repeat' with_reducible first | assumption | intro _ | apply KeepsOutcome.next | dsimp only | split | apply State.releaseImage_keeps

theorem execImageTransferCancel_keeps {s0 s : State} (host : Bool) (hs : Keeps s0 s) :
    KeepsOutcome s0 (execImageTransferCancel host s) := by
  unfold execImageTransferCancel
  repeat' with_reducible first
    | assumption | intro _ | apply KeepsOutcome.next | apply Keeps.ite | dsimp only | split | apply State.releaseImage_keeps

theorem execImageWindowWrite_keeps {s0 s : State} (off : Nat) (bytes : List Byte) (hs : Keeps s0 s) :
    KeepsOutcome s0 (execImageWindowWrite off bytes s) := by
  unfold execImageWindowWrite
  repeat' with_reducible first
    | assumption | intro _ | apply KeepsOutcome.next | apply KeepsOutcome.ite | dsimp only | split | apply State.fadd_keeps
    | apply State.storeImage_keeps

theorem execRollCall_keeps {s0 s : State} (w : RegWrite) (findings : List Finding) (hs : Keeps s0 s) :
    KeepsOutcome s0 (execRollCall w findings s) := by
  unfold execRollCall
  repeat' with_reducible first
    | assumption | intro _ | apply KeepsOutcome.next | dsimp only | split | apply State.guarded_keeps | apply State.bootCtlWrite_keeps

theorem State.flipSelWrite_keeps {s0 s : State} (w : RegWrite) (hs : Keeps s0 s) :
    Keeps s0 (State.flipSelWrite s w) := by
  unfold State.flipSelWrite
  repeat' with_reducible first
    | assumption | intro _ | apply Keeps.ite | dsimp only | split | apply State.fput_keeps | apply State.put_keeps

theorem State.setMirrorByte_keeps {s0 s : State} (n : Nat) (b : Nat) (hs : Keeps s0 s) :
    Keeps s0 (State.setMirrorByte s n b) := by
  unfold State.setMirrorByte
  repeat' with_reducible first | assumption | intro _ | dsimp only | split | apply State.fput_keeps

theorem State.mirrorEntry_keeps {s0 s : State} (n : Nat) (b : Nat) (hs : Keeps s0 s) :
    Keeps s0 (State.mirrorEntry s n b) := by
  unfold State.mirrorEntry
  repeat' with_reducible first
    | assumption | exact id | intro _ | apply Keeps.ite | dsimp only | split | apply State.setMirrorByte_keeps | apply State.fput_keeps
    | refine Keeps.mk' ?_ rfl rfl (fun _ => id) rfl rfl ?_ ?_ ?_ ?_ ?_

theorem State.mirrorWrite_keeps {s0 s : State} (i : Nat) (w : RegWrite) (hs : Keeps s0 s) :
    Keeps s0 (State.mirrorWrite s i w) := by
  unfold State.mirrorWrite
  repeat' with_reducible first | assumption | intro _ | apply Keeps.foldl | dsimp only | split | apply State.mirrorEntry_keeps

theorem execFlipArm_keeps {s0 s : State} (w : RegWrite) (hs : Keeps s0 s) :
    KeepsOutcome s0 (execFlipArm w s) := by
  unfold execFlipArm
  repeat' with_reducible first
    | assumption | intro _ | apply KeepsOutcome.next | dsimp only | split | apply State.guarded_keeps | apply State.flipSelWrite_keeps

theorem execMirrorClearComplete_keeps {s0 s : State} (hs : Keeps s0 s) :
    KeepsOutcome s0 (execMirrorClearComplete s) := by
  unfold execMirrorClearComplete
  repeat' with_reducible first
    | assumption | exact id | intro _ | apply KeepsOutcome.next | apply Keeps.foldl | dsimp only | split | apply State.rouse_keeps
    | apply State.releaseHeld_keeps | apply State.fput_keeps | apply State.clearRows_keeps
    | refine Keeps.mk' ?_ rfl rfl (fun _ => id) rfl rfl ?_ ?_ ?_ ?_ ?_

theorem execMirrorWrite_keeps {s0 s : State} (i : Nat) (w : RegWrite) (hs : Keeps s0 s) :
    KeepsOutcome s0 (execMirrorWrite i w s) := by
  unfold execMirrorWrite
  repeat' with_reducible first
    | assumption | intro _ | apply KeepsOutcome.next | dsimp only | split | apply State.guarded_keeps | apply State.mirrorWrite_keeps

theorem State.domainWrite_keeps {s0 s : State} (i : Nat) (w : RegWrite) (hs : Keeps s0 s) :
    Keeps s0 (State.domainWrite s i w) := by
  unfold State.domainWrite
  repeat' with_reducible first | assumption | intro _ | apply Keeps.ite | dsimp only | split | apply State.put_keeps

theorem State.thermalEvent_keeps {s0 s : State} (hs : Keeps s0 s) :
    Keeps s0 (State.thermalEvent s) := by
  unfold State.thermalEvent
  repeat' with_reducible first | assumption | intro _ | apply Keeps.ite | dsimp only | split | apply State.raise_keeps

theorem State.judge_keeps {s0 s : State} (k : Nat) (hs : Keeps s0 s) :
    Keeps s0 (State.judge s k) := by
  unfold State.judge
  repeat' with_reducible first
    | assumption | exact id | intro _ | apply Keeps.ite | dsimp only | split | apply State.thermalEvent_keeps | apply State.fadd_keeps
    | apply State.fput_keeps | refine Keeps.mk' ?_ rfl rfl (fun _ => id) rfl rfl ?_ ?_ ?_ ?_ ?_

theorem State.layerFallback_keeps {s0 s : State} (c : Nat) (l : Nat) (own : Option Int) (hs : Keeps s0 s) :
    Keeps s0 (State.layerFallback s c l own) := by
  unfold State.layerFallback
  repeat' with_reducible first
    | assumption | exact id | intro _ | apply Keeps.ite | dsimp only | split | apply State.fput_keeps
    | refine Keeps.mk' ?_ rfl rfl (fun _ => id) rfl rfl ?_ ?_ ?_ ?_ ?_

theorem State.powerEvent_keeps {s0 s : State} (hs : Keeps s0 s) :
    Keeps s0 (State.powerEvent s) := by
  unfold State.powerEvent
  repeat' with_reducible first | assumption | intro _ | apply Keeps.ite | dsimp only | split | apply State.raise_keeps

theorem State.limitWrite_keeps {s0 s : State} (w : RegWrite) (hs : Keeps s0 s) :
    Keeps s0 (State.limitWrite s w) := by
  unfold State.limitWrite
  repeat' with_reducible first
    | assumption | intro _ | apply Keeps.ite | dsimp only | split | apply State.put_keeps | apply State.powerEvent_keeps
    | apply State.fput_keeps

theorem State.sampleHot_keeps {s0 s : State} (h : Nat) (hs : Keeps s0 s) :
    Keeps s0 (State.sampleHot s h) := by
  unfold State.sampleHot
  repeat' with_reducible first
    | assumption | exact id | intro _ | apply Keeps.ite | dsimp only | split | apply State.thermalEvent_keeps | apply State.fput_keeps
    | refine Keeps.mk' ?_ rfl rfl (fun _ => id) rfl rfl ?_ ?_ ?_ ?_ ?_

theorem State.sampleLayer_keeps {s0 s : State} (c : Nat) (l : Nat) (read : Bool) (hs : Keeps s0 s) :
    Keeps s0 (State.sampleLayer s c l read) := by
  unfold State.sampleLayer
  repeat' with_reducible first
    | assumption | intro _ | apply Keeps.ite | dsimp only | split | apply State.layerFallback_keeps | apply State.fput_keeps
    | apply State.setNear_keeps | apply State.raise_keeps

theorem State.sampleSensors_keeps {s0 s : State} (readings : List (Nat × Int)) (hs : Keeps s0 s) :
    Keeps s0 (State.sampleSensors s readings) := by
  unfold State.sampleSensors
  repeat' with_reducible first
    | assumption | exact id | intro _ | apply Keeps.ite | apply Keeps.foldl | dsimp only | split | apply State.fput_keeps
    | apply State.judge_keeps | apply State.latchShutdown_keeps | apply State.sampleHot_keeps | apply State.sampleLayer_keeps
    | refine Keeps.mk' ?_ rfl rfl (fun _ => id) rfl rfl ?_ ?_ ?_ ?_ ?_

theorem State.showPower_keeps {s0 s : State} (r : Reg) (meas : Nat) (base : Nat) (allow : Nat) (hs : Keeps s0 s) :
    Keeps s0 (State.showPower s r meas base allow) := by
  unfold State.showPower
  repeat' with_reducible first | assumption | intro _ | dsimp only | split | apply State.fput_keeps

theorem execFarTempReadout_keeps {s0 s : State} (f : Nat) (temp : Int) (hs : Keeps s0 s) :
    KeepsOutcome s0 (execFarTempReadout f temp s) := by
  unfold execFarTempReadout
  repeat' with_reducible first
    | assumption | intro _ | apply KeepsOutcome.next | apply KeepsOutcome.ite | dsimp only | split | apply State.sampleSensors_keeps
    | apply State.fput_keeps

theorem execForecastUpdate_keeps {s0 s : State} (hs : Keeps s0 s) :
    KeepsOutcome s0 (execForecastUpdate s) := by
  unfold execForecastUpdate
  repeat' with_reducible first
    | assumption | exact id | intro _ | apply KeepsOutcome.next | apply KeepsOutcome.ite | apply Keeps.foldl | dsimp only | split
    | apply State.showPower_keeps | apply State.fput_keeps | apply State.onForecast_keeps | apply State.thermalEvent_keeps
    | refine Keeps.mk' ?_ rfl rfl (fun _ => id) rfl rfl ?_ ?_ ?_ ?_ ?_

theorem execPowerSample_keeps {s0 s : State} (pkg : Nat) (perStack : List Nat) (domains : List Nat) (hs : Keeps s0 s) :
    KeepsOutcome s0 (execPowerSample pkg perStack domains s) := by
  unfold execPowerSample
  repeat' with_reducible first
    | assumption | exact id | intro _ | apply KeepsOutcome.next | apply KeepsOutcome.ite | apply Keeps.ite | apply Keeps.foldl
    | dsimp only | split | apply State.fput_keeps | apply State.powerEvent_keeps
    | refine Keeps.mk' ?_ rfl rfl (fun _ => id) rfl rfl ?_ ?_ ?_ ?_ ?_

theorem execPwrLimitWrite_keeps {s0 s : State} (w : RegWrite) (hs : Keeps s0 s) :
    KeepsOutcome s0 (execPwrLimitWrite w s) := by
  unfold execPwrLimitWrite
  repeat' with_reducible first
    | assumption | intro _ | apply KeepsOutcome.next | dsimp only | split | apply State.guarded_keeps | apply State.limitWrite_keeps

theorem execRegulatorFault_keeps {s0 s : State} (domain : Nat) (hs : Keeps s0 s) :
    KeepsOutcome s0 (execRegulatorFault domain s) := by
  unfold execRegulatorFault
  repeat' with_reducible first
    | assumption | intro _ | apply KeepsOutcome.next | apply KeepsOutcome.ite | dsimp only | split | apply State.fput_keeps
    | apply State.beginFence_keeps | apply State.modCore_keeps | apply State.dieOut_keeps

theorem execRegulatorOvervoltage_keeps {s0 s : State} (_domain : Nat) (hs : Keeps s0 s) :
    KeepsOutcome s0 (execRegulatorOvervoltage _domain s) := by
  unfold execRegulatorOvervoltage
  repeat' with_reducible first
    | assumption | intro _ | apply KeepsOutcome.next | dsimp only | split | apply State.draw_keeps | apply State.latchShutdown_keeps

theorem execSensorSample_keeps {s0 s : State} (readings : List (Nat × Int)) (hs : Keeps s0 s) :
    KeepsOutcome s0 (execSensorSample readings s) := by
  unfold execSensorSample
  repeat' with_reducible first | assumption | intro _ | apply KeepsOutcome.next | dsimp only | split | apply State.sampleSensors_keeps

theorem execVsetWrite_keeps {s0 s : State} (domain : Nat) (w : RegWrite) (hs : Keeps s0 s) :
    KeepsOutcome s0 (execVsetWrite domain w s) := by
  unfold execVsetWrite
  repeat' with_reducible first
    | assumption | intro _ | apply KeepsOutcome.next | dsimp only | split | apply State.guarded_keeps | apply State.domainWrite_keeps

theorem State.railShutdown_keeps {s0 s : State} (rail : Nat) (die : Nat) (mv : Nat) (hs : Keeps s0 s) :
    Keeps s0 (State.railShutdown s rail die mv) := by
  unfold State.railShutdown
  repeat' with_reducible first | assumption | intro _ | dsimp only | split | apply State.draw_keeps | apply State.latchShutdown_keeps

theorem execCompletionTimeout_keeps {s0 s : State} (ring : Nat) (seq : Nat) (fetch : Bool) (hs : Keeps s0 s) :
    KeepsOutcome s0 (execCompletionTimeout ring seq fetch s) := by
  unfold execCompletionTimeout
  repeat' with_reducible first
    | assumption | intro _ | apply KeepsOutcome.next | apply KeepsOutcome.ite | apply Keeps.ite | dsimp only | split
    | apply State.ringError_keeps | apply State.finish_keeps

theorem execDramLayerLoss_keeps {s0 s : State} (stack : Nat) (layer : Nat) (hs : Keeps s0 s) :
    KeepsOutcome s0 (execDramLayerLoss stack layer s) := by
  unfold execDramLayerLoss
  repeat' with_reducible first
    | assumption | intro _ | apply KeepsOutcome.next | apply Keeps.ite | apply Keeps.foldl | dsimp only | split
    | apply State.beginFence_keeps

theorem execMainRailFault_keeps {s0 s : State} (rail : Nat) (die : Nat) (mv : Nat) (hs : Keeps s0 s) :
    KeepsOutcome s0 (execMainRailFault rail die mv s) := by
  unfold execMainRailFault
  repeat' with_reducible first
    | assumption | intro _ | apply KeepsOutcome.next | apply Keeps.ite | dsimp only | split | apply State.railShutdown_keeps

theorem execPerstAssert_keeps {s0 s : State} (hs : Keeps s0 s) :
    KeepsOutcome s0 (execPerstAssert s) := by
  unfold execPerstAssert
  repeat' with_reducible first
    | assumption | exact id | intro _ | apply KeepsOutcome.next | apply KeepsOutcome.ite | dsimp only | split
    | apply State.packageReset_keeps | apply State.goodbyeAll_keeps | refine Keeps.mk' ?_ rfl rfl (fun _ => id) rfl rfl ?_ ?_ ?_ ?_ ?_

theorem execPerstDeassert_keeps {s0 s : State} (sris : Bool) (hs : Keeps s0 s) :
    KeepsOutcome s0 (execPerstDeassert sris s) := by
  unfold execPerstDeassert
  repeat' with_reducible first
    | assumption | exact id | intro _ | apply KeepsOutcome.next | apply KeepsOutcome.ite | apply Keeps.ite | dsimp only | split
    | apply State.fput_keeps | apply State.coldStart_keeps | refine Keeps.mk' ?_ rfl rfl (fun _ => id) rfl rfl ?_ ?_ ?_ ?_ ?_

theorem execRefclkLoss_keeps {s0 s : State} (clk : Nat) (hs : Keeps s0 s) :
    KeepsOutcome s0 (execRefclkLoss clk s) := by
  unfold execRefclkLoss
  repeat' with_reducible first
    | assumption | exact id | intro _ | apply KeepsOutcome.next | apply KeepsOutcome.ite | apply Keeps.ite | apply Keeps.foldl
    | dsimp only | split | apply State.dieOut_keeps | apply State.portEvent_keeps | apply State.portDown_keeps
    | refine Keeps.mk' ?_ rfl rfl (fun _ => id) rfl rfl ?_ ?_ ?_ ?_ ?_

theorem execRefreshManagementRequest_keeps {s0 s : State} (f : Nat) (bank : Nat) (hs : Keeps s0 s) :
    KeepsOutcome s0 (execRefreshManagementRequest f bank s) := by
  unfold execRefreshManagementRequest
  repeat' with_reducible first
    | assumption | intro _ | apply KeepsOutcome.next | apply Keeps.ite | dsimp only | split | apply State.setFarPort_keeps

theorem execVauxLoss_keeps {s0 s : State} (hs : Keeps s0 s) :
    KeepsOutcome s0 (execVauxLoss s) := by
  unfold execVauxLoss
  repeat' with_reducible first
    | assumption | exact id | intro _ | apply KeepsOutcome.next | apply KeepsOutcome.ite | dsimp only | split
    | apply State.packageReset_keeps | refine Keeps.mk' ?_ rfl rfl (fun _ => id) rfl rfl ?_ ?_ ?_ ?_ ?_

theorem execVauxPowerOn_keeps {s0 s : State} (straps : Nat) (hs : Keeps s0 s) :
    KeepsOutcome s0 (execVauxPowerOn straps s) := by
  unfold execVauxPowerOn
  repeat' with_reducible first
    | assumption | exact id | intro _ | apply KeepsOutcome.next | apply KeepsOutcome.ite | dsimp only | split | apply State.fput_keeps
    | refine Keeps.mk' ?_ rfl rfl (fun _ => id) rfl rfl ?_ ?_ ?_ ?_ ?_

theorem execVinCoreCycle_keeps {s0 s : State} (hs : Keeps s0 s) :
    KeepsOutcome s0 (execVinCoreCycle s) := by
  unfold execVinCoreCycle
  repeat' with_reducible first
    | assumption | exact id | intro _ | apply KeepsOutcome.next | apply KeepsOutcome.ite | apply Keeps.ite | dsimp only | split
    | apply State.draw_keeps | apply State.railShutdown_keeps | apply State.emit_keeps | apply State.coldStart_keeps
    | refine Keeps.mk' ?_ rfl rfl (fun _ => id) rfl rfl ?_ ?_ ?_ ?_ ?_

theorem State.arbWeightWrite_keeps {s0 s : State} (d : Nat) (sel : Nat) (w : RegWrite) (hs : Keeps s0 s) :
    Keeps s0 (State.arbWeightWrite s d sel w) := by
  unfold State.arbWeightWrite
  repeat' with_reducible first | assumption | intro _ | apply Keeps.ite | dsimp only | split | apply State.put_keeps

theorem State.arbWrite_keeps {s0 s : State} (sel : Nat) (r : Reg) (w : RegWrite) (hs : Keeps s0 s) :
    Keeps s0 (State.arbWrite s sel r w) := by
  unfold State.arbWrite
  repeat' with_reducible first | assumption | intro _ | apply Keeps.ite | dsimp only | split | apply State.put_keeps

theorem State.plainWrite_keeps {s0 s : State} (r : Reg) (w : RegWrite) (hs : Keeps s0 s) :
    Keeps s0 (State.plainWrite s r w) := by
  unfold State.plainWrite
  repeat' with_reducible first | assumption | intro _ | dsimp only | split | apply State.put_keeps

theorem State.thmCtlWrite_keeps {s0 s : State} (w : RegWrite) (hs : Keeps s0 s) :
    Keeps s0 (State.thmCtlWrite s w) := by
  unfold State.thmCtlWrite
  repeat' with_reducible first | assumption | intro _ | dsimp only | split | apply State.put_keeps

theorem State.performWrite_keeps {s0 s : State} (r : Reg) (w : RegWrite) (env : WriteEnv) (hs : Keeps s0 s) :
    Keeps s0 (State.performWrite s r w env) := by
  unfold State.performWrite
  repeat' with_reducible first
    | assumption | intro _ | apply Keeps.ite | dsimp only | split | apply State.fenceCtl_keeps | apply State.arrCtlWrite_keeps
    | apply State.seedWrite_keeps | apply State.layerOffsetWrite_keeps | apply State.sepWrite_keeps | apply State.farModeWrite_keeps
    | apply State.plainWrite_keeps | apply State.scCtlWrite_keeps | apply State.clearStat_keeps | apply State.ldlCtlWrite_keeps
    | apply State.pailCtlWrite_keeps | apply State.pailStatWrite_keeps | apply State.put_keeps | apply State.arbCtlWrite_keeps
    | apply State.arbWeightWrite_keeps | apply State.arbWrite_keeps | apply State.xingCtlWrite_keeps | apply State.d2dCtlWrite_keeps
    | apply State.linkIdWrite_keeps | apply State.linkCtlWrite_keeps | apply State.portCtlWrite_keeps | apply State.ringBaseWrite_keeps
    | apply State.ringCfgWrite_keeps | apply State.ringCtlWrite_keeps | apply State.ringAdmitWrite_keeps | apply State.evqCfgWrite_keeps
    | apply State.limitWrite_keeps | apply State.domainWrite_keeps | apply State.thmCtlWrite_keeps | apply State.hrCtlWrite_keeps
    | apply State.hrCoresWrite_keeps | apply State.hrMapWrite_keeps | apply State.hrWindowWrite_keeps | apply State.mboxCtlWrite_keeps
    | apply State.debugWrite_keeps | apply State.mirrorWrite_keeps | apply State.flipSelWrite_keeps | apply State.bootCtlWrite_keeps
    | apply State.bootDomainWrite_keeps

theorem State.regWriteAt_keeps {s0 s : State} (m : Master) (off : Nat) (size : Nat) (v : Nat) (env : WriteEnv) (hs : Keeps s0 s) :
    Keeps s0 (State.regWriteAt s m off size v env) := by
  unfold State.regWriteAt
  repeat' with_reducible first
    | assumption | intro _ | apply Keeps.ite | dsimp only | split | apply State.guarded_keeps | apply State.performWrite_keeps
    | apply State.fadd_keeps | apply State.storeImage_keeps

theorem State.unclaimed_keeps {s0 s : State} (f : Nat) (hs : Keeps s0 s) :
    Keeps s0 (State.unclaimed s f) := by
  unfold State.unclaimed
  repeat' with_reducible first | assumption | intro _ | apply Keeps.ite | dsimp only | split | apply State.emit_keeps

theorem execRegisterWrite_keeps {s0 s : State} (m : Master) (off : Nat) (size : Nat) (acc : RegAccess) (env : WriteEnv) (hs : Keeps s0 s) :
    KeepsOutcome s0 (execRegisterWrite m off size acc env s) := by
  unfold execRegisterWrite
  repeat' with_reducible first
    | assumption | intro _ | apply KeepsOutcome.next | apply KeepsOutcome.ite | apply Keeps.ite | dsimp only | split
    | apply State.unclaimed_keeps | apply State.regWriteAt_keeps | apply State.emit_keeps

theorem execUnclaimedRequest_keeps {s0 s : State} (f : Nat) (bar : Nat) (off : Nat) (_write : Bool) (hs : Keeps s0 s) :
    KeepsOutcome s0 (execUnclaimedRequest f bar off _write s) := by
  unfold execUnclaimedRequest
  repeat' with_reducible first
    | assumption | intro _ | apply KeepsOutcome.next | apply Keeps.ite | dsimp only | split | apply State.unclaimed_keeps

theorem State.aliasSign_keeps {s0 s : State} (key : Nat) (msg : List Byte) (hs : Keeps s0 s) :
    Keeps s0 (State.aliasSign s key msg).2 := by
  unfold State.aliasSign
  repeat' with_reducible first | assumption | intro _ | dsimp only | split | apply State.drawBytes_keeps | apply State.sign_keeps

theorem State.officeAnswer_keeps {s0 s : State} (secured : Bool) (code : Nat) (tag : Nat) (cc : Nat) (rest : List Byte) (hs : Keeps s0 s) :
    Keeps s0 (State.officeAnswer s secured code tag cc rest) := by
  unfold State.officeAnswer
  repeat' with_reducible first | assumption | intro _ | dsimp only | split | apply State.emit_keeps

theorem State.flagged_keeps {s0 s : State} (h : OfficeHead) (secured : Bool) (code : Nat) (act : State → State) (hs : Keeps s0 s) (hact : ∀ t, Keeps s0 t → Keeps s0 (act t)) :
    Keeps s0 (State.flagged s h secured code act) := by
  unfold State.flagged
  repeat' with_reducible first | assumption | intro _ | apply Keeps.ite | dsimp only | split | apply State.officeAnswer_keeps | apply hact

theorem State.spdmAnswer_keeps {s0 s : State} (r : Responder) (secured : Bool) (code : Nat) (p1 : Nat) (p2 : Nat) (rest : List Byte) (hs : Keeps s0 s) :
    Keeps s0 (State.spdmAnswer s r secured code p1 p2 rest) := by
  unfold State.spdmAnswer
  repeat' with_reducible first | assumption | intro _ | dsimp only | split | apply State.emit_keeps

theorem State.spdmError_keeps {s0 s : State} (r : Responder) (code : Nat) (hs : Keeps s0 s) :
    Keeps s0 (State.spdmError s r code) := by
  unfold State.spdmError
  repeat' with_reducible first | assumption | intro _ | dsimp only | split | apply State.spdmAnswer_keeps

theorem State.inSession_keeps {s0 s : State} (r : Responder) (session : Nat) (code : Nat) (act : State → State) (hs : Keeps s0 s) (hact : ∀ t, Keeps s0 t → Keeps s0 (act t)) :
    Keeps s0 (State.inSession s r session code act) := by
  unfold State.inSession
  repeat' with_reducible first
    | assumption | intro _ | apply Keeps.ite | dsimp only | split | apply State.spdmAnswer_keeps | apply State.spdmError_keeps
    | apply hact

theorem State.mctpAnswer_keeps {s0 s : State} (cmd : Nat) (cc : Nat) (rest : List Byte) (hs : Keeps s0 s) :
    Keeps s0 (State.mctpAnswer s cmd cc rest) := by
  unfold State.mctpAnswer
  repeat' with_reducible first | assumption | intro _ | apply Keeps.ite | dsimp only | split | apply State.emit_keeps

theorem State.pldmAnswer_keeps {s0 s : State} (ty : Nat) (cmd : Nat) (cc : Nat) (rest : List Byte) (hs : Keeps s0 s) :
    Keeps s0 (State.pldmAnswer s ty cmd cc rest) := by
  unfold State.pldmAnswer
  repeat' with_reducible first | assumption | intro _ | dsimp only | split | apply State.emit_keeps

theorem State.popEvents_keeps {s0 s : State} (n : Nat) (hs : Keeps s0 s) :
    Keeps s0 (State.popEvents s n) := by
  unfold State.popEvents
  repeat' with_reducible first
    | assumption | exact id | intro _ | apply Keeps.ite | dsimp only | split | apply State.emit_keeps
    | refine Keeps.mk' ?_ rfl rfl (fun _ => id) rfl rfl ?_ ?_ ?_ ?_ ?_

theorem State.putAges_keeps {s0 s : State} (inlet : Nat) (flow : Nat) (hs : Keeps s0 s) :
    Keeps s0 (State.putAges s inlet flow) := by
  unfold State.putAges
  repeat' with_reducible first | assumption | intro _ | dsimp only | split | apply State.fput_keeps

theorem State.served_keeps {s0 s : State} (act : State → State) (hs : Keeps s0 s) (hact : ∀ t, Keeps s0 t → Keeps s0 (act t)) :
    Keeps s0 (State.served s act) := by
  unfold State.served
  repeat' with_reducible first | assumption | intro _ | apply Keeps.ite | dsimp only | split | apply hact

theorem State.setCoolant_keeps {s0 s : State} (inlet : Nat) (flow : Nat) (flags : Nat) (hs : Keeps s0 s) :
    Keeps s0 (State.setCoolant s inlet flow flags) := by
  unfold State.setCoolant
  repeat' with_reducible first
    | assumption | exact id | intro _ | dsimp only | split | apply State.fput_keeps | apply State.putAges_keeps
    | refine Keeps.mk' ?_ rfl rfl (fun _ => id) rfl rfl ?_ ?_ ?_ ?_ ?_

theorem State.showAlert_keeps {s0 s : State} (hs : Keeps s0 s) :
    Keeps s0 (State.showAlert s) := by
  unfold State.showAlert
  repeat' with_reducible first | assumption | intro _ | apply Keeps.ite | dsimp only | split | apply State.emit_keeps

theorem State.spdmServed_keeps {s0 s : State} (r : Responder) (act : State → State) (hs : Keeps s0 s) (hact : ∀ t, Keeps s0 t → Keeps s0 (act t)) :
    Keeps s0 (State.spdmServed s r act) := by
  unfold State.spdmServed
  repeat' with_reducible first | assumption | intro _ | apply Keeps.ite | dsimp only | split | apply hact

theorem execActivateFirmware_keeps {s0 s : State} (hs : Keeps s0 s) :
    KeepsOutcome s0 (execActivateFirmware s) := by
  unfold execActivateFirmware
  repeat' with_reducible first
    | assumption | intro _ | apply KeepsOutcome.next | apply Keeps.ite | dsimp only | split | apply State.served_keeps
    | apply State.pldmAnswer_keeps | apply State.reImage_keeps | apply State.beginStep_keeps | apply State.verifyImage_keeps
    | apply State.fput_keeps

theorem execChallenge_keeps {s0 st : State} (rsp : Responder) (nonce : List Byte) (hs : Keeps s0 st) :
    KeepsOutcome s0 (execChallenge rsp nonce st) := by
  unfold execChallenge
  repeat' with_reducible first
    | assumption | intro _ | apply KeepsOutcome.next | dsimp only | split | apply State.spdmServed_keeps | apply State.spdmError_keeps
    | apply State.drawBytes_keeps | apply State.aliasSign_keeps | apply State.spdmAnswer_keeps

theorem execCoolantAgeExpiry_keeps {s0 s : State} (inlet : Nat) (flow : Nat) (hs : Keeps s0 s) :
    KeepsOutcome s0 (execCoolantAgeExpiry inlet flow s) := by
  unfold execCoolantAgeExpiry
  repeat' with_reducible first
    | assumption | intro _ | apply KeepsOutcome.next | apply KeepsOutcome.ite | dsimp only | split | apply State.putAges_keeps

theorem execEndSession_keeps {s0 st : State} (rsp : Responder) (session : Nat) (hs : Keeps s0 st) :
    KeepsOutcome s0 (execEndSession rsp session st) := by
  unfold execEndSession
  repeat' with_reducible first
    | assumption | exact id | intro _ | apply KeepsOutcome.next | dsimp only | split | apply State.spdmServed_keeps
    | apply State.inSession_keeps | refine Keeps.mk' ?_ rfl rfl (fun _ => id) rfl rfl ?_ ?_ ?_ ?_ ?_

theorem execFinish_keeps {s0 st : State} (rsp : Responder) (session : Nat) (authorised : Bool) (hs : Keeps s0 st) :
    KeepsOutcome s0 (execFinish rsp session authorised st) := by
  unfold execFinish
  repeat' with_reducible first
    | assumption | exact id | intro _ | apply KeepsOutcome.next | apply Keeps.ite | dsimp only | split | apply State.spdmServed_keeps
    | apply State.spdmAnswer_keeps | apply State.spdmError_keeps | refine Keeps.mk' ?_ rfl rfl (fun _ => id) rfl rfl ?_ ?_ ?_ ?_ ?_

theorem execGetCapabilities_keeps {s0 st : State} (rsp : Responder) (version : Nat) (hs : Keeps s0 st) :
    KeepsOutcome s0 (execGetCapabilities rsp version st) := by
  unfold execGetCapabilities
  repeat' with_reducible first
    | assumption | exact id | intro _ | apply KeepsOutcome.next | dsimp only | split | apply State.spdmServed_keeps
    | apply State.spdmAnswer_keeps | apply State.spdmError_keeps | refine Keeps.mk' ?_ rfl rfl (fun _ => id) rfl rfl ?_ ?_ ?_ ?_ ?_

theorem execGetCertificate_keeps {s0 st : State} (rsp : Responder) (off : Nat) (len : Nat) (hs : Keeps s0 st) :
    KeepsOutcome s0 (execGetCertificate rsp off len st) := by
  unfold execGetCertificate
  repeat' with_reducible first
    | assumption | intro _ | apply KeepsOutcome.next | apply Keeps.ite | dsimp only | split | apply State.spdmServed_keeps
    | apply State.spdmError_keeps | apply State.spdmAnswer_keeps

theorem execGetDigests_keeps {s0 st : State} (rsp : Responder) (hs : Keeps s0 st) :
    KeepsOutcome s0 (execGetDigests rsp st) := by
  unfold execGetDigests
  repeat' with_reducible first
    | assumption | intro _ | apply KeepsOutcome.next | dsimp only | split | apply State.spdmServed_keeps | apply State.spdmAnswer_keeps

theorem execGetEndpointId_keeps {s0 s : State} (hs : Keeps s0 s) :
    KeepsOutcome s0 (execGetEndpointId s) := by
  unfold execGetEndpointId
  repeat' with_reducible first | assumption | intro _ | apply KeepsOutcome.next | dsimp only | split | apply State.mctpAnswer_keeps

theorem execGetEndpointUuid_keeps {s0 s : State} (hs : Keeps s0 s) :
    KeepsOutcome s0 (execGetEndpointUuid s) := by
  unfold execGetEndpointUuid
  repeat' with_reducible first | assumption | intro _ | apply KeepsOutcome.next | dsimp only | split | apply State.mctpAnswer_keeps

theorem execGetEvents_keeps {s0 s : State} (h : OfficeHead) (n : Nat) (hs : Keeps s0 s) :
    KeepsOutcome s0 (execGetEvents h n s) := by
  unfold execGetEvents
  repeat' with_reducible first
    | assumption | intro _ | apply KeepsOutcome.next | dsimp only | split | apply State.served_keeps | apply State.flagged_keeps
    | apply State.officeAnswer_keeps | apply State.popEvents_keeps

theorem execGetMctpVersionSupport_keeps {s0 s : State} (ty : Nat) (hs : Keeps s0 s) :
    KeepsOutcome s0 (execGetMctpVersionSupport ty s) := by
  unfold execGetMctpVersionSupport
  repeat' with_reducible first
    | assumption | intro _ | apply KeepsOutcome.next | apply Keeps.ite | dsimp only | split | apply State.mctpAnswer_keeps

theorem execGetMeasurements_keeps {s0 st : State} (rsp : Responder) (index : Nat) (sign : Bool) (nonce : List Byte) (hs : Keeps s0 st) :
    KeepsOutcome s0 (execGetMeasurements rsp index sign nonce st) := by
  unfold execGetMeasurements
  repeat' with_reducible first
    | assumption | intro _ | apply KeepsOutcome.next | dsimp only | split | apply State.spdmServed_keeps | apply State.spdmError_keeps
    | apply State.drawBytes_keeps | apply State.spdmAnswer_keeps | apply State.aliasSign_keeps

theorem execGetMessageTypeSupport_keeps {s0 s : State} (hs : Keeps s0 s) :
    KeepsOutcome s0 (execGetMessageTypeSupport s) := by
  unfold execGetMessageTypeSupport
  repeat' with_reducible first | assumption | intro _ | apply KeepsOutcome.next | dsimp only | split | apply State.mctpAnswer_keeps

theorem execGetSensorReading_keeps {s0 s : State} (sensor : PldmSensor) (hs : Keeps s0 s) :
    KeepsOutcome s0 (execGetSensorReading sensor s) := by
  unfold execGetSensorReading
  repeat' with_reducible first
    | assumption | intro _ | apply KeepsOutcome.next | dsimp only | split | apply State.served_keeps | apply State.pldmAnswer_keeps

theorem execGetShutdown_keeps {s0 s : State} (h : OfficeHead) (index : Nat) (hs : Keeps s0 s) :
    KeepsOutcome s0 (execGetShutdown h index s) := by
  unfold execGetShutdown
  repeat' with_reducible first
    | assumption | intro _ | apply KeepsOutcome.next | dsimp only | split | apply State.served_keeps | apply State.flagged_keeps
    | apply State.officeAnswer_keeps

theorem execGetStatus_keeps {s0 s : State} (h : OfficeHead) (hs : Keeps s0 s) :
    KeepsOutcome s0 (execGetStatus h s) := by
  unfold execGetStatus
  repeat' with_reducible first
    | assumption | intro _ | apply KeepsOutcome.next | apply Keeps.ite | dsimp only | split | apply State.flagged_keeps
    | apply State.officeAnswer_keeps

theorem execGetVersion_keeps {s0 st : State} (rsp : Responder) (hs : Keeps s0 st) :
    KeepsOutcome s0 (execGetVersion rsp st) := by
  unfold execGetVersion
  repeat' with_reducible first
    | assumption | exact id | intro _ | apply KeepsOutcome.next | dsimp only | split | apply State.spdmServed_keeps
    | apply State.spdmAnswer_keeps | refine Keeps.mk' ?_ rfl rfl (fun _ => id) rfl rfl ?_ ?_ ?_ ?_ ?_

theorem execHeartbeatMessage_keeps {s0 st : State} (rsp : Responder) (session : Nat) (hs : Keeps s0 st) :
    KeepsOutcome s0 (execHeartbeatMessage rsp session st) := by
  unfold execHeartbeatMessage
  repeat' with_reducible first
    | assumption | intro _ | apply KeepsOutcome.next | apply Keeps.of_id | dsimp only | split | apply State.spdmServed_keeps
    | apply State.inSession_keeps

theorem execI3cAddressAssign_keeps {s0 s : State} (addr : Nat) (hs : Keeps s0 s) :
    KeepsOutcome s0 (execI3cAddressAssign addr s) := by
  unfold execI3cAddressAssign
  repeat' with_reducible first
    | assumption | intro _ | apply KeepsOutcome.next | apply KeepsOutcome.ite | apply Keeps.ite | dsimp only | split
    | apply State.fput_keeps | apply State.showAlert_keeps

theorem execI3cAddressReset_keeps {s0 s : State} (hs : Keeps s0 s) :
    KeepsOutcome s0 (execI3cAddressReset s) := by
  unfold execI3cAddressReset
  repeat' with_reducible first
    | assumption | intro _ | apply KeepsOutcome.next | apply KeepsOutcome.ite | dsimp only | split | apply State.showAlert_keeps
    | apply State.fput_keeps

theorem execKeyExchange_keeps {s0 st : State} (rsp : Responder) (exchange : List Byte) (hs : Keeps s0 st) :
    KeepsOutcome s0 (execKeyExchange rsp exchange st) := by
  unfold execKeyExchange
  repeat' with_reducible first
    | assumption | exact id | intro _ | apply KeepsOutcome.next | apply Keeps.ite | dsimp only | split | apply State.spdmServed_keeps
    | apply State.spdmError_keeps | apply State.draw_keeps | apply State.drawBytes_keeps | apply State.aliasSign_keeps
    | apply State.spdmAnswer_keeps | refine Keeps.mk' ?_ rfl rfl (fun _ => id) rfl rfl ?_ ?_ ?_ ?_ ?_

theorem execKeyUpdate_keeps {s0 st : State} (rsp : Responder) (session : Nat) (hs : Keeps s0 st) :
    KeepsOutcome s0 (execKeyUpdate rsp session st) := by
  unfold execKeyUpdate
  repeat' with_reducible first
    | assumption | intro _ | apply KeepsOutcome.next | apply Keeps.of_id | dsimp only | split | apply State.spdmServed_keeps
    | apply State.inSession_keeps

theorem execNegotiateAlgorithms_keeps {s0 st : State} (rsp : Responder) (hs : Keeps s0 st) :
    KeepsOutcome s0 (execNegotiateAlgorithms rsp st) := by
  unfold execNegotiateAlgorithms
  repeat' with_reducible first
    | assumption | intro _ | apply KeepsOutcome.next | dsimp only | split | apply State.spdmServed_keeps | apply State.spdmAnswer_keeps

theorem execPlatformEventMessage_keeps {s0 s : State} (ack : Nat) (hs : Keeps s0 s) :
    KeepsOutcome s0 (execPlatformEventMessage ack s) := by
  unfold execPlatformEventMessage
  repeat' with_reducible first
    | assumption | intro _ | apply KeepsOutcome.next | dsimp only | split | apply State.served_keeps | apply State.popEvents_keeps
    | apply State.pldmAnswer_keeps

theorem execReadReg_keeps {s0 s : State} (h : OfficeHead) (off : Nat) (hs : Keeps s0 s) :
    KeepsOutcome s0 (execReadReg h off s) := by
  unfold execReadReg
  repeat' with_reducible first
    | assumption | intro _ | apply KeepsOutcome.next | apply Keeps.ite | dsimp only | split | apply State.served_keeps
    | apply State.flagged_keeps | apply State.officeAnswer_keeps

theorem execRequestFirmwareData_keeps {s0 s : State} (off : Nat) (bytes : List Byte) (hs : Keeps s0 s) :
    KeepsOutcome s0 (execRequestFirmwareData off bytes s) := by
  unfold execRequestFirmwareData
  repeat' with_reducible first
    | assumption | intro _ | apply KeepsOutcome.next | apply Keeps.ite | dsimp only | split | apply State.served_keeps
    | apply State.storeImage_keeps

end Sys2Proof.Machine
end

