-- ==== Sys2Proof/Laws/Keeps5.lean ====
section
/-! SUPPORT. What the operations of Machine/ keep (`Keeps`), file 5 of 5:
Office, RvCore, RvScalar, RvVector, Tutors. -/

namespace Sys2Proof.Machine

theorem execRequestUpdate_keeps {s0 s : State} (maxTransfer : Nat) (hs : Keeps s0 s) :
    KeepsOutcome s0 (execRequestUpdate maxTransfer s) := by
  unfold execRequestUpdate
  repeat' with_reducible first
      | assumption | exact id | exact fun _ => memWf_init | exact fun _ => memWf_memWrite _ _ _ memWf_init | intro _
      | apply KeepsOutcome.next | apply Keeps.ite | dsimp only | split | apply State.served_keeps | apply State.pldmAnswer_keeps
      | refine Keeps.mk' ?_ rfl rfl (fun _ => id) rfl rfl ?_ ?_ ?_ ?_ ?_

theorem execSetCoolant_keeps {s0 s : State} (h : OfficeHead) (inlet : Nat) (flow : Nat) (valid : Nat) (hs : Keeps s0 s) :
    KeepsOutcome s0 (execSetCoolant h inlet flow valid s) := by
  unfold execSetCoolant
  repeat' with_reducible first
      | assumption | intro _ | apply KeepsOutcome.next | dsimp only | split | apply State.served_keeps | apply State.flagged_keeps
      | apply State.officeAnswer_keeps | apply State.setCoolant_keeps

theorem execSetEndpointId_keeps {s0 s : State} (op : Nat) (eid : Nat) (hs : Keeps s0 s) :
    KeepsOutcome s0 (execSetEndpointId op eid s) := by
  unfold execSetEndpointId
  repeat' with_reducible first
      | assumption | intro _ | apply KeepsOutcome.next | apply KeepsOutcome.ite | dsimp only | split | apply State.mctpAnswer_keeps
      | apply State.fput_keeps

theorem execSetRingConf_keeps {s0 s : State} (h : OfficeHead) (ring : Nat) (conf : Nat) (session : Option Nat) (hs : Keeps s0 s) :
    KeepsOutcome s0 (execSetRingConf h ring conf session s) := by
  unfold execSetRingConf
  repeat' with_reducible first
      | assumption | intro _ | apply KeepsOutcome.next | apply Keeps.ite | dsimp only | split | apply State.served_keeps
      | apply State.flagged_keeps | apply State.officeAnswer_keeps | apply State.draw_keeps | apply State.fput_keeps

theorem execWriteReg_keeps {s0 s : State} (h : OfficeHead) (off : Nat) (value : Nat) (session : Option Nat) (env : WriteEnv) (hs : Keeps s0 s) :
    KeepsOutcome s0 (execWriteReg h off value session env s) := by
  unfold execWriteReg
  repeat' with_reducible first
      | assumption | intro _ | apply KeepsOutcome.next | apply Keeps.ite | dsimp only | split | apply State.served_keeps
      | apply State.flagged_keeps | apply State.officeAnswer_keeps | apply State.regWriteAt_keeps

theorem tGet_keeps {s0 st : State} (c : Nat) (hs : Keeps s0 st) :
    Keeps s0 ((tGet c).run st).2 := by
  unfold tGet
  repeat' with_reducible first
      | assumption | intro _ | apply Keeps.run_pure | apply Keeps.run_get_bind

theorem rf_keeps {s0 st : State} (c : Nat) (i : Nat) (hs : Keeps s0 st) :
    Keeps s0 ((rf c i).run st).2 := by
  unfold rf
  repeat' with_reducible first
      | assumption | intro _ | apply Keeps.run_pure | apply Keeps.run_bind | dsimp only | split | apply tGet_keeps

theorem rx_keeps {s0 st : State} (c : Nat) (i : Nat) (hs : Keeps s0 st) :
    Keeps s0 ((rx c i).run st).2 := by
  unfold rx
  repeat' with_reducible first
      | assumption | intro _ | apply Keeps.run_pure | apply Keeps.run_bind | dsimp only | split | apply tGet_keeps

theorem tThrow_keeps {s0 st : State} {α : Type} (cause : Nat) (hs : Keeps s0 st) :
    Keeps s0 ((tThrow cause (α := α)).run st).2 := by
  unfold tThrow
  repeat' with_reducible first
      | assumption | intro _ | apply Keeps.run_throw

theorem tAccess_keeps {s0 st : State} {α : Type} (cause : Nat) (f : State → State × Res α) (hs : Keeps s0 st) (hf : ∀ t, Keeps s0 t → Keeps s0 (f t).1) :
    Keeps s0 ((tAccess cause f (α := α)).run st).2 := by
  unfold tAccess
  repeat' with_reducible first
      | assumption | intro _ | apply Keeps.run_pure | apply Keeps.run_throw | apply Keeps.run_get_bind | apply Keeps.run_set
      | apply Keeps.run_bind | dsimp only | split | apply tThrow_keeps | apply hf

theorem tStore_keeps {s0 st : State} (c : Nat) (a1 : Nat) (n : Nat) (v : Nat) (hs : Keeps s0 st) :
    Keeps s0 ((tStore c a1 n v).run st).2 := by
  unfold tStore
  repeat' with_reducible first
      | assumption | intro _ | apply Keeps.run_ite | dsimp only | split | apply tThrow_keeps | apply tAccess_keeps
      | apply State.writeAt_keeps

theorem tAmo_keeps {s0 st : State} (c : Nat) (a1 : Nat) (n : Nat) (op : AtomOp) (v : Nat) (hs : Keeps s0 st) :
    Keeps s0 ((tAmo c a1 n op v).run st).2 := by
  unfold tAmo
  repeat' with_reducible first
      | assumption | intro _ | apply Keeps.run_pure | apply Keeps.run_ite | apply Keeps.run_get_bind | apply Keeps.run_bind | dsimp only
      | split | apply tThrow_keeps | apply tAccess_keeps | apply State.farAtomic_keeps | apply State.readAt_keeps | apply tStore_keeps

theorem tCsr_keeps {s0 st : State} (c : Nat) (n : Nat) (hs : Keeps s0 st) :
    Keeps s0 ((tCsr c n).run st).2 := by
  unfold tCsr
  repeat' with_reducible first
      | assumption | intro _ | apply Keeps.run_pure | apply Keeps.run_bind | dsimp only | split | apply tGet_keeps

theorem tDraw_keeps {s0 st : State} (bound : Nat) (hs : Keeps s0 st) :
    Keeps s0 ((tDraw bound).run st).2 := by
  unfold tDraw
  repeat' with_reducible first
      | assumption | intro _ | apply Keeps.run_pure | apply Keeps.run_get_bind | apply Keeps.run_set | apply Keeps.run_bind | dsimp only
      | split | apply State.draw_keeps

theorem tMod_keeps {s0 st : State} (c : Nat) (f : Tutor → Tutor) (hs : Keeps s0 st) :
    Keeps s0 ((tMod c f).run st).2 := by
  unfold tMod
  repeat' with_reducible first
      | assumption | intro _ | apply Keeps.run_modify | dsimp only | split | apply State.modCore_keeps

theorem tCsrRead_keeps {s0 st : State} (c : Nat) (n : Nat) (hs : Keeps s0 st) :
    Keeps s0 ((tCsrRead c n).run st).2 := by
  unfold tCsrRead
  repeat' with_reducible first
      | assumption | intro _ | apply Keeps.run_pure | apply Keeps.run_ite | apply Keeps.run_bind | dsimp only | split | apply tGet_keeps
      | apply tDraw_keeps | apply tMod_keeps | apply tThrow_keeps

theorem tSetCsr_keeps {s0 st : State} (c : Nat) (n : Nat) (v : Nat) (hs : Keeps s0 st) :
    Keeps s0 ((tSetCsr c n v).run st).2 := by
  unfold tSetCsr
  repeat' with_reducible first
      | assumption | intro _ | dsimp only | split | apply tMod_keeps

theorem tCsrWrite_keeps {s0 st : State} (c : Nat) (n : Nat) (v : Nat) (hs : Keeps s0 st) :
    Keeps s0 ((tCsrWrite c n v).run st).2 := by
  unfold tCsrWrite
  repeat' with_reducible first
      | assumption | intro _ | apply Keeps.run_pure | apply Keeps.run_ite | apply Keeps.run_bind | dsimp only | split | apply tThrow_keeps
      | apply tCsr_keeps | apply tSetCsr_keeps | apply tMod_keeps

theorem tFill_keeps {s0 st : State} (c : Nat) (a1 : Nat) (o : Nat) (hs : Keeps s0 st) :
    Keeps s0 ((tFill c a1 o).run st).2 := by
  unfold tFill
  repeat' with_reducible first
      | assumption | intro _ | apply Keeps.run_pure | apply Keeps.run_bind | dsimp only | split | apply tAccess_keeps
      | apply State.readAt_keeps | apply tMod_keeps

theorem tParcel_keeps {s0 st : State} (c : Nat) (a1 : Nat) (hs : Keeps s0 st) :
    Keeps s0 ((tParcel c a1).run st).2 := by
  unfold tParcel
  repeat' with_reducible first
      | assumption | intro _ | apply Keeps.run_pure | apply Keeps.run_ite | apply Keeps.run_get_bind | apply Keeps.run_bind | dsimp only
      | split | apply tThrow_keeps | apply tGet_keeps | apply tFill_keeps | apply tDraw_keeps

theorem tFetch_keeps {s0 st : State} (c : Nat) (a1 : Nat) (hs : Keeps s0 st) :
    Keeps s0 ((tFetch c a1).run st).2 := by
  unfold tFetch
  repeat' with_reducible first
      | assumption | intro _ | apply Keeps.run_pure | apply Keeps.run_ite | apply Keeps.run_bind | dsimp only | split | apply tThrow_keeps
      | apply tParcel_keeps

theorem tFlags_keeps {s0 st : State} (c : Nat) (fl : Nat) (hs : Keeps s0 st) :
    Keeps s0 ((tFlags c fl).run st).2 := by
  unfold tFlags
  repeat' with_reducible first
      | assumption | intro _ | apply Keeps.run_pure | apply Keeps.run_ite | apply Keeps.run_bind | dsimp only | split | apply tCsr_keeps
      | apply tSetCsr_keeps

theorem tLoad_keeps {s0 st : State} (c : Nat) (a1 : Nat) (n : Nat) (hs : Keeps s0 st) :
    Keeps s0 ((tLoad c a1 n).run st).2 := by
  unfold tLoad
  repeat' with_reducible first
      | assumption | intro _ | apply Keeps.run_pure | apply Keeps.run_ite | apply Keeps.run_bind | dsimp only | split | apply tThrow_keeps
      | apply tAccess_keeps | apply State.readAt_keeps

theorem tLoadReserve_keeps {s0 st : State} (c : Nat) (a1 : Nat) (n : Nat) (hs : Keeps s0 st) :
    Keeps s0 ((tLoadReserve c a1 n).run st).2 := by
  unfold tLoadReserve
  repeat' with_reducible first
      | assumption | intro _ | apply Keeps.run_pure | apply Keeps.run_ite | apply Keeps.run_get_bind | apply Keeps.run_bind | dsimp only
      | split | apply tLoad_keeps | apply tMod_keeps | apply tThrow_keeps

theorem tNeed_keeps {s0 st : State} (ok : Bool) (hs : Keeps s0 st) :
    Keeps s0 ((tNeed ok).run st).2 := by
  unfold tNeed
  repeat' with_reducible first
      | assumption | intro _ | apply Keeps.run_pure | apply Keeps.run_ite | dsimp only | split | apply tThrow_keeps

theorem tStoreConditional_keeps {s0 st : State} (c : Nat) (a1 : Nat) (n : Nat) (v : Nat) (hs : Keeps s0 st) :
    Keeps s0 ((tStoreConditional c a1 n v).run st).2 := by
  unfold tStoreConditional
  repeat' with_reducible first
      | assumption | intro _ | apply Keeps.run_pure | apply Keeps.run_ite | apply Keeps.run_get_bind | apply Keeps.run_bind | dsimp only
      | split | apply tThrow_keeps | apply tMod_keeps | apply tGet_keeps | apply tStore_keeps

theorem wf_keeps {s0 st : State} (c : Nat) (i : Nat) (v : Nat) (hs : Keeps s0 st) :
    Keeps s0 ((wf c i v).run st).2 := by
  unfold wf
  repeat' with_reducible first
      | assumption | intro _ | dsimp only | split | apply tMod_keeps

theorem wx_keeps {s0 st : State} (c : Nat) (i : Nat) (v : Nat) (hs : Keeps s0 st) :
    Keeps s0 ((wx c i v).run st).2 := by
  unfold wx
  repeat' with_reducible first
      | assumption | intro _ | apply Keeps.run_pure | apply Keeps.run_ite | dsimp only | split | apply tMod_keeps

theorem rfAs_keeps {s0 st : State} (c : Nat) (f : FloatFmt) (i : Nat) (hs : Keeps s0 st) :
    Keeps s0 ((rfAs c f i).run st).2 := by
  unfold rfAs
  repeat' with_reducible first
      | assumption | intro _ | apply Keeps.run_pure | apply Keeps.run_bind | dsimp only | split | apply rf_keeps

theorem tAtomic_keeps {s0 st : State} (c : Nat) (i : Nat) (hs : Keeps s0 st) :
    Keeps s0 ((tAtomic c i).run st).2 := by
  unfold tAtomic
  repeat' with_reducible first
      | assumption | intro _ | apply Keeps.run_bind | dsimp only | split | apply tNeed_keeps | apply rx_keeps | apply tLoadReserve_keeps
      | apply wx_keeps | apply tStoreConditional_keeps | apply tAmo_keeps | apply tThrow_keeps

theorem tCsrOp_keeps {s0 st : State} (c : Nat) (i : Nat) (hs : Keeps s0 st) :
    Keeps s0 ((tCsrOp c i).run st).2 := by
  unfold tCsrOp
  repeat' with_reducible first
      | assumption | intro _ | apply Keeps.run_pure | apply Keeps.run_ite | apply Keeps.run_bind | dsimp only | split | apply rx_keeps
      | apply tCsrRead_keeps | apply wx_keeps | apply tCsrWrite_keeps

theorem tFpDone_keeps {s0 st : State} (c : Nat) (rd : Nat) (f : FloatFmt) (r : FRes) (hs : Keeps s0 st) :
    Keeps s0 ((tFpDone c rd f r).run st).2 := by
  unfold tFpDone
  repeat' with_reducible first
      | assumption | intro _ | apply Keeps.run_bind | dsimp only | split | apply wf_keeps | apply tFlags_keeps

theorem tRound_keeps {s0 st : State} (c : Nat) (i : Nat) (hs : Keeps s0 st) :
    Keeps s0 ((tRound c i).run st).2 := by
  unfold tRound
  repeat' with_reducible first
      | assumption | intro _ | apply Keeps.run_pure | apply Keeps.run_bind | dsimp only | split | apply tCsr_keeps | apply tNeed_keeps

theorem tFused_keeps {s0 st : State} (c : Nat) (i : Nat) (op : Nat) (hs : Keeps s0 st) :
    Keeps s0 ((tFused c i op).run st).2 := by
  unfold tFused
  repeat' with_reducible first
      | assumption | intro _ | apply Keeps.run_bind | dsimp only | split | apply tThrow_keeps | apply tRound_keeps | apply rfAs_keeps
      | apply tFpDone_keeps

theorem tIntDone_keeps {s0 st : State} (c : Nat) (rd : Nat) (r : FRes) (hs : Keeps s0 st) :
    Keeps s0 ((tIntDone c rd r).run st).2 := by
  unfold tIntDone
  repeat' with_reducible first
      | assumption | intro _ | apply Keeps.run_bind | dsimp only | split | apply wx_keeps | apply tFlags_keeps

theorem tLoadFp_keeps {s0 st : State} (c : Nat) (i : Nat) (f : FloatFmt) (hs : Keeps s0 st) :
    Keeps s0 ((tLoadFp c i f).run st).2 := by
  unfold tLoadFp
  repeat' with_reducible first
      | assumption | intro _ | apply Keeps.run_bind | dsimp only | split | apply rx_keeps | apply tLoad_keeps | apply wf_keeps

theorem tLoadInt_keeps {s0 st : State} (c : Nat) (i : Nat) (hs : Keeps s0 st) :
    Keeps s0 ((tLoadInt c i).run st).2 := by
  unfold tLoadInt
  repeat' with_reducible first
      | assumption | intro _ | apply Keeps.run_bind | dsimp only | split | apply tNeed_keeps | apply rx_keeps | apply tLoad_keeps
      | apply wx_keeps

theorem tOp_keeps {s0 st : State} (c : Nat) (i : Nat) (w : Nat) (hs : Keeps s0 st) :
    Keeps s0 ((tOp c i w).run st).2 := by
  unfold tOp
  repeat' with_reducible first
      | assumption | intro _ | apply Keeps.run_ite | apply Keeps.run_bind | dsimp only | split | apply rx_keeps | apply tNeed_keeps
      | apply wx_keeps

theorem tOpFp_keeps {s0 st : State} (c : Nat) (i : Nat) (hs : Keeps s0 st) :
    Keeps s0 ((tOpFp c i).run st).2 := by
  unfold tOpFp
  repeat' with_reducible first
      | assumption | intro _ | apply Keeps.run_ite | apply Keeps.run_bind | dsimp only | split | apply tThrow_keeps | apply rfAs_keeps
      | apply tRound_keeps | apply tFpDone_keeps | apply tNeed_keeps | apply tIntDone_keeps | apply rx_keeps | apply wx_keeps
      | apply rf_keeps | apply wf_keeps

theorem tOpImm_keeps {s0 st : State} (c : Nat) (i : Nat) (w : Nat) (hs : Keeps s0 st) :
    Keeps s0 ((tOpImm c i w).run st).2 := by
  unfold tOpImm
  repeat' with_reducible first
      | assumption | intro _ | apply Keeps.run_bind | dsimp only | split | apply rx_keeps | apply tNeed_keeps | apply wx_keeps

theorem tStoreFp_keeps {s0 st : State} (c : Nat) (i : Nat) (f : FloatFmt) (hs : Keeps s0 st) :
    Keeps s0 ((tStoreFp c i f).run st).2 := by
  unfold tStoreFp
  repeat' with_reducible first
      | assumption | intro _ | apply Keeps.run_bind | dsimp only | split | apply rx_keeps | apply rf_keeps | apply tStore_keeps

theorem tStoreInt_keeps {s0 st : State} (c : Nat) (i : Nat) (hs : Keeps s0 st) :
    Keeps s0 ((tStoreInt c i).run st).2 := by
  unfold tStoreInt
  repeat' with_reducible first
      | assumption | intro _ | apply Keeps.run_bind | dsimp only | split | apply tNeed_keeps | apply rx_keeps | apply tStore_keeps

theorem tSystem_keeps {s0 st : State} (c : Nat) (i : Nat) (next : Nat) (hs : Keeps s0 st) :
    Keeps s0 ((tSystem c i next).run st).2 := by
  unfold tSystem
  repeat' with_reducible first
      | assumption | intro _ | apply Keeps.run_pure | apply Keeps.run_ite | apply Keeps.run_bind | dsimp only | split | apply tThrow_keeps
      | apply tCsr_keeps | apply tSetCsr_keeps | apply tNeed_keeps | apply tCsrOp_keeps

theorem tVCfg_keeps {s0 st : State} (c : Nat) (i : Nat) (hs : Keeps s0 st) :
    Keeps s0 ((tVCfg c i).run st).2 := by
  unfold tVCfg
  repeat' with_reducible first
      | assumption | intro _ | apply Keeps.run_pure | apply Keeps.run_ite | apply Keeps.run_bind | dsimp only | split | apply tCsr_keeps
      | apply tNeed_keeps | apply tDraw_keeps

theorem tRegs_keeps {s0 st : State} (c : Nat) (hs : Keeps s0 st) :
    Keeps s0 ((tRegs c).run st).2 := by
  unfold tRegs
  repeat' with_reducible first
      | assumption | intro _ | apply Keeps.run_pure | apply Keeps.run_bind | dsimp only | split | apply tGet_keeps

theorem tVSource_keeps {s0 st : State} (c : Nat) (i : Nat) (form : VForm) (w : Nat) (unsignedImm : Bool) (hs : Keeps s0 st) :
    Keeps s0 ((tVSource c i form w unsignedImm).run st).2 := by
  unfold tVSource
  repeat' with_reducible first
      | assumption | intro _ | apply Keeps.run_pure | apply Keeps.run_bind | dsimp only | split | apply tRegs_keeps | apply rx_keeps

theorem tVDone_keeps {s0 st : State} (c : Nat) (r : List Nat × Nat × Nat) (hs : Keeps s0 st) :
    Keeps s0 ((tVDone c r).run st).2 := by
  unfold tVDone
  repeat' with_reducible first
      | assumption | intro _ | apply Keeps.run_ite | apply Keeps.run_bind | dsimp only | split | apply tMod_keeps | apply tFlags_keeps
      | apply tSetCsr_keeps | apply tCsr_keeps

theorem tVSingle_keeps {s0 st : State} (c : Nat) (i : Nat) (form : VForm) (a3 : VCfg) (f : List Nat → Nat → VEl) (hs : Keeps s0 st) :
    Keeps s0 ((tVSingle c i form a3 f).run st).2 := by
  unfold tVSingle
  repeat' with_reducible first
      | assumption | intro _ | apply Keeps.run_bind | dsimp only | split | apply tNeed_keeps | apply tRegs_keeps | apply tVDone_keeps

theorem tVOffset_keeps {s0 st : State} (c : Nat) (i : Nat) (form : VForm) (hs : Keeps s0 st) :
    Keeps s0 ((tVOffset c i form).run st).2 := by
  unfold tVOffset
  repeat' with_reducible first
      | assumption | intro _ | apply Keeps.run_pure | apply Keeps.run_ite | dsimp only | split | apply rx_keeps

theorem tVPermute_keeps {s0 st : State} (c : Nat) (i : Nat) (form : VForm) (a3 : VCfg) (f6 : Nat) (hs : Keeps s0 st) :
    Keeps s0 ((tVPermute c i form a3 f6).run st).2 := by
  unfold tVPermute
  repeat' with_reducible first
      | assumption | intro _ | apply Keeps.run_pure | apply Keeps.run_ite | apply Keeps.run_bind | dsimp only | split | apply tRegs_keeps
      | apply tNeed_keeps | apply tVSingle_keeps | apply tVOffset_keeps

theorem tVToMask_keeps {s0 st : State} (c : Nat) (i : Nat) (form : VForm) (a3 : VCfg) (f : List Nat → Nat → VEl) (hs : Keeps s0 st) :
    Keeps s0 ((tVToMask c i form a3 f).run st).2 := by
  unfold tVToMask
  repeat' with_reducible first
      | assumption | intro _ | apply Keeps.run_bind | dsimp only | split | apply tNeed_keeps | apply tRegs_keeps | apply tVDone_keeps

theorem tVNarrow_keeps {s0 st : State} (c : Nat) (i : Nat) (form : VForm) (a3 : VCfg) (f6 : Nat) (hs : Keeps s0 st) :
    Keeps s0 ((tVNarrow c i form a3 f6).run st).2 := by
  unfold tVNarrow
  repeat' with_reducible first
      | assumption | intro _ | apply Keeps.run_bind | dsimp only | split | apply tNeed_keeps | apply tVSource_keeps | apply tCsr_keeps
      | apply tRegs_keeps | apply tVDone_keeps

theorem tVReduce_keeps {s0 st : State} (c : Nat) (i : Nat) (a2 : VCfg) (w : Nat) (f : Nat → Nat → FRes) (hs : Keeps s0 st) :
    Keeps s0 ((tVReduce c i a2 w f).run st).2 := by
  unfold tVReduce
  repeat' with_reducible first
      | assumption | intro _ | apply Keeps.run_bind | dsimp only | split | apply tNeed_keeps | apply tRegs_keeps | apply tVDone_keeps

theorem tVecInt_keeps {s0 st : State} (c : Nat) (i : Nat) (form : VForm) (hs : Keeps s0 st) :
    Keeps s0 ((tVecInt c i form).run st).2 := by
  unfold tVecInt
  repeat' with_reducible first
      | assumption | intro _ | apply Keeps.run_ite | apply Keeps.run_bind | dsimp only | split | apply tVCfg_keeps | apply tVSource_keeps
      | apply tCsr_keeps | apply tVPermute_keeps | apply tNeed_keeps | apply tRegs_keeps | apply tVDone_keeps | apply tVSingle_keeps
      | apply tVToMask_keeps | apply tVNarrow_keeps | apply tVReduce_keeps

theorem tVWiden_keeps {s0 st : State} (c : Nat) (i : Nat) (form : VForm) (a3 : VCfg) (wide2 : Bool) (f : List Nat → Nat → VEl) (hs : Keeps s0 st) :
    Keeps s0 ((tVWiden c i form a3 wide2 f).run st).2 := by
  unfold tVWiden
  repeat' with_reducible first
      | assumption | intro _ | apply Keeps.run_bind | dsimp only | split | apply tNeed_keeps | apply tRegs_keeps | apply tVDone_keeps

theorem tVConvert_keeps {s0 st : State} (c : Nat) (i : Nat) (a2 : VCfg) (rm : Nat) (hs : Keeps s0 st) :
    Keeps s0 ((tVConvert c i a2 rm).run st).2 := by
  unfold tVConvert
  repeat' with_reducible first
      | assumption | intro _ | apply Keeps.run_ite | apply Keeps.run_bind | dsimp only | split | apply tNeed_keeps | apply tVSingle_keeps
      | apply tVWiden_keeps | apply tRegs_keeps | apply tVDone_keeps

theorem tVFpReduce_keeps {s0 st : State} (c : Nat) (i : Nat) (a2 : VCfg) (w : Nat) (unordered : Bool) (f : Nat → Nat → FRes) (hs : Keeps s0 st) :
    Keeps s0 ((tVFpReduce c i a2 w unordered f).run st).2 := by
  unfold tVFpReduce
  repeat' with_reducible first
      | assumption | intro _ | apply Keeps.run_ite | apply Keeps.run_bind | dsimp only | split | apply tRegs_keeps | apply tDraw_keeps
      | apply tVReduce_keeps

theorem tVecFp_keeps {s0 st : State} (c : Nat) (i : Nat) (form : VForm) (hs : Keeps s0 st) :
    Keeps s0 ((tVecFp c i form).run st).2 := by
  unfold tVecFp
  repeat' with_reducible first
      | assumption | intro _ | apply Keeps.run_ite | apply Keeps.run_bind | dsimp only | split | apply tVCfg_keeps | apply tCsr_keeps
      | apply tNeed_keeps | apply tVConvert_keeps | apply tThrow_keeps | apply rfAs_keeps | apply tRegs_keeps | apply tVFpReduce_keeps
      | apply tVSingle_keeps | apply wf_keeps | apply tSetCsr_keeps | apply tVDone_keeps | apply tVToMask_keeps | apply tVWiden_keeps

theorem tVScalar_keeps {s0 st : State} (c : Nat) (i : Nat) (form : VForm) (a3 : VCfg) (hs : Keeps s0 st) :
    Keeps s0 ((tVScalar c i form a3).run st).2 := by
  unfold tVScalar
  repeat' with_reducible first
      | assumption | intro _ | apply Keeps.run_ite | apply Keeps.run_bind | dsimp only | split | apply tRegs_keeps | apply tNeed_keeps
      | apply rx_keeps | apply tVDone_keeps | apply wx_keeps | apply tSetCsr_keeps | apply tThrow_keeps

theorem tVMaskUnary_keeps {s0 st : State} (c : Nat) (i : Nat) (a2 : VCfg) (hs : Keeps s0 st) :
    Keeps s0 ((tVMaskUnary c i a2).run st).2 := by
  unfold tVMaskUnary
  repeat' with_reducible first
      | assumption | intro _ | apply Keeps.run_bind | dsimp only | split | apply tRegs_keeps | apply tNeed_keeps | apply tVDone_keeps

theorem tVCompress_keeps {s0 st : State} (c : Nat) (i : Nat) (a2 : VCfg) (hs : Keeps s0 st) :
    Keeps s0 ((tVCompress c i a2).run st).2 := by
  unfold tVCompress
  repeat' with_reducible first
      | assumption | intro _ | apply Keeps.run_bind | dsimp only | split | apply tNeed_keeps | apply tRegs_keeps | apply tVDone_keeps

theorem tVecMul_keeps {s0 st : State} (c : Nat) (i : Nat) (form : VForm) (hs : Keeps s0 st) :
    Keeps s0 ((tVecMul c i form).run st).2 := by
  unfold tVecMul
  repeat' with_reducible first
      | assumption | intro _ | apply Keeps.run_ite | apply Keeps.run_bind | dsimp only | split | apply tVCfg_keeps | apply tVSource_keeps
      | apply tCsr_keeps | apply tNeed_keeps | apply tVReduce_keeps | apply tVSingle_keeps | apply rx_keeps | apply tVScalar_keeps
      | apply tRegs_keeps | apply tVDone_keeps | apply tVMaskUnary_keeps | apply tVCompress_keeps | apply tVWiden_keeps
      | apply tThrow_keeps

theorem tVSet_keeps {s0 st : State} (c : Nat) (i : Nat) (ty : Nat) (avl : Option Nat) (hs : Keeps s0 st) :
    Keeps s0 ((tVSet c i ty avl).run st).2 := by
  unfold tVSet
  repeat' with_reducible first
      | assumption | intro _ | apply Keeps.run_ite | apply Keeps.run_bind | dsimp only | split | apply tCsr_keeps | apply tSetCsr_keeps
      | apply wx_keeps | apply tDraw_keeps

theorem tVConfig_keeps {s0 st : State} (c : Nat) (i : Nat) (hs : Keeps s0 st) :
    Keeps s0 ((tVConfig c i).run st).2 := by
  unfold tVConfig
  repeat' with_reducible first
      | assumption | intro _ | apply Keeps.run_ite | apply Keeps.run_bind | dsimp only | split | apply rx_keeps | apply tVSet_keeps
      | apply tNeed_keeps

theorem tOpV_keeps {s0 st : State} (c : Nat) (i : Nat) (hs : Keeps s0 st) :
    Keeps s0 ((tOpV c i).run st).2 := by
  unfold tOpV
  repeat' with_reducible first
      | assumption | intro _ | dsimp only | split | apply tVecInt_keeps | apply tVecFp_keeps | apply tVecMul_keeps | apply tVConfig_keeps

theorem tVAgnostic_keeps {s0 st : State} (c : Nat) (a1 : VCfg) (vd : Nat) (regsPer : Nat) (w : Nat) (nf : Nat) (hs : Keeps s0 st) :
    Keeps s0 ((tVAgnostic c a1 vd regsPer w nf).run st).2 := by
  unfold tVAgnostic
  repeat' with_reducible first
      | assumption | intro _ | apply Keeps.run_bind | dsimp only | split | apply tRegs_keeps | apply tMod_keeps

theorem tVElem_keeps {s0 st : State} (c : Nat) (store : Bool) (reg : Nat) (w : Nat) (k : Nat) (a5 : Nat) (hs : Keeps s0 st) :
    Keeps s0 ((tVElem c store reg w k a5).run st).2 := by
  unfold tVElem
  repeat' with_reducible first
      | assumption | intro _ | apply Keeps.run_ite | apply Keeps.run_bind | dsimp only | split | apply tRegs_keeps | apply tStore_keeps
      | apply tLoad_keeps | apply tMod_keeps

theorem tVSegment_keeps {s0 st : State} (c : Nat) (store : Bool) (vd : Nat) (regsPer : Nat) (w : Nat) (k : Nat) (a6 : Nat) (nf : Nat) (hs : Keeps s0 st) :
    Keeps s0 ((tVSegment c store vd regsPer w k a6 nf).run st).2 := by
  unfold tVSegment
  repeat' with_reducible first
      | assumption | intro _ | apply Keeps.run_forM | dsimp only | split | apply tVElem_keeps

theorem tVWalk_keeps {s0 st : State} (c : Nat) (a1 : VCfg) (store : Bool) (faultFirst : Bool) (vd : Nat) (regsPer : Nat) (w : Nat) (nf : Nat) (addr : Nat → Nat) (a9 : List Nat) (hs : Keeps s0 st) :
    Keeps s0 ((tVWalk c a1 store faultFirst vd regsPer w nf addr a9).run st).2 := by
  induction a9 generalizing st a1 with
  | nil =>
    unfold tVWalk
    repeat' with_reducible first
        | assumption | intro _ | apply Keeps.run_pure

  | cons b bs ih =>
    unfold tVWalk
    repeat' with_reducible first
        | assumption | intro _ | apply Keeps.run_pure | apply Keeps.run_throw | apply Keeps.run_ite | apply Keeps.run_get_bind
        | apply Keeps.run_set | apply Keeps.run_bind | apply Keeps.run_tryCatch | dsimp only | split | apply ih | apply tRegs_keeps
        | apply tVSegment_keeps | apply tSetCsr_keeps

theorem tVWhole_keeps {s0 st : State} (c : Nat) (i : Nat) (store : Bool) (w : Nat) (hs : Keeps s0 st) :
    Keeps s0 ((tVWhole c i store w).run st).2 := by
  unfold tVWhole
  repeat' with_reducible first
      | assumption | intro _ | apply Keeps.run_bind | dsimp only | split | apply tNeed_keeps | apply rx_keeps | apply tCsr_keeps
      | apply tVWalk_keeps | apply tSetCsr_keeps

theorem tVecMem_keeps {s0 st : State} (c : Nat) (i : Nat) (store : Bool) (hs : Keeps s0 st) :
    Keeps s0 ((tVecMem c i store).run st).2 := by
  unfold tVecMem
  repeat' with_reducible first
      | assumption | intro _ | apply Keeps.run_ite | apply Keeps.run_bind | dsimp only | split | apply tNeed_keeps | apply tVWhole_keeps
      | apply tVCfg_keeps | apply rx_keeps | apply tRegs_keeps | apply tSetCsr_keeps | apply tVWalk_keeps | apply tVAgnostic_keeps

theorem State.tutorRetires_keeps {s0 s : State} (c : Nat) (hs : Keeps s0 s) :
    Keeps s0 (State.tutorRetires s c) := by
  unfold State.tutorRetires
  repeat' with_reducible first
      | assumption | intro _ | dsimp only | split | apply State.modCore_keeps

theorem State.tutorEnds_keeps {s0 s : State} (c : Nat) (t : StepRec) (code : Nat) (hs : Keeps s0 s) :
    Keeps s0 (State.tutorEnds s c t code) := by
  unfold State.tutorEnds
  repeat' with_reducible first
      | assumption | intro _ | dsimp only | split | apply State.stepDone_keeps | apply State.modCore_keeps | apply State.tutorRetires_keeps

theorem State.tutorFaults_keeps {s0 s : State} (c : Nat) (t : StepRec) (pc : Nat) (cause : Nat) (hs : Keeps s0 s) :
    Keeps s0 (State.tutorFaults s c t pc cause) := by
  unfold State.tutorFaults
  repeat' with_reducible first
      | assumption | intro _ | dsimp only | split | apply State.stepDone_keeps

theorem State.tutorGo_keeps {s0 s : State} (c : Nat) (pc : Nat) (hs : Keeps s0 s) :
    Keeps s0 (State.tutorGo s c pc) := by
  unfold State.tutorGo
  repeat' with_reducible first
      | assumption | intro _ | dsimp only | split | apply State.modCore_keeps | apply State.tutorRetires_keeps

theorem tJump_keeps {s0 st : State} (c : Nat) (i : Nat) (next : Nat) (target : Nat) (hs : Keeps s0 st) :
    Keeps s0 ((tJump c i next target).run st).2 := by
  unfold tJump
  repeat' with_reducible first
      | assumption | intro _ | apply Keeps.run_pure | apply Keeps.run_bind | dsimp only | split | apply wx_keeps

theorem tBranch_keeps {s0 st : State} (c : Nat) (i : Nat) (pc : Nat) (next : Nat) (hs : Keeps s0 st) :
    Keeps s0 ((tBranch c i pc next).run st).2 := by
  unfold tBranch
  repeat' with_reducible first
      | assumption | intro _ | apply Keeps.run_pure | apply Keeps.run_bind | dsimp only | split | apply rx_keeps | apply tThrow_keeps

theorem tPost_keeps {s0 st : State} (c : Nat) (i : Nat) (hs : Keeps s0 st) :
    Keeps s0 ((tPost c i).run st).2 := by
  unfold tPost
  repeat' with_reducible first
      | assumption | intro _ | apply Keeps.run_throw | apply Keeps.run_ite | apply Keeps.run_get_bind | apply Keeps.run_modify
      | apply Keeps.run_bind | dsimp only | split | apply rx_keeps | apply tThrow_keeps | apply tAccess_keeps | apply State.readAt_keeps
      | apply State.modCore_keeps

theorem tCounter_keeps {s0 st : State} (c : Nat) (i : Nat) (hs : Keeps s0 st) :
    Keeps s0 ((tCounter c i).run st).2 := by
  unfold tCounter
  repeat' with_reducible first
      | assumption | intro _ | apply Keeps.run_pure | apply Keeps.run_bind | dsimp only | split | apply rx_keeps

theorem tWait_keeps {s0 st : State} (c : Nat) (i : Nat) (hs : Keeps s0 st) :
    Keeps s0 ((tWait c i).run st).2 := by
  unfold tWait
  repeat' with_reducible first
      | assumption | intro _ | apply Keeps.run_pure | apply Keeps.run_ite | apply Keeps.run_get_bind | apply Keeps.run_bind | dsimp only
      | split | apply tCounter_keeps | apply rx_keeps | apply wx_keeps

theorem tEvt_keeps {s0 st : State} (c : Nat) (i : Nat) (hs : Keeps s0 st) :
    Keeps s0 ((tEvt c i).run st).2 := by
  unfold tEvt
  repeat' with_reducible first
      | assumption | intro _ | apply Keeps.run_get_bind | apply Keeps.run_bind | dsimp only | split | apply tCounter_keeps | apply wx_keeps

theorem tSig_keeps {s0 st : State} (c : Nat) (i : Nat) (hs : Keeps s0 st) :
    Keeps s0 ((tSig c i).run st).2 := by
  unfold tSig
  repeat' with_reducible first
      | assumption | intro _ | apply Keeps.run_modify | apply Keeps.run_bind | dsimp only | split | apply tCounter_keeps | apply rx_keeps
      | apply State.evtAdd_keeps

theorem tDyalmora_keeps {s0 st : State} (c : Nat) (i : Nat) (next : Nat) (hs : Keeps s0 st) :
    Keeps s0 ((tDyalmora c i next).run st).2 := by
  unfold tDyalmora
  repeat' with_reducible first
      | assumption | intro _ | apply Keeps.run_pure | apply Keeps.run_bind | dsimp only | split | apply tNeed_keeps | apply tPost_keeps
      | apply tWait_keeps | apply tEvt_keeps | apply tSig_keeps | apply rx_keeps | apply tThrow_keeps

theorem tFence_keeps {s0 st : State} (c : Nat) (i : Nat) (hs : Keeps s0 st) :
    Keeps s0 ((tFence c i).run st).2 := by
  unfold tFence
  repeat' with_reducible first
      | assumption | intro _ | apply Keeps.run_pure | dsimp only | split | apply tMod_keeps | apply tThrow_keeps

theorem tMemFp_keeps {s0 st : State} (c : Nat) (i : Nat) (store : Bool) (hs : Keeps s0 st) :
    Keeps s0 ((tMemFp c i store).run st).2 := by
  unfold tMemFp
  repeat' with_reducible first
      | assumption | intro _ | apply Keeps.run_ite | dsimp only | split | apply tStoreFp_keeps | apply tLoadFp_keeps | apply tThrow_keeps
      | apply tVecMem_keeps

theorem tPlain_keeps {s0 st : State} (c : Nat) (i : Nat) (pc : Nat) (hs : Keeps s0 st) :
    Keeps s0 ((tPlain c i pc).run st).2 := by
  unfold tPlain
  repeat' with_reducible first
      | assumption | intro _ | dsimp only | split | apply wx_keeps | apply tLoadInt_keeps | apply tStoreInt_keeps | apply tOpImm_keeps
      | apply tOp_keeps | apply tFence_keeps | apply tAtomic_keeps | apply tOpFp_keeps | apply tFused_keeps | apply tMemFp_keeps
      | apply tOpV_keeps | apply tThrow_keeps

theorem tPerform_keeps {s0 st : State} (c : Nat) (i : Nat) (pc : Nat) (next : Nat) (hs : Keeps s0 st) :
    Keeps s0 ((tPerform c i pc next).run st).2 := by
  unfold tPerform
  repeat' with_reducible first
      | assumption | intro _ | apply Keeps.run_pure | apply Keeps.run_bind | dsimp only | split | apply tJump_keeps | apply rx_keeps
      | apply tNeed_keeps | apply tBranch_keeps | apply tSystem_keeps | apply tDyalmora_keeps | apply tPlain_keeps

theorem State.tutorRun_keeps {s0 s : State} (c : Nat) (t : StepRec) (pc : Nat) (i : Nat) (len : Nat) (hs : Keeps s0 s) :
    Keeps s0 (State.tutorRun s c t pc i len) := by
  unfold State.tutorRun
  repeat' with_reducible first
      | assumption | intro _ | refine Keeps.of_snd (by assumption) ?_ | dsimp only | split | apply tPerform_keeps
      | apply State.tutorGo_keeps | apply State.settle_keeps | apply State.modCore_keeps | apply State.tutorEnds_keeps
      | apply State.keepHeld_keeps | apply State.tutorFaults_keeps

theorem State.tutorStep_keeps {s0 s : State} (c : Nat) (want : Option Nat → Bool) (hs : Keeps s0 s) :
    Keeps s0 (State.tutorStep s c want) := by
  unfold State.tutorStep
  repeat' with_reducible first
      | assumption | intro _ | refine Keeps.of_snd (by assumption) ?_ | apply Keeps.ite | dsimp only | split | apply tFetch_keeps
      | apply State.tutorRun_keeps | apply State.keepHeld_keeps | apply State.tutorFaults_keeps

theorem execHandoff_keeps {s0 s : State} (c : Nat) (hs : Keeps s0 s) :
    KeepsOutcome s0 (execHandoff c s) := by
  unfold execHandoff
  repeat' with_reducible first
      | assumption | intro _ | apply KeepsOutcome.next | apply Keeps.ite | dsimp only | split | apply State.modCore_keeps

theorem execTdone_keeps {s0 s : State} (c : Nat) (hs : Keeps s0 s) :
    KeepsOutcome s0 (execTdone c s) := by
  unfold execTdone
  repeat' with_reducible first
      | assumption | intro _ | apply KeepsOutcome.next | dsimp only | split | apply State.tutorStep_keeps

theorem execTevt_keeps {s0 s : State} (c : Nat) (hs : Keeps s0 s) :
    KeepsOutcome s0 (execTevt c s) := by
  unfold execTevt
  repeat' with_reducible first
      | assumption | intro _ | apply KeepsOutcome.next | dsimp only | split | apply State.tutorStep_keeps

theorem execTpost_keeps {s0 s : State} (c : Nat) (hs : Keeps s0 s) :
    KeepsOutcome s0 (execTpost c s) := by
  unfold execTpost
  repeat' with_reducible first
      | assumption | intro _ | apply KeepsOutcome.next | dsimp only | split | apply State.tutorStep_keeps

theorem execTsig_keeps {s0 s : State} (c : Nat) (hs : Keeps s0 s) :
    KeepsOutcome s0 (execTsig c s) := by
  unfold execTsig
  repeat' with_reducible first
      | assumption | intro _ | apply KeepsOutcome.next | dsimp only | split | apply State.tutorStep_keeps

theorem execTutorInstruction_keeps {s0 s : State} (c : Nat) (hs : Keeps s0 s) :
    KeepsOutcome s0 (execTutorInstruction c s) := by
  unfold execTutorInstruction
  repeat' with_reducible first
      | assumption | intro _ | apply KeepsOutcome.next | dsimp only | split | apply State.tutorStep_keeps

theorem execTwait_keeps {s0 s : State} (c : Nat) (hs : Keeps s0 s) :
    KeepsOutcome s0 (execTwait c s) := by
  unfold execTwait
  repeat' with_reducible first
      | assumption | intro _ | apply KeepsOutcome.next | dsimp only | split | apply State.tutorStep_keeps

end Sys2Proof.Machine
end

