-- ==== Sys2Proof/Laws/State.lean ====
section
/-! SUPPORT. What the updates of State leave: one lemma for each update and each field that it does not change. -/

namespace Sys2Proof.Machine

/-! ### `State.put` changes `regs` alone -/

@[simp] theorem State.variant_put (s : State) (r : Reg) (v : W64) : (s.put r v).variant = s.variant := rfl
@[simp] theorem State.fuses_put (s : State) (r : Reg) (v : W64) : (s.put r v).fuses = s.fuses := rfl
@[simp] theorem State.power_put (s : State) (r : Reg) (v : W64) : (s.put r v).power = s.power := rfl
@[simp] theorem State.factory_put (s : State) (r : Reg) (v : W64) : (s.put r v).factory = s.factory := rfl
@[simp] theorem State.layerFuses_put (s : State) (r : Reg) (v : W64) : (s.put r v).layerFuses = s.layerFuses := rfl
@[simp] theorem State.far_put (s : State) (r : Reg) (v : W64) : (s.put r v).far = s.far := rfl
@[simp] theorem State.farChk_put (s : State) (r : Reg) (v : W64) : (s.put r v).farChk = s.farChk := rfl
@[simp] theorem State.farEpoch_put (s : State) (r : Reg) (v : W64) : (s.put r v).farEpoch = s.farEpoch := rfl
@[simp] theorem State.slice_put (s : State) (r : Reg) (v : W64) : (s.put r v).slice = s.slice := rfl
@[simp] theorem State.sliceChk_put (s : State) (r : Reg) (v : W64) : (s.put r v).sliceChk = s.sliceChk := rfl
@[simp] theorem State.desk_put (s : State) (r : Reg) (v : W64) : (s.put r v).desk = s.desk := rfl
@[simp] theorem State.deskChk_put (s : State) (r : Reg) (v : W64) : (s.put r v).deskChk = s.deskChk := rfl
@[simp] theorem State.host_put (s : State) (r : Reg) (v : W64) : (s.put r v).host = s.host := rfl
@[simp] theorem State.slips_put (s : State) (r : Reg) (v : W64) : (s.put r v).slips = s.slips := rfl
@[simp] theorem State.hostFaults_put (s : State) (r : Reg) (v : W64) : (s.put r v).hostFaults = s.hostFaults := rfl
@[simp] theorem State.lines_put (s : State) (r : Reg) (v : W64) : (s.put r v).lines = s.lines := rfl
@[simp] theorem State.lineAge_put (s : State) (r : Reg) (v : W64) : (s.put r v).lineAge = s.lineAge := rfl
@[simp] theorem State.fills_put (s : State) (r : Reg) (v : W64) : (s.put r v).fills = s.fills := rfl
@[simp] theorem State.fillWaits_put (s : State) (r : Reg) (v : W64) : (s.put r v).fillWaits = s.fillWaits := rfl
@[simp] theorem State.missRecent_put (s : State) (r : Reg) (v : W64) : (s.put r v).missRecent = s.missRecent := rfl
@[simp] theorem State.purges_put (s : State) (r : Reg) (v : W64) : (s.put r v).purges = s.purges := rfl
@[simp] theorem State.frameFails_put (s : State) (r : Reg) (v : W64) : (s.put r v).frameFails = s.frameFails := rfl
@[simp] theorem State.framesRetired_put (s : State) (r : Reg) (v : W64) : (s.put r v).framesRetired = s.framesRetired := rfl
@[simp] theorem State.setChanges_put (s : State) (r : Reg) (v : W64) : (s.put r v).setChanges = s.setChanges := rfl
@[simp] theorem State.clears_put (s : State) (r : Reg) (v : W64) : (s.put r v).clears = s.clears := rfl
@[simp] theorem State.heldAccess_put (s : State) (r : Reg) (v : W64) : (s.put r v).heldAccess = s.heldAccess := rfl
@[simp] theorem State.paid_put (s : State) (r : Reg) (v : W64) : (s.put r v).paid = s.paid := rfl
@[simp] theorem State.turns_put (s : State) (r : Reg) (v : W64) : (s.put r v).turns = s.turns := rfl
@[simp] theorem State.cores_put (s : State) (r : Reg) (v : W64) : (s.put r v).cores = s.cores := rfl
@[simp] theorem State.slices_put (s : State) (r : Reg) (v : W64) : (s.put r v).slices = s.slices := rfl
@[simp] theorem State.farPorts_put (s : State) (r : Reg) (v : W64) : (s.put r v).farPorts = s.farPorts := rfl
@[simp] theorem State.ladles_put (s : State) (r : Reg) (v : W64) : (s.put r v).ladles = s.ladles := rfl
@[simp] theorem State.pails_put (s : State) (r : Reg) (v : W64) : (s.put r v).pails = s.pails := rfl
@[simp] theorem State.fabPorts_put (s : State) (r : Reg) (v : W64) : (s.put r v).fabPorts = s.fabPorts := rfl
@[simp] theorem State.fabReqs_put (s : State) (r : Reg) (v : W64) : (s.put r v).fabReqs = s.fabReqs := rfl
@[simp] theorem State.fabQuarantine_put (s : State) (r : Reg) (v : W64) : (s.put r v).fabQuarantine = s.fabQuarantine := rfl
@[simp] theorem State.fabTag_put (s : State) (r : Reg) (v : W64) : (s.put r v).fabTag = s.fabTag := rfl
@[simp] theorem State.fabWaits_put (s : State) (r : Reg) (v : W64) : (s.put r v).fabWaits = s.fabWaits := rfl
@[simp] theorem State.hostWaits_put (s : State) (r : Reg) (v : W64) : (s.put r v).hostWaits = s.hostWaits := rfl
@[simp] theorem State.routers_put (s : State) (r : Reg) (v : W64) : (s.put r v).routers = s.routers := rfl
@[simp] theorem State.ringSlots_put (s : State) (r : Reg) (v : W64) : (s.put r v).ringSlots = s.ringSlots := rfl
@[simp] theorem State.stops_put (s : State) (r : Reg) (v : W64) : (s.put r v).stops = s.stops := rfl
@[simp] theorem State.missed_put (s : State) (r : Reg) (v : W64) : (s.put r v).missed = s.missed := rfl
@[simp] theorem State.arbs_put (s : State) (r : Reg) (v : W64) : (s.put r v).arbs = s.arbs := rfl
@[simp] theorem State.xings_put (s : State) (r : Reg) (v : W64) : (s.put r v).xings = s.xings := rfl
@[simp] theorem State.modules_put (s : State) (r : Reg) (v : W64) : (s.put r v).modules = s.modules := rfl
@[simp] theorem State.edges_put (s : State) (r : Reg) (v : W64) : (s.put r v).edges = s.edges := rfl
@[simp] theorem State.deputy_put (s : State) (r : Reg) (v : W64) : (s.put r v).deputy = s.deputy := rfl
@[simp] theorem State.rings_put (s : State) (r : Reg) (v : W64) : (s.put r v).rings = s.rings := rfl
@[simp] theorem State.registrar_put (s : State) (r : Reg) (v : W64) : (s.put r v).registrar = s.registrar := rfl
@[simp] theorem State.bar4Size_put (s : State) (r : Reg) (v : W64) : (s.put r v).bar4Size = s.bar4Size := rfl
@[simp] theorem State.records_put (s : State) (r : Reg) (v : W64) : (s.put r v).records = s.records := rfl
@[simp] theorem State.domains_put (s : State) (r : Reg) (v : W64) : (s.put r v).domains = s.domains := rfl
@[simp] theorem State.homerooms_put (s : State) (r : Reg) (v : W64) : (s.put r v).homerooms = s.homerooms := rfl
@[simp] theorem State.shutdowns_put (s : State) (r : Reg) (v : W64) : (s.put r v).shutdowns = s.shutdowns := rfl
@[simp] theorem State.sessions_put (s : State) (r : Reg) (v : W64) : (s.put r v).sessions = s.sessions := rfl
@[simp] theorem State.spdm_put (s : State) (r : Reg) (v : W64) : (s.put r v).spdm = s.spdm := rfl
@[simp] theorem State.idCert_put (s : State) (r : Reg) (v : W64) : (s.put r v).idCert = s.idCert := rfl
@[simp] theorem State.boot_put (s : State) (r : Reg) (v : W64) : (s.put r v).boot = s.boot := rfl
@[simp] theorem State.image_put (s : State) (r : Reg) (v : W64) : (s.put r v).image = s.image := rfl
@[simp] theorem State.thermal_put (s : State) (r : Reg) (v : W64) : (s.put r v).thermal = s.thermal := rfl
@[simp] theorem State.defects_put (s : State) (r : Reg) (v : W64) : (s.put r v).defects = s.defects := rfl
@[simp] theorem State.relLog_put (s : State) (r : Reg) (v : W64) : (s.put r v).relLog = s.relLog := rfl
@[simp] theorem State.evqPhase_put (s : State) (r : Reg) (v : W64) : (s.put r v).evqPhase = s.evqPhase := rfl
@[simp] theorem State.officeEvents_put (s : State) (r : Reg) (v : W64) : (s.put r v).officeEvents = s.officeEvents := rfl
@[simp] theorem State.msixUnmasked_put (s : State) (r : Reg) (v : W64) : (s.put r v).msixUnmasked = s.msixUnmasked := rfl
@[simp] theorem State.msixPending_put (s : State) (r : Reg) (v : W64) : (s.put r v).msixPending = s.msixPending := rfl
@[simp] theorem State.out_put (s : State) (r : Reg) (v : W64) : (s.put r v).out = s.out := rfl
@[simp] theorem State.draws_put (s : State) (r : Reg) (v : W64) : (s.put r v).draws = s.draws := rfl
@[simp] theorem State.pending_put (s : State) (r : Reg) (v : W64) : (s.put r v).pending = s.pending := rfl

/-! ### `State.fput` changes `regs` alone -/

@[simp] theorem State.variant_fput (s : State) (r : Reg) (f : Fld) (v : Nat) : (s.fput r f v).variant = s.variant := rfl
@[simp] theorem State.fuses_fput (s : State) (r : Reg) (f : Fld) (v : Nat) : (s.fput r f v).fuses = s.fuses := rfl
@[simp] theorem State.power_fput (s : State) (r : Reg) (f : Fld) (v : Nat) : (s.fput r f v).power = s.power := rfl
@[simp] theorem State.factory_fput (s : State) (r : Reg) (f : Fld) (v : Nat) : (s.fput r f v).factory = s.factory := rfl
@[simp] theorem State.layerFuses_fput (s : State) (r : Reg) (f : Fld) (v : Nat) : (s.fput r f v).layerFuses = s.layerFuses := rfl
@[simp] theorem State.far_fput (s : State) (r : Reg) (f : Fld) (v : Nat) : (s.fput r f v).far = s.far := rfl
@[simp] theorem State.farChk_fput (s : State) (r : Reg) (f : Fld) (v : Nat) : (s.fput r f v).farChk = s.farChk := rfl
@[simp] theorem State.farEpoch_fput (s : State) (r : Reg) (f : Fld) (v : Nat) : (s.fput r f v).farEpoch = s.farEpoch := rfl
@[simp] theorem State.slice_fput (s : State) (r : Reg) (f : Fld) (v : Nat) : (s.fput r f v).slice = s.slice := rfl
@[simp] theorem State.sliceChk_fput (s : State) (r : Reg) (f : Fld) (v : Nat) : (s.fput r f v).sliceChk = s.sliceChk := rfl
@[simp] theorem State.desk_fput (s : State) (r : Reg) (f : Fld) (v : Nat) : (s.fput r f v).desk = s.desk := rfl
@[simp] theorem State.deskChk_fput (s : State) (r : Reg) (f : Fld) (v : Nat) : (s.fput r f v).deskChk = s.deskChk := rfl
@[simp] theorem State.host_fput (s : State) (r : Reg) (f : Fld) (v : Nat) : (s.fput r f v).host = s.host := rfl
@[simp] theorem State.slips_fput (s : State) (r : Reg) (f : Fld) (v : Nat) : (s.fput r f v).slips = s.slips := rfl
@[simp] theorem State.hostFaults_fput (s : State) (r : Reg) (f : Fld) (v : Nat) : (s.fput r f v).hostFaults = s.hostFaults := rfl
@[simp] theorem State.lines_fput (s : State) (r : Reg) (f : Fld) (v : Nat) : (s.fput r f v).lines = s.lines := rfl
@[simp] theorem State.lineAge_fput (s : State) (r : Reg) (f : Fld) (v : Nat) : (s.fput r f v).lineAge = s.lineAge := rfl
@[simp] theorem State.fills_fput (s : State) (r : Reg) (f : Fld) (v : Nat) : (s.fput r f v).fills = s.fills := rfl
@[simp] theorem State.fillWaits_fput (s : State) (r : Reg) (f : Fld) (v : Nat) : (s.fput r f v).fillWaits = s.fillWaits := rfl
@[simp] theorem State.missRecent_fput (s : State) (r : Reg) (f : Fld) (v : Nat) : (s.fput r f v).missRecent = s.missRecent := rfl
@[simp] theorem State.purges_fput (s : State) (r : Reg) (f : Fld) (v : Nat) : (s.fput r f v).purges = s.purges := rfl
@[simp] theorem State.frameFails_fput (s : State) (r : Reg) (f : Fld) (v : Nat) : (s.fput r f v).frameFails = s.frameFails := rfl
@[simp] theorem State.framesRetired_fput (s : State) (r : Reg) (f : Fld) (v : Nat) : (s.fput r f v).framesRetired = s.framesRetired := rfl
@[simp] theorem State.setChanges_fput (s : State) (r : Reg) (f : Fld) (v : Nat) : (s.fput r f v).setChanges = s.setChanges := rfl
@[simp] theorem State.clears_fput (s : State) (r : Reg) (f : Fld) (v : Nat) : (s.fput r f v).clears = s.clears := rfl
@[simp] theorem State.heldAccess_fput (s : State) (r : Reg) (f : Fld) (v : Nat) : (s.fput r f v).heldAccess = s.heldAccess := rfl
@[simp] theorem State.paid_fput (s : State) (r : Reg) (f : Fld) (v : Nat) : (s.fput r f v).paid = s.paid := rfl
@[simp] theorem State.turns_fput (s : State) (r : Reg) (f : Fld) (v : Nat) : (s.fput r f v).turns = s.turns := rfl
@[simp] theorem State.cores_fput (s : State) (r : Reg) (f : Fld) (v : Nat) : (s.fput r f v).cores = s.cores := rfl
@[simp] theorem State.slices_fput (s : State) (r : Reg) (f : Fld) (v : Nat) : (s.fput r f v).slices = s.slices := rfl
@[simp] theorem State.farPorts_fput (s : State) (r : Reg) (f : Fld) (v : Nat) : (s.fput r f v).farPorts = s.farPorts := rfl
@[simp] theorem State.ladles_fput (s : State) (r : Reg) (f : Fld) (v : Nat) : (s.fput r f v).ladles = s.ladles := rfl
@[simp] theorem State.pails_fput (s : State) (r : Reg) (f : Fld) (v : Nat) : (s.fput r f v).pails = s.pails := rfl
@[simp] theorem State.fabPorts_fput (s : State) (r : Reg) (f : Fld) (v : Nat) : (s.fput r f v).fabPorts = s.fabPorts := rfl
@[simp] theorem State.fabReqs_fput (s : State) (r : Reg) (f : Fld) (v : Nat) : (s.fput r f v).fabReqs = s.fabReqs := rfl
@[simp] theorem State.fabQuarantine_fput (s : State) (r : Reg) (f : Fld) (v : Nat) : (s.fput r f v).fabQuarantine = s.fabQuarantine := rfl
@[simp] theorem State.fabTag_fput (s : State) (r : Reg) (f : Fld) (v : Nat) : (s.fput r f v).fabTag = s.fabTag := rfl
@[simp] theorem State.fabWaits_fput (s : State) (r : Reg) (f : Fld) (v : Nat) : (s.fput r f v).fabWaits = s.fabWaits := rfl
@[simp] theorem State.hostWaits_fput (s : State) (r : Reg) (f : Fld) (v : Nat) : (s.fput r f v).hostWaits = s.hostWaits := rfl
@[simp] theorem State.routers_fput (s : State) (r : Reg) (f : Fld) (v : Nat) : (s.fput r f v).routers = s.routers := rfl
@[simp] theorem State.ringSlots_fput (s : State) (r : Reg) (f : Fld) (v : Nat) : (s.fput r f v).ringSlots = s.ringSlots := rfl
@[simp] theorem State.stops_fput (s : State) (r : Reg) (f : Fld) (v : Nat) : (s.fput r f v).stops = s.stops := rfl
@[simp] theorem State.missed_fput (s : State) (r : Reg) (f : Fld) (v : Nat) : (s.fput r f v).missed = s.missed := rfl
@[simp] theorem State.arbs_fput (s : State) (r : Reg) (f : Fld) (v : Nat) : (s.fput r f v).arbs = s.arbs := rfl
@[simp] theorem State.xings_fput (s : State) (r : Reg) (f : Fld) (v : Nat) : (s.fput r f v).xings = s.xings := rfl
@[simp] theorem State.modules_fput (s : State) (r : Reg) (f : Fld) (v : Nat) : (s.fput r f v).modules = s.modules := rfl
@[simp] theorem State.edges_fput (s : State) (r : Reg) (f : Fld) (v : Nat) : (s.fput r f v).edges = s.edges := rfl
@[simp] theorem State.deputy_fput (s : State) (r : Reg) (f : Fld) (v : Nat) : (s.fput r f v).deputy = s.deputy := rfl
@[simp] theorem State.rings_fput (s : State) (r : Reg) (f : Fld) (v : Nat) : (s.fput r f v).rings = s.rings := rfl
@[simp] theorem State.registrar_fput (s : State) (r : Reg) (f : Fld) (v : Nat) : (s.fput r f v).registrar = s.registrar := rfl
@[simp] theorem State.bar4Size_fput (s : State) (r : Reg) (f : Fld) (v : Nat) : (s.fput r f v).bar4Size = s.bar4Size := rfl
@[simp] theorem State.records_fput (s : State) (r : Reg) (f : Fld) (v : Nat) : (s.fput r f v).records = s.records := rfl
@[simp] theorem State.domains_fput (s : State) (r : Reg) (f : Fld) (v : Nat) : (s.fput r f v).domains = s.domains := rfl
@[simp] theorem State.homerooms_fput (s : State) (r : Reg) (f : Fld) (v : Nat) : (s.fput r f v).homerooms = s.homerooms := rfl
@[simp] theorem State.shutdowns_fput (s : State) (r : Reg) (f : Fld) (v : Nat) : (s.fput r f v).shutdowns = s.shutdowns := rfl
@[simp] theorem State.sessions_fput (s : State) (r : Reg) (f : Fld) (v : Nat) : (s.fput r f v).sessions = s.sessions := rfl
@[simp] theorem State.spdm_fput (s : State) (r : Reg) (f : Fld) (v : Nat) : (s.fput r f v).spdm = s.spdm := rfl
@[simp] theorem State.idCert_fput (s : State) (r : Reg) (f : Fld) (v : Nat) : (s.fput r f v).idCert = s.idCert := rfl
@[simp] theorem State.boot_fput (s : State) (r : Reg) (f : Fld) (v : Nat) : (s.fput r f v).boot = s.boot := rfl
@[simp] theorem State.image_fput (s : State) (r : Reg) (f : Fld) (v : Nat) : (s.fput r f v).image = s.image := rfl
@[simp] theorem State.thermal_fput (s : State) (r : Reg) (f : Fld) (v : Nat) : (s.fput r f v).thermal = s.thermal := rfl
@[simp] theorem State.defects_fput (s : State) (r : Reg) (f : Fld) (v : Nat) : (s.fput r f v).defects = s.defects := rfl
@[simp] theorem State.relLog_fput (s : State) (r : Reg) (f : Fld) (v : Nat) : (s.fput r f v).relLog = s.relLog := rfl
@[simp] theorem State.evqPhase_fput (s : State) (r : Reg) (f : Fld) (v : Nat) : (s.fput r f v).evqPhase = s.evqPhase := rfl
@[simp] theorem State.officeEvents_fput (s : State) (r : Reg) (f : Fld) (v : Nat) : (s.fput r f v).officeEvents = s.officeEvents := rfl
@[simp] theorem State.msixUnmasked_fput (s : State) (r : Reg) (f : Fld) (v : Nat) : (s.fput r f v).msixUnmasked = s.msixUnmasked := rfl
@[simp] theorem State.msixPending_fput (s : State) (r : Reg) (f : Fld) (v : Nat) : (s.fput r f v).msixPending = s.msixPending := rfl
@[simp] theorem State.out_fput (s : State) (r : Reg) (f : Fld) (v : Nat) : (s.fput r f v).out = s.out := rfl
@[simp] theorem State.draws_fput (s : State) (r : Reg) (f : Fld) (v : Nat) : (s.fput r f v).draws = s.draws := rfl
@[simp] theorem State.pending_fput (s : State) (r : Reg) (f : Fld) (v : Nat) : (s.fput r f v).pending = s.pending := rfl

/-! ### `State.fadd` changes `regs` alone -/

@[simp] theorem State.variant_fadd (s : State) (r : Reg) (f : Fld) (n : Nat) : (s.fadd r f n).variant = s.variant := rfl
@[simp] theorem State.fuses_fadd (s : State) (r : Reg) (f : Fld) (n : Nat) : (s.fadd r f n).fuses = s.fuses := rfl
@[simp] theorem State.power_fadd (s : State) (r : Reg) (f : Fld) (n : Nat) : (s.fadd r f n).power = s.power := rfl
@[simp] theorem State.factory_fadd (s : State) (r : Reg) (f : Fld) (n : Nat) : (s.fadd r f n).factory = s.factory := rfl
@[simp] theorem State.layerFuses_fadd (s : State) (r : Reg) (f : Fld) (n : Nat) : (s.fadd r f n).layerFuses = s.layerFuses := rfl
@[simp] theorem State.far_fadd (s : State) (r : Reg) (f : Fld) (n : Nat) : (s.fadd r f n).far = s.far := rfl
@[simp] theorem State.farChk_fadd (s : State) (r : Reg) (f : Fld) (n : Nat) : (s.fadd r f n).farChk = s.farChk := rfl
@[simp] theorem State.farEpoch_fadd (s : State) (r : Reg) (f : Fld) (n : Nat) : (s.fadd r f n).farEpoch = s.farEpoch := rfl
@[simp] theorem State.slice_fadd (s : State) (r : Reg) (f : Fld) (n : Nat) : (s.fadd r f n).slice = s.slice := rfl
@[simp] theorem State.sliceChk_fadd (s : State) (r : Reg) (f : Fld) (n : Nat) : (s.fadd r f n).sliceChk = s.sliceChk := rfl
@[simp] theorem State.desk_fadd (s : State) (r : Reg) (f : Fld) (n : Nat) : (s.fadd r f n).desk = s.desk := rfl
@[simp] theorem State.deskChk_fadd (s : State) (r : Reg) (f : Fld) (n : Nat) : (s.fadd r f n).deskChk = s.deskChk := rfl
@[simp] theorem State.host_fadd (s : State) (r : Reg) (f : Fld) (n : Nat) : (s.fadd r f n).host = s.host := rfl
@[simp] theorem State.slips_fadd (s : State) (r : Reg) (f : Fld) (n : Nat) : (s.fadd r f n).slips = s.slips := rfl
@[simp] theorem State.hostFaults_fadd (s : State) (r : Reg) (f : Fld) (n : Nat) : (s.fadd r f n).hostFaults = s.hostFaults := rfl
@[simp] theorem State.lines_fadd (s : State) (r : Reg) (f : Fld) (n : Nat) : (s.fadd r f n).lines = s.lines := rfl
@[simp] theorem State.lineAge_fadd (s : State) (r : Reg) (f : Fld) (n : Nat) : (s.fadd r f n).lineAge = s.lineAge := rfl
@[simp] theorem State.fills_fadd (s : State) (r : Reg) (f : Fld) (n : Nat) : (s.fadd r f n).fills = s.fills := rfl
@[simp] theorem State.fillWaits_fadd (s : State) (r : Reg) (f : Fld) (n : Nat) : (s.fadd r f n).fillWaits = s.fillWaits := rfl
@[simp] theorem State.missRecent_fadd (s : State) (r : Reg) (f : Fld) (n : Nat) : (s.fadd r f n).missRecent = s.missRecent := rfl
@[simp] theorem State.purges_fadd (s : State) (r : Reg) (f : Fld) (n : Nat) : (s.fadd r f n).purges = s.purges := rfl
@[simp] theorem State.frameFails_fadd (s : State) (r : Reg) (f : Fld) (n : Nat) : (s.fadd r f n).frameFails = s.frameFails := rfl
@[simp] theorem State.framesRetired_fadd (s : State) (r : Reg) (f : Fld) (n : Nat) : (s.fadd r f n).framesRetired = s.framesRetired := rfl
@[simp] theorem State.setChanges_fadd (s : State) (r : Reg) (f : Fld) (n : Nat) : (s.fadd r f n).setChanges = s.setChanges := rfl
@[simp] theorem State.clears_fadd (s : State) (r : Reg) (f : Fld) (n : Nat) : (s.fadd r f n).clears = s.clears := rfl
@[simp] theorem State.heldAccess_fadd (s : State) (r : Reg) (f : Fld) (n : Nat) : (s.fadd r f n).heldAccess = s.heldAccess := rfl
@[simp] theorem State.paid_fadd (s : State) (r : Reg) (f : Fld) (n : Nat) : (s.fadd r f n).paid = s.paid := rfl
@[simp] theorem State.turns_fadd (s : State) (r : Reg) (f : Fld) (n : Nat) : (s.fadd r f n).turns = s.turns := rfl
@[simp] theorem State.cores_fadd (s : State) (r : Reg) (f : Fld) (n : Nat) : (s.fadd r f n).cores = s.cores := rfl
@[simp] theorem State.slices_fadd (s : State) (r : Reg) (f : Fld) (n : Nat) : (s.fadd r f n).slices = s.slices := rfl
@[simp] theorem State.farPorts_fadd (s : State) (r : Reg) (f : Fld) (n : Nat) : (s.fadd r f n).farPorts = s.farPorts := rfl
@[simp] theorem State.ladles_fadd (s : State) (r : Reg) (f : Fld) (n : Nat) : (s.fadd r f n).ladles = s.ladles := rfl
@[simp] theorem State.pails_fadd (s : State) (r : Reg) (f : Fld) (n : Nat) : (s.fadd r f n).pails = s.pails := rfl
@[simp] theorem State.fabPorts_fadd (s : State) (r : Reg) (f : Fld) (n : Nat) : (s.fadd r f n).fabPorts = s.fabPorts := rfl
@[simp] theorem State.fabReqs_fadd (s : State) (r : Reg) (f : Fld) (n : Nat) : (s.fadd r f n).fabReqs = s.fabReqs := rfl
@[simp] theorem State.fabQuarantine_fadd (s : State) (r : Reg) (f : Fld) (n : Nat) : (s.fadd r f n).fabQuarantine = s.fabQuarantine := rfl
@[simp] theorem State.fabTag_fadd (s : State) (r : Reg) (f : Fld) (n : Nat) : (s.fadd r f n).fabTag = s.fabTag := rfl
@[simp] theorem State.fabWaits_fadd (s : State) (r : Reg) (f : Fld) (n : Nat) : (s.fadd r f n).fabWaits = s.fabWaits := rfl
@[simp] theorem State.hostWaits_fadd (s : State) (r : Reg) (f : Fld) (n : Nat) : (s.fadd r f n).hostWaits = s.hostWaits := rfl
@[simp] theorem State.routers_fadd (s : State) (r : Reg) (f : Fld) (n : Nat) : (s.fadd r f n).routers = s.routers := rfl
@[simp] theorem State.ringSlots_fadd (s : State) (r : Reg) (f : Fld) (n : Nat) : (s.fadd r f n).ringSlots = s.ringSlots := rfl
@[simp] theorem State.stops_fadd (s : State) (r : Reg) (f : Fld) (n : Nat) : (s.fadd r f n).stops = s.stops := rfl
@[simp] theorem State.missed_fadd (s : State) (r : Reg) (f : Fld) (n : Nat) : (s.fadd r f n).missed = s.missed := rfl
@[simp] theorem State.arbs_fadd (s : State) (r : Reg) (f : Fld) (n : Nat) : (s.fadd r f n).arbs = s.arbs := rfl
@[simp] theorem State.xings_fadd (s : State) (r : Reg) (f : Fld) (n : Nat) : (s.fadd r f n).xings = s.xings := rfl
@[simp] theorem State.modules_fadd (s : State) (r : Reg) (f : Fld) (n : Nat) : (s.fadd r f n).modules = s.modules := rfl
@[simp] theorem State.edges_fadd (s : State) (r : Reg) (f : Fld) (n : Nat) : (s.fadd r f n).edges = s.edges := rfl
@[simp] theorem State.deputy_fadd (s : State) (r : Reg) (f : Fld) (n : Nat) : (s.fadd r f n).deputy = s.deputy := rfl
@[simp] theorem State.rings_fadd (s : State) (r : Reg) (f : Fld) (n : Nat) : (s.fadd r f n).rings = s.rings := rfl
@[simp] theorem State.registrar_fadd (s : State) (r : Reg) (f : Fld) (n : Nat) : (s.fadd r f n).registrar = s.registrar := rfl
@[simp] theorem State.bar4Size_fadd (s : State) (r : Reg) (f : Fld) (n : Nat) : (s.fadd r f n).bar4Size = s.bar4Size := rfl
@[simp] theorem State.records_fadd (s : State) (r : Reg) (f : Fld) (n : Nat) : (s.fadd r f n).records = s.records := rfl
@[simp] theorem State.domains_fadd (s : State) (r : Reg) (f : Fld) (n : Nat) : (s.fadd r f n).domains = s.domains := rfl
@[simp] theorem State.homerooms_fadd (s : State) (r : Reg) (f : Fld) (n : Nat) : (s.fadd r f n).homerooms = s.homerooms := rfl
@[simp] theorem State.shutdowns_fadd (s : State) (r : Reg) (f : Fld) (n : Nat) : (s.fadd r f n).shutdowns = s.shutdowns := rfl
@[simp] theorem State.sessions_fadd (s : State) (r : Reg) (f : Fld) (n : Nat) : (s.fadd r f n).sessions = s.sessions := rfl
@[simp] theorem State.spdm_fadd (s : State) (r : Reg) (f : Fld) (n : Nat) : (s.fadd r f n).spdm = s.spdm := rfl
@[simp] theorem State.idCert_fadd (s : State) (r : Reg) (f : Fld) (n : Nat) : (s.fadd r f n).idCert = s.idCert := rfl
@[simp] theorem State.boot_fadd (s : State) (r : Reg) (f : Fld) (n : Nat) : (s.fadd r f n).boot = s.boot := rfl
@[simp] theorem State.image_fadd (s : State) (r : Reg) (f : Fld) (n : Nat) : (s.fadd r f n).image = s.image := rfl
@[simp] theorem State.thermal_fadd (s : State) (r : Reg) (f : Fld) (n : Nat) : (s.fadd r f n).thermal = s.thermal := rfl
@[simp] theorem State.defects_fadd (s : State) (r : Reg) (f : Fld) (n : Nat) : (s.fadd r f n).defects = s.defects := rfl
@[simp] theorem State.relLog_fadd (s : State) (r : Reg) (f : Fld) (n : Nat) : (s.fadd r f n).relLog = s.relLog := rfl
@[simp] theorem State.evqPhase_fadd (s : State) (r : Reg) (f : Fld) (n : Nat) : (s.fadd r f n).evqPhase = s.evqPhase := rfl
@[simp] theorem State.officeEvents_fadd (s : State) (r : Reg) (f : Fld) (n : Nat) : (s.fadd r f n).officeEvents = s.officeEvents := rfl
@[simp] theorem State.msixUnmasked_fadd (s : State) (r : Reg) (f : Fld) (n : Nat) : (s.fadd r f n).msixUnmasked = s.msixUnmasked := rfl
@[simp] theorem State.msixPending_fadd (s : State) (r : Reg) (f : Fld) (n : Nat) : (s.fadd r f n).msixPending = s.msixPending := rfl
@[simp] theorem State.out_fadd (s : State) (r : Reg) (f : Fld) (n : Nat) : (s.fadd r f n).out = s.out := rfl
@[simp] theorem State.draws_fadd (s : State) (r : Reg) (f : Fld) (n : Nat) : (s.fadd r f n).draws = s.draws := rfl
@[simp] theorem State.pending_fadd (s : State) (r : Reg) (f : Fld) (n : Nat) : (s.fadd r f n).pending = s.pending := rfl

/-! ### `State.emit` changes `out` alone -/

@[simp] theorem State.variant_emit (s : State) (o : Output) : (s.emit o).variant = s.variant := rfl
@[simp] theorem State.regs_emit (s : State) (o : Output) : (s.emit o).regs = s.regs := rfl
@[simp] theorem State.fuses_emit (s : State) (o : Output) : (s.emit o).fuses = s.fuses := rfl
@[simp] theorem State.power_emit (s : State) (o : Output) : (s.emit o).power = s.power := rfl
@[simp] theorem State.factory_emit (s : State) (o : Output) : (s.emit o).factory = s.factory := rfl
@[simp] theorem State.layerFuses_emit (s : State) (o : Output) : (s.emit o).layerFuses = s.layerFuses := rfl
@[simp] theorem State.far_emit (s : State) (o : Output) : (s.emit o).far = s.far := rfl
@[simp] theorem State.farChk_emit (s : State) (o : Output) : (s.emit o).farChk = s.farChk := rfl
@[simp] theorem State.farEpoch_emit (s : State) (o : Output) : (s.emit o).farEpoch = s.farEpoch := rfl
@[simp] theorem State.slice_emit (s : State) (o : Output) : (s.emit o).slice = s.slice := rfl
@[simp] theorem State.sliceChk_emit (s : State) (o : Output) : (s.emit o).sliceChk = s.sliceChk := rfl
@[simp] theorem State.desk_emit (s : State) (o : Output) : (s.emit o).desk = s.desk := rfl
@[simp] theorem State.deskChk_emit (s : State) (o : Output) : (s.emit o).deskChk = s.deskChk := rfl
@[simp] theorem State.host_emit (s : State) (o : Output) : (s.emit o).host = s.host := rfl
@[simp] theorem State.slips_emit (s : State) (o : Output) : (s.emit o).slips = s.slips := rfl
@[simp] theorem State.hostFaults_emit (s : State) (o : Output) : (s.emit o).hostFaults = s.hostFaults := rfl
@[simp] theorem State.lines_emit (s : State) (o : Output) : (s.emit o).lines = s.lines := rfl
@[simp] theorem State.lineAge_emit (s : State) (o : Output) : (s.emit o).lineAge = s.lineAge := rfl
@[simp] theorem State.fills_emit (s : State) (o : Output) : (s.emit o).fills = s.fills := rfl
@[simp] theorem State.fillWaits_emit (s : State) (o : Output) : (s.emit o).fillWaits = s.fillWaits := rfl
@[simp] theorem State.missRecent_emit (s : State) (o : Output) : (s.emit o).missRecent = s.missRecent := rfl
@[simp] theorem State.purges_emit (s : State) (o : Output) : (s.emit o).purges = s.purges := rfl
@[simp] theorem State.frameFails_emit (s : State) (o : Output) : (s.emit o).frameFails = s.frameFails := rfl
@[simp] theorem State.framesRetired_emit (s : State) (o : Output) : (s.emit o).framesRetired = s.framesRetired := rfl
@[simp] theorem State.setChanges_emit (s : State) (o : Output) : (s.emit o).setChanges = s.setChanges := rfl
@[simp] theorem State.clears_emit (s : State) (o : Output) : (s.emit o).clears = s.clears := rfl
@[simp] theorem State.heldAccess_emit (s : State) (o : Output) : (s.emit o).heldAccess = s.heldAccess := rfl
@[simp] theorem State.paid_emit (s : State) (o : Output) : (s.emit o).paid = s.paid := rfl
@[simp] theorem State.turns_emit (s : State) (o : Output) : (s.emit o).turns = s.turns := rfl
@[simp] theorem State.cores_emit (s : State) (o : Output) : (s.emit o).cores = s.cores := rfl
@[simp] theorem State.slices_emit (s : State) (o : Output) : (s.emit o).slices = s.slices := rfl
@[simp] theorem State.farPorts_emit (s : State) (o : Output) : (s.emit o).farPorts = s.farPorts := rfl
@[simp] theorem State.ladles_emit (s : State) (o : Output) : (s.emit o).ladles = s.ladles := rfl
@[simp] theorem State.pails_emit (s : State) (o : Output) : (s.emit o).pails = s.pails := rfl
@[simp] theorem State.fabPorts_emit (s : State) (o : Output) : (s.emit o).fabPorts = s.fabPorts := rfl
@[simp] theorem State.fabReqs_emit (s : State) (o : Output) : (s.emit o).fabReqs = s.fabReqs := rfl
@[simp] theorem State.fabQuarantine_emit (s : State) (o : Output) : (s.emit o).fabQuarantine = s.fabQuarantine := rfl
@[simp] theorem State.fabTag_emit (s : State) (o : Output) : (s.emit o).fabTag = s.fabTag := rfl
@[simp] theorem State.fabWaits_emit (s : State) (o : Output) : (s.emit o).fabWaits = s.fabWaits := rfl
@[simp] theorem State.hostWaits_emit (s : State) (o : Output) : (s.emit o).hostWaits = s.hostWaits := rfl
@[simp] theorem State.routers_emit (s : State) (o : Output) : (s.emit o).routers = s.routers := rfl
@[simp] theorem State.ringSlots_emit (s : State) (o : Output) : (s.emit o).ringSlots = s.ringSlots := rfl
@[simp] theorem State.stops_emit (s : State) (o : Output) : (s.emit o).stops = s.stops := rfl
@[simp] theorem State.missed_emit (s : State) (o : Output) : (s.emit o).missed = s.missed := rfl
@[simp] theorem State.arbs_emit (s : State) (o : Output) : (s.emit o).arbs = s.arbs := rfl
@[simp] theorem State.xings_emit (s : State) (o : Output) : (s.emit o).xings = s.xings := rfl
@[simp] theorem State.modules_emit (s : State) (o : Output) : (s.emit o).modules = s.modules := rfl
@[simp] theorem State.edges_emit (s : State) (o : Output) : (s.emit o).edges = s.edges := rfl
@[simp] theorem State.deputy_emit (s : State) (o : Output) : (s.emit o).deputy = s.deputy := rfl
@[simp] theorem State.rings_emit (s : State) (o : Output) : (s.emit o).rings = s.rings := rfl
@[simp] theorem State.registrar_emit (s : State) (o : Output) : (s.emit o).registrar = s.registrar := rfl
@[simp] theorem State.bar4Size_emit (s : State) (o : Output) : (s.emit o).bar4Size = s.bar4Size := rfl
@[simp] theorem State.records_emit (s : State) (o : Output) : (s.emit o).records = s.records := rfl
@[simp] theorem State.domains_emit (s : State) (o : Output) : (s.emit o).domains = s.domains := rfl
@[simp] theorem State.homerooms_emit (s : State) (o : Output) : (s.emit o).homerooms = s.homerooms := rfl
@[simp] theorem State.shutdowns_emit (s : State) (o : Output) : (s.emit o).shutdowns = s.shutdowns := rfl
@[simp] theorem State.sessions_emit (s : State) (o : Output) : (s.emit o).sessions = s.sessions := rfl
@[simp] theorem State.spdm_emit (s : State) (o : Output) : (s.emit o).spdm = s.spdm := rfl
@[simp] theorem State.idCert_emit (s : State) (o : Output) : (s.emit o).idCert = s.idCert := rfl
@[simp] theorem State.boot_emit (s : State) (o : Output) : (s.emit o).boot = s.boot := rfl
@[simp] theorem State.image_emit (s : State) (o : Output) : (s.emit o).image = s.image := rfl
@[simp] theorem State.thermal_emit (s : State) (o : Output) : (s.emit o).thermal = s.thermal := rfl
@[simp] theorem State.defects_emit (s : State) (o : Output) : (s.emit o).defects = s.defects := rfl
@[simp] theorem State.relLog_emit (s : State) (o : Output) : (s.emit o).relLog = s.relLog := rfl
@[simp] theorem State.evqPhase_emit (s : State) (o : Output) : (s.emit o).evqPhase = s.evqPhase := rfl
@[simp] theorem State.officeEvents_emit (s : State) (o : Output) : (s.emit o).officeEvents = s.officeEvents := rfl
@[simp] theorem State.msixUnmasked_emit (s : State) (o : Output) : (s.emit o).msixUnmasked = s.msixUnmasked := rfl
@[simp] theorem State.msixPending_emit (s : State) (o : Output) : (s.emit o).msixPending = s.msixPending := rfl
@[simp] theorem State.draws_emit (s : State) (o : Output) : (s.emit o).draws = s.draws := rfl
@[simp] theorem State.pending_emit (s : State) (o : Output) : (s.emit o).pending = s.pending := rfl

/-! ### `State.setCore` changes `cores` alone -/

@[simp] theorem State.variant_setCore (s : State) (c : Nat) (v : CoreSt) : (s.setCore c v).variant = s.variant := rfl
@[simp] theorem State.regs_setCore (s : State) (c : Nat) (v : CoreSt) : (s.setCore c v).regs = s.regs := rfl
@[simp] theorem State.fuses_setCore (s : State) (c : Nat) (v : CoreSt) : (s.setCore c v).fuses = s.fuses := rfl
@[simp] theorem State.power_setCore (s : State) (c : Nat) (v : CoreSt) : (s.setCore c v).power = s.power := rfl
@[simp] theorem State.factory_setCore (s : State) (c : Nat) (v : CoreSt) : (s.setCore c v).factory = s.factory := rfl
@[simp] theorem State.layerFuses_setCore (s : State) (c : Nat) (v : CoreSt) : (s.setCore c v).layerFuses = s.layerFuses := rfl
@[simp] theorem State.far_setCore (s : State) (c : Nat) (v : CoreSt) : (s.setCore c v).far = s.far := rfl
@[simp] theorem State.farChk_setCore (s : State) (c : Nat) (v : CoreSt) : (s.setCore c v).farChk = s.farChk := rfl
@[simp] theorem State.farEpoch_setCore (s : State) (c : Nat) (v : CoreSt) : (s.setCore c v).farEpoch = s.farEpoch := rfl
@[simp] theorem State.slice_setCore (s : State) (c : Nat) (v : CoreSt) : (s.setCore c v).slice = s.slice := rfl
@[simp] theorem State.sliceChk_setCore (s : State) (c : Nat) (v : CoreSt) : (s.setCore c v).sliceChk = s.sliceChk := rfl
@[simp] theorem State.desk_setCore (s : State) (c : Nat) (v : CoreSt) : (s.setCore c v).desk = s.desk := rfl
@[simp] theorem State.deskChk_setCore (s : State) (c : Nat) (v : CoreSt) : (s.setCore c v).deskChk = s.deskChk := rfl
@[simp] theorem State.host_setCore (s : State) (c : Nat) (v : CoreSt) : (s.setCore c v).host = s.host := rfl
@[simp] theorem State.slips_setCore (s : State) (c : Nat) (v : CoreSt) : (s.setCore c v).slips = s.slips := rfl
@[simp] theorem State.hostFaults_setCore (s : State) (c : Nat) (v : CoreSt) : (s.setCore c v).hostFaults = s.hostFaults := rfl
@[simp] theorem State.lines_setCore (s : State) (c : Nat) (v : CoreSt) : (s.setCore c v).lines = s.lines := rfl
@[simp] theorem State.lineAge_setCore (s : State) (c : Nat) (v : CoreSt) : (s.setCore c v).lineAge = s.lineAge := rfl
@[simp] theorem State.fills_setCore (s : State) (c : Nat) (v : CoreSt) : (s.setCore c v).fills = s.fills := rfl
@[simp] theorem State.fillWaits_setCore (s : State) (c : Nat) (v : CoreSt) : (s.setCore c v).fillWaits = s.fillWaits := rfl
@[simp] theorem State.missRecent_setCore (s : State) (c : Nat) (v : CoreSt) : (s.setCore c v).missRecent = s.missRecent := rfl
@[simp] theorem State.purges_setCore (s : State) (c : Nat) (v : CoreSt) : (s.setCore c v).purges = s.purges := rfl
@[simp] theorem State.frameFails_setCore (s : State) (c : Nat) (v : CoreSt) : (s.setCore c v).frameFails = s.frameFails := rfl
@[simp] theorem State.framesRetired_setCore (s : State) (c : Nat) (v : CoreSt) : (s.setCore c v).framesRetired = s.framesRetired := rfl
@[simp] theorem State.setChanges_setCore (s : State) (c : Nat) (v : CoreSt) : (s.setCore c v).setChanges = s.setChanges := rfl
@[simp] theorem State.clears_setCore (s : State) (c : Nat) (v : CoreSt) : (s.setCore c v).clears = s.clears := rfl
@[simp] theorem State.heldAccess_setCore (s : State) (c : Nat) (v : CoreSt) : (s.setCore c v).heldAccess = s.heldAccess := rfl
@[simp] theorem State.paid_setCore (s : State) (c : Nat) (v : CoreSt) : (s.setCore c v).paid = s.paid := rfl
@[simp] theorem State.turns_setCore (s : State) (c : Nat) (v : CoreSt) : (s.setCore c v).turns = s.turns := rfl
@[simp] theorem State.slices_setCore (s : State) (c : Nat) (v : CoreSt) : (s.setCore c v).slices = s.slices := rfl
@[simp] theorem State.farPorts_setCore (s : State) (c : Nat) (v : CoreSt) : (s.setCore c v).farPorts = s.farPorts := rfl
@[simp] theorem State.ladles_setCore (s : State) (c : Nat) (v : CoreSt) : (s.setCore c v).ladles = s.ladles := rfl
@[simp] theorem State.pails_setCore (s : State) (c : Nat) (v : CoreSt) : (s.setCore c v).pails = s.pails := rfl
@[simp] theorem State.fabPorts_setCore (s : State) (c : Nat) (v : CoreSt) : (s.setCore c v).fabPorts = s.fabPorts := rfl
@[simp] theorem State.fabReqs_setCore (s : State) (c : Nat) (v : CoreSt) : (s.setCore c v).fabReqs = s.fabReqs := rfl
@[simp] theorem State.fabQuarantine_setCore (s : State) (c : Nat) (v : CoreSt) : (s.setCore c v).fabQuarantine = s.fabQuarantine := rfl
@[simp] theorem State.fabTag_setCore (s : State) (c : Nat) (v : CoreSt) : (s.setCore c v).fabTag = s.fabTag := rfl
@[simp] theorem State.fabWaits_setCore (s : State) (c : Nat) (v : CoreSt) : (s.setCore c v).fabWaits = s.fabWaits := rfl
@[simp] theorem State.hostWaits_setCore (s : State) (c : Nat) (v : CoreSt) : (s.setCore c v).hostWaits = s.hostWaits := rfl
@[simp] theorem State.routers_setCore (s : State) (c : Nat) (v : CoreSt) : (s.setCore c v).routers = s.routers := rfl
@[simp] theorem State.ringSlots_setCore (s : State) (c : Nat) (v : CoreSt) : (s.setCore c v).ringSlots = s.ringSlots := rfl
@[simp] theorem State.stops_setCore (s : State) (c : Nat) (v : CoreSt) : (s.setCore c v).stops = s.stops := rfl
@[simp] theorem State.missed_setCore (s : State) (c : Nat) (v : CoreSt) : (s.setCore c v).missed = s.missed := rfl
@[simp] theorem State.arbs_setCore (s : State) (c : Nat) (v : CoreSt) : (s.setCore c v).arbs = s.arbs := rfl
@[simp] theorem State.xings_setCore (s : State) (c : Nat) (v : CoreSt) : (s.setCore c v).xings = s.xings := rfl
@[simp] theorem State.modules_setCore (s : State) (c : Nat) (v : CoreSt) : (s.setCore c v).modules = s.modules := rfl
@[simp] theorem State.edges_setCore (s : State) (c : Nat) (v : CoreSt) : (s.setCore c v).edges = s.edges := rfl
@[simp] theorem State.deputy_setCore (s : State) (c : Nat) (v : CoreSt) : (s.setCore c v).deputy = s.deputy := rfl
@[simp] theorem State.rings_setCore (s : State) (c : Nat) (v : CoreSt) : (s.setCore c v).rings = s.rings := rfl
@[simp] theorem State.registrar_setCore (s : State) (c : Nat) (v : CoreSt) : (s.setCore c v).registrar = s.registrar := rfl
@[simp] theorem State.bar4Size_setCore (s : State) (c : Nat) (v : CoreSt) : (s.setCore c v).bar4Size = s.bar4Size := rfl
@[simp] theorem State.records_setCore (s : State) (c : Nat) (v : CoreSt) : (s.setCore c v).records = s.records := rfl
@[simp] theorem State.domains_setCore (s : State) (c : Nat) (v : CoreSt) : (s.setCore c v).domains = s.domains := rfl
@[simp] theorem State.homerooms_setCore (s : State) (c : Nat) (v : CoreSt) : (s.setCore c v).homerooms = s.homerooms := rfl
@[simp] theorem State.shutdowns_setCore (s : State) (c : Nat) (v : CoreSt) : (s.setCore c v).shutdowns = s.shutdowns := rfl
@[simp] theorem State.sessions_setCore (s : State) (c : Nat) (v : CoreSt) : (s.setCore c v).sessions = s.sessions := rfl
@[simp] theorem State.spdm_setCore (s : State) (c : Nat) (v : CoreSt) : (s.setCore c v).spdm = s.spdm := rfl
@[simp] theorem State.idCert_setCore (s : State) (c : Nat) (v : CoreSt) : (s.setCore c v).idCert = s.idCert := rfl
@[simp] theorem State.boot_setCore (s : State) (c : Nat) (v : CoreSt) : (s.setCore c v).boot = s.boot := rfl
@[simp] theorem State.image_setCore (s : State) (c : Nat) (v : CoreSt) : (s.setCore c v).image = s.image := rfl
@[simp] theorem State.thermal_setCore (s : State) (c : Nat) (v : CoreSt) : (s.setCore c v).thermal = s.thermal := rfl
@[simp] theorem State.defects_setCore (s : State) (c : Nat) (v : CoreSt) : (s.setCore c v).defects = s.defects := rfl
@[simp] theorem State.relLog_setCore (s : State) (c : Nat) (v : CoreSt) : (s.setCore c v).relLog = s.relLog := rfl
@[simp] theorem State.evqPhase_setCore (s : State) (c : Nat) (v : CoreSt) : (s.setCore c v).evqPhase = s.evqPhase := rfl
@[simp] theorem State.officeEvents_setCore (s : State) (c : Nat) (v : CoreSt) : (s.setCore c v).officeEvents = s.officeEvents := rfl
@[simp] theorem State.msixUnmasked_setCore (s : State) (c : Nat) (v : CoreSt) : (s.setCore c v).msixUnmasked = s.msixUnmasked := rfl
@[simp] theorem State.msixPending_setCore (s : State) (c : Nat) (v : CoreSt) : (s.setCore c v).msixPending = s.msixPending := rfl
@[simp] theorem State.out_setCore (s : State) (c : Nat) (v : CoreSt) : (s.setCore c v).out = s.out := rfl
@[simp] theorem State.draws_setCore (s : State) (c : Nat) (v : CoreSt) : (s.setCore c v).draws = s.draws := rfl
@[simp] theorem State.pending_setCore (s : State) (c : Nat) (v : CoreSt) : (s.setCore c v).pending = s.pending := rfl

/-! ### `State.modCore` changes `cores` alone -/

@[simp] theorem State.variant_modCore (s : State) (c : Nat) (f : CoreSt → CoreSt) : (s.modCore c f).variant = s.variant := rfl
@[simp] theorem State.regs_modCore (s : State) (c : Nat) (f : CoreSt → CoreSt) : (s.modCore c f).regs = s.regs := rfl
@[simp] theorem State.fuses_modCore (s : State) (c : Nat) (f : CoreSt → CoreSt) : (s.modCore c f).fuses = s.fuses := rfl
@[simp] theorem State.power_modCore (s : State) (c : Nat) (f : CoreSt → CoreSt) : (s.modCore c f).power = s.power := rfl
@[simp] theorem State.factory_modCore (s : State) (c : Nat) (f : CoreSt → CoreSt) : (s.modCore c f).factory = s.factory := rfl
@[simp] theorem State.layerFuses_modCore (s : State) (c : Nat) (f : CoreSt → CoreSt) : (s.modCore c f).layerFuses = s.layerFuses := rfl
@[simp] theorem State.far_modCore (s : State) (c : Nat) (f : CoreSt → CoreSt) : (s.modCore c f).far = s.far := rfl
@[simp] theorem State.farChk_modCore (s : State) (c : Nat) (f : CoreSt → CoreSt) : (s.modCore c f).farChk = s.farChk := rfl
@[simp] theorem State.farEpoch_modCore (s : State) (c : Nat) (f : CoreSt → CoreSt) : (s.modCore c f).farEpoch = s.farEpoch := rfl
@[simp] theorem State.slice_modCore (s : State) (c : Nat) (f : CoreSt → CoreSt) : (s.modCore c f).slice = s.slice := rfl
@[simp] theorem State.sliceChk_modCore (s : State) (c : Nat) (f : CoreSt → CoreSt) : (s.modCore c f).sliceChk = s.sliceChk := rfl
@[simp] theorem State.desk_modCore (s : State) (c : Nat) (f : CoreSt → CoreSt) : (s.modCore c f).desk = s.desk := rfl
@[simp] theorem State.deskChk_modCore (s : State) (c : Nat) (f : CoreSt → CoreSt) : (s.modCore c f).deskChk = s.deskChk := rfl
@[simp] theorem State.host_modCore (s : State) (c : Nat) (f : CoreSt → CoreSt) : (s.modCore c f).host = s.host := rfl
@[simp] theorem State.slips_modCore (s : State) (c : Nat) (f : CoreSt → CoreSt) : (s.modCore c f).slips = s.slips := rfl
@[simp] theorem State.hostFaults_modCore (s : State) (c : Nat) (f : CoreSt → CoreSt) : (s.modCore c f).hostFaults = s.hostFaults := rfl
@[simp] theorem State.lines_modCore (s : State) (c : Nat) (f : CoreSt → CoreSt) : (s.modCore c f).lines = s.lines := rfl
@[simp] theorem State.lineAge_modCore (s : State) (c : Nat) (f : CoreSt → CoreSt) : (s.modCore c f).lineAge = s.lineAge := rfl
@[simp] theorem State.fills_modCore (s : State) (c : Nat) (f : CoreSt → CoreSt) : (s.modCore c f).fills = s.fills := rfl
@[simp] theorem State.fillWaits_modCore (s : State) (c : Nat) (f : CoreSt → CoreSt) : (s.modCore c f).fillWaits = s.fillWaits := rfl
@[simp] theorem State.missRecent_modCore (s : State) (c : Nat) (f : CoreSt → CoreSt) : (s.modCore c f).missRecent = s.missRecent := rfl
@[simp] theorem State.purges_modCore (s : State) (c : Nat) (f : CoreSt → CoreSt) : (s.modCore c f).purges = s.purges := rfl
@[simp] theorem State.frameFails_modCore (s : State) (c : Nat) (f : CoreSt → CoreSt) : (s.modCore c f).frameFails = s.frameFails := rfl
@[simp] theorem State.framesRetired_modCore (s : State) (c : Nat) (f : CoreSt → CoreSt) : (s.modCore c f).framesRetired = s.framesRetired := rfl
@[simp] theorem State.setChanges_modCore (s : State) (c : Nat) (f : CoreSt → CoreSt) : (s.modCore c f).setChanges = s.setChanges := rfl
@[simp] theorem State.clears_modCore (s : State) (c : Nat) (f : CoreSt → CoreSt) : (s.modCore c f).clears = s.clears := rfl
@[simp] theorem State.heldAccess_modCore (s : State) (c : Nat) (f : CoreSt → CoreSt) : (s.modCore c f).heldAccess = s.heldAccess := rfl
@[simp] theorem State.paid_modCore (s : State) (c : Nat) (f : CoreSt → CoreSt) : (s.modCore c f).paid = s.paid := rfl
@[simp] theorem State.turns_modCore (s : State) (c : Nat) (f : CoreSt → CoreSt) : (s.modCore c f).turns = s.turns := rfl
@[simp] theorem State.slices_modCore (s : State) (c : Nat) (f : CoreSt → CoreSt) : (s.modCore c f).slices = s.slices := rfl
@[simp] theorem State.farPorts_modCore (s : State) (c : Nat) (f : CoreSt → CoreSt) : (s.modCore c f).farPorts = s.farPorts := rfl
@[simp] theorem State.ladles_modCore (s : State) (c : Nat) (f : CoreSt → CoreSt) : (s.modCore c f).ladles = s.ladles := rfl
@[simp] theorem State.pails_modCore (s : State) (c : Nat) (f : CoreSt → CoreSt) : (s.modCore c f).pails = s.pails := rfl
@[simp] theorem State.fabPorts_modCore (s : State) (c : Nat) (f : CoreSt → CoreSt) : (s.modCore c f).fabPorts = s.fabPorts := rfl
@[simp] theorem State.fabReqs_modCore (s : State) (c : Nat) (f : CoreSt → CoreSt) : (s.modCore c f).fabReqs = s.fabReqs := rfl
@[simp] theorem State.fabQuarantine_modCore (s : State) (c : Nat) (f : CoreSt → CoreSt) : (s.modCore c f).fabQuarantine = s.fabQuarantine := rfl
@[simp] theorem State.fabTag_modCore (s : State) (c : Nat) (f : CoreSt → CoreSt) : (s.modCore c f).fabTag = s.fabTag := rfl
@[simp] theorem State.fabWaits_modCore (s : State) (c : Nat) (f : CoreSt → CoreSt) : (s.modCore c f).fabWaits = s.fabWaits := rfl
@[simp] theorem State.hostWaits_modCore (s : State) (c : Nat) (f : CoreSt → CoreSt) : (s.modCore c f).hostWaits = s.hostWaits := rfl
@[simp] theorem State.routers_modCore (s : State) (c : Nat) (f : CoreSt → CoreSt) : (s.modCore c f).routers = s.routers := rfl
@[simp] theorem State.ringSlots_modCore (s : State) (c : Nat) (f : CoreSt → CoreSt) : (s.modCore c f).ringSlots = s.ringSlots := rfl
@[simp] theorem State.stops_modCore (s : State) (c : Nat) (f : CoreSt → CoreSt) : (s.modCore c f).stops = s.stops := rfl
@[simp] theorem State.missed_modCore (s : State) (c : Nat) (f : CoreSt → CoreSt) : (s.modCore c f).missed = s.missed := rfl
@[simp] theorem State.arbs_modCore (s : State) (c : Nat) (f : CoreSt → CoreSt) : (s.modCore c f).arbs = s.arbs := rfl
@[simp] theorem State.xings_modCore (s : State) (c : Nat) (f : CoreSt → CoreSt) : (s.modCore c f).xings = s.xings := rfl
@[simp] theorem State.modules_modCore (s : State) (c : Nat) (f : CoreSt → CoreSt) : (s.modCore c f).modules = s.modules := rfl
@[simp] theorem State.edges_modCore (s : State) (c : Nat) (f : CoreSt → CoreSt) : (s.modCore c f).edges = s.edges := rfl
@[simp] theorem State.deputy_modCore (s : State) (c : Nat) (f : CoreSt → CoreSt) : (s.modCore c f).deputy = s.deputy := rfl
@[simp] theorem State.rings_modCore (s : State) (c : Nat) (f : CoreSt → CoreSt) : (s.modCore c f).rings = s.rings := rfl
@[simp] theorem State.registrar_modCore (s : State) (c : Nat) (f : CoreSt → CoreSt) : (s.modCore c f).registrar = s.registrar := rfl
@[simp] theorem State.bar4Size_modCore (s : State) (c : Nat) (f : CoreSt → CoreSt) : (s.modCore c f).bar4Size = s.bar4Size := rfl
@[simp] theorem State.records_modCore (s : State) (c : Nat) (f : CoreSt → CoreSt) : (s.modCore c f).records = s.records := rfl
@[simp] theorem State.domains_modCore (s : State) (c : Nat) (f : CoreSt → CoreSt) : (s.modCore c f).domains = s.domains := rfl
@[simp] theorem State.homerooms_modCore (s : State) (c : Nat) (f : CoreSt → CoreSt) : (s.modCore c f).homerooms = s.homerooms := rfl
@[simp] theorem State.shutdowns_modCore (s : State) (c : Nat) (f : CoreSt → CoreSt) : (s.modCore c f).shutdowns = s.shutdowns := rfl
@[simp] theorem State.sessions_modCore (s : State) (c : Nat) (f : CoreSt → CoreSt) : (s.modCore c f).sessions = s.sessions := rfl
@[simp] theorem State.spdm_modCore (s : State) (c : Nat) (f : CoreSt → CoreSt) : (s.modCore c f).spdm = s.spdm := rfl
@[simp] theorem State.idCert_modCore (s : State) (c : Nat) (f : CoreSt → CoreSt) : (s.modCore c f).idCert = s.idCert := rfl
@[simp] theorem State.boot_modCore (s : State) (c : Nat) (f : CoreSt → CoreSt) : (s.modCore c f).boot = s.boot := rfl
@[simp] theorem State.image_modCore (s : State) (c : Nat) (f : CoreSt → CoreSt) : (s.modCore c f).image = s.image := rfl
@[simp] theorem State.thermal_modCore (s : State) (c : Nat) (f : CoreSt → CoreSt) : (s.modCore c f).thermal = s.thermal := rfl
@[simp] theorem State.defects_modCore (s : State) (c : Nat) (f : CoreSt → CoreSt) : (s.modCore c f).defects = s.defects := rfl
@[simp] theorem State.relLog_modCore (s : State) (c : Nat) (f : CoreSt → CoreSt) : (s.modCore c f).relLog = s.relLog := rfl
@[simp] theorem State.evqPhase_modCore (s : State) (c : Nat) (f : CoreSt → CoreSt) : (s.modCore c f).evqPhase = s.evqPhase := rfl
@[simp] theorem State.officeEvents_modCore (s : State) (c : Nat) (f : CoreSt → CoreSt) : (s.modCore c f).officeEvents = s.officeEvents := rfl
@[simp] theorem State.msixUnmasked_modCore (s : State) (c : Nat) (f : CoreSt → CoreSt) : (s.modCore c f).msixUnmasked = s.msixUnmasked := rfl
@[simp] theorem State.msixPending_modCore (s : State) (c : Nat) (f : CoreSt → CoreSt) : (s.modCore c f).msixPending = s.msixPending := rfl
@[simp] theorem State.out_modCore (s : State) (c : Nat) (f : CoreSt → CoreSt) : (s.modCore c f).out = s.out := rfl
@[simp] theorem State.draws_modCore (s : State) (c : Nat) (f : CoreSt → CoreSt) : (s.modCore c f).draws = s.draws := rfl
@[simp] theorem State.pending_modCore (s : State) (c : Nat) (f : CoreSt → CoreSt) : (s.modCore c f).pending = s.pending := rfl

/-! ### `State.setNear` changes `slices` alone -/

@[simp] theorem State.variant_setNear (s : State) (c : Nat) (v : SliceSt) : (s.setNear c v).variant = s.variant := rfl
@[simp] theorem State.regs_setNear (s : State) (c : Nat) (v : SliceSt) : (s.setNear c v).regs = s.regs := rfl
@[simp] theorem State.fuses_setNear (s : State) (c : Nat) (v : SliceSt) : (s.setNear c v).fuses = s.fuses := rfl
@[simp] theorem State.power_setNear (s : State) (c : Nat) (v : SliceSt) : (s.setNear c v).power = s.power := rfl
@[simp] theorem State.factory_setNear (s : State) (c : Nat) (v : SliceSt) : (s.setNear c v).factory = s.factory := rfl
@[simp] theorem State.layerFuses_setNear (s : State) (c : Nat) (v : SliceSt) : (s.setNear c v).layerFuses = s.layerFuses := rfl
@[simp] theorem State.far_setNear (s : State) (c : Nat) (v : SliceSt) : (s.setNear c v).far = s.far := rfl
@[simp] theorem State.farChk_setNear (s : State) (c : Nat) (v : SliceSt) : (s.setNear c v).farChk = s.farChk := rfl
@[simp] theorem State.farEpoch_setNear (s : State) (c : Nat) (v : SliceSt) : (s.setNear c v).farEpoch = s.farEpoch := rfl
@[simp] theorem State.slice_setNear (s : State) (c : Nat) (v : SliceSt) : (s.setNear c v).slice = s.slice := rfl
@[simp] theorem State.sliceChk_setNear (s : State) (c : Nat) (v : SliceSt) : (s.setNear c v).sliceChk = s.sliceChk := rfl
@[simp] theorem State.desk_setNear (s : State) (c : Nat) (v : SliceSt) : (s.setNear c v).desk = s.desk := rfl
@[simp] theorem State.deskChk_setNear (s : State) (c : Nat) (v : SliceSt) : (s.setNear c v).deskChk = s.deskChk := rfl
@[simp] theorem State.host_setNear (s : State) (c : Nat) (v : SliceSt) : (s.setNear c v).host = s.host := rfl
@[simp] theorem State.slips_setNear (s : State) (c : Nat) (v : SliceSt) : (s.setNear c v).slips = s.slips := rfl
@[simp] theorem State.hostFaults_setNear (s : State) (c : Nat) (v : SliceSt) : (s.setNear c v).hostFaults = s.hostFaults := rfl
@[simp] theorem State.lines_setNear (s : State) (c : Nat) (v : SliceSt) : (s.setNear c v).lines = s.lines := rfl
@[simp] theorem State.lineAge_setNear (s : State) (c : Nat) (v : SliceSt) : (s.setNear c v).lineAge = s.lineAge := rfl
@[simp] theorem State.fills_setNear (s : State) (c : Nat) (v : SliceSt) : (s.setNear c v).fills = s.fills := rfl
@[simp] theorem State.fillWaits_setNear (s : State) (c : Nat) (v : SliceSt) : (s.setNear c v).fillWaits = s.fillWaits := rfl
@[simp] theorem State.missRecent_setNear (s : State) (c : Nat) (v : SliceSt) : (s.setNear c v).missRecent = s.missRecent := rfl
@[simp] theorem State.purges_setNear (s : State) (c : Nat) (v : SliceSt) : (s.setNear c v).purges = s.purges := rfl
@[simp] theorem State.frameFails_setNear (s : State) (c : Nat) (v : SliceSt) : (s.setNear c v).frameFails = s.frameFails := rfl
@[simp] theorem State.framesRetired_setNear (s : State) (c : Nat) (v : SliceSt) : (s.setNear c v).framesRetired = s.framesRetired := rfl
@[simp] theorem State.setChanges_setNear (s : State) (c : Nat) (v : SliceSt) : (s.setNear c v).setChanges = s.setChanges := rfl
@[simp] theorem State.clears_setNear (s : State) (c : Nat) (v : SliceSt) : (s.setNear c v).clears = s.clears := rfl
@[simp] theorem State.heldAccess_setNear (s : State) (c : Nat) (v : SliceSt) : (s.setNear c v).heldAccess = s.heldAccess := rfl
@[simp] theorem State.paid_setNear (s : State) (c : Nat) (v : SliceSt) : (s.setNear c v).paid = s.paid := rfl
@[simp] theorem State.turns_setNear (s : State) (c : Nat) (v : SliceSt) : (s.setNear c v).turns = s.turns := rfl
@[simp] theorem State.cores_setNear (s : State) (c : Nat) (v : SliceSt) : (s.setNear c v).cores = s.cores := rfl
@[simp] theorem State.farPorts_setNear (s : State) (c : Nat) (v : SliceSt) : (s.setNear c v).farPorts = s.farPorts := rfl
@[simp] theorem State.ladles_setNear (s : State) (c : Nat) (v : SliceSt) : (s.setNear c v).ladles = s.ladles := rfl
@[simp] theorem State.pails_setNear (s : State) (c : Nat) (v : SliceSt) : (s.setNear c v).pails = s.pails := rfl
@[simp] theorem State.fabPorts_setNear (s : State) (c : Nat) (v : SliceSt) : (s.setNear c v).fabPorts = s.fabPorts := rfl
@[simp] theorem State.fabReqs_setNear (s : State) (c : Nat) (v : SliceSt) : (s.setNear c v).fabReqs = s.fabReqs := rfl
@[simp] theorem State.fabQuarantine_setNear (s : State) (c : Nat) (v : SliceSt) : (s.setNear c v).fabQuarantine = s.fabQuarantine := rfl
@[simp] theorem State.fabTag_setNear (s : State) (c : Nat) (v : SliceSt) : (s.setNear c v).fabTag = s.fabTag := rfl
@[simp] theorem State.fabWaits_setNear (s : State) (c : Nat) (v : SliceSt) : (s.setNear c v).fabWaits = s.fabWaits := rfl
@[simp] theorem State.hostWaits_setNear (s : State) (c : Nat) (v : SliceSt) : (s.setNear c v).hostWaits = s.hostWaits := rfl
@[simp] theorem State.routers_setNear (s : State) (c : Nat) (v : SliceSt) : (s.setNear c v).routers = s.routers := rfl
@[simp] theorem State.ringSlots_setNear (s : State) (c : Nat) (v : SliceSt) : (s.setNear c v).ringSlots = s.ringSlots := rfl
@[simp] theorem State.stops_setNear (s : State) (c : Nat) (v : SliceSt) : (s.setNear c v).stops = s.stops := rfl
@[simp] theorem State.missed_setNear (s : State) (c : Nat) (v : SliceSt) : (s.setNear c v).missed = s.missed := rfl
@[simp] theorem State.arbs_setNear (s : State) (c : Nat) (v : SliceSt) : (s.setNear c v).arbs = s.arbs := rfl
@[simp] theorem State.xings_setNear (s : State) (c : Nat) (v : SliceSt) : (s.setNear c v).xings = s.xings := rfl
@[simp] theorem State.modules_setNear (s : State) (c : Nat) (v : SliceSt) : (s.setNear c v).modules = s.modules := rfl
@[simp] theorem State.edges_setNear (s : State) (c : Nat) (v : SliceSt) : (s.setNear c v).edges = s.edges := rfl
@[simp] theorem State.deputy_setNear (s : State) (c : Nat) (v : SliceSt) : (s.setNear c v).deputy = s.deputy := rfl
@[simp] theorem State.rings_setNear (s : State) (c : Nat) (v : SliceSt) : (s.setNear c v).rings = s.rings := rfl
@[simp] theorem State.registrar_setNear (s : State) (c : Nat) (v : SliceSt) : (s.setNear c v).registrar = s.registrar := rfl
@[simp] theorem State.bar4Size_setNear (s : State) (c : Nat) (v : SliceSt) : (s.setNear c v).bar4Size = s.bar4Size := rfl
@[simp] theorem State.records_setNear (s : State) (c : Nat) (v : SliceSt) : (s.setNear c v).records = s.records := rfl
@[simp] theorem State.domains_setNear (s : State) (c : Nat) (v : SliceSt) : (s.setNear c v).domains = s.domains := rfl
@[simp] theorem State.homerooms_setNear (s : State) (c : Nat) (v : SliceSt) : (s.setNear c v).homerooms = s.homerooms := rfl
@[simp] theorem State.shutdowns_setNear (s : State) (c : Nat) (v : SliceSt) : (s.setNear c v).shutdowns = s.shutdowns := rfl
@[simp] theorem State.sessions_setNear (s : State) (c : Nat) (v : SliceSt) : (s.setNear c v).sessions = s.sessions := rfl
@[simp] theorem State.spdm_setNear (s : State) (c : Nat) (v : SliceSt) : (s.setNear c v).spdm = s.spdm := rfl
@[simp] theorem State.idCert_setNear (s : State) (c : Nat) (v : SliceSt) : (s.setNear c v).idCert = s.idCert := rfl
@[simp] theorem State.boot_setNear (s : State) (c : Nat) (v : SliceSt) : (s.setNear c v).boot = s.boot := rfl
@[simp] theorem State.image_setNear (s : State) (c : Nat) (v : SliceSt) : (s.setNear c v).image = s.image := rfl
@[simp] theorem State.thermal_setNear (s : State) (c : Nat) (v : SliceSt) : (s.setNear c v).thermal = s.thermal := rfl
@[simp] theorem State.defects_setNear (s : State) (c : Nat) (v : SliceSt) : (s.setNear c v).defects = s.defects := rfl
@[simp] theorem State.relLog_setNear (s : State) (c : Nat) (v : SliceSt) : (s.setNear c v).relLog = s.relLog := rfl
@[simp] theorem State.evqPhase_setNear (s : State) (c : Nat) (v : SliceSt) : (s.setNear c v).evqPhase = s.evqPhase := rfl
@[simp] theorem State.officeEvents_setNear (s : State) (c : Nat) (v : SliceSt) : (s.setNear c v).officeEvents = s.officeEvents := rfl
@[simp] theorem State.msixUnmasked_setNear (s : State) (c : Nat) (v : SliceSt) : (s.setNear c v).msixUnmasked = s.msixUnmasked := rfl
@[simp] theorem State.msixPending_setNear (s : State) (c : Nat) (v : SliceSt) : (s.setNear c v).msixPending = s.msixPending := rfl
@[simp] theorem State.out_setNear (s : State) (c : Nat) (v : SliceSt) : (s.setNear c v).out = s.out := rfl
@[simp] theorem State.draws_setNear (s : State) (c : Nat) (v : SliceSt) : (s.setNear c v).draws = s.draws := rfl
@[simp] theorem State.pending_setNear (s : State) (c : Nat) (v : SliceSt) : (s.setNear c v).pending = s.pending := rfl

/-! ### `State.setFarPort` changes `farPorts` alone -/

@[simp] theorem State.variant_setFarPort (s : State) (f : Nat) (v : FarPort) : (s.setFarPort f v).variant = s.variant := rfl
@[simp] theorem State.regs_setFarPort (s : State) (f : Nat) (v : FarPort) : (s.setFarPort f v).regs = s.regs := rfl
@[simp] theorem State.fuses_setFarPort (s : State) (f : Nat) (v : FarPort) : (s.setFarPort f v).fuses = s.fuses := rfl
@[simp] theorem State.power_setFarPort (s : State) (f : Nat) (v : FarPort) : (s.setFarPort f v).power = s.power := rfl
@[simp] theorem State.factory_setFarPort (s : State) (f : Nat) (v : FarPort) : (s.setFarPort f v).factory = s.factory := rfl
@[simp] theorem State.layerFuses_setFarPort (s : State) (f : Nat) (v : FarPort) : (s.setFarPort f v).layerFuses = s.layerFuses := rfl
@[simp] theorem State.far_setFarPort (s : State) (f : Nat) (v : FarPort) : (s.setFarPort f v).far = s.far := rfl
@[simp] theorem State.farChk_setFarPort (s : State) (f : Nat) (v : FarPort) : (s.setFarPort f v).farChk = s.farChk := rfl
@[simp] theorem State.farEpoch_setFarPort (s : State) (f : Nat) (v : FarPort) : (s.setFarPort f v).farEpoch = s.farEpoch := rfl
@[simp] theorem State.slice_setFarPort (s : State) (f : Nat) (v : FarPort) : (s.setFarPort f v).slice = s.slice := rfl
@[simp] theorem State.sliceChk_setFarPort (s : State) (f : Nat) (v : FarPort) : (s.setFarPort f v).sliceChk = s.sliceChk := rfl
@[simp] theorem State.desk_setFarPort (s : State) (f : Nat) (v : FarPort) : (s.setFarPort f v).desk = s.desk := rfl
@[simp] theorem State.deskChk_setFarPort (s : State) (f : Nat) (v : FarPort) : (s.setFarPort f v).deskChk = s.deskChk := rfl
@[simp] theorem State.host_setFarPort (s : State) (f : Nat) (v : FarPort) : (s.setFarPort f v).host = s.host := rfl
@[simp] theorem State.slips_setFarPort (s : State) (f : Nat) (v : FarPort) : (s.setFarPort f v).slips = s.slips := rfl
@[simp] theorem State.hostFaults_setFarPort (s : State) (f : Nat) (v : FarPort) : (s.setFarPort f v).hostFaults = s.hostFaults := rfl
@[simp] theorem State.lines_setFarPort (s : State) (f : Nat) (v : FarPort) : (s.setFarPort f v).lines = s.lines := rfl
@[simp] theorem State.lineAge_setFarPort (s : State) (f : Nat) (v : FarPort) : (s.setFarPort f v).lineAge = s.lineAge := rfl
@[simp] theorem State.fills_setFarPort (s : State) (f : Nat) (v : FarPort) : (s.setFarPort f v).fills = s.fills := rfl
@[simp] theorem State.fillWaits_setFarPort (s : State) (f : Nat) (v : FarPort) : (s.setFarPort f v).fillWaits = s.fillWaits := rfl
@[simp] theorem State.missRecent_setFarPort (s : State) (f : Nat) (v : FarPort) : (s.setFarPort f v).missRecent = s.missRecent := rfl
@[simp] theorem State.purges_setFarPort (s : State) (f : Nat) (v : FarPort) : (s.setFarPort f v).purges = s.purges := rfl
@[simp] theorem State.frameFails_setFarPort (s : State) (f : Nat) (v : FarPort) : (s.setFarPort f v).frameFails = s.frameFails := rfl
@[simp] theorem State.framesRetired_setFarPort (s : State) (f : Nat) (v : FarPort) : (s.setFarPort f v).framesRetired = s.framesRetired := rfl
@[simp] theorem State.setChanges_setFarPort (s : State) (f : Nat) (v : FarPort) : (s.setFarPort f v).setChanges = s.setChanges := rfl
@[simp] theorem State.clears_setFarPort (s : State) (f : Nat) (v : FarPort) : (s.setFarPort f v).clears = s.clears := rfl
@[simp] theorem State.heldAccess_setFarPort (s : State) (f : Nat) (v : FarPort) : (s.setFarPort f v).heldAccess = s.heldAccess := rfl
@[simp] theorem State.paid_setFarPort (s : State) (f : Nat) (v : FarPort) : (s.setFarPort f v).paid = s.paid := rfl
@[simp] theorem State.turns_setFarPort (s : State) (f : Nat) (v : FarPort) : (s.setFarPort f v).turns = s.turns := rfl
@[simp] theorem State.cores_setFarPort (s : State) (f : Nat) (v : FarPort) : (s.setFarPort f v).cores = s.cores := rfl
@[simp] theorem State.slices_setFarPort (s : State) (f : Nat) (v : FarPort) : (s.setFarPort f v).slices = s.slices := rfl
@[simp] theorem State.ladles_setFarPort (s : State) (f : Nat) (v : FarPort) : (s.setFarPort f v).ladles = s.ladles := rfl
@[simp] theorem State.pails_setFarPort (s : State) (f : Nat) (v : FarPort) : (s.setFarPort f v).pails = s.pails := rfl
@[simp] theorem State.fabPorts_setFarPort (s : State) (f : Nat) (v : FarPort) : (s.setFarPort f v).fabPorts = s.fabPorts := rfl
@[simp] theorem State.fabReqs_setFarPort (s : State) (f : Nat) (v : FarPort) : (s.setFarPort f v).fabReqs = s.fabReqs := rfl
@[simp] theorem State.fabQuarantine_setFarPort (s : State) (f : Nat) (v : FarPort) : (s.setFarPort f v).fabQuarantine = s.fabQuarantine := rfl
@[simp] theorem State.fabTag_setFarPort (s : State) (f : Nat) (v : FarPort) : (s.setFarPort f v).fabTag = s.fabTag := rfl
@[simp] theorem State.fabWaits_setFarPort (s : State) (f : Nat) (v : FarPort) : (s.setFarPort f v).fabWaits = s.fabWaits := rfl
@[simp] theorem State.hostWaits_setFarPort (s : State) (f : Nat) (v : FarPort) : (s.setFarPort f v).hostWaits = s.hostWaits := rfl
@[simp] theorem State.routers_setFarPort (s : State) (f : Nat) (v : FarPort) : (s.setFarPort f v).routers = s.routers := rfl
@[simp] theorem State.ringSlots_setFarPort (s : State) (f : Nat) (v : FarPort) : (s.setFarPort f v).ringSlots = s.ringSlots := rfl
@[simp] theorem State.stops_setFarPort (s : State) (f : Nat) (v : FarPort) : (s.setFarPort f v).stops = s.stops := rfl
@[simp] theorem State.missed_setFarPort (s : State) (f : Nat) (v : FarPort) : (s.setFarPort f v).missed = s.missed := rfl
@[simp] theorem State.arbs_setFarPort (s : State) (f : Nat) (v : FarPort) : (s.setFarPort f v).arbs = s.arbs := rfl
@[simp] theorem State.xings_setFarPort (s : State) (f : Nat) (v : FarPort) : (s.setFarPort f v).xings = s.xings := rfl
@[simp] theorem State.modules_setFarPort (s : State) (f : Nat) (v : FarPort) : (s.setFarPort f v).modules = s.modules := rfl
@[simp] theorem State.edges_setFarPort (s : State) (f : Nat) (v : FarPort) : (s.setFarPort f v).edges = s.edges := rfl
@[simp] theorem State.deputy_setFarPort (s : State) (f : Nat) (v : FarPort) : (s.setFarPort f v).deputy = s.deputy := rfl
@[simp] theorem State.rings_setFarPort (s : State) (f : Nat) (v : FarPort) : (s.setFarPort f v).rings = s.rings := rfl
@[simp] theorem State.registrar_setFarPort (s : State) (f : Nat) (v : FarPort) : (s.setFarPort f v).registrar = s.registrar := rfl
@[simp] theorem State.bar4Size_setFarPort (s : State) (f : Nat) (v : FarPort) : (s.setFarPort f v).bar4Size = s.bar4Size := rfl
@[simp] theorem State.records_setFarPort (s : State) (f : Nat) (v : FarPort) : (s.setFarPort f v).records = s.records := rfl
@[simp] theorem State.domains_setFarPort (s : State) (f : Nat) (v : FarPort) : (s.setFarPort f v).domains = s.domains := rfl
@[simp] theorem State.homerooms_setFarPort (s : State) (f : Nat) (v : FarPort) : (s.setFarPort f v).homerooms = s.homerooms := rfl
@[simp] theorem State.shutdowns_setFarPort (s : State) (f : Nat) (v : FarPort) : (s.setFarPort f v).shutdowns = s.shutdowns := rfl
@[simp] theorem State.sessions_setFarPort (s : State) (f : Nat) (v : FarPort) : (s.setFarPort f v).sessions = s.sessions := rfl
@[simp] theorem State.spdm_setFarPort (s : State) (f : Nat) (v : FarPort) : (s.setFarPort f v).spdm = s.spdm := rfl
@[simp] theorem State.idCert_setFarPort (s : State) (f : Nat) (v : FarPort) : (s.setFarPort f v).idCert = s.idCert := rfl
@[simp] theorem State.boot_setFarPort (s : State) (f : Nat) (v : FarPort) : (s.setFarPort f v).boot = s.boot := rfl
@[simp] theorem State.image_setFarPort (s : State) (f : Nat) (v : FarPort) : (s.setFarPort f v).image = s.image := rfl
@[simp] theorem State.thermal_setFarPort (s : State) (f : Nat) (v : FarPort) : (s.setFarPort f v).thermal = s.thermal := rfl
@[simp] theorem State.defects_setFarPort (s : State) (f : Nat) (v : FarPort) : (s.setFarPort f v).defects = s.defects := rfl
@[simp] theorem State.relLog_setFarPort (s : State) (f : Nat) (v : FarPort) : (s.setFarPort f v).relLog = s.relLog := rfl
@[simp] theorem State.evqPhase_setFarPort (s : State) (f : Nat) (v : FarPort) : (s.setFarPort f v).evqPhase = s.evqPhase := rfl
@[simp] theorem State.officeEvents_setFarPort (s : State) (f : Nat) (v : FarPort) : (s.setFarPort f v).officeEvents = s.officeEvents := rfl
@[simp] theorem State.msixUnmasked_setFarPort (s : State) (f : Nat) (v : FarPort) : (s.setFarPort f v).msixUnmasked = s.msixUnmasked := rfl
@[simp] theorem State.msixPending_setFarPort (s : State) (f : Nat) (v : FarPort) : (s.setFarPort f v).msixPending = s.msixPending := rfl
@[simp] theorem State.out_setFarPort (s : State) (f : Nat) (v : FarPort) : (s.setFarPort f v).out = s.out := rfl
@[simp] theorem State.draws_setFarPort (s : State) (f : Nat) (v : FarPort) : (s.setFarPort f v).draws = s.draws := rfl
@[simp] theorem State.pending_setFarPort (s : State) (f : Nat) (v : FarPort) : (s.setFarPort f v).pending = s.pending := rfl

/-! ### `State.setPail` changes `pails` alone -/

@[simp] theorem State.variant_setPail (s : State) (d : Nat) (v : PailMgr) : (s.setPail d v).variant = s.variant := rfl
@[simp] theorem State.regs_setPail (s : State) (d : Nat) (v : PailMgr) : (s.setPail d v).regs = s.regs := rfl
@[simp] theorem State.fuses_setPail (s : State) (d : Nat) (v : PailMgr) : (s.setPail d v).fuses = s.fuses := rfl
@[simp] theorem State.power_setPail (s : State) (d : Nat) (v : PailMgr) : (s.setPail d v).power = s.power := rfl
@[simp] theorem State.factory_setPail (s : State) (d : Nat) (v : PailMgr) : (s.setPail d v).factory = s.factory := rfl
@[simp] theorem State.layerFuses_setPail (s : State) (d : Nat) (v : PailMgr) : (s.setPail d v).layerFuses = s.layerFuses := rfl
@[simp] theorem State.far_setPail (s : State) (d : Nat) (v : PailMgr) : (s.setPail d v).far = s.far := rfl
@[simp] theorem State.farChk_setPail (s : State) (d : Nat) (v : PailMgr) : (s.setPail d v).farChk = s.farChk := rfl
@[simp] theorem State.farEpoch_setPail (s : State) (d : Nat) (v : PailMgr) : (s.setPail d v).farEpoch = s.farEpoch := rfl
@[simp] theorem State.slice_setPail (s : State) (d : Nat) (v : PailMgr) : (s.setPail d v).slice = s.slice := rfl
@[simp] theorem State.sliceChk_setPail (s : State) (d : Nat) (v : PailMgr) : (s.setPail d v).sliceChk = s.sliceChk := rfl
@[simp] theorem State.desk_setPail (s : State) (d : Nat) (v : PailMgr) : (s.setPail d v).desk = s.desk := rfl
@[simp] theorem State.deskChk_setPail (s : State) (d : Nat) (v : PailMgr) : (s.setPail d v).deskChk = s.deskChk := rfl
@[simp] theorem State.host_setPail (s : State) (d : Nat) (v : PailMgr) : (s.setPail d v).host = s.host := rfl
@[simp] theorem State.slips_setPail (s : State) (d : Nat) (v : PailMgr) : (s.setPail d v).slips = s.slips := rfl
@[simp] theorem State.hostFaults_setPail (s : State) (d : Nat) (v : PailMgr) : (s.setPail d v).hostFaults = s.hostFaults := rfl
@[simp] theorem State.lines_setPail (s : State) (d : Nat) (v : PailMgr) : (s.setPail d v).lines = s.lines := rfl
@[simp] theorem State.lineAge_setPail (s : State) (d : Nat) (v : PailMgr) : (s.setPail d v).lineAge = s.lineAge := rfl
@[simp] theorem State.fills_setPail (s : State) (d : Nat) (v : PailMgr) : (s.setPail d v).fills = s.fills := rfl
@[simp] theorem State.fillWaits_setPail (s : State) (d : Nat) (v : PailMgr) : (s.setPail d v).fillWaits = s.fillWaits := rfl
@[simp] theorem State.missRecent_setPail (s : State) (d : Nat) (v : PailMgr) : (s.setPail d v).missRecent = s.missRecent := rfl
@[simp] theorem State.purges_setPail (s : State) (d : Nat) (v : PailMgr) : (s.setPail d v).purges = s.purges := rfl
@[simp] theorem State.frameFails_setPail (s : State) (d : Nat) (v : PailMgr) : (s.setPail d v).frameFails = s.frameFails := rfl
@[simp] theorem State.framesRetired_setPail (s : State) (d : Nat) (v : PailMgr) : (s.setPail d v).framesRetired = s.framesRetired := rfl
@[simp] theorem State.setChanges_setPail (s : State) (d : Nat) (v : PailMgr) : (s.setPail d v).setChanges = s.setChanges := rfl
@[simp] theorem State.clears_setPail (s : State) (d : Nat) (v : PailMgr) : (s.setPail d v).clears = s.clears := rfl
@[simp] theorem State.heldAccess_setPail (s : State) (d : Nat) (v : PailMgr) : (s.setPail d v).heldAccess = s.heldAccess := rfl
@[simp] theorem State.paid_setPail (s : State) (d : Nat) (v : PailMgr) : (s.setPail d v).paid = s.paid := rfl
@[simp] theorem State.turns_setPail (s : State) (d : Nat) (v : PailMgr) : (s.setPail d v).turns = s.turns := rfl
@[simp] theorem State.cores_setPail (s : State) (d : Nat) (v : PailMgr) : (s.setPail d v).cores = s.cores := rfl
@[simp] theorem State.slices_setPail (s : State) (d : Nat) (v : PailMgr) : (s.setPail d v).slices = s.slices := rfl
@[simp] theorem State.farPorts_setPail (s : State) (d : Nat) (v : PailMgr) : (s.setPail d v).farPorts = s.farPorts := rfl
@[simp] theorem State.ladles_setPail (s : State) (d : Nat) (v : PailMgr) : (s.setPail d v).ladles = s.ladles := rfl
@[simp] theorem State.fabPorts_setPail (s : State) (d : Nat) (v : PailMgr) : (s.setPail d v).fabPorts = s.fabPorts := rfl
@[simp] theorem State.fabReqs_setPail (s : State) (d : Nat) (v : PailMgr) : (s.setPail d v).fabReqs = s.fabReqs := rfl
@[simp] theorem State.fabQuarantine_setPail (s : State) (d : Nat) (v : PailMgr) : (s.setPail d v).fabQuarantine = s.fabQuarantine := rfl
@[simp] theorem State.fabTag_setPail (s : State) (d : Nat) (v : PailMgr) : (s.setPail d v).fabTag = s.fabTag := rfl
@[simp] theorem State.fabWaits_setPail (s : State) (d : Nat) (v : PailMgr) : (s.setPail d v).fabWaits = s.fabWaits := rfl
@[simp] theorem State.hostWaits_setPail (s : State) (d : Nat) (v : PailMgr) : (s.setPail d v).hostWaits = s.hostWaits := rfl
@[simp] theorem State.routers_setPail (s : State) (d : Nat) (v : PailMgr) : (s.setPail d v).routers = s.routers := rfl
@[simp] theorem State.ringSlots_setPail (s : State) (d : Nat) (v : PailMgr) : (s.setPail d v).ringSlots = s.ringSlots := rfl
@[simp] theorem State.stops_setPail (s : State) (d : Nat) (v : PailMgr) : (s.setPail d v).stops = s.stops := rfl
@[simp] theorem State.missed_setPail (s : State) (d : Nat) (v : PailMgr) : (s.setPail d v).missed = s.missed := rfl
@[simp] theorem State.arbs_setPail (s : State) (d : Nat) (v : PailMgr) : (s.setPail d v).arbs = s.arbs := rfl
@[simp] theorem State.xings_setPail (s : State) (d : Nat) (v : PailMgr) : (s.setPail d v).xings = s.xings := rfl
@[simp] theorem State.modules_setPail (s : State) (d : Nat) (v : PailMgr) : (s.setPail d v).modules = s.modules := rfl
@[simp] theorem State.edges_setPail (s : State) (d : Nat) (v : PailMgr) : (s.setPail d v).edges = s.edges := rfl
@[simp] theorem State.deputy_setPail (s : State) (d : Nat) (v : PailMgr) : (s.setPail d v).deputy = s.deputy := rfl
@[simp] theorem State.rings_setPail (s : State) (d : Nat) (v : PailMgr) : (s.setPail d v).rings = s.rings := rfl
@[simp] theorem State.registrar_setPail (s : State) (d : Nat) (v : PailMgr) : (s.setPail d v).registrar = s.registrar := rfl
@[simp] theorem State.bar4Size_setPail (s : State) (d : Nat) (v : PailMgr) : (s.setPail d v).bar4Size = s.bar4Size := rfl
@[simp] theorem State.records_setPail (s : State) (d : Nat) (v : PailMgr) : (s.setPail d v).records = s.records := rfl
@[simp] theorem State.domains_setPail (s : State) (d : Nat) (v : PailMgr) : (s.setPail d v).domains = s.domains := rfl
@[simp] theorem State.homerooms_setPail (s : State) (d : Nat) (v : PailMgr) : (s.setPail d v).homerooms = s.homerooms := rfl
@[simp] theorem State.shutdowns_setPail (s : State) (d : Nat) (v : PailMgr) : (s.setPail d v).shutdowns = s.shutdowns := rfl
@[simp] theorem State.sessions_setPail (s : State) (d : Nat) (v : PailMgr) : (s.setPail d v).sessions = s.sessions := rfl
@[simp] theorem State.spdm_setPail (s : State) (d : Nat) (v : PailMgr) : (s.setPail d v).spdm = s.spdm := rfl
@[simp] theorem State.idCert_setPail (s : State) (d : Nat) (v : PailMgr) : (s.setPail d v).idCert = s.idCert := rfl
@[simp] theorem State.boot_setPail (s : State) (d : Nat) (v : PailMgr) : (s.setPail d v).boot = s.boot := rfl
@[simp] theorem State.image_setPail (s : State) (d : Nat) (v : PailMgr) : (s.setPail d v).image = s.image := rfl
@[simp] theorem State.thermal_setPail (s : State) (d : Nat) (v : PailMgr) : (s.setPail d v).thermal = s.thermal := rfl
@[simp] theorem State.defects_setPail (s : State) (d : Nat) (v : PailMgr) : (s.setPail d v).defects = s.defects := rfl
@[simp] theorem State.relLog_setPail (s : State) (d : Nat) (v : PailMgr) : (s.setPail d v).relLog = s.relLog := rfl
@[simp] theorem State.evqPhase_setPail (s : State) (d : Nat) (v : PailMgr) : (s.setPail d v).evqPhase = s.evqPhase := rfl
@[simp] theorem State.officeEvents_setPail (s : State) (d : Nat) (v : PailMgr) : (s.setPail d v).officeEvents = s.officeEvents := rfl
@[simp] theorem State.msixUnmasked_setPail (s : State) (d : Nat) (v : PailMgr) : (s.setPail d v).msixUnmasked = s.msixUnmasked := rfl
@[simp] theorem State.msixPending_setPail (s : State) (d : Nat) (v : PailMgr) : (s.setPail d v).msixPending = s.msixPending := rfl
@[simp] theorem State.out_setPail (s : State) (d : Nat) (v : PailMgr) : (s.setPail d v).out = s.out := rfl
@[simp] theorem State.draws_setPail (s : State) (d : Nat) (v : PailMgr) : (s.setPail d v).draws = s.draws := rfl
@[simp] theorem State.pending_setPail (s : State) (d : Nat) (v : PailMgr) : (s.setPail d v).pending = s.pending := rfl

/-! ### `State.setHr` changes `homerooms` alone -/

@[simp] theorem State.variant_setHr (s : State) (h : Nat) (v : Homeroom) : (s.setHr h v).variant = s.variant := rfl
@[simp] theorem State.regs_setHr (s : State) (h : Nat) (v : Homeroom) : (s.setHr h v).regs = s.regs := rfl
@[simp] theorem State.fuses_setHr (s : State) (h : Nat) (v : Homeroom) : (s.setHr h v).fuses = s.fuses := rfl
@[simp] theorem State.power_setHr (s : State) (h : Nat) (v : Homeroom) : (s.setHr h v).power = s.power := rfl
@[simp] theorem State.factory_setHr (s : State) (h : Nat) (v : Homeroom) : (s.setHr h v).factory = s.factory := rfl
@[simp] theorem State.layerFuses_setHr (s : State) (h : Nat) (v : Homeroom) : (s.setHr h v).layerFuses = s.layerFuses := rfl
@[simp] theorem State.far_setHr (s : State) (h : Nat) (v : Homeroom) : (s.setHr h v).far = s.far := rfl
@[simp] theorem State.farChk_setHr (s : State) (h : Nat) (v : Homeroom) : (s.setHr h v).farChk = s.farChk := rfl
@[simp] theorem State.farEpoch_setHr (s : State) (h : Nat) (v : Homeroom) : (s.setHr h v).farEpoch = s.farEpoch := rfl
@[simp] theorem State.slice_setHr (s : State) (h : Nat) (v : Homeroom) : (s.setHr h v).slice = s.slice := rfl
@[simp] theorem State.sliceChk_setHr (s : State) (h : Nat) (v : Homeroom) : (s.setHr h v).sliceChk = s.sliceChk := rfl
@[simp] theorem State.desk_setHr (s : State) (h : Nat) (v : Homeroom) : (s.setHr h v).desk = s.desk := rfl
@[simp] theorem State.deskChk_setHr (s : State) (h : Nat) (v : Homeroom) : (s.setHr h v).deskChk = s.deskChk := rfl
@[simp] theorem State.host_setHr (s : State) (h : Nat) (v : Homeroom) : (s.setHr h v).host = s.host := rfl
@[simp] theorem State.slips_setHr (s : State) (h : Nat) (v : Homeroom) : (s.setHr h v).slips = s.slips := rfl
@[simp] theorem State.hostFaults_setHr (s : State) (h : Nat) (v : Homeroom) : (s.setHr h v).hostFaults = s.hostFaults := rfl
@[simp] theorem State.lines_setHr (s : State) (h : Nat) (v : Homeroom) : (s.setHr h v).lines = s.lines := rfl
@[simp] theorem State.lineAge_setHr (s : State) (h : Nat) (v : Homeroom) : (s.setHr h v).lineAge = s.lineAge := rfl
@[simp] theorem State.fills_setHr (s : State) (h : Nat) (v : Homeroom) : (s.setHr h v).fills = s.fills := rfl
@[simp] theorem State.fillWaits_setHr (s : State) (h : Nat) (v : Homeroom) : (s.setHr h v).fillWaits = s.fillWaits := rfl
@[simp] theorem State.missRecent_setHr (s : State) (h : Nat) (v : Homeroom) : (s.setHr h v).missRecent = s.missRecent := rfl
@[simp] theorem State.purges_setHr (s : State) (h : Nat) (v : Homeroom) : (s.setHr h v).purges = s.purges := rfl
@[simp] theorem State.frameFails_setHr (s : State) (h : Nat) (v : Homeroom) : (s.setHr h v).frameFails = s.frameFails := rfl
@[simp] theorem State.framesRetired_setHr (s : State) (h : Nat) (v : Homeroom) : (s.setHr h v).framesRetired = s.framesRetired := rfl
@[simp] theorem State.setChanges_setHr (s : State) (h : Nat) (v : Homeroom) : (s.setHr h v).setChanges = s.setChanges := rfl
@[simp] theorem State.clears_setHr (s : State) (h : Nat) (v : Homeroom) : (s.setHr h v).clears = s.clears := rfl
@[simp] theorem State.heldAccess_setHr (s : State) (h : Nat) (v : Homeroom) : (s.setHr h v).heldAccess = s.heldAccess := rfl
@[simp] theorem State.paid_setHr (s : State) (h : Nat) (v : Homeroom) : (s.setHr h v).paid = s.paid := rfl
@[simp] theorem State.turns_setHr (s : State) (h : Nat) (v : Homeroom) : (s.setHr h v).turns = s.turns := rfl
@[simp] theorem State.cores_setHr (s : State) (h : Nat) (v : Homeroom) : (s.setHr h v).cores = s.cores := rfl
@[simp] theorem State.slices_setHr (s : State) (h : Nat) (v : Homeroom) : (s.setHr h v).slices = s.slices := rfl
@[simp] theorem State.farPorts_setHr (s : State) (h : Nat) (v : Homeroom) : (s.setHr h v).farPorts = s.farPorts := rfl
@[simp] theorem State.ladles_setHr (s : State) (h : Nat) (v : Homeroom) : (s.setHr h v).ladles = s.ladles := rfl
@[simp] theorem State.pails_setHr (s : State) (h : Nat) (v : Homeroom) : (s.setHr h v).pails = s.pails := rfl
@[simp] theorem State.fabPorts_setHr (s : State) (h : Nat) (v : Homeroom) : (s.setHr h v).fabPorts = s.fabPorts := rfl
@[simp] theorem State.fabReqs_setHr (s : State) (h : Nat) (v : Homeroom) : (s.setHr h v).fabReqs = s.fabReqs := rfl
@[simp] theorem State.fabQuarantine_setHr (s : State) (h : Nat) (v : Homeroom) : (s.setHr h v).fabQuarantine = s.fabQuarantine := rfl
@[simp] theorem State.fabTag_setHr (s : State) (h : Nat) (v : Homeroom) : (s.setHr h v).fabTag = s.fabTag := rfl
@[simp] theorem State.fabWaits_setHr (s : State) (h : Nat) (v : Homeroom) : (s.setHr h v).fabWaits = s.fabWaits := rfl
@[simp] theorem State.hostWaits_setHr (s : State) (h : Nat) (v : Homeroom) : (s.setHr h v).hostWaits = s.hostWaits := rfl
@[simp] theorem State.routers_setHr (s : State) (h : Nat) (v : Homeroom) : (s.setHr h v).routers = s.routers := rfl
@[simp] theorem State.ringSlots_setHr (s : State) (h : Nat) (v : Homeroom) : (s.setHr h v).ringSlots = s.ringSlots := rfl
@[simp] theorem State.stops_setHr (s : State) (h : Nat) (v : Homeroom) : (s.setHr h v).stops = s.stops := rfl
@[simp] theorem State.missed_setHr (s : State) (h : Nat) (v : Homeroom) : (s.setHr h v).missed = s.missed := rfl
@[simp] theorem State.arbs_setHr (s : State) (h : Nat) (v : Homeroom) : (s.setHr h v).arbs = s.arbs := rfl
@[simp] theorem State.xings_setHr (s : State) (h : Nat) (v : Homeroom) : (s.setHr h v).xings = s.xings := rfl
@[simp] theorem State.modules_setHr (s : State) (h : Nat) (v : Homeroom) : (s.setHr h v).modules = s.modules := rfl
@[simp] theorem State.edges_setHr (s : State) (h : Nat) (v : Homeroom) : (s.setHr h v).edges = s.edges := rfl
@[simp] theorem State.deputy_setHr (s : State) (h : Nat) (v : Homeroom) : (s.setHr h v).deputy = s.deputy := rfl
@[simp] theorem State.rings_setHr (s : State) (h : Nat) (v : Homeroom) : (s.setHr h v).rings = s.rings := rfl
@[simp] theorem State.registrar_setHr (s : State) (h : Nat) (v : Homeroom) : (s.setHr h v).registrar = s.registrar := rfl
@[simp] theorem State.bar4Size_setHr (s : State) (h : Nat) (v : Homeroom) : (s.setHr h v).bar4Size = s.bar4Size := rfl
@[simp] theorem State.records_setHr (s : State) (h : Nat) (v : Homeroom) : (s.setHr h v).records = s.records := rfl
@[simp] theorem State.domains_setHr (s : State) (h : Nat) (v : Homeroom) : (s.setHr h v).domains = s.domains := rfl
@[simp] theorem State.shutdowns_setHr (s : State) (h : Nat) (v : Homeroom) : (s.setHr h v).shutdowns = s.shutdowns := rfl
@[simp] theorem State.sessions_setHr (s : State) (h : Nat) (v : Homeroom) : (s.setHr h v).sessions = s.sessions := rfl
@[simp] theorem State.spdm_setHr (s : State) (h : Nat) (v : Homeroom) : (s.setHr h v).spdm = s.spdm := rfl
@[simp] theorem State.idCert_setHr (s : State) (h : Nat) (v : Homeroom) : (s.setHr h v).idCert = s.idCert := rfl
@[simp] theorem State.boot_setHr (s : State) (h : Nat) (v : Homeroom) : (s.setHr h v).boot = s.boot := rfl
@[simp] theorem State.image_setHr (s : State) (h : Nat) (v : Homeroom) : (s.setHr h v).image = s.image := rfl
@[simp] theorem State.thermal_setHr (s : State) (h : Nat) (v : Homeroom) : (s.setHr h v).thermal = s.thermal := rfl
@[simp] theorem State.defects_setHr (s : State) (h : Nat) (v : Homeroom) : (s.setHr h v).defects = s.defects := rfl
@[simp] theorem State.relLog_setHr (s : State) (h : Nat) (v : Homeroom) : (s.setHr h v).relLog = s.relLog := rfl
@[simp] theorem State.evqPhase_setHr (s : State) (h : Nat) (v : Homeroom) : (s.setHr h v).evqPhase = s.evqPhase := rfl
@[simp] theorem State.officeEvents_setHr (s : State) (h : Nat) (v : Homeroom) : (s.setHr h v).officeEvents = s.officeEvents := rfl
@[simp] theorem State.msixUnmasked_setHr (s : State) (h : Nat) (v : Homeroom) : (s.setHr h v).msixUnmasked = s.msixUnmasked := rfl
@[simp] theorem State.msixPending_setHr (s : State) (h : Nat) (v : Homeroom) : (s.setHr h v).msixPending = s.msixPending := rfl
@[simp] theorem State.out_setHr (s : State) (h : Nat) (v : Homeroom) : (s.setHr h v).out = s.out := rfl
@[simp] theorem State.draws_setHr (s : State) (h : Nat) (v : Homeroom) : (s.setHr h v).draws = s.draws := rfl
@[simp] theorem State.pending_setHr (s : State) (h : Nat) (v : Homeroom) : (s.setHr h v).pending = s.pending := rfl

/-! ### `State.sendRecord` changes `records` alone -/

@[simp] theorem State.variant_sendRecord (s : State) (r : UnitRecord) : (s.sendRecord r).variant = s.variant := rfl
@[simp] theorem State.regs_sendRecord (s : State) (r : UnitRecord) : (s.sendRecord r).regs = s.regs := rfl
@[simp] theorem State.fuses_sendRecord (s : State) (r : UnitRecord) : (s.sendRecord r).fuses = s.fuses := rfl
@[simp] theorem State.power_sendRecord (s : State) (r : UnitRecord) : (s.sendRecord r).power = s.power := rfl
@[simp] theorem State.factory_sendRecord (s : State) (r : UnitRecord) : (s.sendRecord r).factory = s.factory := rfl
@[simp] theorem State.layerFuses_sendRecord (s : State) (r : UnitRecord) : (s.sendRecord r).layerFuses = s.layerFuses := rfl
@[simp] theorem State.far_sendRecord (s : State) (r : UnitRecord) : (s.sendRecord r).far = s.far := rfl
@[simp] theorem State.farChk_sendRecord (s : State) (r : UnitRecord) : (s.sendRecord r).farChk = s.farChk := rfl
@[simp] theorem State.farEpoch_sendRecord (s : State) (r : UnitRecord) : (s.sendRecord r).farEpoch = s.farEpoch := rfl
@[simp] theorem State.slice_sendRecord (s : State) (r : UnitRecord) : (s.sendRecord r).slice = s.slice := rfl
@[simp] theorem State.sliceChk_sendRecord (s : State) (r : UnitRecord) : (s.sendRecord r).sliceChk = s.sliceChk := rfl
@[simp] theorem State.desk_sendRecord (s : State) (r : UnitRecord) : (s.sendRecord r).desk = s.desk := rfl
@[simp] theorem State.deskChk_sendRecord (s : State) (r : UnitRecord) : (s.sendRecord r).deskChk = s.deskChk := rfl
@[simp] theorem State.host_sendRecord (s : State) (r : UnitRecord) : (s.sendRecord r).host = s.host := rfl
@[simp] theorem State.slips_sendRecord (s : State) (r : UnitRecord) : (s.sendRecord r).slips = s.slips := rfl
@[simp] theorem State.hostFaults_sendRecord (s : State) (r : UnitRecord) : (s.sendRecord r).hostFaults = s.hostFaults := rfl
@[simp] theorem State.lines_sendRecord (s : State) (r : UnitRecord) : (s.sendRecord r).lines = s.lines := rfl
@[simp] theorem State.lineAge_sendRecord (s : State) (r : UnitRecord) : (s.sendRecord r).lineAge = s.lineAge := rfl
@[simp] theorem State.fills_sendRecord (s : State) (r : UnitRecord) : (s.sendRecord r).fills = s.fills := rfl
@[simp] theorem State.fillWaits_sendRecord (s : State) (r : UnitRecord) : (s.sendRecord r).fillWaits = s.fillWaits := rfl
@[simp] theorem State.missRecent_sendRecord (s : State) (r : UnitRecord) : (s.sendRecord r).missRecent = s.missRecent := rfl
@[simp] theorem State.purges_sendRecord (s : State) (r : UnitRecord) : (s.sendRecord r).purges = s.purges := rfl
@[simp] theorem State.frameFails_sendRecord (s : State) (r : UnitRecord) : (s.sendRecord r).frameFails = s.frameFails := rfl
@[simp] theorem State.framesRetired_sendRecord (s : State) (r : UnitRecord) : (s.sendRecord r).framesRetired = s.framesRetired := rfl
@[simp] theorem State.setChanges_sendRecord (s : State) (r : UnitRecord) : (s.sendRecord r).setChanges = s.setChanges := rfl
@[simp] theorem State.clears_sendRecord (s : State) (r : UnitRecord) : (s.sendRecord r).clears = s.clears := rfl
@[simp] theorem State.heldAccess_sendRecord (s : State) (r : UnitRecord) : (s.sendRecord r).heldAccess = s.heldAccess := rfl
@[simp] theorem State.paid_sendRecord (s : State) (r : UnitRecord) : (s.sendRecord r).paid = s.paid := rfl
@[simp] theorem State.turns_sendRecord (s : State) (r : UnitRecord) : (s.sendRecord r).turns = s.turns := rfl
@[simp] theorem State.cores_sendRecord (s : State) (r : UnitRecord) : (s.sendRecord r).cores = s.cores := rfl
@[simp] theorem State.slices_sendRecord (s : State) (r : UnitRecord) : (s.sendRecord r).slices = s.slices := rfl
@[simp] theorem State.farPorts_sendRecord (s : State) (r : UnitRecord) : (s.sendRecord r).farPorts = s.farPorts := rfl
@[simp] theorem State.ladles_sendRecord (s : State) (r : UnitRecord) : (s.sendRecord r).ladles = s.ladles := rfl
@[simp] theorem State.pails_sendRecord (s : State) (r : UnitRecord) : (s.sendRecord r).pails = s.pails := rfl
@[simp] theorem State.fabPorts_sendRecord (s : State) (r : UnitRecord) : (s.sendRecord r).fabPorts = s.fabPorts := rfl
@[simp] theorem State.fabReqs_sendRecord (s : State) (r : UnitRecord) : (s.sendRecord r).fabReqs = s.fabReqs := rfl
@[simp] theorem State.fabQuarantine_sendRecord (s : State) (r : UnitRecord) : (s.sendRecord r).fabQuarantine = s.fabQuarantine := rfl
@[simp] theorem State.fabTag_sendRecord (s : State) (r : UnitRecord) : (s.sendRecord r).fabTag = s.fabTag := rfl
@[simp] theorem State.fabWaits_sendRecord (s : State) (r : UnitRecord) : (s.sendRecord r).fabWaits = s.fabWaits := rfl
@[simp] theorem State.hostWaits_sendRecord (s : State) (r : UnitRecord) : (s.sendRecord r).hostWaits = s.hostWaits := rfl
@[simp] theorem State.routers_sendRecord (s : State) (r : UnitRecord) : (s.sendRecord r).routers = s.routers := rfl
@[simp] theorem State.ringSlots_sendRecord (s : State) (r : UnitRecord) : (s.sendRecord r).ringSlots = s.ringSlots := rfl
@[simp] theorem State.stops_sendRecord (s : State) (r : UnitRecord) : (s.sendRecord r).stops = s.stops := rfl
@[simp] theorem State.missed_sendRecord (s : State) (r : UnitRecord) : (s.sendRecord r).missed = s.missed := rfl
@[simp] theorem State.arbs_sendRecord (s : State) (r : UnitRecord) : (s.sendRecord r).arbs = s.arbs := rfl
@[simp] theorem State.xings_sendRecord (s : State) (r : UnitRecord) : (s.sendRecord r).xings = s.xings := rfl
@[simp] theorem State.modules_sendRecord (s : State) (r : UnitRecord) : (s.sendRecord r).modules = s.modules := rfl
@[simp] theorem State.edges_sendRecord (s : State) (r : UnitRecord) : (s.sendRecord r).edges = s.edges := rfl
@[simp] theorem State.deputy_sendRecord (s : State) (r : UnitRecord) : (s.sendRecord r).deputy = s.deputy := rfl
@[simp] theorem State.rings_sendRecord (s : State) (r : UnitRecord) : (s.sendRecord r).rings = s.rings := rfl
@[simp] theorem State.registrar_sendRecord (s : State) (r : UnitRecord) : (s.sendRecord r).registrar = s.registrar := rfl
@[simp] theorem State.bar4Size_sendRecord (s : State) (r : UnitRecord) : (s.sendRecord r).bar4Size = s.bar4Size := rfl
@[simp] theorem State.domains_sendRecord (s : State) (r : UnitRecord) : (s.sendRecord r).domains = s.domains := rfl
@[simp] theorem State.homerooms_sendRecord (s : State) (r : UnitRecord) : (s.sendRecord r).homerooms = s.homerooms := rfl
@[simp] theorem State.shutdowns_sendRecord (s : State) (r : UnitRecord) : (s.sendRecord r).shutdowns = s.shutdowns := rfl
@[simp] theorem State.sessions_sendRecord (s : State) (r : UnitRecord) : (s.sendRecord r).sessions = s.sessions := rfl
@[simp] theorem State.spdm_sendRecord (s : State) (r : UnitRecord) : (s.sendRecord r).spdm = s.spdm := rfl
@[simp] theorem State.idCert_sendRecord (s : State) (r : UnitRecord) : (s.sendRecord r).idCert = s.idCert := rfl
@[simp] theorem State.boot_sendRecord (s : State) (r : UnitRecord) : (s.sendRecord r).boot = s.boot := rfl
@[simp] theorem State.image_sendRecord (s : State) (r : UnitRecord) : (s.sendRecord r).image = s.image := rfl
@[simp] theorem State.thermal_sendRecord (s : State) (r : UnitRecord) : (s.sendRecord r).thermal = s.thermal := rfl
@[simp] theorem State.defects_sendRecord (s : State) (r : UnitRecord) : (s.sendRecord r).defects = s.defects := rfl
@[simp] theorem State.relLog_sendRecord (s : State) (r : UnitRecord) : (s.sendRecord r).relLog = s.relLog := rfl
@[simp] theorem State.evqPhase_sendRecord (s : State) (r : UnitRecord) : (s.sendRecord r).evqPhase = s.evqPhase := rfl
@[simp] theorem State.officeEvents_sendRecord (s : State) (r : UnitRecord) : (s.sendRecord r).officeEvents = s.officeEvents := rfl
@[simp] theorem State.msixUnmasked_sendRecord (s : State) (r : UnitRecord) : (s.sendRecord r).msixUnmasked = s.msixUnmasked := rfl
@[simp] theorem State.msixPending_sendRecord (s : State) (r : UnitRecord) : (s.sendRecord r).msixPending = s.msixPending := rfl
@[simp] theorem State.out_sendRecord (s : State) (r : UnitRecord) : (s.sendRecord r).out = s.out := rfl
@[simp] theorem State.draws_sendRecord (s : State) (r : UnitRecord) : (s.sendRecord r).draws = s.draws := rfl
@[simp] theorem State.pending_sendRecord (s : State) (r : UnitRecord) : (s.sendRecord r).pending = s.pending := rfl

/-! ### `State.relAdd` changes `relLog` alone -/

@[simp] theorem State.variant_relAdd (s : State) (e : RelEntry) : (s.relAdd e).variant = s.variant := rfl
@[simp] theorem State.regs_relAdd (s : State) (e : RelEntry) : (s.relAdd e).regs = s.regs := rfl
@[simp] theorem State.fuses_relAdd (s : State) (e : RelEntry) : (s.relAdd e).fuses = s.fuses := rfl
@[simp] theorem State.power_relAdd (s : State) (e : RelEntry) : (s.relAdd e).power = s.power := rfl
@[simp] theorem State.factory_relAdd (s : State) (e : RelEntry) : (s.relAdd e).factory = s.factory := rfl
@[simp] theorem State.layerFuses_relAdd (s : State) (e : RelEntry) : (s.relAdd e).layerFuses = s.layerFuses := rfl
@[simp] theorem State.far_relAdd (s : State) (e : RelEntry) : (s.relAdd e).far = s.far := rfl
@[simp] theorem State.farChk_relAdd (s : State) (e : RelEntry) : (s.relAdd e).farChk = s.farChk := rfl
@[simp] theorem State.farEpoch_relAdd (s : State) (e : RelEntry) : (s.relAdd e).farEpoch = s.farEpoch := rfl
@[simp] theorem State.slice_relAdd (s : State) (e : RelEntry) : (s.relAdd e).slice = s.slice := rfl
@[simp] theorem State.sliceChk_relAdd (s : State) (e : RelEntry) : (s.relAdd e).sliceChk = s.sliceChk := rfl
@[simp] theorem State.desk_relAdd (s : State) (e : RelEntry) : (s.relAdd e).desk = s.desk := rfl
@[simp] theorem State.deskChk_relAdd (s : State) (e : RelEntry) : (s.relAdd e).deskChk = s.deskChk := rfl
@[simp] theorem State.host_relAdd (s : State) (e : RelEntry) : (s.relAdd e).host = s.host := rfl
@[simp] theorem State.slips_relAdd (s : State) (e : RelEntry) : (s.relAdd e).slips = s.slips := rfl
@[simp] theorem State.hostFaults_relAdd (s : State) (e : RelEntry) : (s.relAdd e).hostFaults = s.hostFaults := rfl
@[simp] theorem State.lines_relAdd (s : State) (e : RelEntry) : (s.relAdd e).lines = s.lines := rfl
@[simp] theorem State.lineAge_relAdd (s : State) (e : RelEntry) : (s.relAdd e).lineAge = s.lineAge := rfl
@[simp] theorem State.fills_relAdd (s : State) (e : RelEntry) : (s.relAdd e).fills = s.fills := rfl
@[simp] theorem State.fillWaits_relAdd (s : State) (e : RelEntry) : (s.relAdd e).fillWaits = s.fillWaits := rfl
@[simp] theorem State.missRecent_relAdd (s : State) (e : RelEntry) : (s.relAdd e).missRecent = s.missRecent := rfl
@[simp] theorem State.purges_relAdd (s : State) (e : RelEntry) : (s.relAdd e).purges = s.purges := rfl
@[simp] theorem State.frameFails_relAdd (s : State) (e : RelEntry) : (s.relAdd e).frameFails = s.frameFails := rfl
@[simp] theorem State.framesRetired_relAdd (s : State) (e : RelEntry) : (s.relAdd e).framesRetired = s.framesRetired := rfl
@[simp] theorem State.setChanges_relAdd (s : State) (e : RelEntry) : (s.relAdd e).setChanges = s.setChanges := rfl
@[simp] theorem State.clears_relAdd (s : State) (e : RelEntry) : (s.relAdd e).clears = s.clears := rfl
@[simp] theorem State.heldAccess_relAdd (s : State) (e : RelEntry) : (s.relAdd e).heldAccess = s.heldAccess := rfl
@[simp] theorem State.paid_relAdd (s : State) (e : RelEntry) : (s.relAdd e).paid = s.paid := rfl
@[simp] theorem State.turns_relAdd (s : State) (e : RelEntry) : (s.relAdd e).turns = s.turns := rfl
@[simp] theorem State.cores_relAdd (s : State) (e : RelEntry) : (s.relAdd e).cores = s.cores := rfl
@[simp] theorem State.slices_relAdd (s : State) (e : RelEntry) : (s.relAdd e).slices = s.slices := rfl
@[simp] theorem State.farPorts_relAdd (s : State) (e : RelEntry) : (s.relAdd e).farPorts = s.farPorts := rfl
@[simp] theorem State.ladles_relAdd (s : State) (e : RelEntry) : (s.relAdd e).ladles = s.ladles := rfl
@[simp] theorem State.pails_relAdd (s : State) (e : RelEntry) : (s.relAdd e).pails = s.pails := rfl
@[simp] theorem State.fabPorts_relAdd (s : State) (e : RelEntry) : (s.relAdd e).fabPorts = s.fabPorts := rfl
@[simp] theorem State.fabReqs_relAdd (s : State) (e : RelEntry) : (s.relAdd e).fabReqs = s.fabReqs := rfl
@[simp] theorem State.fabQuarantine_relAdd (s : State) (e : RelEntry) : (s.relAdd e).fabQuarantine = s.fabQuarantine := rfl
@[simp] theorem State.fabTag_relAdd (s : State) (e : RelEntry) : (s.relAdd e).fabTag = s.fabTag := rfl
@[simp] theorem State.fabWaits_relAdd (s : State) (e : RelEntry) : (s.relAdd e).fabWaits = s.fabWaits := rfl
@[simp] theorem State.hostWaits_relAdd (s : State) (e : RelEntry) : (s.relAdd e).hostWaits = s.hostWaits := rfl
@[simp] theorem State.routers_relAdd (s : State) (e : RelEntry) : (s.relAdd e).routers = s.routers := rfl
@[simp] theorem State.ringSlots_relAdd (s : State) (e : RelEntry) : (s.relAdd e).ringSlots = s.ringSlots := rfl
@[simp] theorem State.stops_relAdd (s : State) (e : RelEntry) : (s.relAdd e).stops = s.stops := rfl
@[simp] theorem State.missed_relAdd (s : State) (e : RelEntry) : (s.relAdd e).missed = s.missed := rfl
@[simp] theorem State.arbs_relAdd (s : State) (e : RelEntry) : (s.relAdd e).arbs = s.arbs := rfl
@[simp] theorem State.xings_relAdd (s : State) (e : RelEntry) : (s.relAdd e).xings = s.xings := rfl
@[simp] theorem State.modules_relAdd (s : State) (e : RelEntry) : (s.relAdd e).modules = s.modules := rfl
@[simp] theorem State.edges_relAdd (s : State) (e : RelEntry) : (s.relAdd e).edges = s.edges := rfl
@[simp] theorem State.deputy_relAdd (s : State) (e : RelEntry) : (s.relAdd e).deputy = s.deputy := rfl
@[simp] theorem State.rings_relAdd (s : State) (e : RelEntry) : (s.relAdd e).rings = s.rings := rfl
@[simp] theorem State.registrar_relAdd (s : State) (e : RelEntry) : (s.relAdd e).registrar = s.registrar := rfl
@[simp] theorem State.bar4Size_relAdd (s : State) (e : RelEntry) : (s.relAdd e).bar4Size = s.bar4Size := rfl
@[simp] theorem State.records_relAdd (s : State) (e : RelEntry) : (s.relAdd e).records = s.records := rfl
@[simp] theorem State.domains_relAdd (s : State) (e : RelEntry) : (s.relAdd e).domains = s.domains := rfl
@[simp] theorem State.homerooms_relAdd (s : State) (e : RelEntry) : (s.relAdd e).homerooms = s.homerooms := rfl
@[simp] theorem State.shutdowns_relAdd (s : State) (e : RelEntry) : (s.relAdd e).shutdowns = s.shutdowns := rfl
@[simp] theorem State.sessions_relAdd (s : State) (e : RelEntry) : (s.relAdd e).sessions = s.sessions := rfl
@[simp] theorem State.spdm_relAdd (s : State) (e : RelEntry) : (s.relAdd e).spdm = s.spdm := rfl
@[simp] theorem State.idCert_relAdd (s : State) (e : RelEntry) : (s.relAdd e).idCert = s.idCert := rfl
@[simp] theorem State.boot_relAdd (s : State) (e : RelEntry) : (s.relAdd e).boot = s.boot := rfl
@[simp] theorem State.image_relAdd (s : State) (e : RelEntry) : (s.relAdd e).image = s.image := rfl
@[simp] theorem State.thermal_relAdd (s : State) (e : RelEntry) : (s.relAdd e).thermal = s.thermal := rfl
@[simp] theorem State.defects_relAdd (s : State) (e : RelEntry) : (s.relAdd e).defects = s.defects := rfl
@[simp] theorem State.evqPhase_relAdd (s : State) (e : RelEntry) : (s.relAdd e).evqPhase = s.evqPhase := rfl
@[simp] theorem State.officeEvents_relAdd (s : State) (e : RelEntry) : (s.relAdd e).officeEvents = s.officeEvents := rfl
@[simp] theorem State.msixUnmasked_relAdd (s : State) (e : RelEntry) : (s.relAdd e).msixUnmasked = s.msixUnmasked := rfl
@[simp] theorem State.msixPending_relAdd (s : State) (e : RelEntry) : (s.relAdd e).msixPending = s.msixPending := rfl
@[simp] theorem State.out_relAdd (s : State) (e : RelEntry) : (s.relAdd e).out = s.out := rfl
@[simp] theorem State.draws_relAdd (s : State) (e : RelEntry) : (s.relAdd e).draws = s.draws := rfl
@[simp] theorem State.pending_relAdd (s : State) (e : RelEntry) : (s.relAdd e).pending = s.pending := rfl

end Sys2Proof.Machine
end

