-- ==== Sys2Proof/Laws/Units.lean ====
section
/-! SUPPORT. Units by number: what a unit reads after a unit of its kind is replaced, and that registers and units do not touch one another. -/

namespace Sys2Proof.Machine

/-! ### A unit that has been replaced, and the others of its kind -/

@[simp] theorem State.core_setCore_same (s : State) (c : Nat) (x : CoreSt) : (s.setCore c x).core c = x := by simp [State.core, State.setCore]
theorem State.core_setCore_ne (s : State) {c j : Nat} (x : CoreSt) (h : j ≠ c) : (s.setCore c x).core j = s.core j := by
  simp [State.core, State.setCore, smGet_smPut_ne _ _ _ h]
@[simp] theorem State.near_setNear_same (s : State) (c : Nat) (x : SliceSt) : (s.setNear c x).near c = x := by simp [State.near, State.setNear]
theorem State.near_setNear_ne (s : State) {c j : Nat} (x : SliceSt) (h : j ≠ c) : (s.setNear c x).near j = s.near j := by
  simp [State.near, State.setNear, smGet_smPut_ne _ _ _ h]
@[simp] theorem State.farPort_setFarPort_same (s : State) (f : Nat) (x : FarPort) : (s.setFarPort f x).farPort f = x := by simp [State.farPort, State.setFarPort]
theorem State.farPort_setFarPort_ne (s : State) {f j : Nat} (x : FarPort) (h : j ≠ f) : (s.setFarPort f x).farPort j = s.farPort j := by
  simp [State.farPort, State.setFarPort, smGet_smPut_ne _ _ _ h]
@[simp] theorem State.ladle_setLadle_same (s : State) (f : Nat) (x : LadlePort) : (s.setLadle f x).ladle f = x := by simp [State.ladle, State.setLadle]
theorem State.ladle_setLadle_ne (s : State) {f j : Nat} (x : LadlePort) (h : j ≠ f) : (s.setLadle f x).ladle j = s.ladle j := by
  simp [State.ladle, State.setLadle, smGet_smPut_ne _ _ _ h]
@[simp] theorem State.hr_setHr_same (s : State) (k : Nat) (x : Homeroom) : (s.setHr k x).hr k = x := by simp [State.hr, State.setHr]
theorem State.hr_setHr_ne (s : State) {k j : Nat} (x : Homeroom) (h : j ≠ k) : (s.setHr k x).hr j = s.hr j := by
  simp [State.hr, State.setHr, smGet_smPut_ne _ _ _ h]
@[simp] theorem State.pail_setPail_same (s : State) (d : Nat) (x : PailMgr) : (s.setPail d x).pail d = x := by simp [State.pail, State.setPail]
theorem State.pail_setPail_ne (s : State) {d j : Nat} (x : PailMgr) (h : j ≠ d) : (s.setPail d x).pail j = s.pail j := by
  simp [State.pail, State.setPail, smGet_smPut_ne _ _ _ h]
@[simp] theorem State.sq_setSq_same (s : State) (n : Nat) (x : RingSt) : (s.setSq n x).sq n = x := by simp [State.sq, State.setSq]
theorem State.sq_setSq_ne (s : State) {n j : Nat} (x : RingSt) (h : j ≠ n) : (s.setSq n x).sq j = s.sq j := by
  simp [State.sq, State.setSq, smGet_smPut_ne _ _ _ h]
@[simp] theorem State.fab_setFab_same (s : State) (d p : Nat) (x : FabPort) : (s.setFab d p x).fab d p = x := by simp [State.fab, State.setFab]
theorem State.fab_setFab_ne (s : State) {d p d' p' : Nat} (x : FabPort) (h : 6 * d' + p' ≠ 6 * d + p) : (s.setFab d p x).fab d' p' = s.fab d' p' := by
  simp [State.fab, State.setFab, smGet_smPut_ne _ _ _ h]
@[simp] theorem State.arb_setArb_same (s : State) (d sel : Nat) (x : ArbSt) : (s.setArb d sel x).arb d sel = x := by simp [State.arb, State.setArb]
theorem State.arb_setArb_ne (s : State) {d sel d' sel' : Nat} (x : ArbSt) (h : selKey d' sel' ≠ selKey d sel) : (s.setArb d sel x).arb d' sel' = s.arb d' sel' := by
  simp [State.arb, State.setArb, smGet_smPut_ne _ _ _ h]
@[simp] theorem State.xing_setXing_same (s : State) (d sel : Nat) (x : XingSt) : (s.setXing d sel x).xing d sel = x := by simp [State.xing, State.setXing]
theorem State.xing_setXing_ne (s : State) {d sel d' sel' : Nat} (x : XingSt) (h : selKey d' sel' ≠ selKey d sel) : (s.setXing d sel x).xing d' sel' = s.xing d' sel' := by
  simp [State.xing, State.setXing, smGet_smPut_ne _ _ _ h]
@[simp] theorem State.router_setRouter_same (s : State) (d node : Nat) (x : RouterSt) : (s.setRouter d node x).router d node = x := by simp [State.router, State.setRouter]
theorem State.router_setRouter_ne (s : State) {d node d' node' : Nat} (x : RouterSt) (h : 64 * d' + node' ≠ 64 * d + node) : (s.setRouter d node x).router d' node' = s.router d' node' := by
  simp [State.router, State.setRouter, smGet_smPut_ne _ _ _ h]
@[simp] theorem State.stop_setStop_same (s : State) (d stop : Nat) (x : StopSt) : (s.setStop d stop x).stop d stop = x := by simp [State.stop, State.setStop]
theorem State.stop_setStop_ne (s : State) {d stop d' stop' : Nat} (x : StopSt) (h : 64 * d' + stop' ≠ 64 * d + stop) : (s.setStop d stop x).stop d' stop' = s.stop d' stop' := by
  simp [State.stop, State.setStop, smGet_smPut_ne _ _ _ h]
@[simp] theorem State.edge_setEdge_same (s : State) (d e : Nat) (x : EdgeSt) : (s.setEdge d e x).edge d e = x := by simp [State.edge, State.setEdge]
theorem State.edge_setEdge_ne (s : State) {d e d' e' : Nat} (x : EdgeSt) (h : d' * 4 + e' ≠ d * 4 + e) : (s.setEdge d e x).edge d' e' = s.edge d' e' := by
  simp [State.edge, State.setEdge, smGet_smPut_ne _ _ _ h]
@[simp] theorem State.module_setModule_same (s : State) (d e m : Nat) (x : ModuleSt) : (s.setModule d e m x).module d e m = x := by simp [State.module, State.setModule]
theorem State.module_setModule_ne (s : State) {d e m d' e' m' : Nat} (x : ModuleSt) (h : (d' * 4 + e') * 32 + m' ≠ (d * 4 + e) * 32 + m) : (s.setModule d e m x).module d' e' m' = s.module d' e' m' := by
  simp [State.module, State.setModule, smGet_smPut_ne _ _ _ h]

@[simp] theorem State.core_modCore_same (s : State) (c : Nat) (f : CoreSt → CoreSt) : (s.modCore c f).core c = f (s.core c) := by simp [State.modCore]
theorem State.core_modCore_ne (s : State) {c j : Nat} (f : CoreSt → CoreSt) (h : j ≠ c) : (s.modCore c f).core j = s.core j := s.core_setCore_ne _ h

/-! ### Registers are not changed by units -/

@[simp] theorem State.get_setCore (s : State) (c : Nat) (x : CoreSt) (r : Reg) : (s.setCore c x).get r = s.get r := rfl
@[simp] theorem State.fget_setCore (s : State) (c : Nat) (x : CoreSt) (r : Reg) (g : Fld) : (s.setCore c x).fget r g = s.fget r g := rfl
@[simp] theorem State.get_setNear (s : State) (c : Nat) (x : SliceSt) (r : Reg) : (s.setNear c x).get r = s.get r := rfl
@[simp] theorem State.fget_setNear (s : State) (c : Nat) (x : SliceSt) (r : Reg) (g : Fld) : (s.setNear c x).fget r g = s.fget r g := rfl
@[simp] theorem State.get_setFarPort (s : State) (f : Nat) (x : FarPort) (r : Reg) : (s.setFarPort f x).get r = s.get r := rfl
@[simp] theorem State.fget_setFarPort (s : State) (f : Nat) (x : FarPort) (r : Reg) (g : Fld) : (s.setFarPort f x).fget r g = s.fget r g := rfl
@[simp] theorem State.get_setLadle (s : State) (f : Nat) (x : LadlePort) (r : Reg) : (s.setLadle f x).get r = s.get r := rfl
@[simp] theorem State.fget_setLadle (s : State) (f : Nat) (x : LadlePort) (r : Reg) (g : Fld) : (s.setLadle f x).fget r g = s.fget r g := rfl
@[simp] theorem State.get_setHr (s : State) (h : Nat) (x : Homeroom) (r : Reg) : (s.setHr h x).get r = s.get r := rfl
@[simp] theorem State.fget_setHr (s : State) (h : Nat) (x : Homeroom) (r : Reg) (g : Fld) : (s.setHr h x).fget r g = s.fget r g := rfl
@[simp] theorem State.get_setPail (s : State) (d : Nat) (x : PailMgr) (r : Reg) : (s.setPail d x).get r = s.get r := rfl
@[simp] theorem State.fget_setPail (s : State) (d : Nat) (x : PailMgr) (r : Reg) (g : Fld) : (s.setPail d x).fget r g = s.fget r g := rfl
@[simp] theorem State.get_setSq (s : State) (n : Nat) (x : RingSt) (r : Reg) : (s.setSq n x).get r = s.get r := rfl
@[simp] theorem State.fget_setSq (s : State) (n : Nat) (x : RingSt) (r : Reg) (g : Fld) : (s.setSq n x).fget r g = s.fget r g := rfl
@[simp] theorem State.get_setFab (s : State) (d p : Nat) (x : FabPort) (r : Reg) : (s.setFab d p x).get r = s.get r := rfl
@[simp] theorem State.fget_setFab (s : State) (d p : Nat) (x : FabPort) (r : Reg) (g : Fld) : (s.setFab d p x).fget r g = s.fget r g := rfl
@[simp] theorem State.get_setArb (s : State) (d sel : Nat) (x : ArbSt) (r : Reg) : (s.setArb d sel x).get r = s.get r := rfl
@[simp] theorem State.fget_setArb (s : State) (d sel : Nat) (x : ArbSt) (r : Reg) (g : Fld) : (s.setArb d sel x).fget r g = s.fget r g := rfl
@[simp] theorem State.get_setXing (s : State) (d sel : Nat) (x : XingSt) (r : Reg) : (s.setXing d sel x).get r = s.get r := rfl
@[simp] theorem State.fget_setXing (s : State) (d sel : Nat) (x : XingSt) (r : Reg) (g : Fld) : (s.setXing d sel x).fget r g = s.fget r g := rfl
@[simp] theorem State.get_setRouter (s : State) (d node : Nat) (x : RouterSt) (r : Reg) : (s.setRouter d node x).get r = s.get r := rfl
@[simp] theorem State.fget_setRouter (s : State) (d node : Nat) (x : RouterSt) (r : Reg) (g : Fld) : (s.setRouter d node x).fget r g = s.fget r g := rfl
@[simp] theorem State.get_setStop (s : State) (d stop : Nat) (x : StopSt) (r : Reg) : (s.setStop d stop x).get r = s.get r := rfl
@[simp] theorem State.fget_setStop (s : State) (d stop : Nat) (x : StopSt) (r : Reg) (g : Fld) : (s.setStop d stop x).fget r g = s.fget r g := rfl
@[simp] theorem State.get_setEdge (s : State) (d e : Nat) (x : EdgeSt) (r : Reg) : (s.setEdge d e x).get r = s.get r := rfl
@[simp] theorem State.fget_setEdge (s : State) (d e : Nat) (x : EdgeSt) (r : Reg) (g : Fld) : (s.setEdge d e x).fget r g = s.fget r g := rfl
@[simp] theorem State.get_setModule (s : State) (d e m : Nat) (x : ModuleSt) (r : Reg) : (s.setModule d e m x).get r = s.get r := rfl
@[simp] theorem State.fget_setModule (s : State) (d e m : Nat) (x : ModuleSt) (r : Reg) (g : Fld) : (s.setModule d e m x).fget r g = s.fget r g := rfl
@[simp] theorem State.get_modCore (s : State) (c : Nat) (f : CoreSt → CoreSt) (r : Reg) : (s.modCore c f).get r = s.get r := rfl
@[simp] theorem State.fget_modCore (s : State) (c : Nat) (f : CoreSt → CoreSt) (r : Reg) (g : Fld) : (s.modCore c f).fget r g = s.fget r g := rfl

/-! ### Units are not changed by registers -/

@[simp] theorem State.core_put (s : State) (r : Reg) (w : W64) (c : Nat) : (s.put r w).core c = s.core c := rfl
@[simp] theorem State.core_fput (s : State) (r : Reg) (g : Fld) (n : Nat) (c : Nat) : (s.fput r g n).core c = s.core c := rfl
@[simp] theorem State.near_put (s : State) (r : Reg) (w : W64) (c : Nat) : (s.put r w).near c = s.near c := rfl
@[simp] theorem State.near_fput (s : State) (r : Reg) (g : Fld) (n : Nat) (c : Nat) : (s.fput r g n).near c = s.near c := rfl
@[simp] theorem State.farPort_put (s : State) (r : Reg) (w : W64) (f : Nat) : (s.put r w).farPort f = s.farPort f := rfl
@[simp] theorem State.farPort_fput (s : State) (r : Reg) (g : Fld) (n : Nat) (f : Nat) : (s.fput r g n).farPort f = s.farPort f := rfl
@[simp] theorem State.ladle_put (s : State) (r : Reg) (w : W64) (f : Nat) : (s.put r w).ladle f = s.ladle f := rfl
@[simp] theorem State.ladle_fput (s : State) (r : Reg) (g : Fld) (n : Nat) (f : Nat) : (s.fput r g n).ladle f = s.ladle f := rfl
@[simp] theorem State.hr_put (s : State) (r : Reg) (w : W64) (h : Nat) : (s.put r w).hr h = s.hr h := rfl
@[simp] theorem State.hr_fput (s : State) (r : Reg) (g : Fld) (n : Nat) (h : Nat) : (s.fput r g n).hr h = s.hr h := rfl
@[simp] theorem State.pail_put (s : State) (r : Reg) (w : W64) (d : Nat) : (s.put r w).pail d = s.pail d := rfl
@[simp] theorem State.pail_fput (s : State) (r : Reg) (g : Fld) (n : Nat) (d : Nat) : (s.fput r g n).pail d = s.pail d := rfl
@[simp] theorem State.sq_put (s : State) (r : Reg) (w : W64) (n : Nat) : (s.put r w).sq n = s.sq n := rfl
@[simp] theorem State.sq_fput (s : State) (r : Reg) (g : Fld) (v n : Nat) : (s.fput r g v).sq n = s.sq n := rfl
@[simp] theorem State.fab_put (s : State) (r : Reg) (w : W64) (d p : Nat) : (s.put r w).fab d p = s.fab d p := rfl
@[simp] theorem State.fab_fput (s : State) (r : Reg) (g : Fld) (n : Nat) (d p : Nat) : (s.fput r g n).fab d p = s.fab d p := rfl
@[simp] theorem State.arb_put (s : State) (r : Reg) (w : W64) (d sel : Nat) : (s.put r w).arb d sel = s.arb d sel := rfl
@[simp] theorem State.arb_fput (s : State) (r : Reg) (g : Fld) (n : Nat) (d sel : Nat) : (s.fput r g n).arb d sel = s.arb d sel := rfl
@[simp] theorem State.xing_put (s : State) (r : Reg) (w : W64) (d sel : Nat) : (s.put r w).xing d sel = s.xing d sel := rfl
@[simp] theorem State.xing_fput (s : State) (r : Reg) (g : Fld) (n : Nat) (d sel : Nat) : (s.fput r g n).xing d sel = s.xing d sel := rfl
@[simp] theorem State.router_put (s : State) (r : Reg) (w : W64) (d node : Nat) : (s.put r w).router d node = s.router d node := rfl
@[simp] theorem State.router_fput (s : State) (r : Reg) (g : Fld) (n : Nat) (d node : Nat) : (s.fput r g n).router d node = s.router d node := rfl
@[simp] theorem State.stop_put (s : State) (r : Reg) (w : W64) (d stop : Nat) : (s.put r w).stop d stop = s.stop d stop := rfl
@[simp] theorem State.stop_fput (s : State) (r : Reg) (g : Fld) (n : Nat) (d stop : Nat) : (s.fput r g n).stop d stop = s.stop d stop := rfl
@[simp] theorem State.edge_put (s : State) (r : Reg) (w : W64) (d e : Nat) : (s.put r w).edge d e = s.edge d e := rfl
@[simp] theorem State.edge_fput (s : State) (r : Reg) (g : Fld) (n : Nat) (d e : Nat) : (s.fput r g n).edge d e = s.edge d e := rfl
@[simp] theorem State.module_put (s : State) (r : Reg) (w : W64) (d e m : Nat) : (s.put r w).module d e m = s.module d e m := rfl
@[simp] theorem State.module_fput (s : State) (r : Reg) (g : Fld) (n : Nat) (d e m : Nat) : (s.fput r g n).module d e m = s.module d e m := rfl

end Sys2Proof.Machine
end

