-- ==== Sys2Proof/Laws/Ops.lean ====
section
/-! SUPPORT. What the shared operations can do: one lemma for each, which says all that it changes. -/

namespace Sys2Proof.Machine

/-! ### Register writes -/

/-- A write that is admitted is performed. -/
theorem State.guarded_of_admits {s : State} {m : Master} {r : Reg} {act : State → State}
    (h : (s.pathUp m && !s.hostBlocked m r.home.1 && s.masterReaches m r && s.reachable r.home.1 r.home.2) = true) :
    s.guarded m r act = act s := by
  simp only [Bool.and_eq_true, Bool.not_eq_true'] at h
  obtain ⟨⟨⟨h1, h2⟩, h3⟩, h4⟩ := h
  simp [State.guarded, h1, h2, h3, h4]

/-- A register write is ignored, counted in BLOCKED, or performed. -/
theorem State.guarded_cases (s : State) (m : Master) (r : Reg) (act : State → State) :
    s.guarded m r act = s ∨ s.guarded m r act = s.fadd .officeCtl OFFICE_CTL_BLOCKED 1 ∨ s.guarded m r act = act s := by
  unfold State.guarded
  split
  · exact .inl rfl
  · split
    · exact .inr (.inl rfl)
    · split
      · exact .inr (.inr rfl)
      · exact .inl rfl

theorem State.get_fadd_ne (s : State) {r q : Reg} (f : Fld) (n : Nat) (h : q ≠ r) : (s.fadd r f n).get q = s.get q := s.get_fput_ne _ _ h

/-! ### Events -/

/-- An event to the host changes the event queue and its register, host memory, what waits for MSI-X and what is sent. -/
theorem State.raiseHost_frame (s : State) (e : Event) :
    s.raiseHost e = { s with regs := (s.raiseHost e).regs, host := (s.raiseHost e).host, evqPhase := (s.raiseHost e).evqPhase,
                             msixPending := (s.raiseHost e).msixPending, out := (s.raiseHost e).out } ∧
      ∀ r, r ≠ .ringEvqStatus → (s.raiseHost e).get r = s.get r := by
  have hw : ∀ (t : State) a bs, t.hostWrite a bs = { t with host := (t.hostWrite a bs).host } := by
    intro t a bs; unfold State.hostWrite; split <;> rfl
  have hm : ∀ (t : State) f v, t.msix f v = { t with msixPending := (t.msix f v).msixPending, out := (t.msix f v).out } := by
    intro t f v; unfold State.msix; dsimp only; split_ifs <;> rfl
  unfold State.raiseHost
  split
  · exact ⟨rfl, fun _ _ => rfl⟩
  · simp only []
    split
    · exact ⟨rfl, fun r h => by rw [State.get_fput_ne _ _ _ h, State.get_fadd_ne _ _ _ h]⟩
    · rw [hm]
      split
      · rw [hw]
        exact ⟨rfl, fun r h => State.get_fput_ne _ _ _ h⟩
      · rw [hw]
        exact ⟨rfl, fun r h => State.get_fput_ne _ _ _ h⟩

/-- An event to the office changes its queue, its register and what is sent. -/
theorem State.raiseOffice_frame (s : State) (e : Event) :
    s.raiseOffice e = { s with regs := (s.raiseOffice e).regs, officeEvents := (s.raiseOffice e).officeEvents, out := (s.raiseOffice e).out } ∧
      ∀ r, r ≠ .officeEvq → (s.raiseOffice e).get r = s.get r := by
  unfold State.raiseOffice
  split
  · exact ⟨rfl, fun r h => by rw [State.get_fput_ne _ _ _ h, State.get_fadd_ne _ _ _ h]⟩
  · simp only []
    split
    · split
      · exact ⟨rfl, fun _ _ => rfl⟩
      · exact ⟨rfl, fun _ _ => rfl⟩
    · exact ⟨rfl, fun _ _ => rfl⟩

/-- Raising the event of a register changes the two event queues, their registers, host memory, MSI-X and what is sent. -/
theorem State.raise_frame (s : State) (b : Block) (inst off : Nat) (q : Reg) :
    let t := s.raise b inst off q
    t = { s with regs := t.regs, host := t.host, evqPhase := t.evqPhase, msixPending := t.msixPending, officeEvents := t.officeEvents, out := t.out } ∧
      ∀ r, r ≠ .ringEvqStatus → r ≠ .officeEvq → t.get r = s.get r := by
  have hx : s.raise b inst off q = (s.raiseHost (s.eventOf b inst off q)).raiseOffice (s.eventOf b inst off q) := rfl
  have h1 := s.raiseHost_frame (s.eventOf b inst off q)
  have h2 := (s.raiseHost (s.eventOf b inst off q)).raiseOffice_frame (s.eventOf b inst off q)
  dsimp only
  rw [hx]
  refine ⟨?_, fun r ha hb => (h2.2 r hb).trans (h1.2 r ha)⟩
  generalize s.raiseHost (s.eventOf b inst off q) = u at h1 h2 ⊢
  generalize u.raiseOffice (s.eventOf b inst off q) = v at h2 ⊢
  have hp : v.evqPhase = u.evqPhase := by rw [h2.1]
  have hq : v.host = u.host := by rw [h2.1]
  have hr : v.msixPending = u.msixPending := by rw [h2.1]
  refine h2.1.trans ?_
  rw [hp, hq, hr]
  generalize v.regs = x, v.out = y, v.officeEvents = z
  replace h1 := h1.1
  rw [h1]

/-! ### Defects, the grade and fences -/

/-- Adding a defect changes the list and `LIST_FULL`. -/
theorem State.addDefect_frame (s : State) (d : Defect) :
    s.addDefect d = { s with regs := (s.addDefect d).regs, defects := (s.addDefect d).defects } ∧
      ∀ r, r ≠ .bootStatus → (s.addDefect d).get r = s.get r := by
  unfold State.addDefect
  split
  · exact ⟨rfl, fun r h => State.get_fput_ne _ _ _ h⟩
  · exact ⟨rfl, fun _ _ => rfl⟩

/-- Computing the grade changes `BOOT_STATUS` and may raise an event. -/
theorem State.regrade_frame (s : State) :
    let t := s.regrade
    t = { s with regs := t.regs, host := t.host, evqPhase := t.evqPhase, msixPending := t.msixPending, officeEvents := t.officeEvents, out := t.out } ∧
      ∀ r, r ≠ .bootStatus → r ≠ .ringEvqStatus → r ≠ .officeEvq → t.get r = s.get r := by
  unfold State.regrade
  split
  · exact ⟨rfl, fun _ _ _ _ => rfl⟩
  · simp only []
    split
    · exact ⟨rfl, fun r h _ _ => by rw [State.get_fput_ne _ _ _ h, State.get_fput_ne _ _ _ h]⟩
    · have h := ((s.fput .bootStatus BOOT_STATUS_ENABLED s.enabledCores).fput .bootStatus BOOT_STATUS_GRADE
        (b2n (decide (s.enabledCores < 248)))).raise_frame .boot 0 0x008 .bootStatus
      exact ⟨by rw [h.1]; rfl, fun r h1 h2 h3 => by rw [h.2 r h2 h3, State.get_fput_ne _ _ _ h1, State.get_fput_ne _ _ _ h1]⟩

/-- The end of a fill changes the STATE of its slice alone. -/
theorem State.endFill_frame (s : State) (c : Nat) :
    s.endFill c = { s with regs := (s.endFill c).regs } ∧ ∀ r, r ≠ .nearStatus c → (s.endFill c).get r = s.get r := by
  unfold State.endFill
  split
  · exact ⟨rfl, fun r h => State.get_fput_ne _ _ _ h⟩
  · exact ⟨rfl, fun _ _ => rfl⟩

/-- A cause other than 0x06 at a core in service or recovering starts a fence: STATE and CAUSE change, and a fill of its slice ends. -/
theorem State.beginFence_starts (s : State) (c cause : Nat) (h6 : cause ≠ 6) (h1 : s.coreState c ≠ 1) (h2 : s.coreState c ≠ 2) :
    s.beginFence c cause = ((s.endFill c).fput (.coreStatus c) CORE_STATUS_STATE 1).fput (.coreStatus c) CORE_STATUS_CAUSE cause := by
  simp [State.beginFence, h6, h1, h2]

/-! ### Host memory, records and free values -/

/-- A write to host memory changes host memory alone. -/
theorem State.hostWrite_frame (s : State) (a : Nat) (bs : List Byte) : s.hostWrite a bs = { s with host := (s.hostWrite a bs).host } := by
  unfold State.hostWrite; split <;> rfl

/-- A free value is below its bound, and taking it advances the counter alone. -/
theorem State.draw_spec (s : State) (n : Nat) (h : 0 < n) : (s.draw n).1 < n ∧ (s.draw n).2 = { s with draws := s.draws + 1 } :=
  ⟨Nat.mod_lt _ h, rfl⟩

/-- Free bytes are as many as asked for, and taking them advances the counter alone. -/
theorem State.drawBytes_spec (s : State) (n : Nat) : (s.drawBytes n).1.length = n ∧ (s.drawBytes n).2 = { s with draws := s.draws + 1 } :=
  ⟨by simp [State.drawBytes], rfl⟩

end Sys2Proof.Machine
end

