-- ==== Sys2Proof/Tests/Slice0.lean ====
section
/-! SUPPORT. Small tests: an ill-formed term refused by each check, a witness for the hypotheses of each statement, and a few results from the spec. -/

namespace Sys2Proof.Tests

open Sys2Proof Sys2Proof.Machine

set_option Elab.async false

/-- The next state of a command. -/
def after (c : Instr) (s : State) : State :=
  match exec c s with
  | .next t => t
  | _ => s

/-- A piece of work that ends well, and one that ends with an error. -/
def endsWell {ε α : Type} (x : Except ε α × State) : Bool := match x.1 with | .ok _ => true | .error _ => false
def endsBadly {ε α : Type} (x : Except ε α × State) : Bool := !endsWell x

/-- A full write by the host. -/
def hostW (v : Nat) : RegWrite := ⟨.pf, .full, v⟩
def env0 : WriteEnv := ⟨[], []⟩
/-- Brought up and READY. -/
def up : State := State.reset.fput .bootStatus BOOT_STATUS_PHASE 4

/-! ### Register accesses -/

theorem witness_registerReadsReturnValues :
    barOffset .pf 0 = some 0 ∧ State.reset.pathUp .pf = true ∧ (State.reset.regFor .pf 0).isSome = true ∧ accessTaken 0 8 = true ∧
      accessTaken 4 4 = true ∧ accessTaken 4 8 = false ∧ accessTaken 2 2 = false ∧ Master.pf.func = some 0 ∧
      barOffset (.vf 16) 0 = some 0x10000 ∧ up.pathUp (.vf 16) = true ∧ up.regFor (.vf 16) 0x10000 = some (.ringSqBase 0) ∧
      up.masterReaches (.vf 16) (.ringSqBase 0) = false := by decide

/-- R7: the host reads PART, 0xB44, from TOP_ID. -/
theorem test_read_top_id : ((after (.registerWrite .pf 0 8 .read env0) State.reset).out.map fun o =>
    match o with | .regValue .pf v => v / 2 ^ 16 | _ => 0) = [0xB44] := by decide

/-- A host register: the address of a register in BAR0. -/
def bar0 (r : Reg) : Nat := r.home.2

theorem witness_registerWritesFollowAccessCodes :
    accessTaken 0x402000 8 = true ∧ up.regFor .pf 0x402000 = some (.lsnCtl 0) ∧ up.admits .pf (.lsnCtl 0) = true ∧
      up.regFor .pf 0x403000 = some (.nearCtl 0) ∧ up.admits .pf (.nearCtl 0) = true ∧
      up.regFor .pf 0x3000010 = some .bootImgLen ∧ up.admits .pf .bootImgLen = true ∧ accessTaken 0x3000014 4 = true := by decide

/-- R730: a write of the upper half of a register leaves the lower. -/
theorem test_write_half :
    let s := up.put .ringEvqBase 0x5A5A00004000#64
    ((after (.registerWrite .pf 0x14010 8 (.write 0x1000) env0) s).get .ringEvqBase,
      (after (.registerWrite .pf 0x14014 4 (.write 0x12) env0) s).get .ringEvqBase) = (0x1000#64, 0x1200004000#64) := by decide

/-- What blocks the LSN block, SOURCE 0x0A, to the host. -/
def lsnBlocked : State := up.fput .officeCtl OFFICE_CTL_HOST_BLOCK (2 ^ 0x0A)

theorem witness_strayAccessesAreDropped :
    (lsnBlocked.hostBlocked .pf (Reg.lsnCtl 0).home.1 = true ∧ lsnBlocked.pathUp .pf = true ∧ lsnBlocked.regFor .pf 0x402000 = some (.lsnCtl 0)) ∧
      (barOffset .pf 0x402000 = some 0x402000 ∧ accessTaken 0x402000 8 = true ∧ State.reset.hostBlocked .pf (Reg.lsnCtl 0).home.1 = false ∧
        (State.reset.masterReaches .pf (.lsnCtl 0) && State.reset.reachable (Reg.lsnCtl 0).home.1 (Reg.lsnCtl 0).home.2) = false ∧
        State.reset.regFor .pf 0x402000 = some (.lsnCtl 0) ∧ State.reset.pathUp .pf = true) ∧
      Reg.fuseStatus.home.1 ∈ [Block.office, .sec, .fuse] ∧ up.hostLink = true := by decide

/-- R525: a blocked write is counted. -/
theorem test_blocked_write : let t := after (.registerWrite .pf 0x402000 8 (.write 1) env0) lsnBlocked
    t.fget .officeCtl OFFICE_CTL_BLOCKED = 1 ∧ t.get (.lsnCtl 0) = up.get (.lsnCtl 0) := by decide

/-- R731: BAR2 has 256 KiB. -/
theorem test_unclaimed : (after (.unclaimedRequest 0 2 0x40000 true) State.reset).out = [.unsupportedRequest 0] ∧
    (after (.unclaimedRequest 0 2 0x3FFFF true) State.reset).out = [] := by decide

/-! ### Lessons -/

/-- A core changed, on the part brought up. -/
def withCore (c : Nat) (f : CoreSt → CoreSt) : State := up.modCore c f
/-- A launch for homeroom 0 with TAG 7. -/
def lesson0 : Launch := ⟨0, 5, 0, 0, 0, 7⟩
/-- A step of the lesson stream, and one of the post stream. -/
def stepL (w0 w1 w2 w3 : Nat) : StepRec := ⟨w0, w1, w2, w3, false, 0, 0, false⟩
def stepP (w0 w1 w2 w3 : Nat) : StepRec := ⟨w0, w1, w2, w3, true, 0, 0, false⟩
/-- Core 3 runs a lesson, changed. -/
def inLesson (f : CoreSt → CoreSt) : State := withCore 3 fun k => f { k with lesson := some lesson0 }
/-- A step that engine `e` of core 3 has started. -/
def started (e : Engine) (t : StepRec) : State := inLesson fun k => { k with running := k.running.set e.idx [⟨t, false, .ok⟩] }
/-- A step at the issue point of core 3's lesson stream. -/
def atPoint (t : StepRec) : State := inLesson fun k => { k with pointLesson := some ⟨t, false⟩ }
def waitsAt (t : StepRec) : State := inLesson fun k => { k with pointLesson := some ⟨t, true⟩ }

theorem witness_lessonLaunchOutcomes :
    (up.fput (.coreStatus 3) CORE_STATUS_STATE 2).coreState 3 ≠ 0 ∧
      (up.coreState 3 = 0 ∧ (up.core 3).lesson = none ∧ (up.core 3).waitingLaunch = none) ∧
      ((⟨32, 5, 0, 65568, 0, 7⟩ : Launch).offset % 32 = 0 ∧ 65536 < (⟨32, 5, 0, 65568, 0, 7⟩ : Launch).preloadBytes) ∧
      ((⟨32, 5, 0, 65536, 0, 7⟩ : Launch).preloadBytes % 32 = 0 ∧ (⟨32, 5, 0, 65536, 0, 7⟩ : Launch).preloadBytes ≤ 65536) ∧
      (up.fput (.nearStatus 3) NEAR_STATUS_STATE 3).fget (.nearStatus 3) NEAR_STATUS_STATE = 3 ∧
      (up.fput (.nearStatus 3) NEAR_STATUS_STATE 3).coreState 3 = 0 ∧ up.fget (.nearStatus 3) NEAR_STATUS_STATE ≠ 3 := by decide

/-- R163, R164: a core that is fenced answers FENCED with NO_STEP, and one in service starts the lesson. -/
theorem test_launch_fenced : (after (.lessonLaunch 3 lesson0) (up.fput (.coreStatus 3) CORE_STATUS_STATE 2)).records =
    [⟨.core 3, 7, 0x80B, 0⟩] := by decide
theorem test_launch_runs : (after (.lessonLaunch 3 lesson0) up).fget (.lsnStatus 3) LSN_STATUS_STATE = 1 := by decide

theorem witness_stepIssueTakesNextStep :
    let s := inLesson fun k => { k with postQ := [stepP 0x00 0 0 0] }
    let bad := inLesson fun k => { k with postQ := [stepP 0x01 0 0 0] }
    let f := inLesson fun k => { k with fetched := [stepL 0x01 0 0 0] }
    let spent := inLesson id
    (s.coreState 3 = 0 ∧ (s.core 3).lesson = some lesson0 ∧ (s.core 3).preloading = false ∧ (s.core 3).fail = none ∧
      (s.core 3).ready (stepP 0x00 0 0 0) = true ∧ (stepP 0x00 0 0 0).decodes = true) ∧
    ((bad.core 3).ready (stepP 0x01 0 0 0) = true ∧ (stepP 0x01 0 0 0).decodes = false) ∧
    ((f.core 3).postQ = [] ∧ (f.core 3).ended = false ∧ (f.core 3).ready (stepL 0x01 0 0 0) = true ∧ (stepL 0x01 0 0 0).decodes = true) ∧
    ((spent.core 3).postQ = [] ∧ (spent.core 3).fetched = [] ∧ (spent.core 3).ended = false ∧ (spent.core 3).pointLesson = none ∧
      (spent.core 3).fetches lesson0 = true ∧ (((inLesson fun k => { k with fetchIndex := 5 }).core 3).fetches lesson0 = false)) := by decide

/-- R128, R158: END in the post stream does not decode and ends the lesson with BAD_OPCODE; in the lesson stream it goes to the issue point. -/
theorem test_issue_bad_opcode : ((after (.stepIssue 3) (inLesson fun k => { k with postQ := [stepP 0x01 0 0 0] })).core 3).fail.map (·.status) =
    some .badOpcode := by decide

theorem witness_enginesStartAndCompleteSteps :
    let t := stepL 0x1013 0 0 0
    let q := inLesson fun k => { k with queues := k.queues.set Engine.skim.idx [t] }
    let r := inLesson fun k => { k with running := k.running.set Engine.skim.idx [⟨t, true, .ok⟩] }
    let p := withCore 3 fun k => { k with lesson := some ⟨0, 5, 0x100, 0, 0, 7⟩, preloading := true }
    let g := stepL 0x11 (1 + 2 * 2 ^ 20 + 1 * 2 ^ 40) 0 0
    let a := inLesson fun k => { k with queues := k.queues.set 0 [g] }
    ((q.core 3).queues.getD Engine.skim.idx [] = [t] ∧ (q.core 3).starts .skim t = true ∧ q.coreState 3 = 0) ∧
    ((a.core 3).queues.getD Engine.arrayA.idx [] = [g] ∧ (a.core 3).starts .arrayA g = true ∧ g.isPass = true ∧ g.wSlate = false ∧ g.m ≠ 0 ∧
      g.n ≠ 0 ∧ g.k ≠ 0) ∧
    (((r.core 3).running.getD Engine.skim.idx []).find? (fun x => decide (x.step.order = 0) && x.performed) = some ⟨t, true, .ok⟩ ∧
      ¬(t.op = 0x10 ∧ ((Engine.skim = .arrayA ∧ (r.core 3).arrA.loading ≠ none) ∨ (Engine.skim = .arrayB ∧ (r.core 3).arrB.loading ≠ none)))) ∧
    ((p.core 3).preloading = true ∧ endsWell ((preloadCopy 3 ⟨0, 5, 0x100, 0, 0, 7⟩).run (p.setCore 3 { p.core 3 with tag := false })) = true) := by decide

/-- R124: a step of DONE_EVT 2 adds 1 to counter 2 when it completes. -/
theorem test_step_complete_event :
    let s := inLesson fun k => { k with running := k.running.set Engine.skim.idx [⟨stepL 0x1213 0 0 0, true, .ok⟩] }
    (after (.stepComplete 3 .skim 0) s).evt 3 2 = 1 ∧ (after (.stepComplete 3 .skim 0) s).evt 3 1 = 0 := by decide

theorem witness_lessonCompletesWithRecord :
    let s := inLesson fun k => { k with ended := true, issued := 5 }
    let f := inLesson fun k => { k with issued := 1, fail := some ⟨0, .badShape, false, 0, 0⟩ }
    (s.coreState 3 = 0 ∧ (s.core 3).lesson = some lesson0 ∧ (s.core 3).discard = false ∧ (s.core 3).quiet = true ∧ 0 < (s.core 3).issued ∧
      (s.core 3).ended = true ∧ (s.core 3).fail = none) ∧
    ((f.core 3).quiet = true ∧ (f.core 3).fail = some ⟨0, .badShape, false, 0, 0⟩) := by decide

/-- R162: the record has status OK and the last STEP_INDEX, 4. -/
theorem test_lesson_record : (after (.lessonComplete 3) (inLesson fun k => { k with ended := true, issued := 5 })).records =
    [⟨.core 3, 7, 4 * 2 ^ 32, 0⟩] := by decide

theorem witness_issuePointStepsComplete :
    (atPoint (stepL 0x00 0 0 0)).pointStep 3 false 0x00 none = some ⟨stepL 0x00 0 0 0, false⟩ ∧
    (atPoint (stepL 0x01 0 0 0)).pointStep 3 false 0x01 none = some ⟨stepL 0x01 0 0 0, false⟩ ∧
    (atPoint (stepL 0xF10008 0 1 0)).pointStep 3 false 0x08 (some 1) = some ⟨stepL 0xF10008 0 1 0, false⟩ ∧
    (stepL 0xF10008 0 1 0).syncEvt = 15 ∧
    (atPoint (stepL 0x08 0 1 0)).pointStep 3 false 0x08 (some 0) = some ⟨stepL 0x08 0 1 0, false⟩ ∧
    (atPoint (stepL 0x09 0 0 0)).pointStep 3 false 0x09 none = some ⟨stepL 0x09 0 0 0, false⟩ := by decide

/-- R154: a local signal adds VALUE modulo 2^16. -/
theorem test_local_signal_wraps : (after (.syncSignalLocal 3 false) ((atPoint (stepL 0xF10008 0 0xFFFF 0)).evtAdd 3 15 2)).evt 3 15 =
    1 := by decide

/-- R152, R154: a wait is satisfied by a counter less than half the range past VALUE, and no other. -/
theorem test_local_wait :
    let wait := fun (n : Nat) => ((after (.syncWaitLocal 3 false) ((atPoint (stepL 0x08 0 1 0)).evtAdd 3 0 n)).core 3).pointLesson
    ([0, 1, 0x8000, 0x8001].map fun n => (wait n).isSome) = [true, false, false, true] := by decide

/-! ### Steps at work -/

/-- An address of core 3's desk, and bytes put there. -/
def desk3 (off : Nat) : Nat := deskBase + 3 * 0x1000000 + off
def putDesk (off : Nat) (bs : List Byte) (s : State) : State := { s with desk := memWrite s.desk (deskKey 3 off) bs }
/-- A matrix record for lines on core 3's desk. -/
def matRec (off fmt stride : Nat) : List Byte := leBytes 8 (desk3 off + fmt * 2 ^ 48) ++ leBytes 8 stride ++ leBytes 16 0
/-- A STREAM of one vector of two BF16 elements, (1, 2), against one column, (3, 4), with an FP32 result. -/
def dot (w0 : Nat) : StepRec := stepL w0 (1 + 2 * 2 ^ 20 + 1 * 2 ^ 40) (0 + 1 * 2 ^ 18 + 2 * 2 ^ 36) 0
def dotDesk (s : State) : State :=
  putDesk 0 (matRec 0x100 0xB 32 ++ matRec 0x120 0xB 32 ++ matRec 0x140 0xD 32)
    (putDesk 0x100 (leBytes 4 0x40003F80) (putDesk 0x120 (leBytes 4 0x40804040) s))

/-- R34, R103: the product of the two vectors is 11, in FP32, and 11.0 is 0x41300000. -/
theorem test_stream_dot : leNat (memRead (after (.stream 3 .arrayA true) (dotDesk (started .arrayA (dot 0x11)))).desk (deskKey 3 0x140) 4) =
    0x41300000 := by decide +kernel

/-- Far line 0x10, of address 0x1000, is cached whole, all zeros, and nothing else works on it. -/
def line10 (s : State) : State :=
  { s with lines := [(0x10, ⟨List.replicate 256 0#8, List.replicate 16 0, 0xFF, 0, 0, 0, (s.lineAt 0x1000).slice, 0⟩)] }
/-- What a piece of work answers, and whether it is held. -/
def okVal {ε α : Type} (x : Except ε α × State) : Option α := match x.1 with | .ok v => some v | .error _ => none
def okRes {α : Type} (x : State × Res α) : Bool := match x.2 with | .ok _ => true | .error _ => false
def heldRes {α : Type} (x : State × Res α) : Bool := match x.2 with | .error (.held _) => true | _ => false

theorem witness_remoteSyncsAndWaitsEnd :
    let bad := stepL 0x20008 0x1004 1 0
    let ok := stepL 0x20008 0x1008 1 0
    let busy := inLesson fun k => { k with pointLesson := some ⟨ok, false⟩, running := k.running.set 2 [⟨dot 0x13, false, .ok⟩] }
    let sw := stepL 0x30008 0x1008 0 5
    let free := stepL 0x30008 0x1008 0 0
    let l := stepL 0x08 0 1 0
    let tut := inLesson fun k => { k with running := k.running.set 4 [⟨stepL 0x30 0 0 0, false, .ok⟩], tutor := { k.tutor with running := true, waiting := true } }
    let add := fun (s : State) => (s.atWork 3 ok).farCombine (.core 3) 0 0x1008 .add 8 [(ok.syncAddr % 256, ok.w2, 0)]
    ((atPoint bad).pointStep 3 false 0x08 (some 2) = some ⟨bad, false⟩ ∧ (atPoint bad).syncAddrOk 3 bad = false) ∧
    (busy.pointStep 3 false 0x08 (some 2) = some ⟨ok, false⟩ ∧ busy.syncAddrOk 3 ok = true ∧ (busy.core 3).streamDone false = false) ∧
    ((atPoint ok).syncAddrOk 3 ok = true ∧ ((atPoint ok).core 3).streamDone false = true ∧ coreSpace 3 ok.syncAddr = .far 0x1008 ∧
      okRes (add (line10 (atPoint ok))) = true ∧ heldRes (add { atPoint ok with setChanges := [setOf up.variant 0x1008] }) = true) ∧
    ((waitsAt sw).pointStep 3 false 0x08 (some 3) = some ⟨sw, true⟩ ∧ (waitsAt sw).syncAddrOk 3 sw = true ∧
      (let s := (line10 (waitsAt sw)).atWork 3 sw
       okRes (s.readAt (.core 3) 0 (some 3) (s.roleAllows 3 .farOnly) sw.syncAddr 8) = true)) ∧
    (sw.syncTimeout ≠ 0 ∧ ((waitsAt sw).core 3).fail = none) ∧
    ((waitsAt free).pointStep 3 false 0x08 (some 3) = some ⟨free, true⟩ ∧ free.syncTimeout = 0) ∧
    (up.fput (.lsnCtl 3) LSN_CTL_WAIT_LIMIT 0).fget (.lsnCtl 3) LSN_CTL_WAIT_LIMIT = 0 ∧
    ((waitsAt l).fget (.lsnCtl 3) LSN_CTL_WAIT_LIMIT ≠ 0 ∧ (waitsAt l).pointStep 3 false 0x08 (some 0) = some ⟨l, true⟩ ∧
      satisfies 16 ((waitsAt l).evt 3 l.syncEvt) (bitsOf l.w2 0 16) = false) ∧
    ((tut.core 3).handoff = some (stepL 0x30 0 0 0) ∧ (tut.core 3).tutor.waiting = true) := by decide +kernel

/-- R155: a local wait past WAIT_LIMIT ends the lesson with SYNC_TIMEOUT. -/
theorem test_wait_limit : ((after (.waitLimitExpiry 3 .lessonSync) (waitsAt (stepL 0x08 0 1 0))).core 3).fail.map (·.status) = some .syncTimeout := by
  decide +kernel

/-- A LOAD_SLATE of one weight from the desk record 1 of `dotDesk`, of the 16-bit class. -/
def load1 : StepRec := stepL (0x10 + 2 * 2 ^ 19) (2 ^ 40 + 2 ^ 48) 1 0
/-- A LOAD of 32 bytes from far address 0x1000. -/
def loadFar : StepRec := stepL (0x20 + 32 * 2 ^ 32) (0x1000 + 2 ^ 48) (desk3 0x300) 0
def endsHeld {α : Type} (x : Except StepStop α × State) : Bool := match x.1 with | .error (.waits _) => true | _ => false

/-- What a piece of work of core 3 ends in, on a step that an engine has started. -/
def workOf (e : Engine) (t : StepRec) (act : StepM Unit) : Except StepStop Unit × State := act.run ((started e t).atWork 3 t)

theorem witness_enginesPerformSteps :
    let does := fun (e : Engine) (t : StepRec) (act : StepM Unit) => (started e t).toPerform 3 e t.op = some t ∧ endsWell (workOf e t act) = true
    does .arrayA (stepL 0x11 0 0 0) (matrixStep 3 (stepL 0x11 0 0 0) (some false)) ∧ does .skim (stepL 0x11 0 0 0) (matrixStep 3 (stepL 0x11 0 0 0) none) ∧
    does .skim (stepL 0x13 0 0 0) (matrixStep 3 (stepL 0x13 0 0 0) none) ∧ does .skim (stepL 0x14 0 0 0) (convertStep 3 (stepL 0x14 0 0 0)) ∧
    does .mover (stepL 0x20 0 0 0) (copyStep 3 (stepL 0x20 0 0 0) .loadSrc .ownDesk) ∧
    does .mover (stepL 0x21 0 0 0) (copyStep 3 (stepL 0x21 0 0 0) .ownDesk .loadSrc) ∧
    does .mover (stepL 0x22 0 0 0) (copyStep 3 (stepL 0x22 0 0 0) .moveEnd .moveEnd) ∧ does .mover (stepL 0x23 0 0 0) (reduceStep 3 (stepL 0x23 0 0 0)) ∧
    (let g := stepL 0x12 0 0 0
     (started .arrayA g).toPerform 3 .arrayA 0x12 = some g ∧ ((started .arrayA g).core 3).arrA.stalled = false ∧ (started .arrayA g).tileLate 3 false g = false ∧
       endsWell ((matrixStep 3 g (some false)).run (((started .arrayA g).startList 3 false).atWork 3 g)) = true) := by decide +kernel

theorem witness_enginesFailOrWait :
    let fails := fun (e : Engine) (t : StepRec) (act : StepM Unit) => (started e t).toPerform 3 e t.op = some t ∧ endsBadly (workOf e t act) = true ∧
      endsHeld (workOf e t act) = false ∧ ((started e t).core 3).lesson.isSome = true
    fails .arrayB (dot 0x10011) (matrixStep 3 (dot 0x10011) (some true)) ∧ fails .mover (stepL 0x200000023 0 1 4) (reduceStep 3 (stepL 0x23 0 1 4)) ∧
    (let s := { started .mover loadFar with setChanges := [setOf up.variant 0x1000] }
     s.toPerform 3 .mover 0x20 = some loadFar ∧ endsHeld ((copyStep 3 loadFar .loadSrc .ownDesk).run (s.atWork 3 loadFar)) = true) := by decide +kernel

theorem witness_slateLoads : (dotDesk (started .arrayA load1)).toPerform 3 .arrayA 0x10 = some load1 ∧
    (okVal ((slateTile 3 load1).run ((dotDesk (started .arrayA load1)).atWork 3 load1))).isSome = true := by decide +kernel

/-! A core's own memories are sound where no check bits differ, no arbiter is frozen and nothing has been armed. -/

theorem up_arbFrozen (s : State) (h : s.regs = up.regs) (d sel : Nat) : s.arbFrozen d sel = false := by
  simp only [State.arbFrozen, State.fget, State.get, h]
  show decide (fldGet (if arbPresent sel then rowsReset (Reg.arbCtl 0 0).rows else 0#64) ARB_CTL_FREEZE = 1) = false
  split <;> decide +kernel

theorem ownSound_of (s : State) (c : Nat) (hr : s.regs = up.regs) (hs : s.sliceChk = []) (hd : s.deskChk = []) (hl : s.slips = [])
    (hu : s.coreUsable c = true) (ha : s.fget .relFlipSel REL_FLIP_SEL_ARM = 0) : s.ownSound c := by
  refine ⟨hu, fun m g _ => ?_, hl, fun m off n => ?_, ha⟩
  · cases m <;> simp only [State.nearDiff, hs, hd] <;> rfl
  · cases m <;> simp [State.nearHeld, up_arbFrozen s hr]

/-- A line of set 0 on site 0 is sound where nothing is wrong with that set and that site, and the line is cached whole. -/
theorem lineSound_of (s : State) (rq : Requester) (pa : Nat) (hm : s.mirrorSource 0 = none) (hg : s.farGone 0 = false)
    (hk : s.setKey 0 = none) (hp : ∀ k < 256, farBytes s.variant > pa / 256 * 256 + k ∧ (s.lineAt (pa / 256 * 256 + k)).set = 0 ∧
      (s.lineAt (pa / 256 * 256 + k)).loc.site = 0) (he : s.farErr rq pa true = none ∧ s.farErr rq pa false = none)
    (ht : s.hasTurn rq (pa / 256) = true ∧ s.fget .relFlipSel REL_FLIP_SEL_ARM = 0)
    (hl : ((smFind s.lines (pa / 256)).any fun l => decide (l.valid % 2 ^ 8 = 0xFF ∧ l.data.length = 256 ∧ l.chk = List.replicate 16 0)) = true) :
    s.lineSound rq pa := by
  refine ⟨he.1, he.2, fun k h => ?_, ht.1, ht.2, by simpa [Option.any_eq_true] using hl⟩
  obtain ⟨h1, h2, h3⟩ := hp k h
  simp [State.lineErr, h2, h3, hm, hg, hk, Nat.not_le.mpr h1]

/-- A step of the mover of core 3 that copies 32 bytes, and one that adds an FP32 of the desk to far address 0x1004. -/
def copy32 (op src dst : Nat) : StepRec := stepL (op + 32 * 2 ^ 32) (src + 2 ^ 48) dst 0
def add1 : StepRec := stepL 0x23 (desk3 0x100) 0x1004 4
/-- A CONVERT of the line of desk record 0 to desk record 2. -/
def conv1 : StepRec := stepL 0x14 (1 + 2 * 2 ^ 20) (0 + 2 * 2 ^ 18) 0
/-- A matrix record of lines on the desk of core 3, and that the lines numbered 0 of it lie there. -/
def deskRec (off : Nat) (f : Fmt) : MatRec := ⟨desk3 off, f, 32, 0, 0, 0⟩

theorem deskRec_inOwn (off len : Nat) (f : Fmt) (ms : List NearMem) (hf : isMx f = false) (hd : NearMem.desk ∈ ms)
    (h : off + packedBytes f len ≤ deskBytes) : (deskRec off f).inOwn 3 ms [0] len := by
  intro l hl
  obtain rfl : l = 0 := by simpa using hl
  exact ⟨⟨by decide, .desk, hd, off, by simp [deskRec, ownAddr, desk3], h⟩, by simp [deskRec, hf]⟩

theorem witness_ownMemoryCopiesComplete :
    ((started .mover add1).ownSound 3 ∧ (line10 (started .mover add1)).ownSound 3 ∧ (dotDesk (started .arrayA load1)).ownSound 3 ∧
      (dotDesk (started .skim (dot 0x13))).ownSound 3 ∧ (dotDesk (started .skim conv1)).ownSound 3) ∧
    (memWf (started .mover add1).slice = true ∧ memWf (dotDesk (started .arrayA load1)).desk = true) ∧
    (let ok := fun (op src dst : Nat) => (started .mover (copy32 op src dst)).toPerform 3 .mover op = some (copy32 op src dst) ∧
        (copy32 op src dst).copyRows = [(src, dst)] ∧ (copy32 op src dst).rowBytes = 32
     ok 0x20 (ownAddr .slice 3 0x40) (ownAddr .desk 3 0x300) ∧ ok 0x21 (ownAddr .desk 3 0x300) (ownAddr .slice 3 0x40) ∧
       ok 0x22 (ownAddr .slice 3 0x40) (ownAddr .slice 3 0x60)) ∧
    (let s := line10 (started .mover add1)
     s.toPerform 3 .mover 0x23 = some add1 ∧ (reduceOp (bitsOf add1.w0 16 4)).2 = 4 ∧ bitsOf add1.w3 0 32 = 4 ∧ bitsOf add1.w2 0 48 = 0x1004 ∧
       bitsOf add1.w1 0 48 = ownAddr .desk 3 0x100 ∧ coreSpace 3 0x1004 = .far 0x1004 ∧ (s.translate (s.lessonHr 3) 0x1004).toOption = some 0x1004 ∧
       s.lineSound (.core 3) 0x1004) ∧
    (let s := dotDesk (started .arrayA load1)
     s.toPerform 3 .arrayA 0x10 = some load1 ∧ load1.engine < 2 ∧ classOf (bitsOf load1.w0 19 2) = some .bit16 ∧
       okVal ((readRec 3 (bitsOf load1.w2 0 18)).run (s.atWork 3 load1)) = some (deskRec 0x120 .bf16) ∧ loadable .bit16 .bf16 = true ∧
       load1.transpose = false ∧ bitsOf load1.w1 0 20 % tileK .bit16 = 0 ∧ bitsOf load1.w1 40 8 = 1 ∧ bitsOf load1.w1 48 8 = 1 ∧
       bitsOf load1.w3 0 20 = 0 ∧ (deskRec 0x120 .bf16).shaped 1 false false = true ∧ (deskRec 0x120 .bf16).inOwn 3 [.desk, .slice] (rangeFrom 0 1) 1) := by
  refine ⟨⟨?_, ?_, ?_, ?_, ?_⟩, by decide +kernel, by decide +kernel, ?_, ?_⟩
  iterate 5 exact ownSound_of _ 3 rfl rfl rfl rfl (by decide +kernel) (by decide +kernel)
  · refine ⟨by decide +kernel, by decide +kernel, by decide +kernel, by decide +kernel, by decide +kernel, by decide +kernel, by decide +kernel,
      ?_⟩
    exact lineSound_of (line10 (started .mover add1)) (.core 3) 0x1004 (by decide +kernel) (by decide +kernel) (by decide +kernel)
      (by decide +kernel) (by decide +kernel) (by decide +kernel) (by decide +kernel)
  · exact ⟨by decide +kernel, by decide +kernel, by decide +kernel, by decide +kernel, by decide +kernel, by decide +kernel, by decide +kernel,
      by decide +kernel, by decide +kernel, by decide +kernel, by decide +kernel, deskRec_inOwn 0x120 1 .bf16 _ rfl (by decide) (by decide)⟩

theorem witness_skimEngineCompletes :
    (let ok := fun (t : StepRec) (op : Nat) => (dotDesk (started .skim t)).toPerform 3 .skim op = some t ∧ t.rnd = false ∧ t.m = 1 ∧ t.k = 2 ∧ t.n = 1 ∧ t.init = 0 ∧
        t.red = 2 ∧ t.outs = 1 ∧
        (okVal ((checkStep 3 t none).run ((dotDesk (started .skim t)).atWork 3 t))).map (fun k => (k.a, k.w, k.o)) =
          some (deskRec 0x100 .bf16, some (deskRec 0x120 .bf16), deskRec 0x140 .fp32)
     ok (dot 0x13) 0x13 ∧ ok (dot 0x11) 0x11) ∧
    ((deskRec 0x100 .bf16).inOwn 3 [.desk] [0] 2 ∧ (deskRec 0x120 .bf16).inOwn 3 [.desk, .slice] [0] 2 ∧ (deskRec 0x140 .fp32).inOwn 3 [.desk] [0] 1) ∧
    (let s := dotDesk (started .skim conv1)
     s.toPerform 3 .skim 0x14 = some conv1 ∧ conv1.rnd = false ∧ conv1.m = 1 ∧ conv1.k = 2 ∧
       okVal ((readRec 3 (bitsOf conv1.w2 0 18)).run (s.atWork 3 conv1)) = some (deskRec 0x100 .bf16) ∧
       okVal ((readRec 3 (bitsOf conv1.w2 18 18)).run (s.atWork 3 conv1)) = some (deskRec 0x140 .fp32) ∧ isConvertOut .fp32 = true ∧
       (deskRec 0x100 .bf16).shaped 2 false false = true ∧ (deskRec 0x140 .fp32).shaped 2 false false = true ∧
       (deskRec 0x140 .fp32).inOwn 3 [.desk] [0] 2) := by
  refine ⟨by decide +kernel, ⟨?_, ?_, ?_⟩, by decide +kernel, by decide +kernel, by decide +kernel, by decide +kernel, by decide +kernel,
    by decide +kernel, by decide +kernel, by decide +kernel, by decide +kernel, ?_⟩
  · exact deskRec_inOwn 0x100 2 .bf16 _ rfl (by decide) (by decide)
  · exact deskRec_inOwn 0x120 2 .bf16 _ rfl (by decide) (by decide)
  · exact deskRec_inOwn 0x140 1 .fp32 _ rfl (by decide) (by decide)
  · exact deskRec_inOwn 0x140 2 .fp32 _ rfl (by decide) (by decide)

theorem witness_arraysFreezeAndGoOn :
    let p := started .arrayA (dot 0x11)
    let g := started .arrayA (stepL 0x12 4 0 0)
    let w := fun (f : ArrayState → ArrayState) => inLesson fun k => { k with arrA := f k.arrA }
    (p.toPerform 3 .arrayA 0x11 = some (dot 0x11) ∧ ((p.core 3).arr false).stalled = false) ∧
    (g.toPerform 3 .arrayA 0x12 = some (stepL 0x12 4 0 0) ∧ ((g.core 3).arr false).stalled = false ∧ 4 ≤ (stepL 0x12 4 0 0).m ∧
      g.tileLate 3 false (stepL 0x12 4 0 0) = false) ∧
    ((inLesson id).core 3).running.getD 0 [] = [] ∧
    ((w fun a => { a with lateRows := [(63, 4)] }).core 3).arr false = { ArrayState.init with lateRows := [(63, 4)] } ∧
    ((w fun a => { a with loading := some ⟨.bit8, .int8, [], [], []⟩ }).core 3).arrA.loading = some ⟨.bit8, .int8, [], [], []⟩ ∧
    (((w fun a => { a with frozen := true }).core 3).arrA.frozen = true ∧
      (w fun a => { a with frozen := true }).fget (.arrCtl 3 0) ARR_CTL_WDOG_LIMIT ≠ 0 ∧
      ((w fun a => { a with frozen := true }).fput (.arrStat 3 0) ARR_STAT_HANGS 1).fget (.arrStat 3 0) ARR_STAT_HANGS < 2) := by decide +kernel

/-- R75: the third hang fences the core with cause 0x05. -/
theorem test_third_hang :
    let t := after (.arrayHung 3 false) ((inLesson fun k => { k with arrA := { k.arrA with frozen := true } }).fput (.arrStat 3 0) ARR_STAT_HANGS 2)
    t.coreState 3 = 1 ∧ t.fget (.coreStatus 3) CORE_STATUS_CAUSE = 5 := by decide +kernel

/-- The tutor of core 3 is at an instruction on its desk. -/
def tutorAt (i : Nat) : State :=
  putDesk 0x200 (leBytes 4 i) (inLesson fun k => { k with running := k.running.set 4 [⟨stepL 0x30 0 0 0, false, .ok⟩],
                                                          tutor := { k.tutor with running := true, pc := desk3 0x200 } })
/-- What the tutor's instruction comes to: 0 it goes on, 1 it waits, 2 it ends its routine, 10 and more an exception's cause. -/
def tutorEnd (i : Nat) : Nat :=
  match (tFetch 3 (desk3 0x200)).run (tutorAt i) with
  | (.ok (j, len), u) =>
    match ((tPerform 3 j (desk3 0x200) (w64 (desk3 0x200 + len))).run u).1 with
    | .ok (.go _) => 0
    | .ok .wait => 1
    | .ok (.done _) => 2
    | .error (some cause) => 10 + cause
    | .error none => 99
  | _ => 98

/-- `addi`, a satisfied `twait`, `tdone`, and a Dyalmora encoding that is reserved. -/
theorem witness_tutorRunsItsRoutine :
    (started .tutor (stepL 0x30 0x200 1 2)).toPerform 3 .tutor 0x30 = some (stepL 0x30 0x200 1 2) ∧
      ((started .tutor (stepL 0x30 0x200 1 2)).core 3).tutor.running = false ∧
      ((tutorAt 0x13).core 3).handoff = some (stepL 0x30 0 0 0) ∧
      [0x13, 0x100B, 0x400B, 0x0200000B].map tutorEnd = [0, 0, 2, 12] := by decide +kernel

/-- A tutor with x5 = 1 finds counter 0 short of its target and waits. -/
theorem witness_tutorWaits :
    (match (tDyalmora 3 0x50100B 0).run ((tutorAt 0).modCore 3 fun k => { k with tutor := { k.tutor with x := k.tutor.x.set 5 1 } }) with
      | (.ok .wait, _) => true
      | _ => false) = true := by decide +kernel

theorem witness_dyalmoraInstructionsAct :
    (((tutorAt 0).core 3).tutor.x.length = 32) ∧ [0x000B, 0x100B, 0x200B, 0x300B, 0x400B].map iF3 = [0, 1, 2, 3, 4] ∧
      [0x000B, 0x100B, 0x200B, 0x300B, 0x400B].map iF7 = [0, 0, 0, 0, 0] ∧
      satisfies 16 ((tutorAt 0).evt 3 0) 0 = true ∧ satisfies 16 ((tutorAt 0).evt 3 0) 1 = false ∧
      coreSpace 3 (desk3 0x200) = .desk 3 0x200 ∧ desk3 0x200 % 32 = 0 ∧
      (match ((tutorAt 0).readAt (.tutor 3) 0 (some 3) ((tutorAt 0).roleAllows 3 .tutor) (desk3 0x200) 32).2 with | .ok _ => true | .error _ => false) = true := by
  decide +kernel

/-- R165: `addi x5, x0, -1` writes 2^64 - 1, and the next instruction is 4 bytes on. -/
theorem test_tutor_addi : let k := (after (.tutorInstruction 3) (tutorAt 0xFFF00293)).core 3
    (k.tutor.x.getD 5 0, k.tutor.pc) = (2 ^ 64 - 1, desk3 0x204) := by decide +kernel

/-- R166: an illegal instruction ends the lesson with TUTOR_FAULT and cause 2. -/
theorem test_tutor_illegal : ((after (.tutorInstruction 3) (tutorAt 0)).core 3).fail.map (fun f => (f.status, f.word1 / 2 ^ 48)) =
    some (.tutorFault, 2) := by decide +kernel

/-! ### Cores and slices -/

theorem witness_fencesStartAndEnd :
    let st := fun (n : Nat) => (up.fput (.coreStatus 3) CORE_STATUS_STATE n).fput (.coreStatus 3) CORE_STATUS_CAUSE 3
    up.coreState 3 = 0 ∧ (up.admits .pf (.coreFenceCtl 3) = true ∧ (up.written (.coreFenceCtl 3) (hostW 1)).hit CORE_FENCE_CTL_FENCE = true) ∧
      ((st 2).admits .pf (.coreFenceCtl 3) = true ∧ ((st 2).written (.coreFenceCtl 3) (hostW 2)).hit CORE_FENCE_CTL_FENCE = false ∧
        ((st 2).written (.coreFenceCtl 3) (hostW 2)).hit CORE_FENCE_CTL_UNFENCE = true ∧
        unfenceHonoured .pf ((st 2).fget (.coreStatus 3) CORE_STATUS_CAUSE) = true ∧ (st 2).coreState 3 = 2) ∧
      ((st 1).admits .pf (.coreFenceCtl 3) = true ∧ (st 1).coreState 3 = 1 ∧ (st 1).coreState 3 ≠ 0) := by decide +kernel

/-- R77: the office's request has cause 0x04. -/
theorem test_office_fence : (after (.coreFenceRequest 3 ⟨.office, .full, 1⟩) up).fget (.coreStatus 3) CORE_STATUS_CAUSE = 4 := by decide +kernel

theorem witness_fencedCoresAreEmptied : up.memoriesWf = true ∧ (up.fput (.coreStatus 255) CORE_STATUS_STATE 1).coreState 255 = 1 ∧
    (up.core 255).unfenceBy = none ∧ (up.fput (.coreStatus 0) CORE_STATUS_STATE 3).coreState 0 = 3 := by decide +kernel

/-- R640, R680: a checker that fails its self-test in warm recovery shows in REL_STATUS and fences the core. -/
theorem test_self_test_fails :
    let t := after (.warmRecoveryComplete 0 .selfTest) (up.fput (.coreStatus 0) CORE_STATUS_STATE 3)
    (t.fget .relStatus REL_STATUS_SELFTEST_FAIL, t.coreState 0, t.fget (.coreStatus 0) CORE_STATUS_CAUSE) = (1, 1, 2) := by decide +kernel

theorem witness_coreRatesSeedsAndStatistics :
    up.admits .pf (seedReg 3 .arrayB) = true ∧ ((withCore 3 fun k => { k with skimReload := true }).core 3).skimReload = true ∧
      up.admits .pf (.arrCtl 3 1) = true ∧ (up.written (.arrCtl 3 1) (hostW (2 ^ 63))).hit ARR_CTL_CLEAR = true ∧
      ∀ e ∈ [(Reg.scStat 0, SC_STAT_CLEAR), (.ldlStat 10, LDL_STAT_CLEAR), (.meshStat 3, MESH_STAT_CLEAR), (.d2dStat 0, D2D_STAT_CLEAR),
          (.linkStat 1, LINK_STAT_CLEAR), (.linkPortStat 0 5, LINK_PORT_STAT_CLEAR), (.ringAdmitStat, RING_ADMIT_STAT_CLEAR)],
        up.admits .pf e.1 = true ∧ (up.written e.1 (hostW (2 ^ 64 - 1))).hit e.2 = true := by decide +kernel

/-- Port 3 of the slices of die 0 is frozen. -/
def frozenSlice : State := up.fput (.arbCtl 0 (slicePort 3)) ARB_CTL_FREEZE 1

theorem witness_sliceRequestsServeTheirBytes :
    (up.coreUsable 3 = true ∧ 256 * (sliceBytes / 256 - 1) < sliceBytes ∧ SliceSource.mover.foreign = false ∧ SliceSource.fillA ≠ .engine ∧
      up.arbFrozen (3 / 64) (slicePort 3) = false ∧ (up.near 3).outstanding = []) ∧
    (frozenSlice.coreUsable 3 = true ∧ frozenSlice.arbFrozen (3 / 64) (slicePort 3) = true ∧ (frozenSlice.near 3).outstanding.length < 64) ∧
    (memWf up.slice = true ∧ 255 + [1#8].length ≤ 256 ∧ up.fget .relFlipSel REL_FLIP_SEL_ARM = 0 ∧ up.slips = [] ∧
      ∀ g ∈ partGranules 255 1, up.nearDiff .slice 3 g = 0) ∧
    (∀ g ∈ granules 0 32, up.nearDiff .slice 3 g = 0) ∧
    (let s := { up with sliceChk := smSet 0 up.sliceChk (sliceKey 3 0 / 16) 1 }
     s.coreUsable 3 = true ∧ s.arbFrozen (3 / 64) (slicePort 3) = false ∧ ∃ g ∈ granules 0 16, s.nearDiff .slice 3 g ≠ 0) := by decide +kernel

/-- R175, R177: a byte written to a slice is read back. -/
theorem test_slice_write_read :
    (after (.sliceRequest 3 0 .mover (.read 8 2 0)) (after (.sliceRequest 3 0 .mover (.write 9 [0x5A#8])) up)).out.getLast? =
      some (.reply (.core 3) [0#8, 0x5A#8]) := by decide +kernel

theorem witness_sliceControllersRefreshIdleAndFill :
    (up.fget (.nearStatus 3) NEAR_STATUS_STATE ≠ 0 ∧ smGet 0 (up.near 3).owed 255 < 8 ∧ up.fget (.nearCtl 3) NEAR_CTL_IDLE_LIMIT ≠ 0 ∧
      (up.fput (.nearCtl 3) NEAR_CTL_IDLE_LIMIT 0).fget (.nearCtl 3) NEAR_CTL_IDLE_LIMIT = 0 ∧ up.admits .pf (.nearLayerOffset 3) = true) ∧
    (memWf up.slice = true ∧ (up.fput (.nearStatus 3) NEAR_STATUS_STATE 3).fget (.nearStatus 3) NEAR_STATUS_STATE = 3 ∧
      (up.core 3).waitingLaunch = none) ∧
    (let s := (up.setNear 3 { up.near 3 with clearPending := true }).fput (.nearStatus 3) NEAR_STATUS_STATE 2
     (s.near 3).clearPending = true ∧ (s.core 3).lesson = none ∧ s.fget (.nearStatus 3) NEAR_STATUS_STATE = 2) := by decide +kernel

/-! ### Far memory, the separator and the shared cache -/

/-- Address 0x1010's set changes; or its fill is pending. -/
def setBusy : State := { up with setChanges := [setOf up.variant 0x1010] }
/-- A fill of the line of 0x1010, as its first read leaves it. -/
def filling : State := after (.scRead (.core 3) 0 0x1010 16 false) up
theorem witness_sharedCacheHoldsFillsAndMerges :
    (let s := up.fput (.coreStatus 3) CORE_STATUS_STATE 2
     s.lineErr 0x1010 = none ∧ s.cutOff ⟨.core 3, 0, 0x1010, .write [1#8], false⟩ = true) ∧
    (up.lineErr 0x1010 = none ∧ up.linked (.core 3) ((up.lineAt 0x1010).loc.site / 3) = true ∧ setBusy.lineErr 0x1010 = none ∧
      setBusy.linked (.core 3) ((setBusy.lineAt 0x1010).loc.site / 3) = true ∧ setBusy.farBlocked 0x1010 false = true ∧
      setBusy.cutOff ⟨.core 3, 0, 0x1010, .write [1#8], false⟩ = false ∧ setBusy.farBlocked 0x1010 true = true) ∧
    (let c := up.lineAt 0x10F0
     let port := up.farPort (up.fillSite c)
     let r := up.fillReq c 0 (if c.narrow then (sectorsFor c.narrow 0xF0 16).length else 1) false
     up.farBlocked 0x10F0 false = false ∧ up.fills.any (fun f => decide (f.grain = c.grain)) = false ∧
       up.fillWaits.any (fun f => decide (f.pa / 256 = c.grain)) = false ∧ smFind up.lines c.grain = none ∧ 0x10F0 % 256 + 16 ≤ 256 ∧
       (up.fills.filter fun f => decide (f.slice = c.slice)).length < 256 ∧ up.farGone (up.fillSite c) = false ∧
       up.arbFrozen (up.fillSite c / 3) (farQueue (up.fillSite c) r.pc) = false ∧ port.full r.pc = false ∧ port.outside = []) ∧
    (filling.farBlocked 0x1010 false = false ∧ filling.fills.map (fun f => (f.grain, decide (f.joins < 32))) = [((filling.lineAt 0x1010).grain, true)] ∧
      filling.missing 0 (filling.lineAt 0x1010) (sectorsFor (filling.lineAt 0x1010).narrow 0x10 16) ≠ []) := by decide +kernel

/-- What `line10` leaves is a line that is cached whole and sound (R213, R631). -/
theorem line10_sound : (line10 up).lineSound (.core 3) 0x1010 ∧ (line10 up).lineSound (.core 3) 0x1011 := by
  constructor
  · exact lineSound_of (line10 up) (.core 3) 0x1010 (by decide +kernel) (by decide +kernel) (by decide +kernel) (by decide +kernel)
      (by decide +kernel) (by decide +kernel) (by decide +kernel)
  · exact lineSound_of (line10 up) (.core 3) 0x1011 (by decide +kernel) (by decide +kernel) (by decide +kernel) (by decide +kernel)
      (by decide +kernel) (by decide +kernel) (by decide +kernel)

theorem witness_sharedCacheServesRequests :
    (line10 up).lineSound (.core 3) 0x1010 ∧ (Requester.core 3).die = some 0 ∧ (line10 up).dieUp 0 = true ∧
      (line10 up).cutOff ⟨.core 3, 0, 0x1010, .write [1#8], false⟩ = false ∧ (line10 up).cutOff ⟨.core 3, 0, 0x1010, .atomic .add 8 1 0, false⟩ = false ∧
      (0x1010 % 256) % 8 = 0 ∧ 0x1010 % 256 + 8 ≤ 256 ∧ (line10 up).lineSound (.core 3) 0x1011 ∧ (0x1011 % 256) % 8 ≠ 0 :=
  ⟨line10_sound.1, rfl, by decide +kernel, by decide +kernel, by decide +kernel, by decide, by decide, line10_sound.2, by decide⟩

/-- R217: an update answers the old value and leaves the new one. -/
theorem test_atomic_add : let t := after (.scAtomic (.tutor 3) 0 0x1010 .add 4 0x11 0) (after (.scWrite (.core 3) 0 0x1010 (leBytes 4 0xDDCCBBAA)) (line10 up))
    (t.out.drop 1, ((t.lineData 0x10).drop 0x10).take 4) = ([.reply (.tutor 3) (leBytes 4 0xDDCCBBAA)], leBytes 4 0xDDCCBBBB) := by
  decide +kernel

theorem witness_fillsAreGrantedAndComplete :
    let f := filling.fillSite (filling.lineAt 0x1000)
    let granted := after (.farGrant f 0x10) (filling.setFarPort f { filling.farPort f with tokens := List.replicate 16 4096 })
    (filling.fills.any (fun x => decide (x.grain = 0x10)) = true ∧
      (match (filling.farPort f).waiting with
        | [r] => decide (r.id = 0x10) && ((filling.setFarPort f { filling.farPort f with tokens := List.replicate 16 4096 }).mayGrant f
            { filling.farPort f with tokens := List.replicate 16 4096 } r)
        | _ => false) = true) ∧
    ((granted.farPort f).waiting.any (fun x => decide (x.id = 0x10)) = false ∧
      granted.fills.all (fun g => decide (g.reread = 0) && decide (granted.firstFails g 0 = 0) && decide (granted.firstFails g 2 ≠ 0)) = true ∧
      granted.fills.length = 1) ∧
    (let r := after (.scFillComplete 0x10 2) granted
     r.fills.length = 1 ∧ r.fills.all (fun g => decide (g.grain = 0x10) && decide (g.reread ≠ 0)) = true) := by decide +kernel

theorem witness_farPortsKeepTheirBooks :
    smGet 0 (up.farPort 10).owed 4095 < 8 ∧ up.farGone 10 = false ∧ farPresent up.variant 10 = true ∧ up.admits .pf (.farMode 10) = true ∧
      up.fget (.farMode 0) FAR_MODE_MODE = (up.farPort 0).mode ∧ (up.fput (.farMode 0) FAR_MODE_MODE 1).fget (.farMode 0) FAR_MODE_MODE ≠ (up.farPort 0).mode := by
  decide +kernel

/-- R236: WINDOW is kept at least 0x100 and PRIO_SHARE at most 64. -/
theorem test_far_mode_floor : let t := after (.farModeWrite 0 (hostW 0)) up
    t.fget (.farMode 0) FAR_MODE_WINDOW = 0x100 ∧ t.fget (.farMode 0) FAR_MODE_PRIO_SHARE = 0 := by decide +kernel

/-- Homeroom 1 is active and holds set 0; homeroom 2 is not, and holds sets 1 to 63. -/
def held0 : State :=
  { up with regs := [(.bootStatus, 4#64), (.secHrCtl 1, 2#64), (.secHrMap 1 0, 0x80#64),
      (.secHrMap 2 0, 0x8786858483828100#64), (.secHrMap 2 1, 0x8F8E8D8C8B8A8988#64), (.secHrMap 2 2, 0x9796959493929190#64), (.secHrMap 2 3, 0x9F9E9D9C9B9A9998#64),
      (.secHrMap 2 4, 0xA7A6A5A4A3A2A1A0#64), (.secHrMap 2 5, 0xAFAEADACABAAA9A8#64), (.secHrMap 2 6, 0xB7B6B5B4B3B2B1B0#64), (.secHrMap 2 7, 0xBFBEBDBCBBBAB9B8#64)] }

theorem held0_locks : held0.sepLocked 0 = 1#64 := by decide +kernel

theorem witness_separatorChangesSets :
    up.admits .pf (.sepScope 1) = true ∧ held0.admits .pf (.sepNarrow 0) = true ∧ held0.admits .pf (.sepScope 0) = true ∧
      (let want := fun (v : Nat) => (held0.written (.sepScope 0) (hostW v)).new ^^^ held0.get (.sepScope 0)
       (want 1 &&& held0.sepLocked 0 ≠ 0#64 ∧ want 1 &&& ~~~(held0.sepLocked 0) = 0#64) ∧
         want 2 &&& ~~~(held0.sepLocked 0) ≠ 0#64 ∧ want 0 = 0#64) ∧
      127 ∈ ({ up with setChanges := [127] } : State).setChanges := by
  rw [held0_locks]
  decide +kernel

theorem witness_purgesAndStackLosses :
    (up.admits .pf (.scCtl 10) = true ∧ (up.written (.scCtl 10) (hostW 1)).hit SC_CTL_PURGE = true ∧ up.fget (.scCtl 10) SC_CTL_PURGE = 0) ∧
    (farPresent up.variant 0 = true ∧ up.fget (.farStatus 0) FAR_STATUS_LOST = 0 ∧ (up.ladle 0).queue = [] ∧ (up.ladle 0).asking = [] ∧
      (up.ladle 0).seqs = [] ∧ (up.farPort 0).waiting = [] ∧ (up.farPort 0).outside = [] ∧ up.fills = [] ∧ up.fillWaits = [] ∧ up.heldAccess = [] ∧
      ∀ e ∈ up.cores, (up.core e.1).stuck = []) ∧
    (up.fput (.farStatus 0) FAR_STATUS_LOST 1).fget (.farStatus 0) FAR_STATUS_LOST = 1 := by decide +kernel

/-! ### Ladles -/

/-- A FILL of two rows at the head of its port's queue. -/
def ladleFill2 : LadleCmd := ⟨2, false, 0, 2, 9, 0, 0x5A, 0, .registrar, false⟩
def portOf0 : Nat := (up.farLoc 0).site
def ladleReady : State := up.setLadle portOf0 { queue := [ladleFill2], seqs := [], halves := [], asking := [] }
/-- The FILL at a row and a phase, in its pseudo-channel. -/
def seqAt (row phase : Nat) : LadleSeq := ⟨ladleFill2, false, 0, true, row, phase, [], []⟩
/-- A port that is frozen, so that commands ask. -/
def frozenLadle : State := up.fput (.arbCtl 0 (ladlePort 0)) ARB_CTL_FREEZE 1

theorem witness_ladleCommandsJoinTheirQueue :
    ladleEncoded 1 [0x1101, 0, 0x10000, 0] (.pail 3) = true ∧ ladleEncoded 7 [7, 0, 0, 0] .registrar = true ∧
      up.ladleOpen 0 = true ∧ (up.arb 0 (ladlePort 0)).ptr < 5 ∧ (up.arb 0 (ladlePort 0)).counts.length = 16 ∧ frozenLadle.ladleOpen 0 = false ∧
      ladleEncoded 2 [0x22, 0, 0, 0] .registrar = false ∧ up.heldAccess = [] ∧
      ¬((Requester.core 0) = .registrar ∨ ∃ d < 4, (Requester.core 0) = .pail d) := by
  refine ⟨by decide +kernel, by decide +kernel, by decide +kernel, by decide +kernel, by decide +kernel, by decide +kernel, by decide +kernel,
    by decide +kernel, ?_⟩
  rintro (h | ⟨d, -, h⟩) <;> cases h

theorem witness_ladleSequencesRun :
    ((ladleReady.ladle portOf0).queue = [ladleFill2] ∧ (ladleReady.fput (.ldlCtl portOf0) LDL_CTL_DRAIN 1).fget (.ldlCtl portOf0) LDL_CTL_DRAIN = 1) ∧
    (ladleReady.fget (.ldlCtl portOf0) LDL_CTL_DRAIN = 0 ∧ ladleReady.ladleError portOf0 true ladleFill2 = none ∧
      (ladleReady.ladleCopies ladleFill2).isEmpty = false ∧
      ((ladleReady.ladleCopies ladleFill2).all fun e => (ladleReady.ladlePcs e.1 ladleFill2).all (ladleReady.pcFree e.2)) = true ∧
      ladleReady.ladleWaits ladleFill2 = false) ∧
    (let s := up.setLadle 0 { LadlePort.init with seqs := [seqAt 0 0] }
     (s.ladle 0).seqs = [seqAt 0 0] ∧ (s.ladle 0).seqs.find? (fun x => decide (x.pc = 0) && x.flushed) = some (seqAt 0 0) ∧
       (seqAt 0 0).cmd.op = 2 ∧ (seqAt 0 0).phase = 0 ∧ (seqAt 0 0).row + 1 < (seqAt 0 0).cmd.rows ∧ s.heldAccess = [] ∧ s.stepReady 0 (seqAt 0 0) = true) ∧
    (farPresent up.variant 10 = true ∧ up.admits .pf (.ldlCtl 10) = true) := by decide +kernel

/-- R243, R246: a reserved bit ends a command at once with BAD_ENCODING, status 1. -/
theorem test_ladle_bad_encoding : (after (.ladleCopy 0 [0x21, 0, 0, 0] .registrar) up).records = [⟨.ladle 0, 0, 1, 0⟩] := by decide +kernel

/-! ### Pail managers -/

/-- An open tree of homeroom 0, its index at 1 MiB and its pool elsewhere. -/
def tree1 : Tree := { hr := 0, layers := 1, heads := 1, hdim := 128, fmt := 0, indexBase := 0x100000, indexLog2 := 4, countBase := 0x110000,
                      freeBase := 0x120000, pool := [], root := [], shadow := false, twinDev := 5, twinTree := 0, twinDie := 0, twinPorts := 0x3F,
                      yokes := 16, next := 0, freeTop := 1, cursor := 0, clock := 0 }
/-- An open sequence of tree 7, of one entry at 0x130000. -/
def seq1 : Seq := ⟨7, 0x130000, 1, 0, [], false, 0, []⟩
/-- A churn ring of sequence 9: position 0 of 2, neighbours on devices 5 and 6. -/
def ring1 : ChurnRing := { id := 3, tree := 7, r := 2, pos := 0, nextDev := 5, prevDev := 6, buf0 := 10, buf1 := 11, c := 0, ready := 0x140000, release := 0x140008,
                           count := 0, riderOwn := 0x140100, riderBuf := 0x140200, riderBytes := 0, helloNext := true, helloPrev := true, refusedNext := false,
                           refusedPrev := false, lost := false, runs := 1, early := 0, active := none }
def run1 : ChurnRun := ⟨1, 0, false, 0, 0, 0, 0, 0, 0, 0, 0, 0, 0⟩
/-- Edge 0 of dies 0 and 1 is up, with every module active. -/
def linked : State := (up.fput (.d2dEdgeStatus 0 0) D2D_EDGE_STATUS_STATE 1).fput (.d2dEdgeStatus 1 0) D2D_EDGE_STATUS_STATE 1
/-- A far line that is cached whole and sound, with its first bytes. -/
def whole (bs : List Byte) : Line := ⟨bs ++ List.replicate (256 - bs.length) 0#8, List.replicate 16 0, 0xFF, 0, 0, 0, 0, 0⟩
/-- The far memory of tree 7 and its sequences is cached, zero but for the bytes given at the start of some of its lines. -/
def tables (first : SMap (List Byte)) (s : State) : State :=
  { s with lines := (rangeFrom 0x1000 16 ++ [0x1100, 0x1200, 0x1300, 0x1400, 0x1401, 0x1402, 0x1500, 0x1600]).map fun g => (g, whole (smGet [] first g)) }
def mgr (f : PailMgr → PailMgr) : State := (tables [] linked).setPail 1 (f { PailMgr.init with trees := [(7, tree1)], seqs := [(8, seq1)] })
def cmd1 (seq w1 w2 w3 : Nat) : PailCmd := ⟨0, 7, seq, 0, 0x77, w1, w2, w3⟩
/-- Homeroom 2 is being torn down. -/
def torn : State := up.fput (.secHrCtl 2) SEC_HR_CTL_STATE 3

theorem witness_pailCommandsEndWithRecords :
    ({ up with power := { up.power with mainOn := false } } : State).dieUp 1 = false ∧ (up.dieUp 1 = true ∧ (up.fput (.pailCtl 1) PAIL_CTL_DRAIN 1).fget (.pailCtl 1) PAIL_CTL_DRAIN = 1) ∧
    (up.fget (.pailCtl 1) PAIL_CTL_DRAIN = 0 ∧ (up.pail 1).waiting = [] ∧ torn.hrState 2 = 3 ∧ torn.dieUp 1 = true) ∧
    pailEncoded 0x15 (cmd1 8 0 1 0) = false ∧
    (pailEncoded 0x12 (cmd1 8 0 0 0) = true ∧
      (((mgr fun m => { m with rings := [(8, { ring1 with active := some run1 })] }).pail 1).mustWait 0x12 (cmd1 8 0 0 0)) = true) ∧
    (((mgr id).pail 1).mustWait 0x12 (cmd1 8 0 0 0) = false ∧ endsWell ((pailBody 1 0x12 (cmd1 8 0 0 0)).run (mgr id)) = true ∧
      endsBadly ((pailBody 1 0x12 ⟨0, 6, 8, 0, 0, 0, 0, 0⟩).run (mgr id)) = true) ∧
    (let s := mgr fun m => { m with rings := [(8, ring1)] }
     match (pailBody 1 0x31 (cmd1 8 0 0 0)).run s with
     | (.ok none, _) => true
     | _ => false) = true := by decide +kernel

theorem witness_treeAndSequenceCommands :
    (up.dieUp 1 = true ∧ smFind (up.pail 1).trees 7 = none) ∧
    [(0x10, cmd1 8 0x130000 1 0), (0x12, cmd1 8 0 0 0), (0x13, cmd1 8 0 1 0), (0x14, cmd1 8 0 (2 ^ 32) 0), (0x15, cmd1 8 0 0 0), (0x02, cmd1 0 0 0 0), (0x03, cmd1 0 0 0 0),
      (0x01, cmd1 0 0 0 0), (0x11, cmd1 8 0 0 0), (0x17, cmd1 8 0 0 0), (0x16, cmd1 8 12 0 0), (0x18, cmd1 8 0 0 0), (0x20, cmd1 8 0 0 0), (0x21, cmd1 8 0 0 0)].all
        (fun e => pailEncoded e.1 e.2 && !((mgr id).pail 1).mustWait e.1 e.2) = true ∧
    (smFind ((mgr id).pail 1).trees 7 = some tree1 ∧ tree1.hr ≠ (⟨1, 7, 8, 0, 0, 0, 0, 0⟩ : PailCmd).hr ∧ up.hrState 1 ≠ 3) ∧
    (tree1.hr = (cmd1 0 0 0 0).hr ∧
      (((mgr fun m => { m with seqs := [] }).pail 1).seqs.any fun e => decide (e.2.tree = 7)) = false ∧
      (((mgr id).pail 1).rings.any fun e => decide (e.2.tree = 7)) = false ∧ (((mgr id).pail 1).syncs.any fun y => decide (y.tree = 7)) = false) ∧
    (smFind ((mgr id).pail 1).seqs 4095 = none ∧ (mgr id).inRegions 0 0x130000 4 = true ∧ tree1.shadow = false) ∧
    (smFind ((mgr id).pail 1).seqs 8 = some seq1 ∧ seq1.tree = 7 ∧ seq1.len = 0 ∧ (cmd1 8 0 63 0).w2 < 64 ∧ seq1.shadow = false ∧
      seq1.len / 64 ≤ seq1.keys.length ∧ seq1.len < (cmd1 8 1 0 0).w1 ∧ (cmd1 8 0 0 0).w1 = seq1.len ∧ seq1.used ≤ (cmd1 8 seq1.used 0 0).w1 ∧
      smFind ((mgr fun m => { m with seqs := [(8, seq1), (12, seq1)] }).pail 1).seqs (cmd1 8 12 0 0).w1 = some seq1) ∧
    (smFind ((mgr fun m => { m with trees := [(7, { tree1 with shadow := true })] }).pail 1).trees 7 = some { tree1 with shadow := true } ∧
      seq1.len = seq1.synced ∧ seq1.changed = []) ∧
    smFind ((mgr fun m => { m with seqs := [(8, { seq1 with shadow := true })] }).pail 1).seqs 8 = some { seq1 with shadow := true } := by decide +kernel

/-- R285: MATCH on a tree that is not open ends with STATE, 3. -/
theorem test_pail_state : (after (.matchBlocks 1 (cmd1 8 0 0 0)) up).records = [⟨.pail 1, 0x77, 3 + 0x77 * 2 ^ 32, 0⟩] := by decide +kernel

theorem witness_pailManagersServeOthers :
    let p : PushWait := ⟨7, 3, []⟩
    let s := mgr fun m => { m with pushes := [p] }
    ((up.pail 1).pushes.find? fun p => decide (p.tree = 7) && decide (p.yoke = 3) && p.waits.isEmpty) = none ∧
    (((s.pail 1).pushes.find? fun p => decide (p.tree = 7) && decide (p.yoke = 3) && p.waits.isEmpty) = some p ∧ s.dieUp 1 = true ∧
      (match (s.setPail 1 { s.pail 1 with pushes := (s.pail 1).pushes.erase p }).writeAt (.pail 1) 0 none allowFarWindow (tree1.freeBase + 4 * tree1.freeTop) (leBytes 4 3) with
        | (_, .ok _) => true | _ => false) = true) ∧
    endsWell ((fetchEntries 1 3 true 7 8 0 64).run (mgr id)) = true ∧
    (smFind ((mgr id).pail 1).trees 7 = some tree1 ∧ smFind ((mgr id).pail 1).seqs 8 = some seq1 ∧ seq1.used ≤ 0 / 64) ∧
    ((0 / 64 < ({ seq1 with len := 1 } : Seq).used) ∧ (match (mgr fun m => { m with seqs := [(8, { seq1 with len := 1 })] }).readAt (.pail 1) 0 none allowFarWindow seq1.base 4 with
        | (_, .ok _) => true | _ => false) = true) ∧
    (up.admits .pf (.pailCtl 3) = true ∧ (up.pail 3).waiting = [] ∧ (up.pail 3).inbox = [] ∧ (up.pail 3).outside = [] ∧ up.fget (.pailCtl 3) PAIL_CTL_DRAIN = 0) ∧
    (up.admits .pf (.pailStat1 3) = true ∧ (up.written (.pailStat1 3) (hostW (2 ^ 64 - 1))).hit PAIL_STAT1_CLEAR = true) := by decide +kernel

/-- A message to the ring of RING_ID 3 from its next or previous position, in run 1. -/
def fromNext1 (step : Nat) (data : List Byte) : PailMsg := ⟨5, false, 3, 1, step, 1, 7, 2, 0, data⟩
def fromPrev1 (step : Nat) (data : List Byte) : PailMsg := ⟨6, false, 3, 1, step, 1, 7, 2, 0, data⟩
def ringed (f : ChurnRing → ChurnRing) : State :=
  mgr fun m => { m with rings := [(9, f ring1)], seqs := [(8, seq1), (9, seq1), (10, seq1), (11, seq1)] }
def running1 (f : ChurnRun → ChurnRun) : State := ringed fun r => { r with active := some (f run1) }

theorem witness_churnAndTwinMessages :
    (up.dieUp 1 = true ∧ (up.pail 1).waiting = [] ∧ (up.pail 1).ringOf 3 = none ∧ smFind (up.pail 1).trees 7 = none ∧
      ((up.pail 1).syncs.find? fun y => decide (y.seq = 8) && decide (y.tree = 7)) = none ∧ smFind (up.pail 1).seqs 8 = none) ∧
    (((ringed id).pail 1).ringOf 3 = some (9, ring1) ∧ smFind ((ringed id).pail 1).rings 9 = some ring1 ∧ ring1.lost = false ∧
      (fromNext1 0 []).r = ring1.r ∧ (fromNext1 0 []).c = ring1.c ∧ ring1.refusedNext = false ∧ ring1.refusedPrev = false ∧ ring1.active = none ∧
      ring1.fromNext (fromNext1 0 []) = true ∧ (fromNext1 0 []).run = ring1.runs % 256) ∧
    (let s := ringed fun r => { r with refusedNext := true }
     let r := { ring1 with refusedNext := true }
     endsWell ((do setRing 1 9 { r with refusedNext := false, refusedPrev := false }
                   if r.refusedNext then do let _ ← sendChurn 1 9 1 true 0 (helloBytes r) else pure ()
                   if r.refusedPrev then do let _ ← sendChurn 1 9 1 false 0 (helloBytes r) else pure () : PailM Unit).run s) = true) ∧
    ((((running1 id).pail 1).ringOf 3 = some (9, { ring1 with active := some run1 })) ∧
      smFind ((running1 id).pail 1).trees 7 = some tree1 ∧ ring1.fromPrev (fromPrev1 1 []) = true ∧ (fromPrev1 1 []).step = run1.held + 1 ∧
      (fromPrev1 1 []).step = run1.riderHeld + 1 ∧ (fromPrev1 1 []).step ≠ ring1.r ∧ (fromPrev1 2 []).step = ring1.r) := by decide +kernel

theorem witness_churnRunsGoOn :
    let go := fun (y : ChurnRun) => (do setRun 1 9 y; churnPump 1 9 churnFuel : PailM Unit)
    endsWell ((go { run1 with credit := 2 }).run (running1 id)) = true ∧ endsWell ((go { run1 with acked := 1 }).run (running1 id)) = true ∧
      (1 ≤ { run1 with credited := 1 }.credited ∧
        endsWell ((do writeBlock 1 9 ring1 0 1 []; go { run1 with credited := 1, held := 1 } : PailM Unit).run (running1 fun x => { x with credited := 1 })) = true) ∧
      endsWell ((do pailWrite 1 0 (ring1.riderAt 1) []; go { run1 with riderHeld := 1 } : PailM Unit).run (running1 id)) = true ∧
      endsWell ((do let now := leNat (← pailRead 1 0 ring1.release 8)
                    let rise := (now + 2 ^ 64 - run1.release0) % 2 ^ 64
                    go { run1 with released := max run1.released (if ring1.count = 0 then ring1.r else min ring1.r (rise / ring1.count)) } : PailM Unit).run
        (running1 id)) = true ∧
      endsWell ((do pailWrite 1 0 (ring1.riderAt 2) []; let _ ← sendChurnAt 1 9 5 false 2 1 [] : PailM Unit).run (ringed id)) = true := by decide +kernel


/-- A SHADOW_DATA of sequence 8, of no length, and one that opens it. -/
def shadowEmpty : PailMsg := ⟨5, true, 0, 0, 0, 0, 7, 0, 0, leBytes 56 8⟩
def shadowFresh : PailMsg := ⟨5, true, 0, 0, 0, 0, 7, 0, 0, leBytes 48 8 ++ leBytes 8 1⟩

/-- No action of a run is due: of one that has begun, of one that has a credit's worth done, and of one that RELEASE has let go. -/
theorem witness_runsIdle : ring1.idle run1 ∧ ring1.idle { run1 with sent := 1, held := 1, credited := 1, raised := 1 } ∧
    ring1.idle { run1 with riderHeld := 1 } ∧ ring1.idle { run1 with acked := 0, released := ring1.r } := by
  simp [ChurnRing.idle, ring1, run1]

theorem witness_churnMemory :
    (let s := running1 fun x => { x with sent := 1, credited := 1, raised := 1 }
     ((writeBlock 1 9 ring1 0 1 []).run s).1.toOption = some () ∧ (match (writeBlock 1 9 ring1 0 1 []).run s with
       | (_, u) => decide (u.pailRing 1 9 = s.pailRing 1 9 ∧ u.pailTree 1 7 = some tree1)) = true) ∧
    (match (running1 id).writeAt (.pail 1) 0 none allowFarWindow (ring1.riderAt 1) [] with
      | (u, .ok _) => decide (u.pailRing 1 9 = (running1 id).pailRing 1 9 ∧ u.pailTree 1 7 = some tree1) | _ => false) = true ∧
    (match (running1 id).readAt (.pail 1) 0 none allowFarWindow ring1.release 8 with
      | (u, .ok bs) => decide (u.pailRing 1 9 = (running1 id).pailRing 1 9 ∧ u.pailTree 1 7 = some tree1 ∧ leNat bs = 0) | _ => false) = true ∧
    (let y := { ring1 with nextDev := 0 }
     let s := (ringed fun r => { r with refusedNext := true, nextDev := 0 }).putRing 1 9 y
     (s.sendPailMsg 1 0 false y.nextDev (2 ^ 24 - 1) (pailAddr 1 0 y.id y.pos 0 y.runs) 9 (helloBytes y)).2 = true) ∧
    (let m := { fromNext1 0 [] with run := 2 }
     m.run ≠ ring1.runs % 256 ∧ m.run = (ring1.runs + 1) % 256) := by decide +kernel

theorem witness_twinMessages :
    (smFind ((mgr id).pail 1).trees shadowEmpty.tree = some tree1 ∧ smFind ((mgr fun m => { m with seqs := [] }).pail 1).seqs (shadowOf shadowEmpty.data).seq = none ∧
      (shadowOf shadowEmpty.data).seq = 8 ∧ (shadowOf shadowEmpty.data).fresh = false ∧ (shadowOf shadowFresh.data).fresh = true ∧
      (shadowOf shadowFresh.data).seq = 8 ∧ shadowFresh.tree = 7) ∧
    (let s := mgr fun m => { m with seqs := [(8, { seq1 with shadow := true })] }
     endsWell ((openShadow 1 7 (shadowOf shadowFresh.data)).run s) = true ∧ endsWell ((takeSync 1 7 shadowEmpty (shadowOf shadowEmpty.data)).run s) = true) ∧
    endsWell ((do openShadow 1 7 (shadowOf shadowEmpty.data); takeSync 1 7 shadowEmpty (shadowOf shadowEmpty.data) : PailM Unit).run
      (mgr fun m => { m with seqs := [] })) = true ∧
    (let y : ShadowSync := ⟨8, 7, 0x77, 4, 1⟩
     let s := mgr fun m => { m with syncs := [y] }
     let msg : PailMsg := ⟨5, true, 0, 0, 0, 0, 7, 0, 0, leBytes 8 8 ++ leBytes 8 3⟩
     let few : PailMsg := ⟨5, true, 0, 0, 0, 0, 7, 0, 0, leBytes 8 8 ++ leBytes 8 2⟩
     ((s.pail 1).syncs.find? fun y => decide (y.seq = leNat (msg.data.take 8)) && decide (y.tree = msg.tree)) = some y ∧
       smFind (s.pail 1).seqs 8 = some seq1 ∧ y.sent ≤ y.acked + leNat ((msg.data.drop 8).take 8) ∧ y.acked + leNat ((few.data.drop 8).take 8) < y.sent) ∧
    (let q := { seq1 with shadow := true, len := 64 }
     let s := (tables [(0x1300, leBytes 4 0x80000005)] (mgr fun m => { m with seqs := [(8, q)] }))
     smFind (s.pail 1).seqs 8 = some q ∧ smFind (s.pail 1).trees q.tree = some tree1 ∧ (s.pail 1).nodes = [] ∧ 0 < q.used ∧ q.used ≤ 1 ∧
       (match s.readAt (.pail 1) 0 none allowFarWindow q.base 4 with
        | (a, .ok bs) => (entryOf (leNat bs)).valid && !(entryOf (leNat bs)).lost && endsWell ((insertNode 1 7 (leBytes 16 0) (entryOf (leNat bs)) 0 0).run a)
        | _ => false) = true) := by decide +kernel

/-- What an access of the manager of die 1, for homeroom 0, or a message of it, answers and leaves, where it is done at once. -/
def rd (s : State) (a n : Nat) : Option (List Byte × State) :=
  match s.readAt (.pail 1) 0 none allowFarWindow a n with | (u, .ok bs) => some (bs, u) | _ => none
def wr (s : State) (a : Nat) (bs : List Byte) : Option State :=
  match s.writeAt (.pail 1) 0 none allowFarWindow a bs with | (u, .ok _) => some u | _ => none
def ad (s : State) (a v : Nat) : Option (Nat × State) :=
  match s.farAtomic (.pail 1) 0 a .add 4 v 0 with | (u, .ok old) => some (old, u) | _ => none
def okRun {α : Type} (x : PailM α) (s : State) : Option State := match x.run s with | (.ok _, u) => some u | _ => none
def sent (x : State × Bool) : Option State := if x.2 then some x.1 else none

/-- The tables of tree 7 with a pool, a salt for homeroom 0, and the manager changed. -/
def tree2 : Tree := { tree1 with pool := [0] }
def ent5 : PailEntry := ⟨5, false, false, true⟩
def tabled (first : SMap (List Byte)) (f : PailMgr → PailMgr) : State :=
  ((tables first linked).setHr 0 { linked.hr 0 with salt := some (List.replicate 16 0#8) }).setPail 1
    (f { PailMgr.init with trees := [(7, tree2)], seqs := [(8, seq1)] })
/-- The key of a block of zeros below the root. -/
def key0 : List Byte := blockKey (List.replicate 16 0#8) [] (List.replicate 256 0#8)
/-- Tables in which entry 0 of sequence 8 names yoke 5, of length 1 or 64. -/
def oneEntry (n : Nat) : State := tabled [(0x1300, leBytes 4 (entryWord ent5)), (0x1100, List.replicate 20 0#8 ++ leBytes 4 1)]
  fun m => { m with seqs := [(8, { seq1 with len := n })] }

theorem witness_treesOpenAndEvict :
    (do let s := tabled [(0x1600, leBytes 8 (0x100000 + 10 * 2 ^ 48) ++ leBytes 8 0x110000 ++ leBytes 8 0x120000 ++ leBytes 8 1 ++ leBytes 8 0 ++
          leBytes 8 (1 + 2 ^ 8 + 2 ^ 16 + 2 ^ 18))] fun m => { m with trees := [] }
        let (bs, a) ← rd s 0x160000 128
        guard (s.pailTree 1 7 = none ∧ (a.treeOf 0 bs).2 = 0 ∧ pailEncoded 0x01 (cmd1 0 0x160000 0 0) = true)).isSome = true ∧
    (do let s := tabled [(0x1000, nodeBytes ⟨key0, 5, false, true, 0, 0⟩), (0x1100, List.replicate 20 0#8 ++ leBytes 4 1)] id
        let t1 := { tree2 with cursor := 1 }
        guard (s.pailTree 1 7 = some tree2 ∧ pailEncoded 0x03 (cmd1 0 1 0 0) = true)
        let (bs, a) ← rd s (tree2.wayAt 0 0) 256
        let nd ← ((blocksOf 64 4 bs).map nodeOf)[0]?
        let (cs, b) ← rd (a.putTree 1 7 t1) (tree2.countAt nd.yoke) 4
        let c ← wr b (tree2.wayAt 0 0) (nodeBytes { nd with valid := false })
        let (old, e) ← ad c (tree2.countAt nd.yoke) (2 ^ 32 - 1)
        let _ ← wr e (tree2.freeBase + 4 * tree2.freeTop) (leBytes 4 nd.yoke)
        guard (nd.valid = true ∧ cs = leBytes 4 1 ∧ c.pailTree 1 7 = some t1 ∧ old = 1 ∧ e.pailTree 1 7 = some t1 ∧
          ((e.pail 1).gathers.all fun g => decide (g.tree ≠ 7)) = true)).isSome = true := by decide +kernel

theorem witness_blocksMatchAndPublish :
    (do let b0 := bucketOf tree2 key0
        let s := tabled [] id
        let (toks, a) ← rd s 0x150000 256
        let (bs, _) ← rd a (tree2.wayAt b0 0) 256
        guard (blockKey (a.saltOf 0) tree2.root toks = key0 ∧ (((blocksOf 64 4 bs).map nodeOf).findIdx? fun (x : Node) => x.valid && decide (x.key = key0)) = none ∧
          pailEncoded 0x12 (cmd1 8 0x150000 64 0) = true)).isSome = true ∧
    (do let b0 := bucketOf tree2 key0
        let s := tabled [(0x1000 + b0, nodeBytes ⟨key0, 5, false, true, 0, 0⟩)] id
        let (_, a) ← rd s 0x150000 256
        let (bs, b) ← rd a (tree2.wayAt b0 0) 256
        let ways := (blocksOf 64 4 bs).map nodeOf
        let nd ← ways[0]?
        let (_, c) ← ad b (tree2.countAt nd.yoke) 1
        let e ← wr c seq1.base (leBytes 4 (entryWord ⟨nd.yoke, nd.half, false, true⟩))
        let g := ((e.putSeq 1 8 { seq1 with changed := [0], len := 64, keys := [key0] }).fadd (.pailStat0 1) PAIL_STAT0_HITS 1).putTree 1 7
          { tree2 with clock := 1 }
        let f ← wr g (tree2.wayAt b0 0) (nodeBytes { nd with age := 1 })
        guard ((ways.findIdx? fun (x : Node) => x.valid && decide (x.key = key0)) = some 0 ∧ b.pailTree 1 7 = some tree2 ∧ c.pailTree 1 7 = some tree2 ∧
          c.pailSeq 1 8 = some seq1 ∧ e.pailTree 1 7 = some tree2 ∧ e.pailSeq 1 8 = some seq1 ∧ (f.pailTree 1 7).isSome = true ∧
          (f.pailSeq 1 8).isSome = true)).isSome = true ∧
    (do let b0 := bucketOf tree2 key0
        let s := oneEntry 64
        let (toks, a) ← rd s 0x150000 256
        let (bs, b) ← rd a seq1.base 4
        let (cs, c) ← rd b (tree2.wayAt b0 0) 256
        let ways := (blocksOf 64 4 cs).map nodeOf
        let (_, e) ← ad c (tree2.countAt 5) 1
        let f ← wr e (tree2.wayAt b0 0) (nodeBytes ⟨key0, 5, false, true, 0, 0⟩)
        guard (entryOf (leNat bs) = ent5 ∧ blockKey (a.saltOf 0) tree2.root toks = key0 ∧ (ways.any fun (x : Node) => x.valid && decide (x.key = key0)) = false ∧
          (ways.findIdx? fun (x : Node) => !x.valid) = some 0 ∧ f.pailSeq 1 8 = some { seq1 with len := 64 } ∧ f.pailTree 1 7 = some tree2 ∧
          pailEncoded 0x15 (cmd1 8 0x150000 0 0) = true)).isSome = true := by decide +kernel

theorem witness_pailCommandsUseTheirTables :
    (do let s := oneEntry 1
        let q := { seq1 with len := 1 }
        let (bs, a) ← rd s seq1.base 4
        let (cs, b) ← rd a (tree2.countAt 5) 4
        let (_, c) ← rd b seq1.base 4
        let f ← wr c 0x150000 ((c.tokenSlots 1 tree2 ent5 1).flatMap (leBytes 8))
        guard (entryOf (leNat bs) = ent5 ∧ partner tree2 0 = none ∧ a.pailTree 1 7 = some tree2 ∧ a.pailSeq 1 8 = some q ∧ leNat cs ≤ 1 ∧
          b.pailTree 1 7 = some tree2 ∧ b.pailSeq 1 8 = some q ∧ f.pailSeq 1 8 = some q ∧ pailEncoded 0x13 (cmd1 8 0x150000 1 0) = true ∧
          pailEncoded 0x14 (cmd1 8 0x150000 (2 ^ 32) 0) = true)).isSome = true ∧
    (do let s := (oneEntry 64).putSeq 1 12 seq1
        let (bs, a) ← rd s seq1.base 4
        let (_, b) ← ad a (tree2.countAt 5) 1
        let f ← wr b seq1.base (leBytes 4 (entryWord ent5))
        guard (entryOf (leNat bs) = ent5 ∧ ({ seq1 with len := 64 } : Seq).used = 1 ∧ a.pailTree 1 7 = some tree2 ∧ b.pailTree 1 7 = some tree2 ∧
          b.pailSeq 1 12 = some seq1 ∧ f.pailSeq 1 12 = some seq1 ∧ pailEncoded 0x16 (cmd1 12 8 0 0) = true)).isSome = true ∧
    (do let s := tabled [(0x1300, leBytes 4 (entryWord ent5)), (0x1100, List.replicate 20 0#8 ++ leBytes 4 2)] fun m => { m with seqs := [(8, { seq1 with len := 1 })] }
        let q := { seq1 with len := 1 }
        let (_, a) ← rd s seq1.base 4
        let b ← wr a seq1.base (leBytes 4 (entryWord .none))
        let (old, c) ← ad ((b.putSeq 1 8 { q with changed := [0] })) (tree2.countAt 5) (2 ^ 32 - 1)
        guard (a.pailSeq 1 8 = some q ∧ b.pailSeq 1 8 = some q ∧ b.pailTree 1 7 = some tree2 ∧ old ≠ 1 ∧ c.pailSeq 1 8 = some { q with changed := [0] })).isSome = true ∧
    (do let s := oneEntry 1
        let q := { seq1 with len := 1 }
        let (bs, a) ← rd s seq1.base 4
        let b ← wr a seq1.base (leBytes 4 (entryWord { ent5 with lost := true }))
        let _ ← okRun (dropNodes 1 7 5) (b.putSeq 1 8 { q with changed := [0] })
        guard (entryOf (leNat bs) = ent5 ∧ a.pailSeq 1 8 = some q ∧ b.pailSeq 1 8 = some q)).isSome = true := by decide +kernel

/-- Port 5 of I/O die 0 is up and leads to the twin, and the way to it. -/
def twinned (s : State) : State :=
  let s := (rangeFrom 1 3).foldl (fun s e => (s.fput (.d2dEdgeStatus 0 e) D2D_EDGE_STATUS_STATE 1).fput (.d2dEdgeStatus 1 e) D2D_EDGE_STATUS_STATE 1) s
  (s.fput (.linkPortStatus 0 5) LINK_PORT_STATUS_STATE 2).fput (.linkPortCtl 0 5) LINK_PORT_CTL_TWIN 1

/-- A sync of a changed entry is sent to the twin. -/
theorem witness_shadowSyncSends :
    (do let t := { tree2 with shadow := true, twinDev := 5, twinPorts := 0x20 }
        let q := { seq1 with len := 1, synced := 1, changed := [0] }
        let s := twinned (tabled [(0x1300, leBytes 4 (entryWord ent5))] fun m => { m with trees := [(7, t)], seqs := [(8, q)] })
        let (bs, a) ← rd s seq1.base 4
        let _ ← sent (a.sendPailMsg 1 0 true t.twinDev t.twinPorts (pailAddr 8 t.twinDie t.twinTree 0 0 0) 8 (shadowBytes 8 q false [(0, entryOf (leNat bs))] []))
        guard (pailEncoded 0x20 (cmd1 8 0 0 0) = true ∧ ((s.pail 1).mustWait 0x20 (cmd1 8 0 0 0)) = false ∧ q.len = q.synced ∧ 0 < q.used)).isSome = true := by
  decide +kernel

/-- A ring of two devices, both neighbours of which are this device; its buffers are sequences 10 and 11. -/
def ring2 : ChurnRing := { ring1 with nextDev := 0, prevDev := 0, c := 1, helloNext := false, helloPrev := false, runs := 0 }
def buf (n : Nat) : Seq := ⟨7, 0x130010 + 16 * n, 1, 0, [], false, 0, []⟩
def churning (first : SMap (List Byte)) (rings : SMap ChurnRing) : State :=
  tabled first fun m => { m with rings := rings, seqs := [(8, seq1), (9, seq1), (10, buf 0), (11, buf 1)] }
def sends (s : State) (y : ChurnRing) (msg : Nat) (next : Bool) (step : Nat) (data : List Byte) : Option State :=
  sent (s.sendPailMsg 1 0 false (if next then y.nextDev else y.prevDev) (2 ^ 24 - 1) (pailAddr msg 0 y.id y.pos step y.runs) 9 data)

theorem witness_churnCommandsComplete :
    (do let s := churning [(0x1600, leBytes 8 (3 + 2 * 2 ^ 16) ++ leBytes 8 (10 + 11 * 2 ^ 16 + 2 ^ 32) ++ leBytes 8 0x140000 ++ leBytes 8 0x140008 ++
          leBytes 8 0 ++ leBytes 8 0x140100 ++ leBytes 8 0x140200)] []
        let (bs, a) ← rd s 0x160000 64
        let b ← okRun (fillBuffer 1 7 10 1) a
        let c ← okRun (fillBuffer 1 7 11 1) b
        let t ← c.pailTree 1 7
        let e ← sends (c.putRing 1 9 ring2) ring2 1 true 0 (helloBytes ring2)
        let _ ← sends e ring2 1 false 0 (helloBytes ring2)
        guard (s.pailRing 1 9 = none ∧ churnRecord 7 bs = ring2 ∧ ring2.shaped = true ∧ a.ringPlaced 0 ring2 = true ∧ a.pailSeq 1 10 = some (buf 0) ∧
          a.pailSeq 1 11 = some (buf 1) ∧ e.pailRing 1 9 = some ring2 ∧ e.pailTree 1 7 = some t ∧ pailEncoded 0x30 (cmd1 9 0x160000 0 0) = true)).isSome = true ∧
    (do let r := { ring2 with helloNext := true, helloPrev := true }
        let s := churning [] [(9, r)]
        let y := r.begin 0x77 0 false 0
        let (_, a) ← rd s r.release 8
        let b ← (match a.farAtomic (.pail 1) 0 r.ready .add 8 1 0 with | (b, .ok _) => some b | _ => none)
        let c ← sends (b.putRing 1 9 y) y 2 false 1 []
        guard (b.pailTree 1 7 = some tree2 ∧ c.pailRing 1 9 = some y ∧ c.pailTree 1 7 = some tree2 ∧ pailEncoded 0x31 (cmd1 9 0 0 0) = true ∧
          ((s.pail 1).mustWait 0x31 (cmd1 9 0 0 0)) = false)).isSome = true ∧
    (do let s := churning [] [(9, ring2)]
        let a ← sends s ring2 6 true 0 []
        let b ← sends a ring2 6 false 0 []
        let c ← okRun (truncateSeq 1 7 10 0) b
        let _ ← okRun (truncateSeq 1 7 11 0) c
        guard (a.pailRing 1 9 = some ring2 ∧ a.pailTree 1 7 = some tree2 ∧ pailEncoded 0x32 (cmd1 9 0 0 0) = true)).isSome = true := by decide +kernel

/-! ### Mesh, ring, arbiters and crossings -/

/-- A request of one flit between nodes. -/
def pktTo (src dst : Nat) : MeshPkt := ⟨.request, src, dst, none, 1, 1, [7#8]⟩
/-- Router `n` of die 0 with a packet at input `i`. -/
def routed (n i : Nat) (p : MeshPkt) : State := up.setRouter 0 n { RouterSt.init with inputs := RouterSt.init.inputs.set i [p] }

theorem witness_routersMovePackets :
    let other := fun (s : State) (n i : Nat) (out : RouterOut) => ∀ j ∈ List.range 10, j ≠ i → ∀ q ∈ ((s.router 0 n).inputs.getD j []).head?, routerOut n q ≠ out
    ({ up with power := { up.power with mainOn := false } } : State).meshUp 0 = false ∧
    (up.meshUp 0 = true ∧ ((routed 63 0 (pktTo 0 63)).router 0 63).inputs.length = 10 ∧ routerOut 63 (pktTo 0 63) = .core ∧
      (routed 63 0 (pktTo 0 63)).meshRoom 0 63 .core (pktTo 0 63) = true ∧ other (routed 63 0 (pktTo 0 63)) 63 0 .core) ∧
    (routerOut 0 (pktTo 0 9) = .side .east ∧ beyond 0 .east = some 1 ∧ (routed 0 8 (pktTo 0 9)).meshRoom 0 0 (.side .east) (pktTo 0 9) = true) ∧
    (let e := (meshExit (pktTo 0 96)).2
     let n := (meshExit (pktTo 0 96)).1
     routerOut n (pktTo 0 96) = e ∧ (match e with | .side x => decide (beyond n x = none) | .core => false) = true ∧
       (routed n 8 (pktTo 0 96)).meshRoom 0 n e (pktTo 0 96) = true) ∧
    (((routed 63 8 (pktTo 0 63)).router 0 63).inputs.getD 8 []).all (fun q => decide (q.cls = .request)) = true ∧
    (((routed 63 9 { pktTo 0 63 with cls := .reply }).router 0 63).inputs.getD 9 []).all (fun q => decide (q.cls = .reply)) = true ∧
    (up.router 0 63 = { RouterSt.init with owed := 0 } ∧ (pktTo 0 63).sound = true ∧ routerOut 63 (pktTo 0 63) ≠ .side .north ∧
      (up.setRouter 0 63 { RouterSt.init with owed := 8 }).router 0 63 = { RouterSt.init with owed := 8 } ∧ 8 < 8 + (pktTo 0 63).reply) ∧
    (smGet 0 up.missed 63 < 2 ∧ 2 ≤ smGet 0 ({ up with missed := [(63, 2)] } : State).missed 63) := by decide +kernel

theorem witness_stopsMovePackets :
    let p := pktTo 96 104
    let arrived := { up with ringSlots := smPut up.ringSlots (slotKey 0 true 3 40) ⟨pktTo 96 104, false⟩ }
    let way := ringWay 0 32 p
    (stopPresent up.variant 40 = true ∧ nextStop up.variant 0 40 true = some 0 ∧ smFind up.ringSlots (slotKey 0 true 3 40) = none ∧ (up.stop 0 40).waiting = []) ∧
    (smFind arrived.ringSlots (slotKey 0 true 3 40) = some ⟨p, false⟩ ∧ smFind (smDel arrived.ringSlots (slotKey 0 true 3 40)) (slotKey 0 true 3 40) = none ∧
      ringExit p = 40 ∧ bufferRoom (arrived.stop 0 40).req p = true) ∧
    bufferRoom [{ p with flits := 4 }, { p with flits := 4 }] p = false ∧
    ((up.setStop 0 32 ⟨[p], [], [], 0⟩).stop 0 32 = ⟨[p], [], [], 0⟩ ∧ smFind up.ringSlots (slotKey 0 way.2 way.1 32) = none ∧ way.1 < 16 ∧
      (match nextStop up.variant 0 32 way.2 with | some n => decide (smFind up.ringSlots (slotKey 0 way.2 way.1 n) = none) | none => false) = true ∧
      up.arbFrozen 0 (arbSelOf 4 (32 * 2 + b2n (!way.2))) = false) := by decide +kernel

/-- R338: the pointer moves on past a requester that is granted alone. -/
theorem test_arbiter_pointer : ((after (.arbGrant 3 1 [2]) up).arb 3 1).ptr = 3 := by decide +kernel

theorem witness_arbitersGrantByWeight :
    let a := ArbSt.init 1
    let pend := up.setArb 3 1 { a with counts := [0, 2] ++ List.replicate 14 0, ptr := 1 }
    let frozen := up.fput (.arbCtl 3 1) ARB_CTL_FREEZE 1
    (arbPresent 1 = true ∧ up.dieUp 3 = true ∧ arbGrants up.variant 3 1 = true ∧ up.arbFull 3 1 = false ∧ up.arbFrozen 3 1 = false ∧ 3 < arbRequesters 1 ∧
      (up.arb 3 1).counts = List.replicate 16 0) ∧
    ((pend.arb 3 1).ptr < arbRequesters 1 ∧ 0 < wordAt (pend.arb 3 1).counts 1 ∧ (pend.arb 3 1).used < weightOf (pend.arb 3 1).weights 1 ∧
      pend.arbFull 3 1 = false ∧ pend.arbFrozen 3 1 = false) ∧
    (frozen.arbFrozen 3 1 = true ∧ arbGrants frozen.variant 3 1 = true ∧ frozen.admits .pf (.arbCtl 3 1) = true ∧
      (frozen.written (.arbCtl 3 1) (hostW 0)).field ARB_CTL_FREEZE = 0) ∧
    (let full := up.setLadle 0 { LadlePort.init with queue := List.replicate 16 ladleFill2 }
     full.arbFull 0 (ladlePort 0) = true ∧ full.arbFrozen 0 (ladlePort 0) = false ∧ arbPresent (ladlePort 0) = true) ∧ up.admits .pf (.arbCtl 3 1) = true ∧
    (up.admits .pf (.arbStat 3 1) = true ∧ (up.written (.arbStat 3 1) (hostW (2 ^ 64 - 1))).hit ARB_STAT_CLEAR = true) := by decide +kernel

theorem witness_crossingsCarryValues :
    let failing := (up.setXing 0 0x20002 { XingSt.init with failing := some 5 }).fput (.xingCtl 0) XING_CTL_INT_EN 0
    let forced := up.fput (.xingStatus 0 0x20002) XING_STATUS_FALLBACK 1
    let sel := fun (n : Nat) => up.put (.xingSel 0 0) (BitVec.ofNat 64 n)
    (up.xingIs 0 2 .single = true ∧ ((up.setXing 0 2 { XingSt.init with trip := true, events := 15, producers := 1 }).xing 0 2).trip = true) ∧
    (up.xingIs 0 0x20002 .sample = true ∧ up.fget (.xingStatus 0 0x20002) XING_STATUS_FALLBACK = 0 ∧ (up.xing 0 0x20002).failing = none) ∧
    forced.fget (.xingStatus 0 0x20002) XING_STATUS_FALLBACK = 1 ∧ forced.xingIs 0 0x20002 .sample = true ∧
    ((failing.xing 0 0x20002).failing = some 5 ∧ failing.fget (.xingCtl 0) XING_CTL_INT_EN = 0 ∧ (failing.xing 0 0x20002).queue = []) ∧ up.xingIs 0 0x30004 .queue = true ∧
    ((xingKind up.variant 0 2).isSome = true ∧ up.dieUp 0 = true ∧ up.fget (.xingCtl 0) XING_CTL_STALL_LIMIT ≠ 0 ∧
      (up.fput (.xingCtl 0) XING_CTL_STALL_LIMIT 0).fget (.xingCtl 0) XING_CTL_STALL_LIMIT = 0) ∧
    (up.admits .pf (.xingCtl 0) = true ∧ 0x20002 = bitsOf ((sel 0x20002).get (.xingSel 0 Master.pf.copy)).toNat 0 20 ∧
      ((sel 0x20002).written (.xingCtl 0) (hostW 0)).hit XING_CTL_FORCE = false ∧
      ((sel 0x20002).written (.xingCtl 0) (hostW (2 ^ 25))).hit XING_CTL_FORCE = true ∧ ((sel 0x20002).written (.xingCtl 0) (hostW (2 ^ 25))).field XING_CTL_INT_EN = 0) := by decide +kernel

/-! ### Die-to-die links -/

def header16 : List Byte := 1#8 :: List.replicate 15 0#8
/-- A flit of number 0 that is whole. -/
def dieFlit0 : List Byte := dieFlit 0 255 []
/-- A flit of number 255 that holds one packet. -/
def sent1 : LinkFlitRec := ⟨255, header16, [⟨0, .request, 0, 1, header16⟩]⟩

theorem witness_dieLinksCarryFlits :
    let unacked := linked.setModule 0 0 0 { ModuleSt.init with unacked := [sent1] }
    (header16.length = 16 ∧ header16.getD 0 0#8 ≠ 0#8 ∧ header16.getD 0 0#8 ≠ 0xFF#8 ∧ linked.firstHop 0 1 = some 0 ∧
      0 = wordAt (linked.edge 0 0).mapTx (flowKey .request (0 % 16) 0) ∧ linked.moduleActive 0 0 0 = true ∧ (linked.module 0 0 0).repairing = false ∧
      (linked.module 0 0 0).queue = [] ∧ (linked.module 0 0 0).unacked = [] ∧ 0 < (linked.module 0 0 0).credit .request ∧
      linked.dieDivider 0 0 = 1 ∧ up.firstHop 0 1 = none) ∧
    (up.dieUp 0 = true ∧ (edgePeer up.variant 0 0).isSome = true ∧ (up.fput (.d2dEdgeStatus 0 0) D2D_EDGE_STATUS_STATE 4).edgeState 0 0 = 4 ∧
      (up.fput (.d2dEdgeStatus 0 0) D2D_EDGE_STATUS_STATE 4).sentFlit 0 0 0 255 = none ∧
      ((up.fput (.d2dEdgeStatus 0 0) D2D_EDGE_STATUS_STATE 4).setModule 1 0 0 { ModuleSt.init with unacked := [sent1] }).sentFlit 0 0 0 255 = some sent1) ∧
    (linked.edgeState 0 0 = 1 ∧ (linked.setModule 1 0 0 { ModuleSt.init with unacked := [{ sent1 with seq := 0 }] }).sentFlit 0 0 0 0 = some { sent1 with seq := 0 } ∧
      linked.sentFlit 0 0 0 0 = none ∧ ((dieFlit0.drop 2).take 250).all (· == 0#8) = true ∧ dieFlit0.length = 256 ∧ leNat (dieFlit0.drop 252) = crc32c (dieFlit0.take 252) ∧
      (dieFlit0.getD 0 0#8).toNat = (linked.module 0 0 0).expected ∧ ((dieFlit 7 255 []).getD 0 0#8).toNat ≠ (linked.module 0 0 0).expected) ∧
    leNat ((dieFlit0.set 255 0#8).drop 252) ≠ crc32c ((dieFlit0.set 255 0#8).take 252) ∧
    ((linked.edgeUp 0 0 && linked.moduleActive 0 0 0) = true ∧
      ((unacked.module 0 0 0).unacked.findIdx? fun r => decide (r.seq = 255 % 256)) = some 0 ∧ (unacked.module 0 0 0).unacked ≠ []) ∧
    (23 < edgeModules linked.variant 0 0 ∧ ∀ p ∈ (linked.edge 0 0).held, p.key ≠ 95) := by decide +kernel

theorem witness_dieLinksRepairAndRetire :
    let rep := (linked.setModule 0 0 23 { ModuleSt.init with repairing := true }).fput (.d2dCtl 0) D2D_CTL_INT_EN 0
    let down := fun (s : State) (die n : Nat) => (List.range 4).foldl (fun (s : State) e => match edgePeer s.variant die e with
      | some p => (List.range 4).foldl (fun (s : State) g => if edgePeer s.variant p g = some die then s.fput (.d2dEdgeStatus p g) D2D_EDGE_STATUS_STATE n else s) s
      | none => s) s
    let lost := down up 1
    (otherEnd rep.variant 0 0 = some (1, 0) ∧ (rep.module 0 0 23).repairing = true ∧ rep.moduleActive 0 0 23 = true ∧ (rep.module 0 0 23).unacked = [] ∧
      (rep.module 1 0 23).unacked = [] ∧ (rep.module 0 0 23).queue = [] ∧ (rep.module 1 0 23).queue = [] ∧ rep.fget (.d2dCtl 0) D2D_CTL_INT_EN = 0) ∧
    (linked.edgeState 0 0 = 1 ∧ linked.moduleActive 0 0 23 = true) ∧
    (let one := (List.range 23).foldl (fun (s : State) m => s.fput (.d2dModule 0 0 m) D2D_MODULE_WIDTH 2) linked
     (List.range (edgeModules one.variant 0 0)).any ((one.retire 0 0 23).moduleActive 0 0) = false) ∧
    ((lost 3).dieUp 1 = true ∧ (lost 3).dieUp 4 = true ∧ (lost 3).dieUp 0 = true ∧ (lost 3).reports 1 ≠ [] ∧ ∀ r ∈ (lost 3).reports 1, r = 3) ∧
    (((lost 4).reports 1).any fun r => decide (r = 4)) = true ∧
    ((∃ r ∈ up.reports 1, r ≠ 3) ∧ ∀ r ∈ up.reports 1, r ≠ 4) ∧
    (let s := (up.fput (.bootDomsum) BOOT_DOMSUM_STATES 2)
     (List.range 4).find? s.dieUp = some 1) ∧
    (let s := down { up with variant := .N } 5 3
     s.dieUp 5 = true ∧ s.dieUp 4 = true ∧ s.reports 5 ≠ [] ∧ (∀ r ∈ s.reports 5, r = 3) ∧ s.fabReqs = [] ∧
       ∀ k < 4, (s.pail k).syncs = [] ∧ (s.pail k).parts = []) := by decide +kernel

/-! ### The fabric -/

/-- I/O die 0 is linked to compute dies 0 and 1. -/
def wired (s : State) : State :=
  [Reg.d2dEdgeStatus 0 2, .d2dEdgeStatus 1 2, .d2dEdgeStatus 4 0, .d2dEdgeStatus 4 1].foldl (fun s r => s.fput r D2D_EDGE_STATUS_STATE 1) s
/-- I/O die 0 with port 5 in a state. -/
def port5 (st : Nat) (s : State) : State := s.fput (.linkPortStatus 0 5) LINK_PORT_STATUS_STATE st
/-- Packets to device 9 leave by port 5 of I/O die 0. -/
def routed5 : State := (port5 2 up).put (.linkRouteData 0 9) (BitVec.ofNat 64 (2 ^ 5 + 2 ^ 7))
/-- A packet of a kind to a device, from device 9, for far address 0x1000. -/
def kpkt (kind dst rhr len hops : Nat) (data : List Byte) : Packet := mkPacket kind 0 false dst 9 0 rhr 0x22 0x1000 len hops data
def req22 (i : FabIssuer) : State := { wired up with fabReqs := [⟨0x22, kpkt 2 9 0 8 3 [], i, 0, none, none⟩] }
/-- A PUT of one byte, a GET of the whole line and an ADD64, to far line 0x10, which is cached. -/
def put1 : Packet := kpkt 1 0 0 1 0 [1#8]
def get256 : Packet := kpkt 2 0 0 256 0 []
def add5 : Packet := kpkt 3 0 0 8 0 (leBytes 8 5)
def cached : State := line10 (wired up)

theorem witness_fabricPacketsAreServed :
    (let behind := fun (s : State) (k : Packet) => s.fabWaits.any fun x => decide (x.pkt.src = k.src) && decide (x.pkt.flow = k.flow)
     behind { up with fabWaits := [⟨0, none, put1⟩] } put1 = true ∧ behind cached put1 = false) ∧
    up.fabAdmits (kpkt 1 0 3 1 0 [1#8]) = false ∧
    ((cached.fabAdmits put1 && fabLenOk put1 && !cached.fabProtected put1) = true ∧ put1.data.length = put1.len ∧ put1.kind = 1 ∧
      okRes (cached.writeAt (.fabric 0) 0 none allowFar put1.addr [1#8]) = true ∧
      heldRes ({ cached with setChanges := [setOf up.variant 0x1000] }.writeAt (.fabric 0) 0 none allowFar put1.addr [1#8]) = true) ∧
    (match (up.writeAt (.fabric 0) 0 none allowFar (mkPacket 1 0 false 0 9 0 0 0 (2 ^ 47) 1 0 [1#8]).addr [1#8]).2 with
      | .error (.held _) => false | .error _ => true | .ok _ => false) = true ∧
    ((cached.fabAdmits get256 && fabLenOk get256 && !cached.fabProtected get256) = true ∧ get256.kind = 2 ∧
      okRes (cached.readAt (.fabric 0) 0 none allowFar get256.addr get256.len) = true) ∧
    (add5.kind = 3 ∧ cached.fabAdmits add5 = true ∧ cached.fabProtected add5 = false ∧ add5.len = 8 ∧ add5.data.length = 8 ∧ add5.addr % 8 = 0 ∧
      okRes (cached.farAtomic (.fabric 0) 0 0x1000 .add 8 5 0) = true) ∧
    (let k := mkPacket 4 0 false 0 5 0 0 0 (1 + 3 * 2 ^ 6) 0 0 []
     k.kind = 4 ∧ (wired (ringed id)).pailTaker 4 k = some (1, tree1) ∧ tree1.hr = k.rhr ∧ (ringed id).msgBytes 1 tree1 k k.data = 0 ∧ bitsOf k.addr 0 4 ∉ [3, 4, 8] ∧
       ((ringed id).pail 1).parts = [] ∧ (ringed id).fabAdmits k = true ∧ k.data.length = k.len) := by decide +kernel

/-- What the requests above find at their line. -/
theorem witness_fabricOnSoundLine :
    (spaceOf 0x1000 = .far 0x1000 ∧ (cached.translate 0 0x1000).toOption = some 0x1000 ∧ [put1, get256, add5].map Packet.addr = [0x1000, 0x1000, 0x1000] ∧
      [put1, get256, add5].map Packet.len = [1, 256, 8]) ∧ cached.lineSound (.fabric 0) 0x1000 :=
  ⟨by decide +kernel, lineSound_of cached (.fabric 0) 0x1000 (by decide +kernel) (by decide +kernel) (by decide +kernel) (by decide +kernel)
    (by decide +kernel) (by decide +kernel) (by decide +kernel)⟩

theorem witness_fabricRequestsEnd :
    up.fabReq 0x22 = none ∧
    (∃ r, (req22 (.descriptor 1 0)).fabReq 0x22 = some r ∧ (req22 (.descriptor 1 0)).diesLinked r.issuer.die 4 = true) ∧
    (∃ r, { req22 (.pail 1 2 9) with regs := up.regs }.fabReq 0x22 = some r ∧ { req22 (.pail 1 2 9) with regs := up.regs }.diesLinked r.issuer.die 4 = false) ∧
    (∃ r, (req22 (.pail 1 2 9)).fabReq 0x22 = some r ∧ (∃ m msg key, r.issuer = .pail m msg key) ∧ (req22 (.pail 1 2 9)).diesLinked r.issuer.die 4 = true) ∧
    bitsOf (kpkt 0x41 0 0 0 0 []).w1 0 8 = 0 ∧
    ({ req22 (.descriptor 1 0) with power := { up.power with perst := true } } : State).registrarUp = false :=
  ⟨by decide +kernel, ⟨_, rfl, by decide +kernel⟩, ⟨_, rfl, by decide +kernel⟩, ⟨_, rfl, ⟨1, 2, 9, rfl⟩, by decide +kernel⟩, by decide +kernel,
    by decide +kernel⟩

theorem witness_fabricPacketsAreRouted :
    (routed5.routeOut (kpkt 1 9 0 1 63 [1#8]) (2 ^ 24 - 1) = .port 0 5 false ∧ routed5.portState 0 5 = 2 ∧ routed5.divider (1024 + 5) = 1 ∧
      (routed5.fab 0 5).queue = [] ∧ (routed5.fab 0 5).unacked.length < 1024 ∧ (kpkt 1 9 0 1 63 [1#8]).data.length ≤ 256 ∧
      (kpkt 1 9 0 1 63 [1#8]).credits ≤ wordAt (routed5.fab 0 5).credits (kpkt 1 9 0 1 63 [1#8]).lane) ∧
    up.routeOut (kpkt 1 0 0 1 0 [1#8]) (2 ^ 24 - 1) = .deliver ∧
    (up.routeOut (kpkt 0x41 9 0 0 0 []) (2 ^ 24 - 1) = .none 3 ∧ (kpkt 0x41 9 0 0 0 []).isReply = true ∧
      (req22 (.descriptor 1 0)).routeOut (kpkt 2 9 0 8 0 []) (2 ^ 24 - 1) = .none 3 ∧ (kpkt 2 9 0 8 0 []).isReply = false ∧
      ((req22 (.descriptor 1 0)).fabReq (kpkt 2 9 0 8 0 []).tag).isSome = true) ∧
    (up.ioUp 0 = true ∧ (port5 7 up).portState 0 5 = 7 ∧ (port5 8 up).portState 0 5 = 8 ∧ (port5 9 up).portState 0 5 = 9 ∧ (port5 2 up).portState 0 5 = 2) ∧
    ((kpkt 9 0 0 1 0 [1#8]).malformed = true ∧ (kpkt 1 0 0 1 0 [1#8]).malformed = false) ∧
    (let x := mkPacket 1 0 true 0 9 0 0 0 0 1 0 [1#8]
     x.malformed = false ∧ x.x = true ∧ bitAt (routed5.twinPorts 0) 5 = false ∧
      bitAt ((routed5.fput (.linkPortCtl 0 5) LINK_PORT_CTL_TWIN 1).twinPorts 0) 5 = true) ∧
    ((kpkt 1 0 0 1 0 [1#8]).x = false ∧ (kpkt 1 0 0 1 0 [1#8]).dst = routed5.deviceId) ∧
    ((kpkt 1 9 0 1 0 [1#8]).dst ≠ routed5.deviceId ∧ (kpkt 1 9 0 1 0 [1#8]).hops = 0 ∧ (kpkt 1 9 0 1 63 [1#8]).hops ≠ 0) ∧
    (let k := kpkt 1 9 0 1 63 [1#8]
     let j := { k with w0 := putBits k.w0 10 1 0, w1 := putBits k.w1 57 6 (k.hops - 1) }
     pickPort 6 (fldGet (routed5.get (.linkRouteData 0 9)) LINK_ROUTE_DATA_PORTS &&& routed5.upPorts 0) j = some 5 ∧
       pickPort 6 (fldGet (up.get (.linkRouteData 0 9)) LINK_ROUTE_DATA_PORTS &&& up.upPorts 0) j = none) := by decide +kernel

/-- R418, R422: a GET whose access is held waits, and what comes behind it of its flow. -/
theorem test_fabric_wait :
    let s := { cached with setChanges := [setOf up.variant 0x1000] }
    (after (.put 0 put1) s).fabWaits = [⟨0, none, put1⟩] ∧ (after (.get 0 get256) (after (.put 0 put1) s)).fabWaits.length = 2 := by decide +kernel

/-- R414, R418: a PUT sent by a port that is up takes one credit of its channel, of 64 bytes. -/
theorem test_fabric_credit : ((after (.packetOriginate 0 (kpkt 1 9 0 1 63 [1#8])) routed5).fab 0 5).credits.getD 0 0 = 1023 := by decide +kernel

/-- R428: a reply whose tag no request has is counted. -/
theorem test_fabric_late : (after (.fabricAck 0 (kpkt 0x41 0 0 0 0 [])) up).fget (.linkStat 0) LINK_STAT_LATE_DROPS = 1 := by decide +kernel

/-- A flit of number 0 that is whole. -/
def flit0 : LinkFlit := ⟨true, List.replicate 8 1, linkFlit 0 4095 []⟩

theorem witness_fabricPortsCarryFlits :
    let resends := routed5.setFab 0 5 { FabPort.init with unacked := [(4095, [1#8])] }
    (flit0.whole = true ∧ flit0.seq = (routed5.fab 0 5).expected ∧ flit0.corrected.sum ≠ 0) ∧
    (routed5.ioUp 0 = true ∧ (port5 8 up).portState 0 5 = 8 ∧ (port5 7 up).portState 0 5 = 7 ∧ routed5.portState 0 5 = 2 ∧ routed5.divider (1024 + 5) = 1 ∧
      { flit0 with correctable := false }.whole = false ∧ 0 ≠ ({ FabPort.init with expected := 1 } : FabPort).expected) ∧
    ((resends.fab 0 5).queue = [] ∧ ((resends.fab 0 5).unacked.findIdx? fun u => decide (u.1 = 4095 % 4096)) = some 0 ∧ (resends.fab 0 5).unacked ≠ [] ∧
      (routed5.fab 0 5).unacked = [] ∧ up.portState 0 5 ≠ 2) := by
  have h := linkFlit_whole 0 4095 [] (by decide)
  refine ⟨⟨?_, h.2.1.trans (by decide +kernel), by decide⟩, by decide +kernel⟩
  simp [LinkFlit.whole, flit0, h.1, h.2.2]

/-- A training in which every lane finds lane i of device 9, one of a driven lane, and one with no lane. -/
def trains (f : LaneFinding → LaneFinding) : Training := ⟨(List.range 8).map fun i => f ⟨false, true, true, false, i, false, 9, 3, 0, 0⟩, 0xFF⟩

theorem witness_fabricPortsTrainAndStop :
    let on := port5 2 ((up.fput (.linkPortCtl 0 5) LINK_PORT_CTL_ENABLE 1).fput (.linkCtl 0) LINK_CTL_INT_EN 0)
    let quiet := up.fput (.linkCtl 0) LINK_CTL_INT_EN 0
    ((on.ioUp 0 = true ∧ on.portState 0 5 = 2 ∧ (port5 9 on).portState 0 5 = 9 ∧ (on.fab 0 5).queue = [] ∧ (on.fab 0 5).sent = [] ∧ (on.fab 0 5).unacked = [] ∧
      on.fget (.linkCtl 0) LINK_CTL_INT_EN = 0 ∧ on.divider (1024 + 5) = 1) ∧ ∀ k < 4, (on.pail k).syncs = [] ∧ (on.pail k).parts = []) ∧
    (up.admits .pf (.linkPortCtl 0 5) = true ∧ (up.written (.linkPortCtl 0 5) (hostW 1)).field LINK_PORT_CTL_ENABLE = 1 ∧
      fldGet (up.written (.linkPortCtl 0 5) (hostW 1)).old LINK_PORT_CTL_ENABLE = 0 ∧
      (port5 7 on).portState 0 5 = 7 ∧ ((port5 7 on).written (.linkPortCtl 0 5) (hostW 1)).hit LINK_PORT_CTL_ENABLE = true ∧
      (on.written (.linkPortCtl 0 5) (hostW (1 + 2 ^ LINK_PORT_CTL_RETRAIN.lo))).hit LINK_PORT_CTL_RETRAIN = true) ∧
    ((on.written (.linkPortCtl 0 5) (hostW 0)).field LINK_PORT_CTL_ENABLE = 0 ∧ fldGet (on.written (.linkPortCtl 0 5) (hostW 0)).old LINK_PORT_CTL_ENABLE = 1 ∧
      on.admits .pf (.linkPortCtl 0 5) = true ∧ (port5 1 on).portState 0 5 ≠ 2) ∧
    ((port5 1 quiet).portState 0 5 = 1 ∧ (port5 1 quiet).trainingState 0 5 (trains id) = 2 ∧ (port5 9 quiet).trainingState 0 5 (trains id) = 2 ∧
      (port5 1 quiet).trainingState 0 5 (trains fun x => { x with locked := false }) = 6 ∧ quiet.fget (.linkCtl 0) LINK_CTL_INT_EN = 0 ∧
      ((trains id).peer.map (·.dev)) = some 9) ∧
    (routed5.admits .pf (.linkRouteData 0 4095) = true) := by decide +kernel

/-- R433: lanes that find another driver hold the port down in STATE 3, and lanes out of order in STATE 5. -/
theorem test_training_states :
    ((port5 1 up).trainingState 0 5 (trains fun x => { x with driven := true }),
      (port5 1 up).trainingState 0 5 (trains fun x => { x with lane := x.lane ^^^ 1 })) = (3, 5) := by decide +kernel

/-! ### Rings, the registrar and host accesses -/

/-- The registrar runs; ring 63 runs with 16 entries, its queues at 64 KiB and 128 KiB of host memory. -/
def regUp : State := (up.fput .hostStatus HOST_STATUS_REG_STATE 1)
def ringOn (f : RingSt → RingSt) : State :=
  ((((regUp.fput (.ringStatus 63) RING_STATUS_STATE 1).fput (.ringCfg 63) RING_CFG_LOG2SIZE 4).fput (.ringSqBase 63) RING_SQ_BASE_BASE 16).fput
    (.ringCqBase 63) RING_SQ_BASE_BASE 32).setSq 63 (f RingSt.init)

theorem witness_ringsFetchAndDrain :
    let s := ringOn fun r => { r with tail := 1 }
    let confid := (s.fput (.ringCfg 63) RING_CFG_CONF 1)
    ((2 ^ 24 + 15) % 2 ^ 16 % 16 = 15 ∧ regUp.hostLink = true ∧ 63 = 0x3FFFF / 4096 ∧ 0x3FFFF % 4096 ≠ 0 ∧ s.ringFunc 63 = 0 ∧ s.ringFunc 63 ≠ 1 ∧ s.ringState 63 = 1) ∧
    ((0 : Nat).testBit 16 = false ∧ (0 : Nat).testBit 48 = false ∧ (2 ^ 16 : Nat).testBit 16 = true ∧ (2 ^ 16 : Nat).testBit 48 = false ∧ (2 ^ 48 : Nat).testBit 48 = true ∧ (2 ^ 48 : Nat).testBit 16 = false ∧ (s.sq 63).held = [] ∧
      s.ringState 63 ≠ 0) ∧
    (s.registrarUp = true ∧ s.fget (.ringStatus 63) RING_STATUS_SQ_HEAD ≠ (s.sq 63).tail ∧
      (s.hostRead (s.fget (.ringSqBase 63) RING_SQ_BASE_BASE * 4096 + 64 * 0) 64).isSome = true ∧
      ({ s with hostFaults := [(0, 2 ^ 40)] } : State).hostRead (16 * 4096) 64 = none ∧ s.ringConf 63 = false) ∧
    (confid.ringConf 63 = true ∧ confid.unseal 63 0 (List.replicate 64 0#8) = none ∧ s.ringSize 63 ≤ 2 ^ 16) ∧
    (s.fput (.ringStatus 63) RING_STATUS_STATE 4).ringState 63 ≠ 1 ∧
    (up.admits .pf (.ringCtl 63) = true ∧ (up.written (.ringCtl 63) (hostW 1)).field RING_CTL_ENABLE = 1 ∧ up.ringState 63 = 0 ∧ up.registrarUp = false) ∧
    ((hostW 1).half ≠ .hi ∧ regUp.admits .pf (.ringCtl 63) = true ∧ regUp.registrarUp = true ∧ regUp.ringState 63 = 0 ∧ (s.fput (.ringStatus 63) RING_STATUS_STATE 2).ringState 63 = 2) ∧
    ((s.written (.ringCtl 63) (hostW 0)).field RING_CTL_ENABLE = 0 ∧ ∀ d ∈ (s.sq 63).descs, d.started = true) ∧
    (let t := ringOn fun r => { r with draining := true }
     (t.sq 63).draining = true ∧ (t.sq 63).descs = [] ∧ (t.sq 63).held = [] ∧ (t.fput (.ringStatus 63) RING_STATUS_STATE 3).ringState 63 = 3 ∧ t.ringState 63 ≠ 3) := by decide +kernel

/-- Ring 63 with one descriptor. -/
def descOn (words : List Nat) (f : Desc → Desc) : State := ringOn fun r => { r with descs := [f (Desc.init 5 (words ++ List.replicate (8 - words.length) 0))] }

/-- What the only descriptor of ring 63 meets before it starts. -/
def canStart (s : State) (ty : Nat) : Bool :=
  match s.desc 63 5 with
  | some d => decide (d.type = ty) && decide (d.started = false) && decide ((s.sq 63).descs = [d]) && s.ringRuns 63 && s.slotFree 63 && s.notHeld 63 d &&
      !s.higherStarts 63
  | none => false
def onDesc (s : State) (f : Desc → Bool) : Bool := match s.desc 63 5 with | some d => f d | none => false
/-- The admission of the only descriptor of ring 63. -/
def verdict63 (s : State) : Option Verdict := (s.desc 63 5).map (s.verdict 63)
/-- A forecast that allows 500 W. -/
def allowing (s : State) : State := { s with registrar := { s.registrar with fresh := true, allowPkg := 1000, allowStack := List.replicate 4 1000 } }
/-- LAUNCHes and a slice MOVE for core 3, a copy of 16 bytes of far memory, a SCRUB that moves nothing and a GET of a word from device 9. -/
def launch3 : List Nat := [0x01, 0, 0, 0, 3]
def moveSlice : List Nat := [0x02, 0, ownAddr .slice 3 0, 0x1000, 16]
def moveFar : List Nat := [0x02, 0, 0x1000, 0x1010, 16]
def getWord : List Nat := [0x05, 0, 9 + 2 * 2 ^ 28, 0x1000, 0x2000, 8]

theorem witness_descriptorsStart :
    ([0x00, 0x01, 0x02, 0x03, 0x04, 0x05, 0x06, 0x08, 0x09].all fun ty => canStart (descOn [ty] id) ty) = true ∧
    ([0x00, 0x02, 0x03, 0x04, 0x05, 0x06, 0x08, 0x09].all fun ty => (match (descOn [ty] id).firstStart 63 with
      | some (5, _) => true
      | _ => false)) = true ∧
    (canStart (allowing (descOn launch3 id)) 1 = true ∧ verdict63 (allowing (descOn launch3 id)) = some (.go (some 3) 1) ∧
      verdict63 (descOn launch3 id) = some .defer ∧ verdict63 ((descOn launch3 id).fput (.coreStatus 3) CORE_STATUS_STATE 2) = some (.done 6 0x0B) ∧
      ((allowing (descOn launch3 id)).firstStart 63).isSome = true) ∧
    (canStart (allowing (descOn moveSlice id)) 2 = true ∧ verdict63 (allowing (descOn moveSlice id)) = some (.go (some 3) 1)) ∧
    (let s := descOn [0x09] id
     s.ringFunc (bitsOf 0 0 6) = s.ringFunc 63) ∧
    bitsOf 0 8 4 = (descOn [0x03] id).ringHr 63 := by decide +kernel

theorem witness_registrarsOwnDescriptors :
    ([[0x02], moveFar].all fun ws =>
      let s := wired (descOn ws id)
      onDesc s fun d =>
        let own := s.markStarted 63 d none 0 0
        let clear := fun (a : Nat) => match own.protectedEnd 0 a (bitsOf (d.w 4) 0 32) with | .ok none => true | _ => false
        decide (d.stuck = none) && !d.discard && decide (s.verdict 63 d = .go none 0) && clear (bitsOf (d.w 2) 0 48) && clear (bitsOf (d.w 3) 0 48)) = true ∧
    (let s := line10 (wired (descOn moveFar id))
     rangesMeet 16 0x1000 0x1010 = false ∧ s.ringHr 63 = 0 ∧
       okRes (s.readAt .registrar 0 none allowMove 0x1000 16) = true ∧ okRes (s.writeAt .registrar 0 none allowMove 0x1010 (List.replicate 16 0#8)) = true) ∧
    (let s := line10 (wired (descOn [0x06, 0, 0x1000, 0, 0x1000] id))
     onDesc s fun d =>
       let own := s.markStarted 63 d none 0 0
       decide (bitsOf (d.w 2) 0 48 % 256 = 0 ∧ bitsOf (d.w 3) 0 48 = 0) && (match own.scrubPass 63 d with
          | some (u, x) => decide (x.stuck = none) && okRes (u.writeAt .registrar 0 none allowMove (bitsOf (d.w 4) 0 48) x.record)
          | none => false)) = true ∧
    (onDesc (descOn getWord id) fun d => decide (d.failed = none ∧ d.next = 0 ∧ d.waiting = 0 ∧ d.fabKind ≠ 1 ∧ d.fabParts = [(0x2000, 8)]) &&
      !((descOn getWord id).fabReqs.any fun q => decide (q.issuer = .descriptor 63 5) && q.answer.isSome)) = true ∧
    (match ((port5 2 (descOn getWord id)).put (.linkRouteData 0 9) (BitVec.ofNat 64 (2 ^ 5 + 2 ^ 7))).fabIssue (mkPacket 2 0 false 9 0 0 0 0 0x2000 8 0 []) (2 ^ 24 - 1)
        (.descriptor 63 5) 0 with
      | (_, .none _) => false
      | _ => true) = true := by decide +kernel

theorem witness_descriptorsComplete :
    let s := descOn [0x00] id
    ((∀ e ∈ s.rings, ∀ x ∈ e.2.descs, x.deferred = false) ∧ s.ringConf 63 = false ∧ memWf s.host = true ∧ s.ringSize 63 ≤ 2 ^ 16) ∧
    (s.desc 63 5).map (fun d => (d.core, d.discard, bitAt (d.w 0) 9)) = some (none, false, false) ∧ (s.sq 63).held = [] ∧
    (s.fget (.ringStatus 63) RING_STATUS_CQ_TAIL + 1) % s.ringSize 63 ≠ (s.sq 63).cqHead % s.ringSize 63 ∧
    (let w := fun (x : Nat) => descOn [0x09, 0, 0, x, 1] fun d => { d with started := true }
     (match (w 0).desc 63 5 with | some d => (w 0).waitMet d && decide (d.stuck = none) | none => false) = true ∧
     (match (w 1).desc 63 5 with | some d => !(w 1).waitMet d && decide (bitsOf (d.w 4) 0 32 ≠ 0) | none => false) = true ∧ (w 1).registrarUp = true) ∧
    (let lost := descOn moveFar fun d => { d with started := true, stuck := some (.near 3) }
     (lost.fput (.coreStatus 3) CORE_STATUS_STATE 2).goneStatus (.near 3) = some 6) ∧
    ([(0x01, UnitId.core 3), (0x02, .core 3), (0x03, .ladle 0), (0x04, .pail 3)].all fun e =>
      let s := { descOn [e.1] fun d => { d with started := true, core := some 3, tag := 8 } with records := [⟨e.2, 8, 0, 0⟩] }
      match s.desc 63 5 with
      | some d => decide (s.records.find? d.answered = some ⟨e.2, 8, 0, 0⟩)
      | none => false) = true := by decide +kernel

/-- R489: a NOP's completion counts its descriptor as done and moves the tail of the completion queue. -/
theorem test_nop_descriptor : let t := after (.nopDescriptor 63 5) (descOn [0x00] id)
    (t.fget (.ringStatus 63) RING_STATUS_CQ_TAIL, (t.sq 63).descs.length) = (1, 0) := by decide +kernel

/-- What an access of function 0 meets, on the part brought up with far line 0x10 cached. -/
def viaBar4 : State := line10 (wired regUp)

theorem witness_registrarAndHostAccesses :
    let fails := fun {α : Type} (x : State × Res α) => match x.2 with | .error (.held _) => false | .error _ => true | .ok _ => false
    let busy := { viaBar4 with setChanges := [setOf up.variant 0x1000] }
    let bad := fun (s : State) (a n : Nat) => (pieces a n).findSome? fun p => s.barCause (s.funcHr 0) p.1
    (regUp.registrarUp = true ∧ (∀ x ∈ regUp.rings, x.2.descs = []) ∧ up.registrarUp = false) ∧
    (regUp.hostLink = true ∧ (16 : Nat) ≤ 16 ∧ (List.range 256).all (fun c => decide ((regUp.core c).lesson = none) && decide ((regUp.core c).waitingLaunch = none)) = true) ∧
    (ringOn id).ringFunc 63 = 0 ∧ (ringOn id).ringState 63 ≠ 0 ∧
    (up.bar4 16 < 2 ^ 36 - 3 + 4 ∧ 2 ^ 36 - 4 + 4 ≤ up.bar4 16) ∧
    (({ viaBar4 with hostWaits := [⟨0, 0x1000, .read 4⟩] } : State).hostWaits.any fun x => decide (x.f = 0)) = true ∧
    (viaBar4.hostWaits.any fun x => decide (x.f = 0)) = false ∧
    bad viaBar4 0x1000 4 = none ∧ bad viaBar4 (2 ^ 47) 4 = some 1 ∧
    (okRes (viaBar4.readAt (.host 0) 0 none allowFar 0x1000 4) = true ∧ okRes (viaBar4.writeAt (.host 0) 0 none allowFar 0x1000 [1#8]) = true ∧
      heldRes (busy.readAt (.host 0) 0 none allowFar 0x1000 4) = true ∧
      fails ((line10 regUp).readAt (.host 0) 0 none allowFar 0x1000 4) = true ∧ fails ((line10 regUp).writeAt (.host 0) 0 none allowFar 0x1000 [1#8]) = true) := by
  decide +kernel

theorem witness_bar4OnSoundLine : viaBar4.barCause 0 0x1000 = none ∧ viaBar4.lineSound (.host 0) 0x1000 :=
  ⟨by decide +kernel, lineSound_of viaBar4 (.host 0) 0x1000 (by decide +kernel) (by decide +kernel) (by decide +kernel) (by decide +kernel)
    (by decide +kernel) (by decide +kernel) (by decide +kernel)⟩

/-- R455, R456: a read through BAR4 answers with the bytes of far memory, and one of a set that is changing waits. -/
theorem test_bar4_read : (after (.bar4Access 0 0x1000 (.read 4)) viaBar4).out = [.hostData 0 [0#8, 0#8, 0#8, 0#8]] ∧
    (after (.bar4Access 0 0x1000 (.read 4)) { viaBar4 with setChanges := [setOf up.variant 0x1000] }).hostWaits = [⟨0, 0x1000, .read 4⟩] := by decide +kernel

/-! ### Office -/

def event0 : Event := ⟨6, 0, 8, 0⟩
def withEvent : State := { up with officeEvents := [event0] }
def held (b : Option Bool) : State := { State.reset with image := ⟨b, [], 0, 4096⟩ }
def authSession (owner : Nat) : State := { up with sessions := [⟨owner, 9, true, true⟩] }

theorem witness_officeMessagesAct :
    up.power.vaux = true ∧ (up.power.vaux && !up.power.testHold) = true ∧ up.fget .officeStatus OFFICE_STATUS_MODE = 0 ∧
    ({ up with power := { up.power with vaux := false } } : State).power.vaux = false ∧
    ({ up with power := { up.power with testHold := true } } : State).power.vaux = true ∧
    (up.fput .officeStatus OFFICE_STATUS_MODE 1).fget .officeStatus OFFICE_STATUS_MODE = 1 ∧
    (up.pldmReading .packagePower).isSome = true ∧ (up.pldmReading .packagePower).join.isSome = true ∧ withEvent.officeEvents ≠ [] ∧
    (State.reset.awaitsImage = true ∧ State.reset.boot.step = 0 ∧ State.reset.image.holder = none) ∧
    ((held (some false)).image.holder = some false ∧ (held (some false)).boot.awaiting = false ∧ (held (some false)).phase = 0) ∧
    (held (some false)).imageCause 0 ≠ 0 ∧
    (State.reset.hostLink = true ∧ State.reset.hostBlocked .pf .boot = false ∧ State.reset.boot.step ≠ 1 ∧ (0 : Nat) < 2 ^ 23) := by
  decide +kernel

/-- R515: a Set Endpoint ID of 9 sets EID. -/
theorem test_setEndpointId : (after (.setEndpointId 0 9) up).fget .officeStatus OFFICE_STATUS_EID = 9 := by decide +kernel

/-- R518, R532: an acknowledged event leaves the queue. -/
theorem test_pollEvent : ((after (.platformEventMessage 1) withEvent).officeEvents, (after (.platformEventMessage 0) withEvent).officeEvents) =
    ([], [event0]) := by decide +kernel

/-- R528: the first bytes that the office receives stand in the buffer. -/
theorem test_requestFirmwareData :
    (after (.requestFirmwareData 0 [7#8]) (held (some false))).image = ⟨some false, [(0, 7#8)], 1, 4096⟩ := by decide +kernel

/-- Function 1 belongs to homeroom 1, which holds a command key. -/
def ringOfHr1 : State :=
  let s := (((regUp.fput (.secHrCtl 1) SEC_HR_CTL_STATE 1).fput (.secHrCtl 1) SEC_HR_CTL_FUNCS 2).fput (.ringCfg 0) RING_CFG_FUNC 1)
  { s.setHr 1 { Homeroom.init with keys := { Homeroom.init.keys with command := some (List.replicate 16 1#8) } } with
    sessions := [⟨0, 9, true, true⟩, ⟨1, 4, true, false⟩] }

theorem witness_officeCommandsAnswer :
    ((⟨0, 5⟩ : OfficeHead).flags / 2 = 0 ∧ (⟨2, 5⟩ : OfficeHead).flags / 2 ≠ 0) ∧
    securedOffset (0x21000) = true ∧ securedOffset 0 = false ∧
    (inImageWindow 0x3800000 = true ∧ (held (some false)).image.holder.isSome = true) ∧ inImageWindow (0) = false ∧
    (up.notReady (0) = false ∧ up.regFor .office (0) = some .topId) ∧
    ({ up with power := { up.power with mainOn := false } }).notReady (0) = true ∧
    (∃ x ∈ ringOfHr1.sessions, x.owner = 0 ∧ x.id = 9 ∧ x.established = true ∧ x.authorised = true) ∧
    (0 < ({ up with shutdowns := [leBytes 16 7] }).shutdowns.length ∧ up.shutdowns.length ≤ 0) ∧
    (up.registrarUp = false ∧ ringOfHr1.registrarUp = true) ∧
    (up.funcHr (up.ringFunc 0) = 0 ∧ ringOfHr1.funcHr (ringOfHr1.ringFunc 0) = 1 ∧ ringOfHr1.ringState 0 = 0 ∧ (ringOfHr1.hr 1).keys.command ≠ none ∧
      (ringOfHr1.fput (.ringStatus 0) RING_STATUS_STATE 1).ringState 0 ≠ 0) := by decide +kernel

/-- R526, R596: the office sets a ring confidential in an authorised session. -/
theorem test_setRingConf : ((after (.setRingConf ⟨0, 5⟩ 0 1 (some 9)) ringOfHr1).fget (.ringCfg 0) RING_CFG_CONF,
    (after (.setRingConf ⟨0, 5⟩ 0 1 none) ringOfHr1).fget (.ringCfg 0) RING_CFG_CONF) = (1, 0) := by decide +kernel

/-- R521: GET_STATUS with tag 5 answers with its code, the response flag, the tag and SUCCESS. -/
theorem test_getStatus : ((after (.getStatus ⟨0, 5⟩) up).out.map fun o => match o with | .office 0x7E bs => (bs.drop 2).take 5 | _ => []) =
    [[1#8, 1#8, 5#8, 0#8, 0#8]] := by decide +kernel

/-- R520: a reserved flag that is set is answered with INVALID. -/
theorem test_office_flags : ((after (.getStatus ⟨2, 5⟩) up).out.map fun o => match o with | .office 0x7E bs => bs.drop 2 | _ => []) =
    [[1#8, 1#8, 5#8, 0#8, 1#8]] := by decide +kernel

/-- R529: an inlet of 300 is shown with age 0; the flow keeps its own. -/
theorem test_setCoolant : let t := after (.setCoolant ⟨0, 1⟩ 300 77 1) up
    (t.fget .officeCoolant OFFICE_COOLANT_INLET, t.fget .officeCoolant OFFICE_COOLANT_AGE_INLET, t.fget .officeCoolant OFFICE_COOLANT_FLOW) =
    (300, 0, 0) := by decide +kernel

/-! ### SPDM -/

/-- The office holds a certificate and runs an image; session 9 is established, session 4 is not. -/
def spdmState : State :=
  { up with idCert := some [1#8], boot := { up.boot with image := some ⟨[1#8], 0, 0, 0, 0, 0⟩ }, sessions := [⟨0, 9, true, true⟩, ⟨0, 4, false, false⟩] }

theorem witness_spdmRespondersAnswer :
    (up.power.vaux && !up.power.testHold && (Responder.homeroom 15).ok) = true ∧
    (up.power.vaux && !up.power.testHold && (Responder.homeroom 16).ok) = false ∧
    up.aliasKey = none ∧ (spdmState.boot.image.isSome = true ∧ spdmState.idCert.isSome = true) ∧
    up.measurementBlocks .office 8 = none ∧ (up.measurementBlocks .office 0).isSome = true ∧
    (up.fget .secStatus SEC_STATUS_RNG_FAIL = 0 ∧ (up.sessionsOf .office).length < Responder.office.most) ∧
    (∃ x ∈ spdmState.sessions, x.owner = 0 ∧ x.id = 4 ∧ x.established = false) ∧
    (∃ x ∈ spdmState.sessions, x.owner = 0 ∧ x.id = 9 ∧ x.established = true) ∧
    (∀ x ∈ spdmState.sessions, x.id = 9 → x.established = true) := by decide +kernel

theorem witness_spdm_alias : ∃ k, spdmState.aliasKey = some k := ⟨_, rfl⟩

theorem witness_spdm_chain : (0 : Nat) < { up with idCert := some [1#8] }.certChain.length ∧ { up with idCert := some [1#8] }.certChain.length ≤ 1 :=
  ⟨Nat.zero_lt_one, Nat.le_refl 1⟩

/-- R519: END_SESSION ends the session. -/
theorem test_endSession : (after (.endSession .office 9) spdmState).sessions = [⟨0, 4, false, false⟩] := by decide +kernel

/-- R519: FINISH establishes the session. -/
theorem test_finish : (after (.finish .office 4 false) spdmState).sessions = [⟨0, 9, true, true⟩, ⟨0, 4, true, false⟩] := by decide +kernel

/-! ### Power, heat and the package -/

def officeW (v : Nat) : RegWrite := ⟨.office, .full, v⟩
def mainOff : State := { up with power := { up.power with mainOn := false } }
def noVaux : State := { up with power := { up.power with vaux := false, mainOn := false } }
def latchedOff (cycled : Bool) (f : PowerState → PowerState) : State :=
  { up with power := f { up.power with mainOn := false, latched := true, vauxCycled := cycled } }

theorem witness_powerAndHeatAct :
    up.admits .pf (.pwrDomain 256) = true ∧ (255 : Nat) < 260 ∧ (256 : Nat) < 260 ∧ (260 : Nat) ≤ 260 ∧
    (up.power.mainOn = true ∧ mainOff.power.mainOn = false ∧ up.coreState 255 = 0) ∧
    (up.admits .pf .pwrLimit = true ∧ 1400 ≤ (up.written .pwrLimit (hostW 1400)).field PWR_LIMIT_WATTS ∧ 1400 ≤ powerDefault up.variant) ∧
    ((up.written .pwrLimit (hostW 1399)).field PWR_LIMIT_WATTS < 1400 ∧ powerDefault up.variant < (up.written .pwrLimit (hostW 2201)).field PWR_LIMIT_WATTS) ∧
    (∀ r ∈ [(5, (0 : Int))], (sensorPresent up.variant r.1 && up.dieUp (sensorDie r.1)) = false) ∧
    (∀ r ∈ [(sensorKey 0 0 0, (200 : Int))], -32768 ≤ r.2 ∧ r.2 < 600) ∧ ([(sensorKey 0 0 0, (200 : Int))].map Prod.fst).Nodup ∧
    smSorted none up.thermal.levels = true ∧ sensorPresent up.variant (sensorKey 0 0 0) = true ∧ up.dieUp (sensorDie (sensorKey 0 0 0)) = true ∧
    (0 ∈ hotSpots up.variant ∧ sensorKey 0 0 0 ∈ hotSensors 0) ∧
    (16 ∈ hotSpots up.variant ∧ sensorKey 0 0 32 ∈ hotSensors 16 ∧ sensorKey 0 0 33 ∈ hotSensors 16 ∧ (hotLevels (hotClass 16)).2.2 ≤ 950 ∧
      ((950 : Int) - 960).natAbs ≤ 32 ∧ ∀ k ∈ [sensorKey 0 0 32, sensorKey 0 0 33], sensorPresent up.variant k = true ∧ up.dieUp (sensorDie k) = true ∧
        up.suspect k = false ∧ smGet 0 up.thermal.runs k < 2) ∧
    up.fget .thmStatus THM_STATUS_FAULT = 0 ∧ ({ up with thermal := { up.thermal with samples := 3 } }).thermal.samples ≠ 0 := by decide +kernel

/-- Every sensor of the part after reset reads below 75 °C. -/
theorem witness_coolReset : ∀ k, ({ up with regs := [] } : State).temp k < 600 := fun _ => (by decide +kernel : ({ up with regs := [] } : State).temp 0 < 600)

/-- R538: a die domain is not set below 0.65 V. -/
theorem test_vsetWrite : ((after (.vsetWrite 256 (hostW 5)) up).fget (.pwrDomain 256) PWR_DOMAIN_VSET,
    (after (.vsetWrite 0 (hostW 99)) up).fget (.pwrDomain 0) PWR_DOMAIN_VSET) = (20, 60) := by decide +kernel

/-- R544: a sample of 2500 W against a limit of 2200 W raises the back-stop to level 4 at once. -/
theorem test_powerSample : (after (.powerSample 250000 [] []) up).fget .pwrStatus PWR_STATUS_BACKSTOP = 4 := by decide +kernel

/-- R543: a limit below 1400 W is refused. -/
theorem test_pwrLimit : ((after (.pwrLimitWrite (hostW 1000)) up).fget .pwrLimit PWR_LIMIT_WATTS,
    (after (.pwrLimitWrite (hostW 1500)) up).fget .pwrLimit PWR_LIMIT_WATTS) = (2200, 1500) := by decide +kernel

/-- R547, R555: two sensors of a core pair that agree at 118.75 °C shut the part down. -/
theorem test_sensorSample : ((after (.sensorSample [(sensorKey 0 0 32, 950), (sensorKey 0 0 33, 960)]) up).power.latched,
    (after (.sensorSample [(sensorKey 0 0 32, 700), (sensorKey 0 0 33, 700)]) up).power.latched) = (true, false) := by decide +kernel

theorem witness_packagePowersAndLosses :
    (up.power.vaux = true ∧ noVaux.power.vaux = false) ∧ (up.railWatched 1 0 = true ∧ up.railWatched 4 1 = true ∧ up.railWatched 4 2 = false ∧ mainOff.railWatched 1 0 = false) ∧
    (let s := latchedOff true fun p => { p with perst := true }
     s.railWatched 1 0 = false ∧ s.power.latched = true ∧ s.power.vaux = true ∧ s.power.vauxCycled = true ∧ s.power.perst = true) ∧
    (let s := latchedOff true fun p => p
     s.railWatched 1 0 = false ∧ s.power.perst = false ∧ s.power.testHold = false) ∧ (latchedOff false fun p => p).power.vauxCycled = false ∧
    ((mainOff.power.perst = false) ∧ (latchedOff false fun p => { p with perst := true, latched := false }).power.perst = true) ∧
    (up.ioUp 0 = true ∧ up.portState 0 0 = 0 ∧ (port5 2 up).portState 0 5 ≠ 0) ∧ (up.dieUp 0 = true ∧ mainOff.dieUp 0 = false ∧ up.coreState 63 = 0) ∧
    ((ringOn id).registrarUp = true ∧ (ringOn id).ringState 63 = 1 ∧ (ringOn id).ringState 62 ≠ 1 ∧ up.registrarUp = false) ∧
    (match (descOn [0x05] fun d => { d with started := true }).desc 63 5 with | some d => d.started | none => false) = true ∧
    (up.farGone 0 = false ∧ up.farGone 2 = true) := by decide +kernel

/-- R705, R706: the strap of bits 1 and 0 is the office's address. -/
theorem test_vauxPowerOn : (after (.vauxPowerOn 2) noVaux).fget .topStraps TOP_STRAPS_OFFICE_ADDR = 2 := by decide +kernel

/-- R33: a lost clock of an I/O die downs its ports. -/
theorem test_refclkLoss : (after (.refclkLoss 8) (port5 2 up)).portState 0 5 = 7 := by decide +kernel

/-! ### Homerooms and integrity -/

/-- Homeroom 1 in a state: 1 OPEN, 2 SEALED, 3 closing. -/
def hr1 (st : Nat) : State := up.fput (.secHrCtl 1) SEC_HR_CTL_STATE st

theorem witness_homeroomResourcesMove :
    (up.admits .pf (.secHrCtl 1) = true ∧ up.admits .pf (.secHrCores 1 0) = true ∧ up.admits .pf (.secHrMap 1 0) = true ∧
      up.admits .pf (.secHrWinMap 1 0) = true ∧ up.admits .office .secDebug = true) ∧
    (up.phase = 4 ∧ State.reset.phase ≠ 4 ∧ up.hrState 1 = 0 ∧ up.activeHrs < up.hrMax ∧ (hr1 3).hrState 1 = 3 ∧ (hr1 1).hrActive 1 = true ∧ (hr1 2).hrState 1 = 2) ∧
    (let x := up.written (.secHrCtl 1) (hostW 8)
     x.hit SEC_HR_CTL_OPEN = true ∧ x.hit SEC_HR_CTL_TEARDOWN = false ∧ ∀ f < 17, (x.old ^^^ x.new).getLsbD (8 + f) = false) ∧
    (up.written (.secHrCtl 1) (hostW 16)).hit SEC_HR_CTL_TEARDOWN = true ∧
    (let x := (hr1 1).written (.secHrCtl 1) (hostW (2 ^ 9 + 1))
     x.hit SEC_HR_CTL_OPEN = false ∧ x.hit SEC_HR_CTL_TEARDOWN = false ∧ ((List.range 17).filter fun f => (x.old ^^^ x.new).getLsbD (8 + f)) = [1]) ∧
    ((hr1 1).fget (.secHrCtl 1) ⟨9, 1⟩ = 0 ∧ (hr1 1).funcHr 1 = 0 ∧ ((hr1 1).fput (.secHrCtl 2) SEC_HR_CTL_FUNCS 2).funcHr 1 ≠ 0) ∧
    (let y := (hr1 1).written (.secHrCores 1 0) (hostW 8)
     ((List.range 64).filter fun k => (y.old ^^^ y.new).getLsbD k) = [3] ∧ ((hr1 1).core 3).movingTo = none ∧ (hr1 1).fget (.secHrCores 1 0) ⟨3, 1⟩ = 0 ∧
       (hr1 1).coreHr 3 = 0 ∧ ((hr1 1).put (.secHrCores 2 0) 8#64).coreHr 3 ≠ 0) ∧
    (let s := (hr1 1).modCore 3 fun k => { k with movingTo := some 1 }
     (s.core 3).movingTo.isSome = true ∧ (s.core 3).lesson = none ∧ s.memoriesWf = true) ∧
    (let z := (hr1 1).written (.secHrMap 1 0) (hostW 0x85)
     ((List.range 8).filter fun k => decide (bitsOf z.old.toNat (8 * k) 8 ≠ bitsOf z.new.toNat (8 * k) 8)) = [0] ∧ (hr1 1).mapEntry 1 0 = none ∧
       (bitsOf z.new.toNat 0 8).testBit 7 = true ∧ (hr1 1).setOwner 5 = some 0 ∧ ((hr1 1).put (.secHrMap 2 0) 0x85#64).setOwner 5 ≠ some 0) ∧
    ((up.written .secDebug (officeW 1)).hit SEC_DEBUG_UNLOCK = true ∧ up.fuseField 1284 4 ≠ 5 ∧
      ({ up with fuses := (15#32768) <<< (4 * 1284) ||| (15#32768) <<< (4 * 1286) }).fuseField 1284 4 = 5) := by decide +kernel

/-- A SEALED homeroom refuses its resources' registers, whatever is written; a core that moves has its slice filled, or its clear under way. -/
theorem witness_homeroomsRefuse :
    ((hr1 2).hrState 1 = 2 ∧ (hr1 3).hrState 1 ≠ 1) ∧
    (let y := (hr1 1).written (.secHrCores 1 0) (hostW 0)
     ((List.range 64).filter fun k => (y.old ^^^ y.new).getLsbD k) = []) ∧
    (let z := (hr1 1).written (.secHrMap 1 0) (hostW 0)
     ((List.range 8).filter fun k => decide (bitsOf z.old.toNat (8 * k) 8 ≠ bitsOf z.new.toNat (8 * k) 8)) = []) := by decide +kernel

/-- R586: OPEN opens a free homeroom in phase 4, and is refused before. -/
theorem test_hrOpen : ((after (.hrOpen 1 (hostW 8)) up).hrState 1, (after (.hrOpen 1 (hostW 8)) State.reset).hrState 1,
    (after (.hrOpen 1 (hostW 8)) State.reset).fget .secStatus SEC_STATUS_REFUSED) = (1, 0, 1) := by decide +kernel

/-- R604: a teardown closes a homeroom; its completion frees it. -/
theorem test_teardown : ((after (.teardownWrite 1 (hostW 16)) (hr1 2)).hrState 1, (after (.teardownComplete 1) (hr1 3)).hrState 1) = (3, 0) := by
  decide +kernel

/-- Set 5 holds copies of nothing; a write of 0x87 to entry 5 asks for set 7 as its copy. -/
theorem witness_mirrorsPairAndFlipsArm :
    up.admits .pf (.relMirror 0) = true ∧
    (let x := up.written (.relMirror 0) (hostW (0x87 * 2 ^ 40))
     (∀ j < 8, j ≠ 5 → bitsOf x.new.toNat (8 * j) 8 = up.mirrorByte j) ∧ bitsOf x.new.toNat 40 8 ≠ up.mirrorByte 5 ∧
       (bitsOf x.new.toNat 40 8).testBit 7 = true ∧ up.setActive 5 = false ∧ up.setActive 7 = false ∧ up.mirrorSource 7 = none ∧ up.mirrorOf 7 = none ∧
       up.mirrorSource 5 = none) ∧
    (let x := up.written (.relMirror 0) (hostW (0x07 * 2 ^ 40))
     bitsOf x.new.toNat 40 8 ≠ up.mirrorByte 5 ∧ (bitsOf x.new.toNat 40 8).testBit 7 = false ∧ (up.mirrorByte 5).testBit 7 = false) ∧
    ((hr1 1).put (.secHrMap 1 0) 0x85#64).setActive 5 = true ∧ up.flipDiff = 0 ∧
    (let s := up.fput .relFlipMask2 REL_FLIP_MASK2_CHECK 1
     s.flipDiff ≠ 0 ∧ s.hrState (s.flipOwner (s.written .relFlipSel (hostW 0x10000)).new) ≠ 2 ∧ (s.written .relFlipSel (hostW 0x10000)).hit REL_FLIP_SEL_ARM = true) ∧
    (up.written .relFlipSel (hostW 0)).hit REL_FLIP_SEL_ARM = false := by decide +kernel

/-- R655: a set is not its own mirror. -/
theorem test_mirrorWrite : ((after (.mirrorWrite 0 (hostW (0x85 * 2 ^ 40))) up).fget .relStatus REL_STATUS_REFUSED,
    (after (.mirrorWrite 0 (hostW (0x87 * 2 ^ 40))) up).clears) = (1, [5, 7]) := by decide +kernel

/-- R641: a flip without an effect is refused. -/
theorem test_flipArm : let t := after (.flipArm (hostW 0x10000)) up
    (t.fget .relFlipSel REL_FLIP_SEL_ARM, t.fget .relFlipSel REL_FLIP_SEL_REFUSED) = (0, 1) := by decide +kernel

/-! ### Commands of homerooms -/

/-- Homeroom 1 in a state, with an established session, function 1, and set 5 in its region 0. -/
def tenant (st : Nat) : State :=
  { ((hr1 st).fput (.secHrCtl 1) SEC_HR_CTL_FUNCS 2).put (.secHrMap 1 0) 0x85#64 with sessions := [⟨1, 4, true, false⟩] }
def tenantRing (st : Nat) : State := (tenant st).fput (.ringCfg 0) RING_CFG_FUNC 1
def fused : State := { tenant 1 with fuses := (15#32768) <<< (4 * 1284) ||| (15#32768) <<< (4 * 1293) }
def key32 : List Byte := List.replicate 16 1#8 ++ List.replicate 16 0#8

theorem witness_homeroomCommandsAnswer :
    (1 ≤ 1 ∧ 1 ≤ 15 ∧ (∃ x ∈ (tenant 1).sessions, x.owner = 1 ∧ x.established = true) ∧ up.sessions = []) ∧
    ((tenant 3).hrState 1 = 3 ∧ (tenant 1).hrState 1 = 1 ∧ (tenant 2).hrState 1 = 2 ∧ (tenant 0).hrState 1 = 0) ∧ (key32.length = 32 ∧ ∀ b ∈ key32.drop 16, b = 0#8) ∧
    ((tenant 1).mapEntry 1 0 = some 5 ∧ (tenant 1).mapEntry 1 1 = none) ∧
    (fused.fget .secStatus SEC_STATUS_RNG_FAIL = 0 ∧ fused.fuseField 1284 4 ≠ 0 ∧ fused.fget .secStatus SEC_STATUS_DEBUG_ON = 0 ∧ (tenant 1).fuseField 1284 4 = 0) ∧
    (let s := { tenantRing 2 with homerooms := [(1, { Homeroom.init with salt := some (List.replicate 16 7#8), keys := { Homeroom.init.keys with command := some [] } })] }
     (s.hr 1).keys.command ≠ none ∧ (s.hr 1).salt.isSome = true ∧ s.hrState 1 = 2 ∧ s.ringState 0 = 0 ∧ s.funcHr (s.ringFunc 0) = 1) ∧
    ((tenantRing 2).funcHr ((tenantRing 2).ringFunc 0) = 1 ∧ (tenantRing 2).ringState 0 = 0 ∧ ((tenantRing 2).hr 1).keys.command = none ∧
      (tenant 2).funcHr ((tenant 2).ringFunc 0) ≠ 1) ∧
    ((tenant 1).treesOpen 1 = false ∧ (tenant 2).fuseBit 1293 = false ∧ fused.fuseBit 1293 = true) ∧
    (up.admits .pf .secMboxCtl = true ∧ (up.written .secMboxCtl (hostW (32 + 256 * 4 + 1))).hit SEC_MBOX_CTL_GO = true ∧
      (up.written .secMboxCtl (hostW (32 + 256 * 4 + 1))).field SEC_MBOX_CTL_REQ_LEN = 4 ∧ (up.written .secMboxCtl (hostW (32 + 256 * 4 + 1))).field SEC_MBOX_CTL_HR = 1 ∧
      (up.written .secMboxCtl (hostW (32 + 256 * 4 + 1))).field SEC_MBOX_CTL_KIND = 0 ∧ (up.written .secMboxCtl (hostW (32 + 16 + 256 * 4))).field SEC_MBOX_CTL_KIND = 1 ∧
      (up.hostRead 0 4).isSome = true ∧ ({ up with hostFaults := [(0, 16)] }).hostRead 0 4 = none ∧
      ({ up with host := [(0, 5#8)] }).hostRead 0 4 = some [5#8, 0#8, 0#8, 0#8]) := by decide +kernel

/-- R600: a function of a SEALED homeroom does not reach its encrypted set through BAR4. -/
theorem witness_bar4Sealed :
    let s := { tenant 2 with homerooms := [(1, { Homeroom.init with keys := { Homeroom.init.keys with region := [(0, key32)] } })] }
    s.funcHr 1 = 1 ∧ s.hostLink = true ∧ (match s.translate 1 0x1000 with | .ok pa => (s.setKey (setOf s.variant pa)).isSome | .error _ => false) = true ∧
      spaceOf 0x1000 = .far 0x1000 ∧ s.hrState 1 = 2 ∧ 0x1000 + 4 ≤ s.bar4 1 ∧
      (after (.bar4Access 1 0x1000 (.read 4)) s).fget .hostErr HOST_ERR_CAUSE = 2 := by decide +kernel

/-- The digest that a homeroom expects has 32 bytes; a homeroom keeps its salt when it is sealed. -/
theorem witness_sealDigest : ∃ digest, digest = fused.configDigest 1 ∧ digest.length = 32 := ⟨_, rfl, by decide +kernel⟩

/-- R590: KEY_SET of the transport key keeps its first 16 bytes. -/
theorem test_keySet : ((after (.keySet 1 2 0 key32) (tenant 1)).hr 1).keys.transport = some (List.replicate 16 1#8) := by decide +kernel

/-- R601: SALT_SET sets the salt. -/
theorem test_saltSet : ((after (.saltSet 1 (List.replicate 16 7#8)) (tenant 1)).hr 1).salt = some (List.replicate 16 7#8) := by decide +kernel

/-- R584: a request that is no SPDM message is refused; one that is, is answered. -/
theorem test_mailbox : ((after (.mailboxGo (hostW (32 + 256 * 4 + 1)) ⟨[9#8]⟩) up).fget .secMboxCtl SEC_MBOX_CTL_RESULT,
    (after (.mailboxGo (hostW (32 + 256 * 4 + 1)) ⟨[9#8]⟩) { up with host := [(0, 5#8)] }).fget .secMboxCtl SEC_MBOX_CTL_RESP_LEN) = (3, 1) := by
  decide +kernel

/-! ### Bring-up and reset domains -/

/-- An image without sections, signed with the private key 1 in slot 0, whose public key's hash is in the fuses. -/
def imageHead : List Byte :=
  leBytes 4 0x44343442 ++ leBytes 2 1 ++ List.replicate 58 0#8 ++ pubBytes 1
def imageSig : List Byte := beBytes 32 99764950329441674793846440245756113023689559705781964050860828993173735892105 ++
  beBytes 32 65909614045635411359497125091142836254216843872066762542413394859706571099874
def quad (i v : Nat) : BitVec 32768 :=
  (List.range 256).foldl (fun a j => if v.testBit j then a ||| (15#32768 <<< (4 * (i + j))) else a) 0#32768
def signedState : State :=
  { State.reset with
    fuses := quad 256 47595495997533918562236333261000377433398613401942059309650083819073327407927
    image := ⟨some true, memWrite [] 0 (imageHead ++ imageSig ++ List.replicate 64 0#8), 0, 4096⟩ }

def sigR : Nat := 99764950329441674793846440245756113023689559705781964050860828993173735892105
def sigS : Nat := 65909614045635411359497125091142836254216843872066762542413394859706571099874

/-- The two products of the check of the signature (R577), and the check itself. -/
theorem image_product_s : sm2Mul sigS sm2G = some (102413691383786194580073124873083113062929391344636965083783011743853915517676,
    107755771369201418035949317396987553768751767720135697741870172973061881262197) := by decide +kernel
theorem image_product_t : sm2Mul ((sigR + sigS) % sm2N) sm2G = some (75745754303253977769356236743112625642806220039444796776992034677374947527657,
    46667907013263278589012846507150340903317909066592605453502288894573250314912) := by decide +kernel
theorem image_signed : sm2Verify sm2G imageHead sigR sigS = true := by
  simp only [sm2Verify, image_product_s, image_product_t]
  decide +kernel
theorem image_fields : (beNat (signedState.imageBytes 64 32), beNat (signedState.imageBytes 96 32)) = sm2G ∧
    signedState.imageBytes 0 128 ++ signedState.imageBytes 256 (256 - 256) = imageHead ∧ beNat (signedState.imageBytes 128 32) = sigR ∧
    beNat (signedState.imageBytes 160 32) = sigS ∧ signedState.imageForm 256 = true ∧ signedState.imageSlot = true ∧ signedState.imageVersion = true := by
  decide +kernel

/-- R576, R577: the image passes every check. -/
theorem witness_imageVerifies : signedState.imageCause 256 = 0 := by
  obtain ⟨h1, h2, h3, h4, h5, h6, h7⟩ := image_fields
  have h : signedState.imageSigned 256 = true := by simp only [State.imageSigned, h1, h2, h3, h4, image_signed]
  simp [State.imageCause, h, h5, h6, h7]

def bootW (v : Nat) : RegWrite := hostW v
def phase (n : Nat) : State := State.reset.fput .bootStatus BOOT_STATUS_PHASE n
def stepRuns (n next : Nat) : State := { phase 0 with boot := { BootSt.init with step := n, next := next } }

theorem witness_bringUpStepsRun :
    (State.reset.admits .pf .bootCtl = true ∧ State.reset.boot.step = 0 ∧ State.reset.phase = 0 ∧ (phase 1).phase = 1 ∧ (phase 2).phase = 2 ∧ (phase 3).phase = 3 ∧
      up.phase = 4) ∧
    ((List.range 5).all fun n => decide (fldGet (up.written .bootCtl (hostW n)).ones BOOT_CTL_STEP = n)) = true ∧
    (let x := up.written .bootCtl (hostW 0x10)
     x.hit BOOT_CTL_EXPORT = true ∧ x.hit BOOT_CTL_COLD = false ∧ fldGet x.ones BOOT_CTL_STEP = 0) ∧
    (let x := up.written .bootCtl (hostW 0xC520)
     x.hit BOOT_CTL_EXPORT = false ∧ x.hit BOOT_CTL_COLD = true ∧ fldGet x.ones BOOT_CTL_KEY = 0xC5) ∧
    (State.reset.boot.awaiting = false ∧ State.reset.image.holder = none ∧ State.reset.imageCause 0 ≠ 0) ∧
    (let s := { up with boot := { up.boot with awaiting := true }, domains := [(4, ⟨2, 0⟩)] }
     s.boot.awaiting = true ∧ s.image.holder ≠ some false ∧ (smGet ⟨0, 0⟩ s.domains 4).queued = 0) ∧
    (State.reset.fabWaits = [] ∧ (phase 2).factory = [] ∧ (stepRuns 4 4).boot.image = none) ∧
    (up.hostLink = true ∧ up.power.mainOn = true ∧ mainOff.hostLink = false) ∧
    (foundDefects .S [] = [] ∧ farPresent .S 0 = true ∧ diePresent .S 0 = true ∧ (phase 1).domainState 0 = 0) ∧
    ((phase 2).defects = [] ∧ (∀ d ∈ [(⟨1, 7, 0, 1⟩ : Defect)], defectValid d = true)) ∧
    ((stepRuns 1 1).boot.step = 1 ∧ (stepRuns 4 4).boot.step = 4 ∧ (stepRuns 4 4).coreState 5 = 0 ∧ (stepRuns 4 4).dieUp 0 = true) := by decide +kernel

/-- R657: READY is refused before phase 3; R658: TRAIN runs from phase 1. -/
theorem test_steps : ((after (.bootReady (bootW 4)) (phase 1)).fget .bootStatus BOOT_STATUS_RESULT,
    (after (.bootReady (bootW 4)) (phase 3)).boot.step, (after .bootStepComplete (stepRuns 2 2)).phase) = (1, 4, 2) := by decide +kernel

/-- R683: COLD needs its key. -/
theorem test_cold : ((after (.coldRestart (bootW 0xC520)) up).phase, (after (.coldRestart (bootW 0xC420)) up).phase) = (0, 4) := by decide +kernel

def domainIs (d st : Nat) (a : Option DomainAct) : State :=
  let s := up.setDomain d st
  match a with
  | some a => { s with domains := [(d, a)] }
  | none => s
def domW (m : Master) (sel act : Nat) : RegWrite := ⟨m, .full, sel + act * 16⟩

theorem witness_domainsGoDownAndComeUp :
    ([Master.pf, .office].all fun m => up.admits m (.bootDomain m.copy)) = true ∧
    ([(Master.pf, 3), (.pf, 4), (.office, 4)].all fun e => [1, 2, 0].all fun a =>
      let x := up.written (.bootDomain e.1.copy) (domW e.1 e.2 a)
      decide (x.field BOOT_DOMAIN_SEL = e.2) && decide (fldGet x.ones BOOT_DOMAIN_ACTION = a)) = true ∧
    (diePresent .S 3 = true ∧ diePresent .S 6 = false ∧ smFind up.domains 3 = none ∧ up.domainState 3 = 0 ∧ (domainIs 3 2 none).domainState 3 = 2) ∧
    (smFind (domainIs 3 1 (some ⟨1, 0⟩)).domains 3 = some ⟨1, 0⟩ ∧ smFind (domainIs 3 3 (some ⟨2, 0⟩)).domains 3 = some ⟨2, 0⟩) ∧
    (smFind (domainIs 4 3 (some ⟨2, 0⟩)).domains 4 = some ⟨2, 0⟩ ∧ up.boot.awaiting = false) ∧
    (let s := domainIs 5 1 (some ⟨1, 0⟩)
     diePresent s.variant 5 = true ∧ s.domainState 5 ≠ 2 ∧ s.fabReqs = [] ∧ s.fabWaits = [] ∧ ∀ k < 4, (s.pail k).syncs = [] ∧ (s.pail k).parts = []) ∧
    ({ domainIs 4 3 (some ⟨2, 0⟩) with boot := { up.boot with awaiting := true } } : State).boot.awaiting = true := by decide +kernel

/-- R674, R676: a domain goes down; domain 4 only by the office. -/
theorem test_domainDown : ((after (.domainDown (domW .pf 3 1)) up).domainState 3, (after (.domainDown (domW .pf 4 1)) up).domainState 4,
    (after (.domainDown (domW .office 4 1)) up).domainState 4) = (1, 0, 1) := by
  decide +kernel

/-! ### Well-formed commands -/

def w0 : RegWrite := hostW 0
def pk0 : Packet := ⟨0, 0, []⟩
/-- A packet of a kind. -/
def pkK (k : Nat) : Packet := ⟨k, 0, []⟩
def h0 : OfficeHead := ⟨0, 0⟩
def side0 : Sideband := ⟨0, []⟩
def pc0 : PailCmd := ⟨0, 0, 0, 0, 0, 0, 0, 0⟩
def pm0 : PailMsg := ⟨5, false, 0, 0, 0, 0, 0, 0, 0, []⟩
def fc0 : Forecast := ⟨0, 0, [0, 0, 0, 0], [0, 0, 0, 0], 0, List.replicate 256 0⟩
/-- Operands that are too wide, or name no unit. -/
def bw0 : RegWrite := hostW (2 ^ 64)
def bp0 : Packet := ⟨2 ^ 64, 0, []⟩
def bpK (k : Nat) : Packet := ⟨2 ^ 64 + k, 0, []⟩
def bh0 : OfficeHead := ⟨256, 0⟩
def bc0 : PailCmd := { pc0 with hr := 16 }
def bm0 : PailMsg := { pm0 with dev := 4096 }
def bf0 : Forecast := { fc0 with fc := [] }
def bl0 : Launch := { lesson0 with offset := 2 ^ 23 }

/-! For every command a term that can occur on variant S; then for every check of every command a term that fails it alone. -/

theorem test_wf_accepts_1 : ([.scrub 0 0, .registerWrite .pf 0 0 .read env0, .unclaimedRequest 0 0 0 false, .lessonLaunch 0 lesson0, .preloadComplete 0, .stepIssue 0,
   .stepStart 0 .mover, .stepComplete 0 .mover 0, .lessonComplete 0, .nopStep 0 false, .endStep 0, .syncWaitLocal 0 false,
   .syncSignalLocal 0 false, .syncSignalRemote 0 false, .syncWaitRemote 0 false, .syncPoll 0 false, .syncTimeout 0 false,
   .waitLimitExpiry 0 .tutor, .fenceStep 0 false, .loadSlate 0 false, .slateLoadComplete 0 false, .stream 0 .mover false,
   .gather 0 false false [] [], .freezeRelease 0 false, .gatherRowData 0 false 0, .arrayHung 0 false, .skim 0, .convert 0, .loadStep 0,
   .storeStep 0] : List Instr).all (fun c => c.wf .S) = true := by decide +kernel

theorem test_wf_accepts_2 : ([.moveStep 0, .reduce 0, .handoff 0, .tutorInstruction 0, .tpost 0, .twait 0, .tevt 0, .tsig 0, .tdone 0, .rateWindow 0, .coreFence 0 0,
   .coreFenceRequest 0 w0, .unfence 0 w0, .fenceComplete 0, .lateReply 0, .warmRecoveryComplete 0 .fail, .seedWrite 0 .skim w0,
   .seedLoad 0 .skim, .arrStatClear 0 false w0, .sliceRequest 0 0 .mover (.read 0 1 0), .sliceRefresh 0 0 false, .channelPowerDown 0 0,
   .sliceFillComplete 0, .sliceClear 0, .layerOffsetWrite 0 w0, .scRead .registrar 0 0 1 false, .scWrite .registrar 0 0 [0#8],
   .scAtomic .registrar 0 0 .swap 4 0 0, .scFillComplete 0 0, .granuleReread 0 0] : List Instr).all (fun c => c.wf .S) = true := by decide +kernel

theorem test_wf_accepts_3 : ([.farGrant 0 0, .farWindowClose 0, .farRefresh 0 0 false, .farTempReadout 0 0, .farStackLoss 0, .sepScopeWrite 0 w0, .sepNarrowWrite 0 w0,
   .sepChangeComplete 0, .farModeWrite 0 w0, .scPurge 0 w0, .scPurgeComplete 0, .scStatClear 0 w0, .ladleCopy 0 [0, 0, 0, 0] .registrar,
   .ladleFill 0 [0, 0, 0, 0] .registrar, .ladleNot 0 [0, 0, 0, 0] .registrar, .ladleAnd 0 [0, 0, 0, 0] .registrar,
   .ladleOr 0 [0, 0, 0, 0] .registrar, .ladleXor 0 [0, 0, 0, 0] .registrar, .ladleClearSet 0 [0, 0, 0, 0] .registrar, .ladleSequenceStart 0,
   .ladleFlushComplete 0 0, .rowStep 0 0, .ldlDrainWrite 0 w0, .ldlStatClear 0 w0, .treeOpen 0 pc0, .treeClose 0 pc0, .evict 0 pc0,
   .seqOpen 0 pc0, .seqClose 0 pc0, .matchBlocks 0 pc0] : List Instr).all (fun c => c.wf .S) = true := by decide +kernel

theorem test_wf_accepts_4 : ([.append 0 pc0, .resolve 0 pc0, .publish 0 pc0, .fork 0 pc0, .truncate 0 pc0, .markLost 0 pc0, .shadowSync 0 pc0, .adopt 0 pc0,
   .churnOpen 0 pc0, .churnRun 0 pc0, .churnClose 0 pc0, .yokePush 0 0 0, .pailListFetch 0 0 false 0 0 0 0, .hello 0 pm0, .helloResend 0 0,
   .churnCredit 0 pm0, .churnData 0 pm0, .rider 0 pm0, .dataAck 0 pm0, .closeMessage 0 pm0, .releasePoll 0 0, .shadowData 0 pm0,
   .shadowAck 0 pm0, .shadowNode 0 pm0, .pailDrainWrite 0 w0, .pailStatClear 0 w0, .routerPacket 0 0 .core [],
   .ringStopPacket 0 0 0 false false [], .heartbeat 0 0 false, .arbGrant 0 0 []] : List Instr).all (fun c => c.wf .S) = true := by decide +kernel

theorem test_wf_accepts_5 : ([.arbFreeze 0 0 w0, .arbDrainComplete 0 0, .arbStatClear 0 0 w0, .meshStatClear 0 w0, .signalRaise 0 2, .signalRoundTrip 0 2,
   .samplePresent 0 2 0 1, .sampleFallback 0 2, .queueWrite 0 2 0, .crossingStall 0 2, .xingForce 0 w0, .d2dPacketSend 0 0 .request 0 0 header16 [] side0,
   .d2dFlitReceive 0 0 0 [], .laneErrorWindow 0 0 0, .d2dRepairComplete 0 0 0 false, .d2dNak 0 0 0 0, .d2dCredit 0 0 0 0 0, .d2dGoodbye 0 0 0,
   .d2dRoute 0 0 0 0 0, .d2dReplayTimeout 0 0 0, .d2dWatchdog 0 0 0 false, .dieLostDeclaration 0, .deputyTakeover 0, .d2dStatClear 0 w0,
   .packetOriginate 0 pk0, .linkFlitReceive 0 0 flit0, .fecErrorWindow 0 0, .packetArrival 0 0 pk0, .put 0 (pkK 1), .get 0 (pkK 2)] : List Instr).all (fun c => c.wf .S) = true := by decide +kernel

theorem test_wf_accepts_6 : ([.add64 0 (pkK 3), .fabricPail 0 (pkK 4), .fabricAck 0 (pkK 65), .fabricData 0 (pkK 66), .unreach 0 (pkK 67), .linkNak 0 0 0, .linkCredit 0 0 [0, 0, 0, 0],
   .creditR 0 0 [0, 0, 0, 0], .linkGoodbye 0 0 0, .linkReplayTimeout 0 0, .e2eTimeout 0 0, .portWatchdog 0 0, .portEnable 0 0 w0,
   .portDisable 0 0 w0, .retrain 0 0 w0, .portTrainingComplete 0 0 (trains id), .routeDataWrite 0 0 w0, .linkStatClear 0 w0,
   .linkPortStatClear 0 0 w0, .doorbell 0 0 0 0, .descriptorArrival 0, .admissionVisit, .nopDescriptor 0 0, .launchDescriptor 0 0,
   .moveDescriptor 0 0, .ladleDescriptor 0 0, .pailDescriptor 0 0, .fabricDescriptor 0 0, .fenceDescriptor 0 0, .waitDescriptor 0 0] : List Instr).all (fun c => c.wf .S) = true := by decide +kernel

theorem test_wf_accepts_7 : ([.waitTimeout 0 0, .unitCompletion 0 0 0, .forecastMessage fc0, .forecastStale, .ringEnable 0 w0, .ringDisable 0 w0, .ringDrainComplete 0,
   .functionLevelReset 0, .lockstepHalt, .bar4Access 0 0 (.read 4), .ringAdmitStatClear w0, .i3cAddressAssign 0, .i3cAddressReset,
   .setEndpointId 0 0, .getEndpointId, .getEndpointUuid, .getMctpVersionSupport 0, .getMessageTypeSupport, .getSensorReading .packagePower,
   .platformEventMessage 0, .requestUpdate 0, .requestFirmwareData 0 [], .activateFirmware, .getVersion .office, .getCapabilities .office 0,
   .negotiateAlgorithms .office, .getDigests .office, .getCertificate .office 0 0, .challenge .office key32,
   .getMeasurements .office 0 false key32] : List Instr).all (fun c => c.wf .S) = true := by decide +kernel

theorem test_wf_accepts_8 : ([.keyExchange .office [], .finish .office 0 false, .heartbeatMessage .office 0, .keyUpdate .office 0, .endSession .office 0, .getStatus h0,
   .readReg h0 0, .writeReg h0 0 0 none env0, .getEvents h0 0, .setCoolant h0 0 0 0, .getShutdown h0 0, .setRingConf h0 0 0 none, .imageBufferTimeout,
   .coolantAgeExpiry 0 0, .vsetWrite 0 w0, .regulatorFault 0, .regulatorOvervoltage 0, .powerSample 0 [] [], .pwrLimitWrite w0,
   .sensorSample [], .forecastUpdate, .hrOpen 0 w0, .teardownWrite 0 w0, .teardownComplete 0, .hrCoresWrite 0 0 w0, .hrMapWrite 0 0 w0,
   .hrFuncsWrite 0 w0, .hrWindowWrite 0 0 false w0, .coreMoveClear 0, .hrQuery 0] : List Instr).all (fun c => c.wf .S) = true := by decide +kernel

theorem test_wf_accepts_9 : ([.keySet 0 0 0 [], .sealHomeroom 0 [], .ringConf 0 0 0, .ringQuery 0 0, .saltSet 0 [], .saltExport 0, .fabricSet 0 false [],
   .tenantTeardown 0, .mailboxGo w0 ⟨[]⟩, .rngHealthFail, .debugUnlock w0 false, .mirrorWrite 0 w0, .mirrorClearComplete, .flipArm w0,
   .imageWindowWrite 0 [], .bootImage w0, .bootTrain w0 [], .rollCall w0 [], .bootReady w0, .bootStepComplete, .exportRecord w0,
   .coldRestart w0, .domainDown w0, .domainUp w0, .domainActionComplete 0 [], .vauxPowerOn 0, .vauxLoss, .mainRailFault 1 0 0, .vinCoreCycle,
   .perstDeassert false] : List Instr).all (fun c => c.wf .S) = true := by decide +kernel

theorem test_wf_accepts_10 : ([.perstAssert, .refclkLoss 0, .dramLayerLoss 0 0, .completionTimeout 0 0 false, .refreshManagementRequest 0 0, .imageTransferCancel false] : List Instr).all (fun c => c.wf .S) = true := by decide +kernel

theorem test_wf_refuses_1 : ([.scrub 64 0, .registerWrite (.vf 17) 0 0 .read env0, .unclaimedRequest 17 0 0 false, .lessonLaunch 256 lesson0, .lessonLaunch 0 bl0,
   .preloadComplete 256, .stepIssue 256, .stepStart 256 .mover, .stepComplete 256 .mover 0, .lessonComplete 256, .nopStep 256 false,
   .endStep 256, .syncWaitLocal 256 false, .syncSignalLocal 256 false, .syncSignalRemote 256 false, .syncWaitRemote 256 false,
   .syncPoll 256 false, .syncTimeout 256 false, .waitLimitExpiry 256 .tutor, .fenceStep 256 false, .loadSlate 256 false,
   .slateLoadComplete 256 false, .stream 256 .mover false, .gather 256 false false [] [], .freezeRelease 256 false,
   .gatherRowData 256 false 0, .arrayHung 256 false, .skim 256, .convert 256, .loadStep 256] : List Instr).all (fun c => !c.wf .S) = true := by decide +kernel

theorem test_wf_refuses_2 : ([.storeStep 256, .moveStep 256, .reduce 256, .handoff 256, .tutorInstruction 256, .tpost 256, .twait 256, .tevt 256, .tsig 256, .tdone 256,
   .rateWindow 256, .coreFence 256 0, .coreFenceRequest 256 w0, .coreFenceRequest 0 bw0, .unfence 256 w0, .unfence 0 bw0, .fenceComplete 256,
   .lateReply 256, .warmRecoveryComplete 256 .fail, .seedWrite 256 .skim w0, .seedWrite 0 .skim bw0, .seedLoad 256 .skim,
   .arrStatClear 256 false w0, .arrStatClear 0 false bw0, .sliceRequest 256 0 .mover (.read 0 1 0),
   .sliceRequest 0 (2 ^ 40) .mover (.read 0 1 0), .sliceRefresh 256 0 false, .sliceRefresh 0 256 false, .channelPowerDown 256 0,
   .channelPowerDown 0 16] : List Instr).all (fun c => !c.wf .S) = true := by decide +kernel

theorem test_wf_refuses_3 : ([.sliceFillComplete 256, .sliceClear 256, .layerOffsetWrite 256 w0, .layerOffsetWrite 0 bw0, .scRead (.core 256) 0 0 1 false,
   .scRead .registrar 16 0 1 false, .scWrite (.core 256) 0 0 [0#8], .scWrite .registrar 16 0 [0#8], .scAtomic (.core 256) 0 0 .add 4 0 0,
   .scAtomic .registrar 16 0 .swap 4 0 0, .farGrant 12 0, .farWindowClose 12, .farRefresh 12 0 false, .farRefresh 0 4096 false,
   .farTempReadout 12 0, .farStackLoss 12, .sepScopeWrite 2 w0, .sepScopeWrite 0 bw0, .sepNarrowWrite 2 w0, .sepNarrowWrite 0 bw0,
   .sepChangeComplete 128, .farModeWrite 12 w0, .farModeWrite 0 bw0, .scPurge 12 w0, .scPurge 0 bw0, .scPurgeComplete 12, .scStatClear 12 w0,
   .scStatClear 0 bw0, .ladleCopy 12 [0, 0, 0, 0] .registrar, .ladleCopy 0 [0] .registrar] : List Instr).all (fun c => !c.wf .S) = true := by decide +kernel

theorem test_wf_refuses_4 : ([.ladleCopy 0 [0, 0, 0, 2 ^ 64] .registrar, .ladleCopy 0 [0, 0, 0, 0] (.core 256), .ladleFill 12 [0, 0, 0, 0] .registrar,
   .ladleFill 0 [0] .registrar, .ladleFill 0 [0, 0, 0, 2 ^ 64] .registrar, .ladleFill 0 [0, 0, 0, 0] (.core 256),
   .ladleNot 12 [0, 0, 0, 0] .registrar, .ladleNot 0 [0] .registrar, .ladleNot 0 [0, 0, 0, 2 ^ 64] .registrar,
   .ladleNot 0 [0, 0, 0, 0] (.core 256), .ladleAnd 12 [0, 0, 0, 0] .registrar, .ladleAnd 0 [0] .registrar,
   .ladleAnd 0 [0, 0, 0, 2 ^ 64] .registrar, .ladleAnd 0 [0, 0, 0, 0] (.core 256), .ladleOr 12 [0, 0, 0, 0] .registrar,
   .ladleOr 0 [0] .registrar, .ladleOr 0 [0, 0, 0, 2 ^ 64] .registrar, .ladleOr 0 [0, 0, 0, 0] (.core 256),
   .ladleXor 12 [0, 0, 0, 0] .registrar, .ladleXor 0 [0] .registrar, .ladleXor 0 [0, 0, 0, 2 ^ 64] .registrar,
   .ladleXor 0 [0, 0, 0, 0] (.core 256), .ladleClearSet 12 [0, 0, 0, 0] .registrar, .ladleClearSet 0 [0] .registrar,
   .ladleClearSet 0 [0, 0, 0, 2 ^ 64] .registrar, .ladleClearSet 0 [0, 0, 0, 0] (.core 256), .ladleSequenceStart 12, .ladleFlushComplete 12 0,
   .ladleFlushComplete 0 64, .rowStep 12 0] : List Instr).all (fun c => !c.wf .S) = true := by decide +kernel

theorem test_wf_refuses_5 : ([.rowStep 0 64, .ldlDrainWrite 12 w0, .ldlDrainWrite 0 bw0, .ldlStatClear 12 w0, .ldlStatClear 0 bw0, .treeOpen 4 pc0, .treeOpen 0 bc0,
   .treeClose 4 pc0, .treeClose 0 bc0, .evict 4 pc0, .evict 0 bc0, .seqOpen 4 pc0, .seqOpen 0 bc0, .seqClose 4 pc0, .seqClose 0 bc0,
   .matchBlocks 4 pc0, .matchBlocks 0 bc0, .append 4 pc0, .append 0 bc0, .resolve 4 pc0, .resolve 0 bc0, .publish 4 pc0, .publish 0 bc0,
   .fork 4 pc0, .fork 0 bc0, .truncate 4 pc0, .truncate 0 bc0, .markLost 4 pc0, .markLost 0 bc0, .shadowSync 4 pc0] : List Instr).all (fun c => !c.wf .S) = true := by decide +kernel

theorem test_wf_refuses_6 : ([.shadowSync 0 bc0, .adopt 4 pc0, .adopt 0 bc0, .churnOpen 4 pc0, .churnOpen 0 bc0, .churnRun 4 pc0, .churnRun 0 bc0, .churnClose 4 pc0,
   .churnClose 0 bc0, .yokePush 4 0 0, .pailListFetch 4 0 false 0 0 0 0, .pailListFetch 0 256 false 0 0 0 0, .hello 4 pm0, .hello 0 bm0,
   .helloResend 4 0, .helloResend 0 64, .churnCredit 4 pm0, .churnCredit 0 bm0, .churnData 4 pm0, .churnData 0 bm0, .rider 4 pm0, .rider 0 bm0,
   .dataAck 4 pm0, .dataAck 0 bm0, .closeMessage 4 pm0, .closeMessage 0 bm0, .releasePoll 4 0, .releasePoll 0 64, .shadowData 4 pm0,
   .shadowData 0 bm0] : List Instr).all (fun c => !c.wf .S) = true := by decide +kernel

theorem test_wf_refuses_7 : ([.shadowAck 4 pm0, .shadowAck 0 bm0, .shadowNode 4 pm0, .shadowNode 0 bm0, .pailDrainWrite 4 w0, .pailDrainWrite 0 bw0, .pailStatClear 4 w0,
   .pailStatClear 0 bw0, .routerPacket 4 0 .core [], .routerPacket 0 64 .core [], .ringStopPacket 4 0 0 false false [],
   .ringStopPacket 0 38 0 false false [], .ringStopPacket 0 0 16 false false [], .heartbeat 4 0 false, .heartbeat 0 102 false, .arbGrant 4 0 [],
   .arbGrant 0 255 [], .arbFreeze 4 0 w0, .arbFreeze 0 255 w0, .arbFreeze 0 0 bw0, .arbDrainComplete 4 0, .arbDrainComplete 0 255,
   .arbStatClear 4 0 w0, .arbStatClear 0 255 w0, .arbStatClear 0 0 bw0, .meshStatClear 4 w0, .meshStatClear 0 bw0, .signalRaise 6 2,
   .signalRaise 0 255, .signalRoundTrip 6 2] : List Instr).all (fun c => !c.wf .S) = true := by decide +kernel

theorem test_wf_refuses_8 : ([.signalRoundTrip 0 255, .samplePresent 6 2 0 1, .samplePresent 0 255 0 1, .samplePresent 0 2 (2 ^ 64) 1, .sampleFallback 6 2,
   .sampleFallback 0 255, .queueWrite 6 2 0, .queueWrite 0 255 0, .queueWrite 0 2 (2 ^ 64), .crossingStall 6 2, .crossingStall 0 255,
   .xingForce 6 w0, .xingForce 0 bw0, .d2dPacketSend 6 0 .request 0 0 header16 [] side0, .d2dPacketSend 0 0 .request 16 0 header16 [] side0,
   .d2dFlitReceive 6 0 0 [], .d2dFlitReceive 0 3 0 [], .d2dFlitReceive 0 0 24 [], .laneErrorWindow 6 0 0, .laneErrorWindow 0 3 0,
   .laneErrorWindow 0 0 24, .d2dRepairComplete 6 0 0 false, .d2dRepairComplete 0 3 0 false, .d2dRepairComplete 0 0 24 false, .d2dNak 6 0 0 0,
   .d2dNak 0 3 0 0, .d2dNak 0 0 24 0, .d2dCredit 6 0 0 0 0, .d2dCredit 0 3 0 0 0, .d2dCredit 0 0 24 0 0] : List Instr).all (fun c => !c.wf .S) = true := by decide +kernel

theorem test_wf_refuses_9 : ([.d2dGoodbye 6 0 0, .d2dGoodbye 0 3 0, .d2dRoute 6 0 0 0 0, .d2dRoute 0 3 0 0 0, .d2dRoute 0 0 24 0 0, .d2dRoute 0 0 0 96 0,
   .d2dReplayTimeout 6 0 0, .d2dReplayTimeout 0 3 0, .d2dReplayTimeout 0 0 24, .d2dWatchdog 6 0 0 false, .d2dWatchdog 0 3 0 false,
   .d2dWatchdog 0 0 24 false, .dieLostDeclaration 6, .deputyTakeover 4, .d2dStatClear 6 w0, .d2dStatClear 0 bw0, .packetOriginate 2 pk0,
   .packetOriginate 0 bp0, .linkFlitReceive 2 0 flit0, .linkFlitReceive 0 6 flit0, .linkFlitReceive 0 0 ⟨true, [], []⟩, .fecErrorWindow 2 0,
   .fecErrorWindow 0 6, .packetArrival 2 0 pk0, .packetArrival 0 6 pk0, .packetArrival 0 0 bp0, .put 2 (pkK 1), .put 0 (bpK 1), .get 2 (pkK 2), .get 0 (bpK 2)] : List Instr).all (fun c => !c.wf .S) = true := by decide +kernel

theorem test_wf_refuses_10 : ([.add64 2 (pkK 3), .add64 0 (bpK 3), .fabricPail 2 (pkK 4), .fabricPail 0 (bpK 4), .fabricAck 2 (pkK 65), .fabricAck 0 (bpK 65), .fabricData 2 (pkK 66), .fabricData 0 (bpK 66),
   .unreach 2 (pkK 67), .unreach 0 (bpK 67), .linkNak 2 0 0, .linkNak 0 6 0, .linkCredit 2 0 [0, 0, 0, 0], .linkCredit 0 6 [0, 0, 0, 0],
   .linkCredit 0 0 [0], .creditR 2 0 [0, 0, 0, 0], .creditR 0 6 [0, 0, 0, 0], .creditR 0 0 [0], .linkGoodbye 2 0 0, .linkGoodbye 0 6 0,
   .linkReplayTimeout 2 0, .linkReplayTimeout 0 6, .e2eTimeout 2 0, .portWatchdog 2 0, .portWatchdog 0 6, .portEnable 2 0 w0,
   .portEnable 0 6 w0, .portEnable 0 0 bw0, .portDisable 2 0 w0, .portDisable 0 6 w0] : List Instr).all (fun c => !c.wf .S) = true := by decide +kernel

theorem test_wf_refuses_11 : ([.portDisable 0 0 bw0, .retrain 2 0 w0, .retrain 0 6 w0, .retrain 0 0 bw0, .portTrainingComplete 2 0 (trains id),
   .portTrainingComplete 0 6 (trains id), .portTrainingComplete 0 0 ⟨[], 0⟩, .routeDataWrite 2 0 w0, .routeDataWrite 0 0 bw0,
   .linkStatClear 2 w0, .linkStatClear 0 bw0, .linkPortStatClear 2 0 w0, .linkPortStatClear 0 6 w0, .linkPortStatClear 0 0 bw0,
   .doorbell 17 0 0 0, .doorbell 0 0 0 (2 ^ 64), .descriptorArrival 64, .nopDescriptor 64 0, .launchDescriptor 64 0, .moveDescriptor 64 0,
   .ladleDescriptor 64 0, .pailDescriptor 64 0, .fabricDescriptor 64 0, .fenceDescriptor 64 0, .waitDescriptor 64 0, .waitTimeout 64 0,
   .unitCompletion 64 0 0, .forecastMessage bf0, .ringEnable 64 w0, .ringEnable 0 bw0] : List Instr).all (fun c => !c.wf .S) = true := by decide +kernel

theorem test_wf_refuses_12 : ([.ringDisable 64 w0, .ringDisable 0 bw0, .ringDrainComplete 64, .functionLevelReset 17, .bar4Access 17 0 (.read 4), .ringAdmitStatClear bw0,
   .i3cAddressAssign 128, .setEndpointId 4 0, .setEndpointId 0 256, .getSensorReading (.dieHottest 28), .getVersion (.homeroom 16),
   .getCapabilities (.homeroom 16) 0, .negotiateAlgorithms (.homeroom 16), .getDigests (.homeroom 16), .getCertificate (.homeroom 16) 0 0,
   .challenge (.homeroom 16) key32, .challenge .office [], .getMeasurements (.homeroom 16) 0 false key32, .getMeasurements .office 0 false [],
   .keyExchange (.homeroom 16) [], .finish (.homeroom 16) 0 false, .heartbeatMessage (.homeroom 16) 0, .keyUpdate (.homeroom 16) 0,
   .endSession (.homeroom 16) 0, .getStatus bh0, .readReg bh0 0, .writeReg bh0 0 0 none env0, .writeReg h0 0 (2 ^ 64) none env0,
   .getEvents bh0 0, .setCoolant bh0 0 0 0] : List Instr).all (fun c => !c.wf .S) = true := by decide +kernel

theorem test_wf_refuses_13 : ([.getShutdown bh0 0, .setRingConf bh0 0 0 none, .vsetWrite 262 w0, .vsetWrite 0 bw0, .regulatorFault 262, .regulatorOvervoltage 262,
   .pwrLimitWrite bw0, .hrOpen 16 w0, .hrOpen 0 bw0, .teardownWrite 16 w0, .teardownWrite 0 bw0, .teardownComplete 16, .hrCoresWrite 16 0 w0,
   .hrCoresWrite 0 4 w0, .hrCoresWrite 0 0 bw0, .hrMapWrite 16 0 w0, .hrMapWrite 0 16 w0, .hrMapWrite 0 0 bw0, .hrFuncsWrite 16 w0,
   .hrFuncsWrite 0 bw0, .hrWindowWrite 16 0 false w0, .hrWindowWrite 0 8 false w0, .hrWindowWrite 0 0 false bw0, .coreMoveClear 256,
   .hrQuery 16, .keySet 16 0 0 [], .sealHomeroom 16 [], .ringConf 16 0 0, .ringQuery 16 0, .saltSet 16 []] : List Instr).all (fun c => !c.wf .S) = true := by decide +kernel

theorem test_wf_refuses_14 : ([.saltExport 16, .fabricSet 16 false [], .tenantTeardown 16, .mailboxGo bw0 ⟨[]⟩, .debugUnlock bw0 false, .mirrorWrite 16 w0,
   .mirrorWrite 0 bw0, .flipArm bw0, .bootImage bw0, .bootTrain bw0 [], .rollCall bw0 [], .bootReady bw0, .exportRecord bw0, .coldRestart bw0,
   .domainDown bw0, .domainUp bw0, .domainActionComplete 6 [], .mainRailFault 0 0 0, .mainRailFault 5 0 0, .mainRailFault 1 2 0, .refclkLoss 13,
   .dramLayerLoss 4 0, .dramLayerLoss 0 4, .completionTimeout 64 0 false, .refreshManagementRequest 12 0, .refreshManagementRequest 0 4096] : List Instr).all (fun c => !c.wf .S) = true := by decide +kernel

theorem test_wf_refuses_15 : ([.gather 0 false false [(64, 1)] [], .gather 0 false false [(3, 1), (3, 2)] [], .gather 0 false false [] [(128, 1)],
   .gather 0 false false [] [(5, 1), (5, 1)], .scRead .registrar 0 0 0 false, .scRead .registrar 0 255 2 false, .scWrite .registrar 0 0 [],
   .scWrite .registrar 0 255 [0#8, 0#8], .scAtomic .registrar 0 255 .swap 4 0 0, .scAtomic .registrar 0 0 .add 4 0 0,
   .scAtomic (.core 0) 0 0 .add 2 0 0, .scAtomic .registrar 0 0 .swap 4 (2 ^ 32) 0, .scAtomic .registrar 0 0 .cas 4 0 (2 ^ 32),
   .routerPacket 0 0 .core [⟨.request, 0, 0, none, 5, 0, []⟩], .ringStopPacket 0 0 0 false false [⟨.request, 0, 0, none, 5, 0, []⟩],
   .samplePresent 0 2 0 0, .d2dPacketSend 0 0 .request 0 0 [1#8] [] side0, .d2dPacketSend 0 0 .request 0 0 (List.replicate 16 0#8) [] side0,
   .d2dPacketSend 0 0 .request 0 0 header16 (List.replicate 257 0#8) ⟨0, List.replicate 16 0⟩, .d2dPacketSend 0 0 .request 0 0 header16 [] ⟨0, [0]⟩,
   .d2dPacketSend 0 0 .request 0 0 header16 (List.replicate 16 0#8) ⟨0, [2 ^ 16]⟩, .put 0 pk0, .get 0 pk0, .add64 0 pk0, .fabricPail 0 pk0,
   .fabricAck 0 pk0, .fabricData 0 pk0, .unreach 0 pk0] : List Instr).all (fun c => !c.wf .S) = true := by decide +kernel

theorem test_wf_refuses_16 : ([.getStatus ⟨1, 0⟩, .getStatus ⟨0, 2 ^ 16⟩, .readReg h0 (2 ^ 64), .writeReg h0 (2 ^ 64) 0 none env0, .getEvents h0 256,
   .setCoolant h0 (2 ^ 16) 0 0, .setCoolant h0 0 (2 ^ 16) 0, .setCoolant h0 0 0 256, .getShutdown h0 256, .setRingConf h0 256 0 none,
   .setRingConf h0 0 256 none] : List Instr).all (fun c => !c.wf .S) = true := by decide +kernel

/-- For every other check inside an operand, an operand that fails it. -/
theorem test_wf_operands_refused :
    ([RegWrite.wf ⟨.pf, .lo, 2 ^ 32⟩, RegWrite.wf ⟨.vf 0, .full, 0⟩, Master.wf (.vf 17), Requester.wf .S (.tutor 256), Requester.wf .S (.host 17),
      Requester.wf .S (.pail 4), Requester.wf .S (.ladle 2), Requester.wf .S (.fabric 2), PailCmd.wf { pc0 with tree := 256 },
      PailCmd.wf { pc0 with seq := 2 ^ 16 }, PailCmd.wf { pc0 with w1 := 2 ^ 64 }, PailCmd.wf { pc0 with w2 := 2 ^ 64 },
      PailCmd.wf { pc0 with w3 := 2 ^ 64 }, PailMsg.wf { pm0 with data := [0#8] }, Packet.wf ⟨0, 2 ^ 64, []⟩, Packet.wf ⟨0, 0, List.replicate 257 0#8⟩,
      Launch.wf { lesson0 with stepLimit := 2 ^ 18 }, Launch.wf { lesson0 with preloadSrc := 2 ^ 48 }, Launch.wf { lesson0 with preloadBytes := 2 ^ 17 },
      Launch.wf { lesson0 with homeroom := 16 }, Launch.wf { lesson0 with tag := 2 ^ 64 }, Responder.wf (.homeroom 0), PldmSensor.wf .S (.dieHottest 6),
      PldmSensor.wf .S (.farReadout 2), MeshPkt.wf ⟨.request, 0, 0, none, 0, 0, []⟩, MeshPkt.wf ⟨.request, 0, 0, none, 1, 0, List.replicate 65 0#8⟩,
      Forecast.wf { fc0 with allowStack := [] }, Forecast.wf { fc0 with baseStack := [] },
      Forecast.wf { fc0 with warm := 2 ^ 256 }].all fun b => !b) = true := by decide +kernel

/-! ### Steps -/

theorem witness_stepKeepsSafe : up.Safe ∧ ({ up with pending := [.lockstepHalt] }).Safe ∧ up.pending = [] ∧
    ({ up with fuses := quad 256 1 }).fuseBit 256 = true := by
  refine ⟨⟨by decide +kernel, fun c h => ?_⟩, ⟨by decide +kernel, fun c h => ?_⟩, by decide +kernel, by decide +kernel⟩
  · cases h
  · cases List.mem_singleton.mp h
    decide +kernel

/-- A step performs the command in front, and leaves the one behind it. -/
theorem test_step : (match step { up with pending := [.setEndpointId 0 9, .lockstepHalt] } with
    | .next t => decide (t.pending = [.lockstepHalt]) && decide (t.fget .officeStatus OFFICE_STATUS_EID = 9)
    | _ => false) = true := by decide +kernel

end Sys2Proof.Tests
end

section
/-! PROOFS. Register accesses: what REGISTER_WRITE answers, by the access's offset, size and direction. -/

namespace Sys2Proof.Machine

open Sys2Proof

variable {s : State} {m : Master} {off o size v : Nat} {env : WriteEnv} {r : Reg}

/-! ### REGISTER_WRITE -/

theorem exec_registerWrite (m : Master) (off size : Nat) (acc : RegAccess) (env : WriteEnv) (s : State) :
    exec (.registerWrite m off size acc env) s = execRegisterWrite m off size acc env s := rfl

/-- A write inside BAR0 is made where its size and alignment are taken (R15). -/
theorem exec_registerWrite_write (ho : barOffset m off = some o) :
    exec (.registerWrite m off size (.write v) env) s = .next (if accessTaken o size then s.regWriteAt m o size v env else s) := by
  simp only [exec_registerWrite, execRegisterWrite, ho]

/-- A read inside BAR0 whose size and alignment are taken answers the value at its offset. -/
theorem exec_registerWrite_read_of_taken (ho : barOffset m off = some o) (hp : s.pathUp m = true) (ht : accessTaken o size = true) :
    exec (.registerWrite m off size .read env) s = .next (s.emit (.regValue m (s.regReadAt m o size))) := by
  simp [exec_registerWrite, execRegisterWrite, ho, hp, ht]

/-- A read by a function whose size or alignment is not taken completes with Completer Abort (R15). -/
theorem exec_registerWrite_read_of_not_taken {f : Nat} (ho : barOffset m off = some o) (hp : s.pathUp m = true)
    (ht : accessTaken o size = false) (hf : m.func = some f) :
    exec (.registerWrite m off size .read env) s = .next (s.emit (.completerAbort f)) := by
  simp [exec_registerWrite, execRegisterWrite, ho, hp, ht, hf]

/-! ### The value of a read -/

/-- Where a register stands, a read gives it, or the half that the offset names (R730). -/
theorem State.regReadAt_of_regFor (hr : s.regFor m o = some r) :
    s.regReadAt m o size = if size = 8 then (s.regValue m r).toNat
      else if o % 8 = 4 then (s.regValue m r).toNat / 2 ^ 32 else (s.regValue m r).toNat % 2 ^ 32 := by
  rw [State.regReadAt, hr]

theorem State.regValue_of_not_masterReaches (h : s.masterReaches m r = false) : s.regValue m r = 0#64 := by
  simp [State.regValue, h]

end Sys2Proof.Machine

namespace Sys2Proof.Proofs

open Sys2Proof Sys2Proof.Machine

/-- Settles O6: a read that is taken, an access that is refused, and a register out of the master's reach, each by its lemma. -/
theorem registerReadsReturnValues : Obligations.RegisterReadsReturnValues := by
  intro s m off o size v env r ho hp hr
  refine ⟨fun ht => ?_, fun ht => ⟨?_, fun f hf => ?_⟩, State.regValue_of_not_masterReaches⟩
  · rw [exec_registerWrite_read_of_taken ho hp ht, State.regReadAt_of_regFor hr, State.emit]
  · simp [exec_registerWrite_write ho, ht]
  · exact exec_registerWrite_read_of_not_taken ho hp ht hf

end Sys2Proof.Proofs
end

section
/-! PROOFS. Write-backs: the registers that asking an arbiter, a failure that is not recovered and a write-back of a line may write. -/

namespace Sys2Proof.Machine

open Sys2Proof

variable {s : State} {r : Reg}

/-- The registers that a write-back of a line may write: an arbiter's pending requests (R355), REL_STATUS (R629), the armed flip (R642), and
those of the two event queues (R496). -/
def Reg.ofWriteBack : Reg → Bool
  | .arbStarve _ _ | .relStatus | .relFlipSel | .ringEvqStatus | .officeEvq => true
  | _ => false

/-- Operations that each leave a register leave it when they are done one after another. -/
theorem State.get_foldl {α : Type} {g : State → α → State} (hg : ∀ t a, (g t a).get r = t.get r) (l : List α) (s : State) :
    (l.foldl g s).get r = s.get r := by
  induction l generalizing s with
  | nil => rfl
  | cons a l ih => rw [List.foldl_cons, ih, hg]

theorem State.get_arbAsk_ne {d sel : Nat} (h : r ≠ .arbStarve d sel) (n : Nat) : (s.arbAsk d sel n).get r = s.get r := by
  rw [State.arbAsk, State.arbPending, State.get_fput_ne _ _ _ h, State.get_setArb]

theorem State.get_askPort (h : r.ofWriteBack = false) (site : Nat) (q : FarReq) : (s.askPort site q).get r = s.get r := by
  have hr : r ≠ .arbStarve (site / 3) (farQueue site q.pc) := by rintro rfl; cases h
  unfold State.askPort
  dsimp only
  split_ifs
  · rfl
  · rw [State.get_arbAsk_ne hr, State.get_setFarPort]
  · rw [State.get_setFarPort]

theorem State.get_relEvent (hh : r ≠ .ringEvqStatus) (ho : r ≠ .officeEvq) : s.relEvent.get r = s.get r := by
  unfold State.relEvent
  split
  · exact (s.raise_frame .rel 0 0x008 .relStatus).2 r hh ho
  · rfl

theorem State.get_relAdd (e : RelEntry) : (s.relAdd e).get r = s.get r := rfl

theorem State.get_unrecovered (h : r.ofWriteBack = false) (e : RelEntry) : (s.unrecovered e).get r = s.get r := by
  have hs : r ≠ .relStatus := by rintro rfl; cases h
  have hh : r ≠ .ringEvqStatus := by rintro rfl; cases h
  have ho : r ≠ .officeEvq := by rintro rfl; cases h
  rw [State.unrecovered, State.get_relEvent hh ho, State.get_relAdd, State.get_fput_ne _ _ _ hs, State.get_fadd_ne _ _ _ hs]

theorem State.get_flip (h : r ≠ .relFlipSel) (mem unit hr addr : Nat) (data : List Byte) :
    (s.flip mem unit hr addr data).1.get r = s.get r := by
  unfold State.flip
  split
  · exact State.get_fput_ne _ _ _ h
  · rfl

theorem State.get_farPut (loc : FarLoc) (g : Nat) (data : List Byte) (diff : Nat) : (s.farPut loc g data diff).get r = s.get r := rfl

theorem State.get_putBack (h : r.ofWriteBack = false) (c : LineAt) (hr g : Nat) (bad : Bool) (data : List Byte) (loc : FarLoc) :
    (s.putBack c hr g bad data loc).get r = s.get r := by
  have hf : r ≠ .relFlipSel := by rintro rfl; cases h
  unfold State.putBack
  split_ifs
  · rfl
  · exact State.get_farPut ..
  · exact (State.get_farPut ..).trans (State.get_flip hf ..)

theorem State.get_writeBackGranules (h : r.ofWriteBack = false) (c : LineAt) (l : Line) (cipher : List Byte) (hr : Nat) (gs : List Nat)
    (s : State) : (s.writeBackGranules c l cipher hr gs).get r = s.get r := by
  induction gs generalizing s with
  | nil => rfl
  | cons g gs ih =>
    rw [State.writeBackGranules, ih]
    cases c.mirror <;> simp only [State.get_putBack h, apply_ite (State.get · r), State.get_unrecovered h, ite_self]

theorem State.get_writeBack (h : r.ofWriteBack = false) (c : LineAt) (l : Line) : (s.writeBack c l).get r = s.get r := by
  unfold State.writeBack
  split
  · rfl
  · rw [State.get_writeBackGranules h, State.get_foldl fun t loc => State.get_askPort h _ _]

theorem State.get_flushLine (h : r.ofWriteBack = false) (grain : Nat) : (s.flushLine grain).get r = s.get r := by
  unfold State.flushLine
  split
  · rfl
  · exact State.get_writeBack h ..

end Sys2Proof.Machine
end

section
/-! PROOFS. The separator: what a write of a SEP register and the completion of a set's change do (R209, R210). -/

namespace Sys2Proof.Machine

open Sys2Proof

variable {s : State} {r : Reg} {i k set : Nat} {w : RegWrite}

/-! ### A write of a SEP register -/

/-- The bits that a write of a SEP register would change. -/
def State.sepWant (s : State) (r : Reg) (w : RegWrite) : W64 := (s.written r w).new ^^^ s.get r

/-- Of those, the bits of sets that active homerooms hold. -/
def State.sepRefused (s : State) (r : Reg) (i : Nat) (w : RegWrite) : W64 := s.sepWant r w &&& s.sepLocked i

/-- Of those, the bits that change. -/
def State.sepTook (s : State) (r : Reg) (i : Nat) (w : RegWrite) : W64 := s.sepWant r w &&& ~~~(s.sepLocked i)

/-- The state in which the changes of a write begin: REFUSED is set where a bit keeps its value. -/
def State.sepNoted (s : State) (r : Reg) (i : Nat) (w : RegWrite) : State :=
  if s.sepRefused r i w = 0#64 then s else s.fput .sepStatus SEP_STATUS_REFUSED 1

/-- A word has no bit set where it is zero. -/
theorem filter_getLsbD_eq_nil_iff (x : W64) : (List.range 64).filter x.getLsbD = [] ↔ x = 0#64 := by
  rw [List.filter_eq_nil_iff]
  constructor
  · intro h
    refine BitVec.eq_of_getLsbD_eq fun j hj => ?_
    simpa using h j (List.mem_range.mpr hj)
  · rintro rfl j _
    simp

/-- A write that takes no bit only notes what it refused. -/
theorem State.sepWrite_of_took_eq_zero (h : s.sepTook r i w = 0#64) : s.sepWrite r i w = s.sepNoted r i w := by
  have hs : (((List.range 64).filter (s.sepTook r i w).getLsbD).map (64 * i + ·)).isEmpty = true := by
    rw [(filter_getLsbD_eq_nil_iff _).mpr h]
    rfl
  exact if_pos hs

/-- A write that takes a bit begins the changes of its sets, puts the register and sets BUSY. -/
theorem State.sepWrite_of_took_ne_zero (h : s.sepTook r i w ≠ 0#64) :
    s.sepWrite r i w = (((((List.range 64).filter (s.sepTook r i w).getLsbD).map (64 * i + ·)).foldl State.beginSetChange
      (s.sepNoted r i w)).put r (s.get r ^^^ s.sepTook r i w)).fput .sepStatus SEP_STATUS_BUSY 1 := by
  have hs : ¬ (((List.range 64).filter (s.sepTook r i w).getLsbD).map (64 * i + ·)).isEmpty = true := by
    rwa [List.isEmpty_map, List.isEmpty_iff, filter_getLsbD_eq_nil_iff]
  exact if_neg hs

theorem State.sepNoted_of_refused_eq_zero (h : s.sepRefused r i w = 0#64) : s.sepNoted r i w = s := if_pos h

theorem State.sepNoted_of_refused_ne_zero (h : s.sepRefused r i w ≠ 0#64) :
    s.sepNoted r i w = s.fput .sepStatus SEP_STATUS_REFUSED 1 := if_neg h

theorem State.get_sepNoted_ne {q : Reg} (h : q ≠ .sepStatus) : (s.sepNoted r i w).get q = s.get q := by
  unfold State.sepNoted
  split
  · rfl
  · exact State.get_fput_ne _ _ _ h

theorem State.get_dropFills (n : Nat) : (s.dropFills n).get r = s.get r := rfl

theorem State.get_flushSet (h : r.ofWriteBack = false) (n : Nat) : (s.flushSet n).get r = s.get r := by
  have hg : ∀ (t : State) (e : Nat × Line), (t.flushLine e.1).get r = t.get r := fun _ e => State.get_flushLine h e.1
  rw [State.flushSet, State.get_foldl hg, State.get_dropFills]

theorem State.get_scrambleSet (n : Nat) : (s.scrambleSet n).get r = s.get r := rfl

theorem State.get_setChanges (l : List Nat) : { s with setChanges := l }.get r = s.get r := rfl

/-- Beginning the change of a set writes no register but those of its write-backs (R210). -/
theorem State.get_beginSetChange (h : r.ofWriteBack = false) (n : Nat) : (s.beginSetChange n).get r = s.get r := by
  rw [State.beginSetChange, State.get_setChanges, State.get_scrambleSet, State.get_flushSet h]

/-- A SEP register takes the bits of the write that no active homeroom holds, and keeps the others. -/
theorem State.get_sepWrite (h : r ≠ .sepStatus) : (s.sepWrite r i w).get r = s.get r ^^^ s.sepTook r i w := by
  by_cases ht : s.sepTook r i w = 0#64
  · rw [State.sepWrite_of_took_eq_zero ht, State.get_sepNoted_ne h, ht, BitVec.xor_zero]
  · rw [State.sepWrite_of_took_ne_zero ht, State.get_fput_ne _ _ _ h, State.get_put_same]

/-- A bit that is refused sets REFUSED, which no change of another bit clears. -/
theorem State.refused_sepWrite (h : r ≠ .sepStatus) (hr : s.sepRefused r i w ≠ 0#64) :
    (s.sepWrite r i w).fget .sepStatus SEP_STATUS_REFUSED = 1 := by
  have hn : (s.sepNoted r i w).fget .sepStatus SEP_STATUS_REFUSED = 1 := by
    rw [State.sepNoted_of_refused_ne_zero hr, State.fget_fput_same _ _ _ _ (by decide)]
    rfl
  by_cases ht : s.sepTook r i w = 0#64
  · rwa [State.sepWrite_of_took_eq_zero ht]
  · rw [State.sepWrite_of_took_ne_zero ht, State.fget_fput_field _ _ _ _ _ (by decide) (by decide), State.fget,
      State.get_put_ne _ _ h.symm, State.get_foldl fun _ _ => State.get_beginSetChange rfl _]
    exact hn

/-- A bit that is taken sets BUSY. -/
theorem State.busy_sepWrite (ht : s.sepTook r i w ≠ 0#64) : (s.sepWrite r i w).fget .sepStatus SEP_STATUS_BUSY = 1 := by
  rw [State.sepWrite_of_took_ne_zero ht, State.fget_fput_same _ _ _ _ (by decide)]
  rfl

/-- A write all of whose changes are refused sets REFUSED alone. -/
theorem State.sepWrite_of_all_refused (hr : s.sepRefused r i w ≠ 0#64) (ht : s.sepTook r i w = 0#64) :
    s.sepWrite r i w = s.fput .sepStatus SEP_STATUS_REFUSED 1 := by
  rw [State.sepWrite_of_took_eq_zero ht, State.sepNoted_of_refused_ne_zero hr]

/-- A write that would change no bit does nothing. -/
theorem State.sepWrite_of_want_eq_zero (h : s.sepWant r w = 0#64) : s.sepWrite r i w = s := by
  have ht : s.sepTook r i w = 0#64 := by rw [State.sepTook, h, BitVec.zero_and]
  have hr : s.sepRefused r i w = 0#64 := by rw [State.sepRefused, h, BitVec.zero_and]
  rw [State.sepWrite_of_took_eq_zero ht, State.sepNoted_of_refused_eq_zero hr]

theorem exec_sepScopeWrite_of_admits (h : s.admits w.master (.sepScope k) = true) :
    exec (.sepScopeWrite k w) s = .next (s.sepWrite (.sepScope k) k w) := congrArg _ (State.guarded_of_admits h)

theorem exec_sepNarrowWrite_of_admits (h : s.admits w.master (.sepNarrow k) = true) :
    exec (.sepNarrowWrite k w) s = .next (s.sepWrite (.sepNarrow k) k w) := congrArg _ (State.guarded_of_admits h)

/-! ### The completion of a set's change -/

/-- The change of a set is taken away, and BUSY reads whether one is left. -/
def State.sepChangeDone (s : State) (set : Nat) : State :=
  { s with setChanges := s.setChanges.filter (· ≠ set) }.fput .sepStatus SEP_STATUS_BUSY (b2n (!(s.setChanges.filter (· ≠ set)).isEmpty))

theorem exec_sepChangeComplete_of_mem (h : set ∈ s.setChanges) :
    exec (.sepChangeComplete set) s = .next (s.sepChangeDone set).releaseHeld.rouse :=
  if_pos (List.contains_iff_mem.mpr h)

theorem b2n_lt_two (b : Bool) : b2n b < 2 := by cases b <;> decide

theorem State.busy_sepChangeDone :
    (s.sepChangeDone set).fget .sepStatus SEP_STATUS_BUSY = b2n (!(s.setChanges.filter (· ≠ set)).isEmpty) := by
  rw [State.sepChangeDone, State.fget_fput_same _ _ _ _ (by decide)]
  exact Nat.mod_eq_of_lt (b2n_lt_two _)

theorem State.get_sepChangeDone_ne (h : r ≠ .sepStatus) : (s.sepChangeDone set).get r = s.get r := State.get_fput_ne _ _ _ h

end Sys2Proof.Machine

namespace Sys2Proof.Proofs

open Sys2Proof Sys2Proof.Machine

/-- What an admitted write of a SEP register leaves, by the bits that it would change and those that active homerooms hold (R209). -/
theorem sepWrite_changes_unlocked (s : State) {r : Reg} (i : Nat) (w : RegWrite) (h : r ≠ .sepStatus) :
    (s.sepWrite r i w).get r = s.get r ^^^ s.sepTook r i w ∧
      (s.sepRefused r i w ≠ 0#64 → (s.sepWrite r i w).fget .sepStatus SEP_STATUS_REFUSED = 1 ∧
        (s.sepTook r i w = 0#64 → s.sepWrite r i w = { s with regs := (s.sepWrite r i w).regs } ∧
          s.regsBut (s.sepWrite r i w) (· = .sepStatus))) ∧
      (s.sepTook r i w ≠ 0#64 → (s.sepWrite r i w).fget .sepStatus SEP_STATUS_BUSY = 1) ∧
      (s.sepWant r w = 0#64 → s.sepWrite r i w = s) := by
  refine ⟨State.get_sepWrite h, fun hr => ⟨State.refused_sepWrite h hr, fun ht => ?_⟩, State.busy_sepWrite, State.sepWrite_of_want_eq_zero⟩
  rw [State.sepWrite_of_all_refused hr ht]
  exact ⟨rfl, fun q hq => State.get_fput_ne _ _ _ hq⟩

/-- Settles O30: a write of either SEP register by `sepWrite_changes_unlocked`, the completion of a change by `State.sepChangeDone`. -/
theorem separatorChangesSets : Obligations.SeparatorChangesSets := by
  intro s k set w narrow _ r i want
  refine ⟨fun ha => ⟨s.sepWrite r k w, ?_, ?_⟩, fun hm => ⟨s.sepChangeDone set, exec_sepChangeComplete_of_mem hm, rfl,
    fun q hq => State.get_sepChangeDone_ne hq, State.busy_sepChangeDone⟩⟩
  · cases narrow with
    | false => exact exec_sepScopeWrite_of_admits ha
    | true => exact exec_sepNarrowWrite_of_admits ha
  · exact sepWrite_changes_unlocked s k w (by cases narrow <;> nofun)

end Sys2Proof.Proofs
end

section
/-! PROOFS. Stray accesses: register writes that are blocked or out of reach, and requests that no BAR claims (R454, R525, R728, R731). -/

namespace Sys2Proof.Machine

open Sys2Proof

variable {s : State} {m : Master} {off o size v f bar : Nat} {env : WriteEnv} {r : Reg} {act : State → State}

/-! ### Saturating fields -/

/-- A sum that saturates fits its field. -/
theorem satAdd_lt (width a b : Nat) : satAdd width a b < 2 ^ width :=
  (Nat.min_le_right _ _).trans_lt (Nat.sub_one_lt (Nat.two_pow_pos width).ne')

/-- A field that is added to reads the saturated sum. -/
theorem State.fget_fadd_same (s : State) (r : Reg) (f : Fld) (n : Nat) (h : f.lo + f.width ≤ 64) :
    (s.fadd r f n).fget r f = satAdd f.width (s.fget r f) n := by
  rw [State.fadd, State.fget_fput_same _ _ _ _ h, Nat.mod_eq_of_lt (satAdd_lt ..)]

/-! ### HOST_BLOCK -/

/-- HOST_BLOCK does not stop the office (R525). -/
theorem State.hostBlocked_office (s : State) (b : Block) : s.hostBlocked .office b = false := rfl

/-- The bits of the OFFICE, SEC and FUSE blocks are ignored (R525). -/
theorem State.hostBlocked_of_mem_exempt {b : Block} (h : b ∈ [Block.office, .sec, .fuse]) : s.hostBlocked m b = false := by
  simp only [List.mem_cons, List.not_mem_nil, or_false] at h
  rcases h with rfl | rfl | rfl <;> simp [State.hostBlocked]

/-! ### Writes that are not performed -/

/-- A blocked write is counted, and nothing else is done. -/
theorem State.guarded_of_hostBlocked (hp : s.pathUp m = true) (hb : s.hostBlocked m r.home.1 = true) :
    s.guarded m r act = s.fadd .officeCtl OFFICE_CTL_BLOCKED 1 := by
  simp [State.guarded, hp, hb]

/-- A write that is not blocked, of a register out of reach, does nothing. -/
theorem State.guarded_of_not_reached (hb : s.hostBlocked m r.home.1 = false)
    (hr : (s.masterReaches m r && s.reachable r.home.1 r.home.2) = false) : s.guarded m r act = s := by
  simp [State.guarded, hb, hr]

/-- Where a register stands, a write is guarded, whatever it does there. -/
theorem State.exists_regWriteAt_eq_guarded (hr : s.regFor m o = some r) :
    ∃ act, s.regWriteAt m o size v env = s.guarded m r act := by
  rw [State.regWriteAt, hr]
  exact ⟨_, rfl⟩

/-- A blocked register write is counted in BLOCKED. -/
theorem exec_registerWrite_of_hostBlocked (ho : barOffset m off = some o) (ht : accessTaken o size = true)
    (hr : s.regFor m o = some r) (hp : s.pathUp m = true) (hb : s.hostBlocked m r.home.1 = true) :
    exec (.registerWrite m off size (.write v) env) s = .next (s.fadd .officeCtl OFFICE_CTL_BLOCKED 1) := by
  obtain ⟨act, hact⟩ := State.exists_regWriteAt_eq_guarded (size := size) (v := v) (env := env) hr
  rw [exec_registerWrite_write ho, if_pos ht, hact, State.guarded_of_hostBlocked hp hb]

/-- A register write that is not blocked but out of reach is dropped. -/
theorem exec_registerWrite_of_not_reached (ho : barOffset m off = some o) (ht : accessTaken o size = true)
    (hr : s.regFor m o = some r) (hb : s.hostBlocked m r.home.1 = false)
    (hn : (s.masterReaches m r && s.reachable r.home.1 r.home.2) = false) :
    exec (.registerWrite m off size (.write v) env) s = .next s := by
  obtain ⟨act, hact⟩ := State.exists_regWriteAt_eq_guarded (size := size) (v := v) (env := env) hr
  rw [exec_registerWrite_write ho, if_pos ht, hact, State.guarded_of_not_reached hb hn]

/-! ### UNCLAIMED_REQUEST -/

/-- The size of a BAR of a function, 0 where it has none (R452). -/
def State.barSize (s : State) (f bar : Nat) : Nat :=
  match bar with
  | 0 => if f = 0 then 2 ^ 26 else 2 ^ 16
  | 2 => 2 ^ 18
  | 4 => smGet (2 ^ 36) s.bar4Size f
  | _ => 0

/-- What UNCLAIMED_REQUEST does turns on the size of the BAR alone. -/
theorem exec_unclaimedRequest (f bar off : Nat) (write : Bool) (s : State) :
    exec (.unclaimedRequest f bar off write) s = .next (if off < s.barSize f bar then s else s.unclaimed f) := rfl

/-- A request within a BAR is claimed there. -/
theorem exec_unclaimedRequest_of_lt {write : Bool} (h : off < s.barSize f bar) :
    exec (.unclaimedRequest f bar off write) s = .next s := by
  rw [exec_unclaimedRequest, if_pos h]

/-- A request beyond a BAR is an Unsupported Request, on a host link that is up. -/
theorem exec_unclaimedRequest_of_le {write : Bool} (hl : s.hostLink = true) (h : s.barSize f bar ≤ off) :
    exec (.unclaimedRequest f bar off write) s = .next (s.emit (.unsupportedRequest f)) := by
  rw [exec_unclaimedRequest, if_neg h.not_gt, State.unclaimed, if_pos hl]

end Sys2Proof.Machine

namespace Sys2Proof.Proofs

open Sys2Proof Sys2Proof.Machine

/-- What counting a blocked write changes: `OFFICE_CTL.BLOCKED`, which saturates, and nothing else. -/
theorem countBlocked_changes {s t : State} (ht : t = s.fadd .officeCtl OFFICE_CTL_BLOCKED 1) :
    t = { s with regs := t.regs } ∧ s.regsBut t (· = .officeCtl) ∧
      t.fget .officeCtl OFFICE_CTL_BLOCKED = min (s.fget .officeCtl OFFICE_CTL_BLOCKED + 1) (2 ^ OFFICE_CTL_BLOCKED.width - 1) ∧
      t.fget .officeCtl OFFICE_CTL_HOST_BLOCK = s.fget .officeCtl OFFICE_CTL_HOST_BLOCK := by
  subst ht
  exact ⟨rfl, fun q hq => State.get_fadd_ne s _ _ hq, State.fget_fadd_same s _ _ _ (by decide),
    State.fget_fput_field s _ _ _ _ (by decide) (by decide)⟩

/-- Settles O8: a blocked write by `countBlocked_changes`, the other accesses of a register and the requests beyond a BAR each by its
lemma. -/
theorem strayAccessesAreDropped : Obligations.StrayAccessesAreDropped := by
  refine ⟨fun s m off o size v env r ho ht hr hp => ⟨fun hb => ?_, exec_registerWrite_of_not_reached ho ht hr,
    exec_registerWrite_read_of_taken ho hp ht, ?_⟩, fun s f bar off write => ?_⟩
  · exact ⟨_, exec_registerWrite_of_hostBlocked ho ht hr hp hb, countBlocked_changes rfl⟩
  · rintro (hx | rfl)
    · exact State.hostBlocked_of_mem_exempt hx
    · exact State.hostBlocked_office s _
  · exact ⟨exec_unclaimedRequest_of_le (bar := bar), exec_unclaimedRequest_of_lt (bar := bar)⟩

end Sys2Proof.Proofs
end

section
/-! PROOFS. Sensor samples: how a sensor is judged, and what a sample that finds no shutdown leaves (R545 to R555). -/

namespace Sys2Proof.Machine

open Sys2Proof

variable {s : State} {k : Nat} {m : Int}

/-! ### Judging a sensor (R547) -/

/-- The reference that the neighbours of a sensor give: the median of those that are present and not suspect. -/
def State.nearMedian (s : State) (k : Nat) : Option Int :=
  median (((sensorNeighbours k).filter fun j => sensorPresent s.variant j && !s.suspect j).map s.temp)

/-- A sample that is near its neighbours' median is not in doubt, whatever the nowcast says. -/
theorem State.doubtful_eq_false_of_near (hm : s.nearMedian k = some m) (h : farApart (s.temp k) m = false) : s.doubtful k = false := by
  rw [State.nearMedian] at hm
  simp [State.doubtful, hm, h]

/-- A sample that is far from its neighbours' median and from the nowcast is in doubt. -/
theorem State.doubtful_of_far (hm : s.nearMedian k = some m) (h : farApart (s.temp k) m = true) (hu : s.thermal.update ≠ 0)
    (hn : farApart (s.temp k) (Config.nowcast s.thermal.update (2 ^ 20 + k)) = true) : s.doubtful k = true := by
  rw [State.nearMedian] at hm
  rw [State.doubtful, State.sensorNowcast, if_neg hu, hm, Bool.and_eq_true]
  exact ⟨hn, h⟩

/-- The number of a sensor's doubtful samples in a row becomes n. -/
def State.putRun (s : State) (k n : Nat) : State := { s with thermal := { s.thermal with runs := smPut s.thermal.runs k n } }

/-- A sensor is not in doubt: its run of doubtful samples is unlisted. -/
def State.endRun (s : State) (k : Nat) : State := { s with thermal := { s.thermal with runs := smDel s.thermal.runs k } }

/-- A sensor becomes suspect, which is counted and raises a thermal event. -/
def State.markSuspect (s : State) (k : Nat) : State :=
  (((s.fput (.thmSensor k) THM_SENSOR_SUSPECT 1).fput .thmStatus THM_STATUS_SUSPECT 1).fadd .thmStatus THM_STATUS_SUSPECTS 1).thermalEvent

theorem State.judge_of_suspect (h : s.suspect k = true) : s.judge k = s := if_pos h

theorem State.judge_of_not_doubtful (hs : s.suspect k = false) (hd : s.doubtful k = false) : s.judge k = s.endRun k := by
  simp [State.judge, State.endRun, hs, hd]

theorem State.judge_of_doubtful (hs : s.suspect k = false) (hd : s.doubtful k = true) :
    s.judge k = if smGet 0 s.thermal.runs k + 1 < 3 then s.putRun k (smGet 0 s.thermal.runs k + 1)
      else (s.putRun k (smGet 0 s.thermal.runs k + 1)).markSuspect k := by
  simp [State.judge, State.putRun, State.markSuspect, hs, hd]

/-! ### What keeps the power state -/

/-- Operations that each keep the power state keep it when they are done one after another. -/
theorem State.power_foldl {α : Type} {g : State → α → State} (hg : ∀ t a, (g t a).power = t.power) (l : List α) (s : State) :
    (l.foldl g s).power = s.power := by
  induction l generalizing s with
  | nil => rfl
  | cons a l ih => rw [List.foldl_cons, ih, hg]

/-- A choice between two states of one power state has it. -/
theorem State.power_ite {p : PowerState} {c : Prop} [Decidable c] {t u : State} (ht : t.power = p) (hu : u.power = p) :
    (if c then t else u).power = p := by
  by_cases h : c
  · rwa [if_pos h]
  · rwa [if_neg h]

theorem State.power_raise (s : State) (b : Block) (inst off : Nat) (r : Reg) : (s.raise b inst off r).power = s.power :=
  (congrArg State.power (s.raise_frame b inst off r).1).trans rfl

theorem State.power_thermalEvent (s : State) : s.thermalEvent.power = s.power :=
  State.power_ite (s.power_raise ..) rfl

theorem State.power_markSuspect (s : State) (k : Nat) : (s.markSuspect k).power = s.power := by
  rw [State.markSuspect, State.power_thermalEvent, State.power_fadd, State.power_fput, State.power_fput]

theorem State.power_judge (s : State) (k : Nat) : (s.judge k).power = s.power := by
  cases hs : s.suspect k with
  | true => rw [State.judge_of_suspect hs]
  | false =>
    cases hd : s.doubtful k with
    | false => rw [State.judge_of_not_doubtful hs hd, State.endRun]
    | true =>
      rw [State.judge_of_doubtful hs hd]
      split
      · rfl
      · rw [State.power_markSuspect, State.putRun]

theorem State.power_sampleHot (s : State) (h : Nat) : (s.sampleHot h).power = s.power := by
  have hwarn : ∀ (t : State) (c : Prop) [Decidable c] (f : Fld),
      (if c then (t.fput .thmStatus f 1).thermalEvent else t).power = t.power :=
    fun t _ _ f => State.power_ite (State.power_thermalEvent _) rfl
  rw [State.sampleHot]
  exact (hwarn _ _ _).trans (hwarn _ _ _)

theorem State.power_layerFallback (s : State) (c l : Nat) (own : Option Int) : (s.layerFallback c l own).power = s.power := by
  unfold State.layerFallback
  cases own <;> exact State.power_ite rfl rfl

theorem State.power_sampleLayer (s : State) (c l : Nat) (read : Bool) : (s.sampleLayer c l read).power = s.power := by
  unfold State.sampleLayer
  cases s.layerEstimate c l with
  | none => exact s.power_layerFallback ..
  | some e => exact State.power_ite (State.power_raise ..) rfl

/-! ### A sample (R545 to R555) -/

/-- The readings of a sample that are taken: those of sensors that are present on dies that are up. -/
def State.taken (s : State) (readings : List (Nat × Int)) : List (Nat × Int) :=
  readings.filter fun r => sensorPresent s.variant r.1 && s.dieUp (sensorDie r.1)

/-- The readings stand in their registers. -/
def State.showReadings (s : State) (rs : List (Nat × Int)) : State :=
  rs.foldl (fun s r => s.fput (.thmSensor r.1) THM_SENSOR_TEMP (ofSigned 16 r.2)) s

/-- The readings are shown and their sensors judged, one after another. -/
def State.judged (s : State) (rs : List (Nat × Int)) : State := (rs.map Prod.fst).foldl State.judge (s.showReadings rs)

/-- The hot spots that a sample reads count their recess-7 holds (R553). -/
def State.countHolds (s : State) (keys : List Nat) : State := { s with thermal := s.thermal.hold (sampledHot s.variant keys) }

theorem State.power_showReadings (s : State) (rs : List (Nat × Int)) : (s.showReadings rs).power = s.power :=
  State.power_foldl (fun _ _ => State.power_fput ..) ..

theorem State.power_judged (s : State) (rs : List (Nat × Int)) : (s.judged rs).power = s.power :=
  (State.power_foldl State.power_judge ..).trans (s.power_showReadings rs)

/-- The slice controllers' part of a sample of sensors: each layer over each core that a key names. -/
def State.sampleLayers (s : State) (keys : List Nat) : State :=
  ((sampledCores keys).filter fun c => s.dieUp (coreStack c)).foldl
    (fun s c => (List.range 4).foldl (fun s l => s.sampleLayer c l (keys.contains (layerSensor c l))) s) s

theorem State.power_sampleLayers (s : State) (keys : List Nat) : (s.sampleLayers keys).power = s.power :=
  State.power_foldl (fun t _ => State.power_foldl (fun _ _ => State.power_sampleLayer ..) _ t) _ s

/-- A sample that finds no shutdown at its hot spots samples them, then the layers (R549 to R555). -/
theorem State.sampleSensors_of_no_shutdown {readings rs : List (Nat × Int)} (hrs : s.taken readings = rs)
    (h : ∀ x ∈ sampledHot (s.judged rs).variant (rs.map Prod.fst), ((s.judged rs).countHolds (rs.map Prod.fst)).shutdownFound x = none) :
    s.sampleSensors readings = if !s.power.mainOn ∨ rs.isEmpty then s
      else ((sampledHot (s.judged rs).variant (rs.map Prod.fst)).foldl State.sampleHot
        ((s.judged rs).countHolds (rs.map Prod.fst))).sampleLayers (rs.map Prod.fst) := by
  subst hrs
  have hnone : (sampledHot (s.judged (s.taken readings)).variant ((s.taken readings).map Prod.fst)).findSome?
      (fun x => (((s.judged (s.taken readings)).countHolds ((s.taken readings).map Prod.fst)).shutdownFound x).map fun y => (x, y)) = none :=
    List.findSome?_eq_none_iff.mpr fun x hx => by rw [h x hx]; rfl
  refine if_congr Iff.rfl rfl ?_
  dsimp only
  split
  next heq => exact absurd (hnone.symm.trans heq) nofun
  next => rfl

/-- A sample that finds no shutdown at its hot spots keeps the power state. -/
theorem State.power_sampleSensors_of_no_shutdown {readings rs : List (Nat × Int)} (hrs : s.taken readings = rs)
    (h : ∀ x ∈ sampledHot (s.judged rs).variant (rs.map Prod.fst), ((s.judged rs).countHolds (rs.map Prod.fst)).shutdownFound x = none) :
    (s.sampleSensors readings).power = s.power := by
  rw [State.sampleSensors_of_no_shutdown hrs h]
  refine State.power_ite rfl ?_
  rw [State.power_sampleLayers, State.power_foldl State.power_sampleHot]
  exact s.power_judged rs

theorem exec_sensorSample (readings : List (Nat × Int)) (s : State) :
    exec (.sensorSample readings) s = .next (s.sampleSensors readings) := rfl

end Sys2Proof.Machine

namespace Sys2Proof.Proofs

open Sys2Proof Sys2Proof.Machine

/-! ### Two sensors past the limit whose runs are listed out of order -/

/-- The runs of a core pair's sensors stand out of order: that of the lower sensor, in doubt twice, is not found behind that of the upper.
One more neighbour of the upper sensor reads u. -/
def unorderedRuns (u : Nat) : State :=
  { State.reset with thermal := { Thermal.init with update := 1, runs := [(256, 0), (0, 2)] } }.fput (.thmSensor 512) THM_SENSOR_TEMP u

/-- Both sensors of the core pair read u, and the upper is judged first. -/
def pairReadings (u : Nat) : List (Nat × Int) := [(256, u), (0, u)]

/-- The upper sensor is found not in doubt: its run is unlisted, and that of the lower sensor comes to light. -/
def upperJudged (u : Nat) : State := ((unorderedRuns u).showReadings (pairReadings u)).endRun 256

/-- The lower sensor is found in doubt for the third time. -/
def lowerJudged (u : Nat) : State := ((upperJudged u).putRun 0 3).markSuspect 0

/-- Whatever the model's nowcast, one of two readings past the limit is far from it. -/
theorem exists_farApart (n : Int) : ∃ u ∈ [1000, 2000], farApart (u : Nat) n = true := by
  by_cases h : n < 1500
  · exact ⟨2000, by decide, by simp [farApart]; omega⟩
  · exact ⟨1000, by decide, by simp [farApart]; omega⟩

/-- The state and the readings meet every condition of O54's clause on a shutdown. -/
theorem unorderedRuns_meets : ∀ u ∈ [1000, 2000],
    (unorderedRuns u).power.mainOn = true ∧ 0 ∈ hotSpots (unorderedRuns u).variant ∧ 256 ∈ hotSensors 0 ∧ 0 ∈ hotSensors 0 ∧
      (∀ k ∈ [256, 0], sensorPresent (unorderedRuns u).variant k = true ∧ (unorderedRuns u).dieUp (sensorDie k) = true ∧
        (unorderedRuns u).suspect k = false ∧ smGet 0 (unorderedRuns u).thermal.runs k < 2) ∧
      (hotLevels (hotClass 0)).2.2 ≤ (u : Int) ∧ ((u : Int) - u).natAbs ≤ 32 ∧ (u : Int) < 32768 := by
  decide +kernel

theorem taken_pairReadings : ∀ u ∈ [1000, 2000], (unorderedRuns u).taken (pairReadings u) = pairReadings u := by
  decide +kernel

/-- The upper sensor agrees with its neighbours' median. -/
theorem upper_agrees : ∀ u ∈ [1000, 2000],
    ((unorderedRuns u).showReadings (pairReadings u)).suspect 256 = false ∧
      ((unorderedRuns u).showReadings (pairReadings u)).nearMedian 256 = some (u : Int) ∧
      farApart (((unorderedRuns u).showReadings (pairReadings u)).temp 256) (u : Int) = false := by
  decide +kernel

/-- The lower sensor differs from its neighbours' median, and its run of two is found. -/
theorem lower_differs : ∀ u ∈ [1000, 2000],
    (upperJudged u).suspect 0 = false ∧ (upperJudged u).temp 0 = (u : Int) ∧
      (upperJudged u).nearMedian 0 = some ((u : Int) / 2) ∧ farApart (u : Int) ((u : Int) / 2) = true ∧
      (upperJudged u).thermal.update = 1 ∧ smGet 0 (upperJudged u).thermal.runs 0 = 2 := by
  decide +kernel

/-- With the lower sensor suspect no hot spot of the sample finds an agreement. -/
theorem lowerJudged_no_shutdown : ∀ u ∈ [1000, 2000], ∀ x ∈ sampledHot (lowerJudged u).variant ((pairReadings u).map Prod.fst),
    ((lowerJudged u).countHolds ((pairReadings u).map Prod.fst)).shutdownFound x = none := by
  decide +kernel

section

variable {u : Nat} (hu : u ∈ [1000, 2000])

include hu

theorem judge_upper : ((unorderedRuns u).showReadings (pairReadings u)).judge 256 = upperJudged u := by
  obtain ⟨hs, hm, hn⟩ := upper_agrees u hu
  exact State.judge_of_not_doubtful hs (State.doubtful_eq_false_of_near hm hn)

theorem judge_lower (hn : farApart u (Config.nowcast 1 (2 ^ 20)) = true) : (upperJudged u).judge 0 = lowerJudged u := by
  obtain ⟨hs, ht, hm, hf, hup, hr⟩ := lower_differs u hu
  have hd : (upperJudged u).doubtful 0 = true :=
    State.doubtful_of_far hm (by rwa [ht]) (by rw [hup]; decide) (by rw [hup, ht]; exact hn)
  rw [State.judge_of_doubtful hs hd, hr, if_neg (by decide)]
  rfl

/-- The sample leaves the main side on. -/
theorem mainOn_sampleSensors_unorderedRuns (hn : farApart u (Config.nowcast 1 (2 ^ 20)) = true) :
    ((unorderedRuns u).sampleSensors (pairReadings u)).power.mainOn = true := by
  have hj : (unorderedRuns u).judged (pairReadings u) = lowerJudged u :=
    (congrArg (State.judge · 0) (judge_upper hu)).trans (judge_lower hu hn)
  rw [State.power_sampleSensors_of_no_shutdown (taken_pairReadings u hu) (by rw [hj]; exact lowerJudged_no_shutdown u hu)]
  exact (unorderedRuns_meets u hu).1

end

/-- Refutes O54: the clause on a shutdown asks for runs below 2, but not that their list rises, as it does in every state that a run from
reset reaches. In `unorderedRuns` the run of the lower sensor is hidden behind an entry that the same sample unlists; with its run of 2 in
force the lower sensor becomes suspect (R547), the upper has no other sensor to agree with (R555), and the main side stays on. -/
theorem not_powerAndHeatAct : ¬ Obligations.PowerAndHeatAct := by
  unfold Obligations.PowerAndHeatAct
  intro hall
  obtain ⟨u, hu, hn⟩ := exists_farApart (Config.nowcast 1 (2 ^ 20))
  obtain ⟨hmain, hspot, hupper, hlower, hkeys, hlim, hnear, hfits⟩ := unorderedRuns_meets u hu
  obtain ⟨-, -, -, -, -, -, -, -, -, hshut, -⟩ := hall (unorderedRuns u) 0 256 0 0 0 u u ⟨.office, .full, 0⟩ [] [] []
  obtain ⟨t, cause, ht, hoff, -⟩ := hshut hmain hspot hupper hlower (by decide) hkeys hlim hlim hnear hfits hfits
  rw [exec_sensorSample] at ht
  cases ht
  exact Bool.false_ne_true (hoff.symm.trans (mainOn_sampleSensors_unorderedRuns hu hn))

end Sys2Proof.Proofs
end

section
/-! PROOFS. Fuses: every command keeps the fuses that are blown (R573), by what each meaning keeps. -/

namespace Sys2Proof.Machine

open Sys2Proof

/-- Every command keeps the queue, the assembly with its blown fuses, and the canonical form of the memories: arm by arm of `exec`. -/
theorem exec_keeps {s0 s : State} (c : Instr) (hs : Keeps s0 s) : KeepsOutcome s0 (exec c s) :=
  match c with
  | .registerWrite m off size acc env => execRegisterWrite_keeps m off size acc env hs
  | .unclaimedRequest f bar off write => execUnclaimedRequest_keeps f bar off write hs
  | .lessonLaunch c l => execLessonLaunch_keeps c l hs
  | .preloadComplete c => execPreloadComplete_keeps c hs
  | .stepIssue c => execStepIssue_keeps c hs
  | .stepStart c e => execStepStart_keeps c e hs
  | .stepComplete c e order => execStepComplete_keeps c e order hs
  | .lessonComplete c => execLessonComplete_keeps c hs
  | .nopStep c post => execNopStep_keeps c post hs
  | .endStep c => execEndStep_keeps c hs
  | .syncWaitLocal c post => execSyncWaitLocal_keeps c post hs
  | .syncSignalLocal c post => execSyncSignalLocal_keeps c post hs
  | .syncSignalRemote c post => execSyncSignalRemote_keeps c post hs
  | .syncWaitRemote c post => execSyncWaitRemote_keeps c post hs
  | .syncPoll c post => execSyncPoll_keeps c post hs
  | .syncTimeout c post => execSyncTimeout_keeps c post hs
  | .waitLimitExpiry c who => execWaitLimitExpiry_keeps c who hs
  | .fenceStep c post => execFenceStep_keeps c post hs
  | .loadSlate c arrayB => execLoadSlate_keeps c arrayB hs
  | .slateLoadComplete c arrayB => execSlateLoadComplete_keeps c arrayB hs
  | .stream c e ready => execStream_keeps c e ready hs
  | .gather c arrayB ready late held => execGather_keeps c arrayB ready late held hs
  | .freezeRelease c arrayB => execFreezeRelease_keeps c arrayB hs
  | .gatherRowData c arrayB row => execGatherRowData_keeps c arrayB row hs
  | .arrayHung c arrayB => execArrayHung_keeps c arrayB hs
  | .skim c => execSkim_keeps c hs
  | .convert c => execConvert_keeps c hs
  | .loadStep c => execLoadStep_keeps c hs
  | .storeStep c => execStoreStep_keeps c hs
  | .moveStep c => execMoveStep_keeps c hs
  | .reduce c => execReduce_keeps c hs
  | .handoff c => execHandoff_keeps c hs
  | .tutorInstruction c => execTutorInstruction_keeps c hs
  | .tpost c => execTpost_keeps c hs
  | .twait c => execTwait_keeps c hs
  | .tevt c => execTevt_keeps c hs
  | .tsig c => execTsig_keeps c hs
  | .tdone c => execTdone_keeps c hs
  | .rateWindow c => execRateWindow_keeps c hs
  | .coreFence c cause => execCoreFence_keeps c cause hs
  | .coreFenceRequest c w => execCoreFenceRequest_keeps c w hs
  | .unfence c w => execUnfence_keeps c w hs
  | .fenceComplete c => execFenceComplete_keeps c hs
  | .lateReply c => execLateReply_keeps c hs
  | .warmRecoveryComplete c found => execWarmRecoveryComplete_keeps c found hs
  | .seedWrite c gen w => execSeedWrite_keeps c gen w hs
  | .seedLoad c gen => execSeedLoad_keeps c gen hs
  | .arrStatClear c arrayB w => execArrStatClear_keeps c arrayB w hs
  | .sliceRequest c grain src acc => execSliceRequest_keeps c grain src acc hs
  | .sliceRefresh c bank busy => execSliceRefresh_keeps c bank busy hs
  | .channelPowerDown c channel => execChannelPowerDown_keeps c channel hs
  | .sliceFillComplete c => execSliceFillComplete_keeps c hs
  | .sliceClear c => execSliceClear_keeps c hs
  | .layerOffsetWrite c w => execLayerOffsetWrite_keeps c w hs
  | .scRead rq hr pa len tagged => execScRead_keeps rq hr pa len tagged hs
  | .scWrite rq hr pa bytes => execScWrite_keeps rq hr pa bytes hs
  | .scAtomic rq hr pa op width v expected => execScAtomic_keeps rq hr pa op width v expected hs
  | .scFillComplete grain transient => execScFillComplete_keeps grain transient hs
  | .granuleReread grain transient => execGranuleReread_keeps grain transient hs
  | .farGrant f id => execFarGrant_keeps f id hs
  | .farWindowClose f => execFarWindowClose_keeps f hs
  | .farRefresh f bank postpone => execFarRefresh_keeps f bank postpone hs
  | .farTempReadout f temp => execFarTempReadout_keeps f temp hs
  | .farStackLoss f => execFarStackLoss_keeps f hs
  | .sepScopeWrite k w => execSepScopeWrite_keeps k w hs
  | .sepNarrowWrite k w => execSepNarrowWrite_keeps k w hs
  | .sepChangeComplete set => execSepChangeComplete_keeps set hs
  | .farModeWrite f w => execFarModeWrite_keeps f w hs
  | .scPurge slice w => execScPurge_keeps slice w hs
  | .scPurgeComplete slice => execScPurgeComplete_keeps slice hs
  | .scStatClear slice w => execScStatClear_keeps slice w hs
  | .ladleCopy port words issuer => execLadleCopy_keeps port words issuer hs
  | .ladleFill port words issuer => execLadleFill_keeps port words issuer hs
  | .ladleNot port words issuer => execLadleNot_keeps port words issuer hs
  | .ladleAnd port words issuer => execLadleAnd_keeps port words issuer hs
  | .ladleOr port words issuer => execLadleOr_keeps port words issuer hs
  | .ladleXor port words issuer => execLadleXor_keeps port words issuer hs
  | .ladleClearSet port words issuer => execLadleClearSet_keeps port words issuer hs
  | .ladleSequenceStart port => execLadleSequenceStart_keeps port hs
  | .ladleFlushComplete port pc => execLadleFlushComplete_keeps port pc hs
  | .rowStep port pc => execRowStep_keeps port pc hs
  | .ldlDrainWrite port w => execLdlDrainWrite_keeps port w hs
  | .ldlStatClear port w => execLdlStatClear_keeps port w hs
  | .treeOpen d cmd => execTreeOpen_keeps d cmd hs
  | .treeClose d cmd => execTreeClose_keeps d cmd hs
  | .evict d cmd => execEvict_keeps d cmd hs
  | .seqOpen d cmd => execSeqOpen_keeps d cmd hs
  | .seqClose d cmd => execSeqClose_keeps d cmd hs
  | .matchBlocks d cmd => execMatchBlocks_keeps d cmd hs
  | .append d cmd => execAppend_keeps d cmd hs
  | .resolve d cmd => execResolve_keeps d cmd hs
  | .publish d cmd => execPublish_keeps d cmd hs
  | .fork d cmd => execFork_keeps d cmd hs
  | .truncate d cmd => execTruncate_keeps d cmd hs
  | .markLost d cmd => execMarkLost_keeps d cmd hs
  | .shadowSync d cmd => execShadowSync_keeps d cmd hs
  | .adopt d cmd => execAdopt_keeps d cmd hs
  | .churnOpen d cmd => execChurnOpen_keeps d cmd hs
  | .churnRun d cmd => execChurnRun_keeps d cmd hs
  | .churnClose d cmd => execChurnClose_keeps d cmd hs
  | .yokePush d tree yoke => execYokePush_keeps d tree yoke hs
  | .pailListFetch d c arrayB seq tree first count => execPailListFetch_keeps d c arrayB seq tree first count hs
  | .hello d msg => execHello_keeps d msg hs
  | .helloResend d ring => execHelloResend_keeps d ring hs
  | .churnCredit d msg => execChurnCredit_keeps d msg hs
  | .churnData d msg => execChurnData_keeps d msg hs
  | .rider d msg => execRider_keeps d msg hs
  | .dataAck d msg => execDataAck_keeps d msg hs
  | .closeMessage d msg => execCloseMessage_keeps d msg hs
  | .releasePoll d ring => execReleasePoll_keeps d ring hs
  | .shadowData d msg => execShadowData_keeps d msg hs
  | .shadowAck d msg => execShadowAck_keeps d msg hs
  | .shadowNode d msg => execShadowNode_keeps d msg hs
  | .pailDrainWrite d w => execPailDrainWrite_keeps d w hs
  | .pailStatClear d w => execPailStatClear_keeps d w hs
  | .routerPacket d node out inject => execRouterPacket_keeps d node out inject hs
  | .ringStopPacket d stop lane clockwise busy inject => execRingStopPacket_keeps d stop lane clockwise busy inject hs
  | .heartbeat d node missed => execHeartbeat_keeps d node missed hs
  | .arbGrant d sel arrivals => execArbGrant_keeps d sel arrivals hs
  | .arbFreeze d sel w => execArbFreeze_keeps d sel w hs
  | .arbDrainComplete d sel => execArbDrainComplete_keeps d sel hs
  | .arbStatClear d sel w => execArbStatClear_keeps d sel w hs
  | .meshStatClear d w => execMeshStatClear_keeps d w hs
  | .signalRaise d sel => execSignalRaise_keeps d sel hs
  | .signalRoundTrip d sel => execSignalRoundTrip_keeps d sel hs
  | .samplePresent d sel value attempts => execSamplePresent_keeps d sel value attempts hs
  | .sampleFallback d sel => execSampleFallback_keeps d sel hs
  | .queueWrite d sel value => execQueueWrite_keeps d sel value hs
  | .crossingStall d sel => execCrossingStall_keeps d sel hs
  | .xingForce d w => execXingForce_keeps d w hs
  | .d2dPacketSend d dst cls lane srcStop hdr data side => execD2dPacketSend_keeps d dst cls lane srcStop hdr data side hs
  | .d2dFlitReceive d e m bytes => execD2dFlitReceive_keeps d e m bytes hs
  | .laneErrorWindow d e m => execLaneErrorWindow_keeps d e m hs
  | .d2dRepairComplete d e m trained => execD2dRepairComplete_keeps d e m trained hs
  | .d2dNak d e m seq => execD2dNak_keeps d e m seq hs
  | .d2dCredit d e m req rep => execD2dCredit_keeps d e m req rep hs
  | .d2dGoodbye d e cause => execD2dGoodbye_keeps d e cause hs
  | .d2dRoute d e m key newModule => execD2dRoute_keeps d e m key newModule hs
  | .d2dReplayTimeout d e m => execD2dReplayTimeout_keeps d e m hs
  | .d2dWatchdog d e m whole => execD2dWatchdog_keeps d e m whole hs
  | .dieLostDeclaration die => execDieLostDeclaration_keeps die hs
  | .deputyTakeover stack => execDeputyTakeover_keeps stack hs
  | .d2dStatClear d w => execD2dStatClear_keeps d w hs
  | .packetOriginate d pkt => execPacketOriginate_keeps d pkt hs
  | .linkFlitReceive d p flit => execLinkFlitReceive_keeps d p flit hs
  | .fecErrorWindow d p => execFecErrorWindow_keeps d p hs
  | .packetArrival d p pkt => execPacketArrival_keeps d p pkt hs
  | .put d pkt => execPut_keeps d pkt hs
  | .get d pkt => execGet_keeps d pkt hs
  | .add64 d pkt => execAdd64_keeps d pkt hs
  | .fabricPail d pkt => execFabricPail_keeps d pkt hs
  | .fabricAck d pkt => execFabricAck_keeps d pkt hs
  | .fabricData d pkt => execFabricData_keeps d pkt hs
  | .unreach d pkt => execUnreach_keeps d pkt hs
  | .linkNak d p seq => execLinkNak_keeps d p seq hs
  | .linkCredit d p credits => execLinkCredit_keeps d p credits hs
  | .creditR d p credits => execCreditR_keeps d p credits hs
  | .linkGoodbye d p cause => execLinkGoodbye_keeps d p cause hs
  | .linkReplayTimeout d p => execLinkReplayTimeout_keeps d p hs
  | .e2eTimeout d tag => execE2eTimeout_keeps d tag hs
  | .portWatchdog d p => execPortWatchdog_keeps d p hs
  | .portEnable d p w => execPortEnable_keeps d p w hs
  | .portDisable d p w => execPortDisable_keeps d p w hs
  | .retrain d p w => execRetrain_keeps d p w hs
  | .portTrainingComplete d p t => execPortTrainingComplete_keeps d p t hs
  | .routeDataWrite d dst w => execRouteDataWrite_keeps d dst w hs
  | .linkStatClear d w => execLinkStatClear_keeps d w hs
  | .linkPortStatClear d p w => execLinkPortStatClear_keeps d p w hs
  | .doorbell f off size value => execDoorbell_keeps f off size value hs
  | .descriptorArrival ring => execDescriptorArrival_keeps ring hs
  | .admissionVisit => execAdmissionVisit_keeps hs
  | .nopDescriptor ring seq => execNopDescriptor_keeps ring seq hs
  | .launchDescriptor ring seq => execLaunchDescriptor_keeps ring seq hs
  | .moveDescriptor ring seq => execMoveDescriptor_keeps ring seq hs
  | .ladleDescriptor ring seq => execLadleDescriptor_keeps ring seq hs
  | .pailDescriptor ring seq => execPailDescriptor_keeps ring seq hs
  | .fabricDescriptor ring seq => execFabricDescriptor_keeps ring seq hs
  | .scrub ring seq => execScrub_keeps ring seq hs
  | .fenceDescriptor ring seq => execFenceDescriptor_keeps ring seq hs
  | .waitDescriptor ring seq => execWaitDescriptor_keeps ring seq hs
  | .waitTimeout ring seq => execWaitTimeout_keeps ring seq hs
  | .unitCompletion ring seq elapsed => execUnitCompletion_keeps ring seq elapsed hs
  | .forecastMessage msg => execForecastMessage_keeps msg hs
  | .forecastStale => execForecastStale_keeps hs
  | .ringEnable ring w => execRingEnable_keeps ring w hs
  | .ringDisable ring w => execRingDisable_keeps ring w hs
  | .ringDrainComplete ring => execRingDrainComplete_keeps ring hs
  | .functionLevelReset f => execFunctionLevelReset_keeps f hs
  | .lockstepHalt => execLockstepHalt_keeps hs
  | .bar4Access f off acc => execBar4Access_keeps f off acc hs
  | .ringAdmitStatClear w => execRingAdmitStatClear_keeps w hs
  | .i3cAddressAssign addr => execI3cAddressAssign_keeps addr hs
  | .i3cAddressReset => execI3cAddressReset_keeps hs
  | .setEndpointId op eid => execSetEndpointId_keeps op eid hs
  | .getEndpointId => execGetEndpointId_keeps hs
  | .getEndpointUuid => execGetEndpointUuid_keeps hs
  | .getMctpVersionSupport ty => execGetMctpVersionSupport_keeps ty hs
  | .getMessageTypeSupport => execGetMessageTypeSupport_keeps hs
  | .getSensorReading sensor => execGetSensorReading_keeps sensor hs
  | .platformEventMessage ack => execPlatformEventMessage_keeps ack hs
  | .requestUpdate maxTransfer => execRequestUpdate_keeps maxTransfer hs
  | .requestFirmwareData off bytes => execRequestFirmwareData_keeps off bytes hs
  | .activateFirmware => execActivateFirmware_keeps hs
  | .getVersion rsp => execGetVersion_keeps rsp hs
  | .getCapabilities rsp version => execGetCapabilities_keeps rsp version hs
  | .negotiateAlgorithms rsp => execNegotiateAlgorithms_keeps rsp hs
  | .getDigests rsp => execGetDigests_keeps rsp hs
  | .getCertificate rsp off len => execGetCertificate_keeps rsp off len hs
  | .challenge rsp nonce => execChallenge_keeps rsp nonce hs
  | .getMeasurements rsp index sign nonce => execGetMeasurements_keeps rsp index sign nonce hs
  | .keyExchange rsp exchange => execKeyExchange_keeps rsp exchange hs
  | .finish rsp session authorised => execFinish_keeps rsp session authorised hs
  | .heartbeatMessage rsp session => execHeartbeatMessage_keeps rsp session hs
  | .keyUpdate rsp session => execKeyUpdate_keeps rsp session hs
  | .endSession rsp session => execEndSession_keeps rsp session hs
  | .getStatus h => execGetStatus_keeps h hs
  | .readReg h off => execReadReg_keeps h off hs
  | .writeReg h off value session env => execWriteReg_keeps h off value session env hs
  | .getEvents h n => execGetEvents_keeps h n hs
  | .setCoolant h inlet flow valid => execSetCoolant_keeps h inlet flow valid hs
  | .getShutdown h index => execGetShutdown_keeps h index hs
  | .setRingConf h ring conf session => execSetRingConf_keeps h ring conf session hs
  | .imageBufferTimeout => execImageBufferTimeout_keeps hs
  | .coolantAgeExpiry inlet flow => execCoolantAgeExpiry_keeps inlet flow hs
  | .vsetWrite domain w => execVsetWrite_keeps domain w hs
  | .regulatorFault domain => execRegulatorFault_keeps domain hs
  | .regulatorOvervoltage domain => execRegulatorOvervoltage_keeps domain hs
  | .powerSample pkg perStack domains => execPowerSample_keeps pkg perStack domains hs
  | .pwrLimitWrite w => execPwrLimitWrite_keeps w hs
  | .sensorSample readings => execSensorSample_keeps readings hs
  | .forecastUpdate => execForecastUpdate_keeps hs
  | .hrOpen hr w => execHrOpen_keeps hr w hs
  | .teardownWrite hr w => execTeardownWrite_keeps hr w hs
  | .teardownComplete hr => execTeardownComplete_keeps hr hs
  | .hrCoresWrite hr k w => execHrCoresWrite_keeps hr k w hs
  | .hrMapWrite hr k w => execHrMapWrite_keeps hr k w hs
  | .hrFuncsWrite hr w => execHrFuncsWrite_keeps hr w hs
  | .hrWindowWrite hr win map w => execHrWindowWrite_keeps hr win map w hs
  | .coreMoveClear c => execCoreMoveClear_keeps c hs
  | .hrQuery hr => execHrQuery_keeps hr hs
  | .keySet hr kind v key => execKeySet_keeps hr kind v key hs
  | .sealHomeroom hr digest => execSealHomeroom_keeps hr digest hs
  | .ringConf hr ring conf => execRingConf_keeps hr ring conf hs
  | .ringQuery hr ring => execRingQuery_keeps hr ring hs
  | .saltSet hr salt => execSaltSet_keeps hr salt hs
  | .saltExport hr => execSaltExport_keeps hr hs
  | .fabricSet hr protect entries => execFabricSet_keeps hr protect entries hs
  | .tenantTeardown hr => execTenantTeardown_keeps hr hs
  | .mailboxGo w resp => execMailboxGo_keeps w resp hs
  | .rngHealthFail => execRngHealthFail_keeps hs
  | .debugUnlock w authorised => execDebugUnlock_keeps w authorised hs
  | .mirrorWrite k w => execMirrorWrite_keeps k w hs
  | .mirrorClearComplete => execMirrorClearComplete_keeps hs
  | .flipArm w => execFlipArm_keeps w hs
  | .imageWindowWrite off bytes => execImageWindowWrite_keeps off bytes hs
  | .bootImage w => execBootImage_keeps w hs
  | .bootTrain w findings => execBootTrain_keeps w findings hs
  | .rollCall w findings => execRollCall_keeps w findings hs
  | .bootReady w => execBootReady_keeps w hs
  | .bootStepComplete => execBootStepComplete_keeps hs
  | .exportRecord w => execExportRecord_keeps w hs
  | .coldRestart w => execColdRestart_keeps w hs
  | .domainDown w => execDomainDown_keeps w hs
  | .domainUp w => execDomainUp_keeps w hs
  | .domainActionComplete d findings => execDomainActionComplete_keeps d findings hs
  | .vauxPowerOn straps => execVauxPowerOn_keeps straps hs
  | .vauxLoss => execVauxLoss_keeps hs
  | .mainRailFault rail die mv => execMainRailFault_keeps rail die mv hs
  | .vinCoreCycle => execVinCoreCycle_keeps hs
  | .perstDeassert sris => execPerstDeassert_keeps sris hs
  | .perstAssert => execPerstAssert_keeps hs
  | .refclkLoss clk => execRefclkLoss_keeps clk hs
  | .dramLayerLoss stack layer => execDramLayerLoss_keeps stack layer hs
  | .completionTimeout ring seq fetch => execCompletionTimeout_keeps ring seq fetch hs
  | .refreshManagementRequest f bank => execRefreshManagementRequest_keeps f bank hs
  | .imageTransferCancel host => execImageTransferCancel_keeps host hs

/-- A step leaves every blown fuse blown: taking a command off the queue touches no fuse, and the command keeps them. -/
theorem step_keeps_fuses {s t : State} (h : step s = .next t) (i : Nat) (hi : s.fuses.getLsbD i = true) : t.fuses.getLsbD i = true := by
  unfold step at h
  split at h
  · cases h
    exact hi
  · next c rest _ => exact ((exec_keeps c (Keeps.refl { s with pending := rest })).kept t h).fuses i hi

/-- A logical bit is blown when at least two of its four fuses are (R573). -/
theorem State.fuseBit_iff {s : State} {i : Nat} :
    s.fuseBit i = true ↔ 2 ≤ ((List.range 4).filter fun j => s.fuses.getLsbD (4 * i + j)).length :=
  decide_eq_true_iff

/-- More blown fuses never unblow a logical bit: the four fuses that count can only grow. -/
theorem State.fuseBit_mono {s t : State} (h : ∀ i, s.fuses.getLsbD i = true → t.fuses.getLsbD i = true) {i : Nat}
    (hi : s.fuseBit i = true) : t.fuseBit i = true :=
  fuseBit_iff.mpr ((fuseBit_iff.mp hi).trans (List.monotone_filter_right _ fun j => h (4 * i + j)).length_le)

end Sys2Proof.Machine

namespace Sys2Proof.Proofs

open Sys2Proof Sys2Proof.Machine

/-- Settles O5: the count by `State.fuseBit_iff`, and its growth along a step by `step_keeps_fuses`. -/
theorem blownFusesStayBlown : Obligations.BlownFusesStayBlown :=
  ⟨fun _ _ => State.fuseBit_iff, fun _ _ _ h => State.fuseBit_mono (step_keeps_fuses h)⟩

end Sys2Proof.Proofs
end

section
/-! PROOFS. Lines at their home slice: what a read and a write of a line that is cached whole and sound do (R213, R629 to R631). -/

namespace Sys2Proof.Machine

open Sys2Proof

variable {s : State} {rq : Requester} {hr pa a n off grain : Nat} {c : LineAt} {l : Line} {bs : List Byte}

/-! ### Ranges within one grain -/

/-- A range that does not leave its grain is one piece. -/
theorem pieces_of_within_grain (hn : 0 < n) (h : a % 256 + n ≤ 256) : pieces a n = [(a, n)] := by
  have hlen : (a + n + 255) / 256 - a / 256 = 1 := by omega
  have hlo : max a (a / 256 * 256) = a := by omega
  have hhi : min (a + n) ((a / 256 + 1) * 256) - a = n := by omega
  simp [pieces, hn.ne', hlen, hlo, hhi]

theorem lt_of_mem_granules {g : Nat} (h : off + n ≤ 256) (hg : g ∈ granules off n) : g < 16 := by
  unfold granules at hg
  split at hg
  · cases hg
  · obtain ⟨i, hi, rfl⟩ := List.mem_map.mp hg
    have := List.mem_range.mp hi
    omega

theorem lt_of_mem_sectorsFor {narrow : Bool} {k : Nat} (h : off + n ≤ 256) (hk : k ∈ sectorsFor narrow off n) : k < 8 := by
  unfold sectorsFor at hk
  split_ifs at hk
  · cases hk
  · obtain ⟨i, hi, rfl⟩ := List.mem_map.mp hk
    have := List.mem_range.mp hi
    omega
  · exact List.mem_range.mp hk

theorem length_spliceBytes {d : List Byte} (h : off + bs.length ≤ d.length) : (spliceBytes d off bs).length = d.length := by
  simp only [spliceBytes, List.length_append, List.length_take, List.length_drop]
  omega

/-- Bytes that are spliced in where they stood change nothing. -/
theorem spliceBytes_take_drop (d : List Byte) (h : off + n ≤ d.length) : spliceBytes d off ((d.drop off).take n) = d := by
  have hl : ((d.drop off).take n).length = n := by rw [List.length_take, List.length_drop]; omega
  rw [spliceBytes, hl, List.append_assoc, ← List.drop_drop, List.take_append_drop, List.take_append_drop]

/-! ### A line that is whole and sound -/

/-- All sectors of a line are valid and none of its granules fails (R211, R631). -/
structure Line.Whole (l : Line) : Prop where
  valid : l.valid % 2 ^ 8 = 0xFF
  length : l.data.length = 256
  chk : l.chk = List.replicate 16 0

theorem wordAt_replicate_zero (n i : Nat) : wordAt (List.replicate n 0) i = 0 := by
  rw [wordAt, List.getElem?_replicate]
  split <;> rfl

theorem Line.Whole.wordAt_chk (hw : l.Whole) (g : Nat) : wordAt l.chk g = 0 := by rw [hw.chk, wordAt_replicate_zero]

theorem Line.Whole.testBit_valid (hw : l.Whole) {k : Nat} (hk : k < 8) : l.valid.testBit k = true := by
  have hones : (2 ^ 8 - 1).testBit k = true := by rw [Nat.testBit_two_pow_sub_one, decide_eq_true hk]
  have h : (l.valid % 2 ^ 8).testBit k = true := hw.valid ▸ hones
  rw [Nat.testBit_mod_two_pow, Bool.and_eq_true] at h
  exact h.2

/-- No granule of a sound line is found failing. -/
theorem State.testLine_of_whole (hl : smFind s.lines c.grain = some l) (hw : l.Whole) (gs : List Nat) : s.testLine rq c gs = (s, true) := by
  have hnone : (gs.find? fun g => decide (wordAt l.chk g ≠ 0) && l.valid.testBit (g / 2)) = none :=
    List.find?_eq_none.mpr fun g _ => by simp [hw.wordAt_chk]
  simp only [State.testLine, hl, hnone]

theorem State.lineOf_of_find (hl : smFind s.lines c.grain = some l) : s.lineOf hr c = l := by rw [State.lineOf, hl, Option.getD_some]

/-- A whole line lacks no sector. -/
theorem State.missing_of_whole (hl : smFind s.lines c.grain = some l) (hw : l.Whole) {secs : List Nat} (hs : ∀ k ∈ secs, k < 8) :
    s.missing hr c secs = [] := by
  rw [State.missing, State.lineOf_of_find hl, List.filter_eq_nil_iff]
  intro k hk
  rw [hw.testBit_valid (hs k hk)]
  decide

/-- The line that a cached line becomes as it is placed: the most recently used, where it stood. -/
def State.asPlaced (s : State) (c : LineAt) (old l : Line) : Line := { l with age := s.lineAge + 1, way := old.way, slice := c.slice }

/-- A line that is cached is placed where it stands. -/
theorem State.placeLine_of_find {old : Line} (hl : smFind s.lines c.grain = some old) (l : Line) :
    s.placeLine c l = { s with lines := smPut s.lines c.grain (s.asPlaced c old l), lineAge := s.lineAge + 1 } := by
  rw [State.placeLine, hl]
  rfl

/-- A request to a whole line fills nothing. -/
theorem State.bringLine_of_whole (hl : smFind s.lines c.grain = some l) (hw : l.Whole) {secs : List Nat} (hs : ∀ k ∈ secs, k < 8)
    (transient : Nat) (keep : Bool) :
    s.bringLine rq hr c secs transient keep = (if keep then s.placeLine c l else s, .ok ⟨l, []⟩) := by
  simp [State.bringLine, State.missing_of_whole hl hw hs, State.lineOf_of_find hl]

/-! ### What an access leaves -/

/-- Only cached lines and the order of their use differ. -/
def State.linesChanged (s t : State) : Prop := t = { s with lines := t.lines, lineAge := t.lineAge }

theorem State.placeLine_linesChanged {old : Line} (hl : smFind s.lines c.grain = some old) (l : Line) : s.linesChanged (s.placeLine c l) := by
  rw [State.placeLine_of_find hl]
  rfl

theorem State.linesChanged.trans {t u : State} (h : s.linesChanged t) (h' : t.linesChanged u) : s.linesChanged u := by
  unfold State.linesChanged at *
  rw [h']
  rw [h]

theorem State.lineData_placeLine {old : Line} (hl : smFind s.lines c.grain = some old) (l : Line) :
    (s.placeLine c l).lineData c.grain = l.data := by
  rw [State.placeLine_of_find hl, State.lineData, smFind_smPut_same]
  rfl

/-! ### Reads -/

/-- A read of a sound line answers its bytes (R213). -/
theorem State.lineRead_of_whole (he : s.lineErr pa = none) (hl : smFind s.lines (s.lineAt pa).grain = some l) (hw : l.Whole)
    (h : pa % 256 + n ≤ 256) (keep : Bool) :
    s.lineRead rq hr pa n 0 keep = (if keep then s.placeLine (s.lineAt pa) l else s, .ok ((l.data.drop (pa % 256)).take n)) := by
  simp [State.lineRead, he, State.testLine_of_whole hl hw, State.bringLine_of_whole hl hw fun k => lt_of_mem_sectorsFor h, LineHit.read]

/-! ### Writes -/

theorem State.flip_of_disarmed (h : s.fget .relFlipSel REL_FLIP_SEL_ARM = 0) (mem unit addr : Nat) (data : List Byte) :
    s.flip mem unit hr addr data = (s, data, 0) := by
  simp [State.flip, State.flipHits, h]

/-- Bytes pass the flip mask unchanged where it is not armed (R641). -/
theorem State.storeLine_of_disarmed (h : s.fget .relFlipSel REL_FLIP_SEL_ARM = 0) (owner : Nat) (gs : List Nat) (hg : ∀ g ∈ gs, g < 16)
    (hd : l.data.length = 256) (hc : l.chk = List.replicate 16 0) : s.storeLine c owner l gs = (s, l) := by
  induction gs with
  | nil => rfl
  | cons g gs ih =>
    have hlt := hg g List.mem_cons_self
    have hdata : spliceBytes l.data (16 * g) ((l.data.drop (16 * g)).take 16) = l.data := spliceBytes_take_drop _ (by omega)
    have hchk : l.chk.set g 0 = l.chk := by rw [hc, List.set_replicate_self]
    rw [State.storeLine, State.flip_of_disarmed h]
    dsimp only
    rw [hdata, hchk]
    exact ih fun x hx => hg x (List.mem_cons_of_mem _ hx)

/-- A line after bytes are merged into it from a position (R213). -/
def Line.merged (l : Line) (c : LineAt) (off : Nat) (bs : List Byte) : Line :=
  { l with data := spliceBytes l.data off bs, dirty := l.dirty ||| maskOf (sectorsFor c.narrow off bs.length) }

/-- Bytes merged into a sound line that is cached are placed with it (R213). -/
theorem State.writeHit_of_sound {old : Line} (hl : smFind s.lines c.grain = some old) (ha : s.fget .relFlipSel REL_FLIP_SEL_ARM = 0)
    (hd : l.data.length = 256) (hc : l.chk = List.replicate 16 0) (h : off + bs.length ≤ 256) :
    ∃ t, s.writeHit c ⟨l, []⟩ off bs = (t, .ok ()) ∧ s.linesChanged t ∧ t.lineData c.grain = spliceBytes l.data off bs := by
  have hlen : (l.merged c off bs).data.length = 256 := (length_spliceBytes (hd ▸ h)).trans hd
  have hst : s.storeLine c ((s.setOwner c.set).getD 0) (l.merged c off bs) (granules off bs.length) = (s, l.merged c off bs) :=
    State.storeLine_of_disarmed ha _ _ (fun _ => lt_of_mem_granules h) hlen hc
  have hbad : ¬ ((partGranules off bs.length).any (([] : List Nat).contains ·) = true ∨
      ([] : List Nat).any (fun g => !(granules off bs.length).contains g) = true) := by simp
  refine ⟨s.placeLine c (l.merged c off bs), ?_, State.placeLine_linesChanged hl _, State.lineData_placeLine hl _⟩
  rw [State.writeHit, if_neg hbad]
  exact congrArg (fun x : State × Line => (x.1.placeLine c x.2, (.ok () : Res Unit))) hst

/-- A write to a sound line is merged into it (R213). -/
theorem State.lineWrite_of_whole (he : s.lineErr pa = none) (ha : s.fget .relFlipSel REL_FLIP_SEL_ARM = 0)
    (hl : smFind s.lines (s.lineAt pa).grain = some l) (hw : l.Whole) (h : pa % 256 + bs.length ≤ 256) :
    ∃ t, s.lineWrite rq hr pa bs = (t, .ok ()) ∧ s.linesChanged t ∧
      t.lineData (s.lineAt pa).grain = spliceBytes l.data (pa % 256) bs := by
  by_cases hn : bs.length = 256
  · have hwhole : s.wholeLine hr (s.lineAt pa) = (s, ⟨{ l with valid := 0xFF }, []⟩) := by
      simp [State.wholeLine, hl, State.lineOf_of_find hl]
    simp only [State.lineWrite, he, State.testLine_of_whole hl hw, if_pos hn, hwhole]
    exact State.writeHit_of_sound hl ha hw.length hw.chk h
  · have hu : smFind (s.placeLine (s.lineAt pa) l).lines (s.lineAt pa).grain = some (s.asPlaced (s.lineAt pa) l l) := by
      rw [State.placeLine_of_find hl, smFind_smPut_same]
    have hua : (s.placeLine (s.lineAt pa) l).fget .relFlipSel REL_FLIP_SEL_ARM = 0 := by
      rw [State.placeLine_of_find hl]
      exact ha
    obtain ⟨t, ht, hch, hdata⟩ := State.writeHit_of_sound hu hua hw.length hw.chk h
    refine ⟨t, ?_, (State.placeLine_linesChanged hl l).trans hch, hdata⟩
    simp only [State.lineWrite, he, State.testLine_of_whole hl hw, if_neg hn,
      State.bringLine_of_whole hl hw fun k => lt_of_mem_sectorsFor h, if_true]
    exact ht

/-! ### Accesses of a requester -/

theorem State.lineErr_of_lineSound (h : s.lineSound rq pa) : s.lineErr pa = none := by
  obtain ⟨-, -, hk, -⟩ := h
  have := hk (pa % 256) (Nat.mod_lt _ (by decide))
  rwa [Nat.div_add_mod'] at this

/-- The cached line of an address that is sound, and its bytes. -/
theorem State.exists_whole_of_lineSound (h : s.lineSound rq pa) :
    ∃ l, smFind s.lines (pa / 256) = some l ∧ l.Whole ∧ s.lineData (pa / 256) = l.data := by
  obtain ⟨-, -, -, -, -, l, hl, hv, hd, hc⟩ := h
  exact ⟨l, hl, ⟨hv, hd, hc⟩, by rw [State.lineData, hl]; rfl⟩

/-- A read of a part of a sound line through far memory alone answers its bytes. -/
theorem State.readAt_of_lineSound {x : Nat} (hx : spaceOf a = .far x) (ht : s.translate hr x = .ok pa) (hp : pa % 256 = a % 256)
    (hs : s.lineSound rq pa) (hn : 0 < n) (h : pa % 256 + n ≤ 256) :
    ∃ t, s.readAt rq hr none allowFar a n = (t, .ok (((s.lineData (pa / 256)).drop (pa % 256)).take n)) ∧ s.linesChanged t := by
  obtain ⟨l, hl, hw, hd⟩ := State.exists_whole_of_lineSound hs
  have hr := State.lineRead_of_whole (rq := rq) (hr := hr) (State.lineErr_of_lineSound hs) hl hw h (!s.noAllocate pa)
  refine ⟨if (!s.noAllocate pa) = true then s.placeLine (s.lineAt pa) l else s, ?_, ?_⟩
  · simp [State.readAt, pieces_of_within_grain hn (hp ▸ h), State.readParts, State.readPart, State.farReadPart, hx, ht, hs.2.1, allowFar, hr, hd]
  · split
    · exact State.placeLine_linesChanged (c := s.lineAt pa) hl _
    · rfl

/-- A write of a part of a sound line through far memory alone is merged into it; the requester's turn is over. -/
theorem State.writeAt_of_lineSound {x : Nat} (hx : spaceOf a = .far x) (ht : s.translate hr x = .ok pa) (hp : pa % 256 = a % 256)
    (hs : s.lineSound rq pa) (hn : 0 < bs.length) (h : pa % 256 + bs.length ≤ 256) :
    ∃ t, s.writeAt rq hr none allowFar a bs = (t, .ok ()) ∧ t = { s with lines := t.lines, lineAge := t.lineAge, turns := t.turns } ∧
      t.lineData (pa / 256) = spliceBytes (s.lineData (pa / 256)) (pa % 256) bs := by
  obtain ⟨l, hl, hw, hd⟩ := State.exists_whole_of_lineSound hs
  obtain ⟨hf, -, -, hturn, ha, -⟩ := id hs
  obtain ⟨t, hwr, hch, hdata⟩ := State.lineWrite_of_whole (rq := rq) (hr := hr) (State.lineErr_of_lineSound hs) ha hl hw h
  refine ⟨{ t with turns := t.turns.erase (rq, pa / 256) }, ?_, ?_, hd ▸ hdata⟩
  · simp [State.writeAt, pieces_of_within_grain hn (hp ▸ h), State.writeParts, State.writePart, State.farWritePart, State.farTurn, hx, ht, hf,
      allowFar, hturn, hwr]
  · rw [hch]

end Sys2Proof.Machine
end

section
/-! PROOFS. BAR4: which accesses are made, what each leaves, and what a failed one logs (R455, R456, R504, R600, R634, R731). -/

namespace Sys2Proof.Machine

open Sys2Proof

variable {s u : State} {f off a n hr cause : Nat} {acc : HostAccess} {bs : List Byte} {e : AccErr}

/-! ### Which accesses are made -/

/-- The bytes of far memory that a host access names. -/
def HostAccess.length : HostAccess → Nat
  | .read n => n
  | .write bs _ => bs.length

theorem exec_bar4Access (f off : Nat) (acc : HostAccess) (s : State) :
    exec (.bar4Access f off acc) s = .next (if !s.hostLink || decide (16 < f) then s
      else if s.bar4 f < off + acc.length then s.emit (.unsupportedRequest f) else s.hostServe ⟨f, off, acc⟩) := by
  rw [apply_ite (Host.Outcome.next (φ := Fault) (ρ := Refusal)), apply_ite (Host.Outcome.next (φ := Fault) (ρ := Refusal))]
  cases acc <;> rfl

/-- An access beyond the function's BAR4 is an Unsupported Request (R731). -/
theorem exec_bar4Access_of_beyond (hl : s.hostLink = true) (hf : f ≤ 16) (h : s.bar4 f < off + acc.length) :
    exec (.bar4Access f off acc) s = .next (s.emit (.unsupportedRequest f)) := by
  simp [exec_bar4Access, hl, hf, h]

/-- An access within the function's BAR4 is served. -/
theorem exec_bar4Access_of_within (hl : s.hostLink = true) (hf : f ≤ 16) (h : off + acc.length ≤ s.bar4 f) :
    exec (.bar4Access f off acc) s = .next (s.hostServe ⟨f, off, acc⟩) := by
  simp [exec_bar4Access, hl, hf.not_gt, h.not_gt]

/-- A function keeps what its access obtained only while one of its accesses waits. -/
def State.hostEnds (s : State) (f : Nat) : State := if s.hostWaits.any fun x => decide (x.f = f) then s else s.settle (.host f)

/-- An access waits behind another of its function. -/
theorem State.hostServe_of_waiting (h : (s.hostWaits.any fun x => decide (x.f = f)) = true) :
    s.hostServe ⟨f, off, acc⟩ = { s with hostWaits := s.hostWaits ++ [⟨f, off, acc⟩] } := if_pos h

theorem State.hostServe_of_free (h : (s.hostWaits.any fun x => decide (x.f = f)) = false) :
    s.hostServe ⟨f, off, acc⟩ = (s.hostDo ⟨f, off, acc⟩).hostEnds f := by
  rw [State.hostServe, if_neg (by simp [h])]
  rfl

/-! ### What an access does -/

/-- The device address of an offset in a function's BAR4 (R456). -/
def State.barAddr (s : State) (f off : Nat) : Nat := s.fget (.hostFunc f) HOST_FUNC_OFFSET * 2 ^ 30 + off

/-- The CAUSE of the first grain of a range that BAR4 may not reach (R455, R600). -/
def State.barFails (s : State) (f off n : Nat) : Option Nat :=
  (pieces (s.barAddr f off) n).findSome? fun p => s.barCause (s.funcHr f) p.1

theorem State.hostDo_read_of_barFails (h : s.barFails f off n = some cause) :
    s.hostDo ⟨f, off, .read n⟩ = (s.hostError f off cause).emit (.completerAbort f) := by
  unfold State.barFails State.barAddr at h
  simp only [State.hostDo, h]

theorem State.hostDo_read_of_ok (h : s.barFails f off n = none)
    (hr : s.readAt (.host f) (s.funcHr f) none allowFar (s.barAddr f off) n = (u, .ok bs)) :
    s.hostDo ⟨f, off, .read n⟩ = u.emit (.hostData f bs) := by
  unfold State.barFails State.barAddr at *
  simp only [State.hostDo, h, hr]

theorem State.hostDo_read_of_held {w : WaitsOn} (h : s.barFails f off n = none)
    (hr : s.readAt (.host f) (s.funcHr f) none allowFar (s.barAddr f off) n = (u, .error (.held w))) :
    s.hostDo ⟨f, off, .read n⟩ = s.hostHeld u ⟨f, off, .read n⟩ := by
  unfold State.barFails State.barAddr at *
  simp only [State.hostDo, h, hr]

theorem State.hostDo_read_of_error (h : s.barFails f off n = none) (he : ∀ w, e ≠ .held w)
    (hr : s.readAt (.host f) (s.funcHr f) none allowFar (s.barAddr f off) n = (u, .error e)) :
    s.hostDo ⟨f, off, .read n⟩ = (u.hostError f off (hostCause e)).emit (.completerAbort f) := by
  unfold State.barFails State.barAddr at *
  cases e
  case held w => exact absurd rfl (he w)
  all_goals simp only [State.hostDo, h, hr]

theorem State.hostDo_write_of_poisoned : s.hostDo ⟨f, off, .write bs true⟩ = s.hostError f off 3 := rfl

theorem State.hostDo_write_of_barFails (h : s.barFails f off bs.length = some cause) :
    s.hostDo ⟨f, off, .write bs false⟩ = s.hostError f off cause := by
  unfold State.barFails State.barAddr at h
  simp only [State.hostDo, h, Bool.false_eq_true, if_false]

theorem State.hostDo_write_of_ok (h : s.barFails f off bs.length = none)
    (hr : s.writeAt (.host f) (s.funcHr f) none allowFar (s.barAddr f off) bs = (u, .ok ())) : s.hostDo ⟨f, off, .write bs false⟩ = u := by
  unfold State.barFails State.barAddr at *
  simp only [State.hostDo, h, hr, Bool.false_eq_true, if_false]

theorem State.hostDo_write_of_error (h : s.barFails f off bs.length = none) (he : ∀ w, e ≠ .held w)
    (hr : s.writeAt (.host f) (s.funcHr f) none allowFar (s.barAddr f off) bs = (u, .error e)) :
    s.hostDo ⟨f, off, .write bs false⟩ = u.hostError f off (hostCause e) := by
  unfold State.barFails State.barAddr at *
  cases e
  case held w => exact absurd rfl (he w)
  all_goals simp only [State.hostDo, h, hr, Bool.false_eq_true, if_false]

/-! ### The grains of an access -/

/-- The first piece of a range begins where the range does. -/
theorem exists_pieces_eq_cons (hn : 0 < n) : ∃ m ps, pieces a n = (a, m) :: ps := by
  obtain ⟨k, hk⟩ : ∃ k, (a + n + 255) / 256 - a / 256 = k + 1 := ⟨(a + n + 255) / 256 - a / 256 - 1, by omega⟩
  have hlo : max a (a / 256 * 256) = a := by omega
  rw [pieces, if_neg hn.ne', hk, List.range_succ_eq_map, List.map_cons, Nat.add_zero, hlo]
  exact ⟨_, _, rfl⟩

theorem findSome?_pieces_of_first {β : Type} {g : Nat → Option β} {b : β} (hn : 0 < n) (h : g a = some b) :
    (pieces a n).findSome? (fun p => g p.1) = some b := by
  obtain ⟨m, ps, hp⟩ := exists_pieces_eq_cons (a := a) hn
  simp only [hp, List.findSome?_cons, h]

/-- Where the first byte of an access may not be reached, that is the cause of the access (log 48). -/
theorem State.barFails_of_barCause (hn : 0 < n) (h : s.barCause (s.funcHr f) (s.barAddr f off) = some cause) :
    s.barFails f off n = some cause := findSome?_pieces_of_first hn h

/-- An access within one grain fails by the cause of that grain alone. -/
theorem State.barFails_of_within_grain (hn : 0 < n) (hg : s.barAddr f off % 256 + n ≤ 256) :
    s.barFails f off n = s.barCause (s.funcHr f) (s.barAddr f off) := by
  rw [State.barFails, pieces_of_within_grain hn hg, List.findSome?_singleton]

/-- A SEALED homeroom's function does not reach an encrypted set (R600). -/
theorem State.barCause_of_encrypted {x pa : Nat} (hx : spaceOf a = .far x) (ht : s.translate hr x = .ok pa) (h0 : hr ≠ 0)
    (h2 : s.hrState hr = 2) (hk : (s.setKey (setOf s.variant pa)).isSome = true) : s.barCause hr a = some 2 := by
  simp [State.barCause, hx, ht, h0, h2, hk]

/-! ### The log of a host error -/

theorem hostCause_lt (e : AccErr) : hostCause e < 8 := by
  unfold hostCause
  split <;> decide

/-- What logging a host error leaves: `HOST_ERR` names the cause, the function and the offset (R504), and nothing else changes. -/
def State.hostErrLogged (s t : State) (f off cause : Nat) : Prop :=
  t = { s with regs := t.regs } ∧ s.regsBut t (· = .hostErr) ∧ t.fget .hostErr HOST_ERR_VALID = 1 ∧ t.fget .hostErr HOST_ERR_CAUSE = cause ∧
    t.fget .hostErr HOST_ERR_FUNC = f ∧ t.fget .hostErr HOST_ERR_ADDR = off % 2 ^ HOST_ERR_ADDR.width

theorem State.hostErrLogged_hostError (hf : f ≤ 16) (hc : cause < 8) : s.hostErrLogged (s.hostError f off cause) f off cause := by
  have hf' : f % 2 ^ HOST_ERR_FUNC.width = f := Nat.mod_eq_of_lt (hf.trans_lt (by decide))
  have hc' : cause % 2 ^ HOST_ERR_CAUSE.width = cause := Nat.mod_eq_of_lt hc
  refine ⟨rfl, fun r hr => ?_, State.fget_fput_same _ _ _ _ (by decide), ?_, ?_, ?_⟩
  · rw [State.hostError, State.get_fput_ne _ _ _ hr, State.get_fput_ne _ _ _ hr, State.get_fput_ne _ _ _ hr, State.get_fput_ne _ _ _ hr]
  · rw [State.hostError, State.fget_fput_field _ _ _ _ _ (by decide) (by decide), State.fget_fput_same _ _ _ _ (by decide), hc']
  · rw [State.hostError, State.fget_fput_field _ _ _ _ _ (by decide) (by decide), State.fget_fput_field _ _ _ _ _ (by decide) (by decide),
      State.fget_fput_same _ _ _ _ (by decide), hf']
  · rw [State.hostError, State.fget_fput_field _ _ _ _ _ (by decide) (by decide), State.fget_fput_field _ _ _ _ _ (by decide) (by decide),
      State.fget_fput_field _ _ _ _ _ (by decide) (by decide), State.fget_fput_same _ _ _ _ (by decide)]

end Sys2Proof.Machine
end

section
/-! PROOFS. The registrar: a visit with nothing to start, forecasts, the lockstep halt and function-level resets (R483 to R486, R500, R501). -/

namespace Sys2Proof.Machine

open Sys2Proof

variable {s : State} {f n p cause : Nat} {r : Reg}

/-! ### A visit with nothing to start -/

theorem mem_of_smFind {α : Type} {m : SMap α} {i : Nat} {v : α} (h : smFind m i = some v) : (i, v) ∈ m := by
  induction m with
  | nil => cases h
  | cons e m ih =>
    obtain ⟨k, w⟩ := e
    unfold smFind at h
    split at h
    · next hk =>
      cases h
      exact hk ▸ List.mem_cons_self
    · split at h
      · cases h
      · exact List.mem_cons_of_mem _ (ih h)

theorem State.descs_eq_nil (h : ∀ x ∈ s.rings, x.2.descs = []) (n : Nat) : (s.sq n).descs = [] := by
  rw [State.sq, smGet]
  cases hf : smFind s.rings n with
  | none => rfl
  | some q => exact h _ (mem_of_smFind hf)

theorem State.candidates_eq_nil (h : (s.sq n).descs = []) : s.candidates n = [] := by
  rw [State.candidates, h, List.filter_nil, List.take_nil]

theorem State.firstStart_eq_none (h : (s.sq n).descs = []) : s.firstStart n = none := by
  rw [State.firstStart, State.candidates_eq_nil h, List.findSome?_nil, ite_self]

theorem State.noteDeferred_eq_self (h : (s.sq n).descs = []) : s.noteDeferred n = s := by
  rw [State.noteDeferred, State.candidates_eq_nil h]
  rfl

theorem State.visitRing_eq_self (h : (s.sq n).descs = []) (k : Nat) : State.visitRing n k s = s := by
  cases k with
  | zero => rfl
  | succ k =>
    rw [State.visitRing, State.firstStart_eq_none h]
    dsimp only
    rw [State.noteDeferred_eq_self h, ite_self]

/-- The rings from the round-robin pointer of a priority on (R483). -/
def State.ringRow (s : State) (p : Nat) : List Nat := (List.range 64).map fun i => (wordAt s.registrar.rr p + i) % 64

/-- The rings in the order of a visit: in decreasing priority, round robin among equals (R483). -/
def State.visitOrder (s : State) : List Nat := [3, 2, 1, 0].flatMap fun p => (s.ringRow p).filter fun n => decide (s.ringPrio n = p)

/-- The descriptors of a ring that have started go on. -/
def State.goOnRing (s : State) (n : Nat) : State :=
  (s.sq n).descs.foldl (fun s d => match s.desc n d.seq with | some e => s.goOn n e | none => s) s

/-- What a visit does at the rings, in order. -/
def State.visited (s : State) (order : List Nat) : State :=
  order.foldl (fun s n => State.visitRing n ((s.sq n).descs.length + 1) s) (order.foldl State.goOnRing s)

/-- The round-robin pointers after a visit in an order: of each priority, the ring after the first. -/
def State.rrAfter (s : State) (order : List Nat) : List Nat :=
  (List.range 4).map fun p => (order.find? fun n => decide (s.ringPrio n = p)).elim (wordAt s.registrar.rr p) fun n => (n + 1) % 64

theorem exec_admissionVisit_of_up (hu : s.registrarUp = true) : exec .admissionVisit s = .next { s.visited s.visitOrder with
    registrar := { (s.visited s.visitOrder).registrar with rr := (s.visited s.visitOrder).rrAfter s.visitOrder } } := by
  have hmatch : ∀ (t : State) (order : List Nat), t.rrAfter order = (List.range 4).map fun p =>
      match order.find? fun n => decide (t.ringPrio n = p) with
      | some n => (n + 1) % 64
      | none => wordAt t.registrar.rr p := by
    intro t order
    refine List.map_congr_left fun p _ => ?_
    cases order.find? fun n => decide (t.ringPrio n = p) <;> rfl
  rw [hmatch]
  change execAdmissionVisit s = _
  rw [execAdmissionVisit, if_neg (by simp [hu])]
  rfl

/-- A visit of rings without descriptors does nothing at them. -/
theorem State.visited_eq_self (h : ∀ x ∈ s.rings, x.2.descs = []) (order : List Nat) : s.visited order = s := by
  have hgo : order.foldl State.goOnRing s = s :=
    List.foldl_fixed' (fun n => by rw [State.goOnRing, State.descs_eq_nil h, List.foldl_nil]) _
  rw [State.visited, hgo]
  exact List.foldl_fixed' (fun n => State.visitRing_eq_self (State.descs_eq_nil h n) _) _

theorem findSome?_ite_eq {β : Type} {l : List Nat} (hp : p ∈ l) (o : Option β) : (l.findSome? fun k => if k = p then o else none) = o := by
  cases o with
  | none => simp
  | some b =>
    induction l with
    | nil => cases hp
    | cons k l ih =>
      rw [List.findSome?_cons]
      by_cases hk : k = p
      · rw [if_pos hk]
      · rw [if_neg hk]
        exact ih ((List.mem_cons.mp hp).resolve_left (Ne.symm hk))

/-- The first ring of a priority in the order of a visit is the first of its row. -/
theorem State.find?_visitOrder (hp : p < 4) :
    (s.visitOrder.find? fun n => decide (s.ringPrio n = p)) = (s.ringRow p).find? fun n => decide (s.ringPrio n = p) := by
  have hrow : ∀ k, (((s.ringRow k).filter fun n => decide (s.ringPrio n = k)).find? fun n => decide (s.ringPrio n = p)) =
      if k = p then (s.ringRow p).find? fun n => decide (s.ringPrio n = p) else none := by
    intro k
    rw [List.find?_filter]
    split
    · next hk => simp [hk]
    · next hk =>
      refine List.find?_eq_none.mpr fun n _ => ?_
      rw [decide_eq_true_eq, decide_eq_true_eq, decide_eq_true_eq, not_and]
      exact fun h h' => hk (h.symm.trans h')
  rw [State.visitOrder, List.find?_flatMap]
  simp only [hrow]
  exact findSome?_ite_eq (by simp; omega) _

/-- The round-robin pointers moved on (R483): of each priority, to the ring after the first of its row. -/
def State.rrMoved (s : State) : List Nat :=
  (List.range 4).map fun p => ((s.ringRow p).find? fun n => decide (s.ringPrio n = p)).elim (wordAt s.registrar.rr p) fun n => (n + 1) % 64

theorem State.rrAfter_visitOrder (s : State) : s.rrAfter s.visitOrder = s.rrMoved :=
  List.map_congr_left fun p hp => by rw [State.find?_visitOrder (List.mem_range.mp hp)]

/-- A visit with nothing to start moves the round robin on (R483). -/
theorem exec_admissionVisit_of_no_descs (hu : s.registrarUp = true) (h : ∀ x ∈ s.rings, x.2.descs = []) :
    exec .admissionVisit s = .next { s with registrar := { s.registrar with rr := s.rrMoved } } := by
  rw [exec_admissionVisit_of_up hu, State.visited_eq_self h, State.rrAfter_visitOrder]

/-! ### Forecasts -/

/-- The descriptors that have started, on all rings. -/
def State.startedDescs (s : State) : List Desc := s.rings.flatMap fun x => x.2.descs.filter Desc.started

/-- The registrar after a forecast: allowances and reservations in half watts, and what the message tells of the cores (R484, R486, R559). -/
def State.registrarAt (s : State) (msg : Forecast) : Registrar :=
  { s.registrar with
    allowPkg := 2 * msg.allowPkg, allowStack := msg.allowStack.map fun x => 2 * x,
    resPkg := 2 * msg.basePkg + (s.startedDescs.map Desc.power).sum,
    resStack := (List.range 4).map fun k =>
      2 * wordAt msg.baseStack k + ((s.startedDescs.filter fun d => decide (d.core.map (· / 64) = some k)).map Desc.power).sum,
    warm := msg.warm, fc := msg.fc, fresh := true }

theorem exec_forecastMessage_of_up (hu : s.registrarUp = true) (msg : Forecast) :
    exec (.forecastMessage msg) s = .next (({ s with registrar := s.registrarAt msg } : State).fput .ringAdmitStat RING_ADMIT_STAT_STALE 0) := by
  change Host.Outcome.next (s.onForecast msg) = _
  rw [State.onForecast, if_neg (by simp [hu])]
  rfl

theorem wordAt_map_range {g : Nat → Nat} {k : Nat} (h : k < n) : wordAt ((List.range n).map g) k = g k := by
  simp [wordAt, h]

theorem exec_forecastStale (s : State) : exec .forecastStale s = .next (if s.registrarUp then
    { s with registrar := { s.registrar with fresh := false } }.fput .ringAdmitStat RING_ADMIT_STAT_STALE 1 else s) := rfl

/-! ### The lockstep halt -/

/-- The error state of each ring of a list that runs (R509). -/
def State.ringErrors (s : State) (cause : Nat) (l : List Nat) : State := l.foldl (fun s n => s.ringError n cause) s

theorem exec_lockstepHalt_of_up (hu : s.registrarUp = true) : ∃ e : Event, exec .lockstepHalt s =
    .next (((s.fput .hostStatus HOST_STATUS_REG_STATE 2).ringErrors 4 (List.range 64)).raiseOffice e) := by
  change ∃ e : Event, execLockstepHalt s = _
  rw [execLockstepHalt, if_neg (by simp [hu])]
  exact ⟨_, rfl⟩

/-- What an error leaves of `RING_STATUS`: a ring that runs is in error with its cause, another keeps its word (R509). -/
def ringErrorWord (cause : Nat) (w : W64) : W64 :=
  if fldGet w RING_STATUS_STATE = 1 then fldSet (fldSet w RING_STATUS_STATE 4) RING_STATUS_CAUSE cause else w

theorem ringErrorWord_of_running {w : W64} (h : fldGet w RING_STATUS_STATE = 1) (hc : cause < 2 ^ 8) :
    fldGet (ringErrorWord cause w) RING_STATUS_STATE = 4 ∧ fldGet (ringErrorWord cause w) RING_STATUS_CAUSE = cause := by
  rw [ringErrorWord, if_pos h, fldGet_fldSet_ne _ _ _ _ (by decide) (by decide), fldGet_fldSet_same _ _ _ (by decide),
    fldGet_fldSet_same _ _ _ (by decide)]
  exact ⟨rfl, Nat.mod_eq_of_lt hc⟩

theorem ringErrorWord_of_not_running {w : W64} (h : fldGet w RING_STATUS_STATE ≠ 1) : ringErrorWord cause w = w := if_neg h

/-- A ring in error takes no second error. -/
theorem ringErrorWord_idem (hc : cause < 2 ^ 8) (w : W64) : ringErrorWord cause (ringErrorWord cause w) = ringErrorWord cause w := by
  by_cases h : fldGet w RING_STATUS_STATE = 1
  · refine ringErrorWord_of_not_running ?_
    rw [(ringErrorWord_of_running h hc).1]
    decide
  · rw [ringErrorWord_of_not_running h, ringErrorWord_of_not_running h]

theorem State.get_ringError_same (s : State) (n cause : Nat) :
    (s.ringError n cause).get (.ringStatus n) = ringErrorWord cause (s.get (.ringStatus n)) := by
  unfold State.ringError ringErrorWord State.ringState State.fget
  split
  · simp only [State.fput, State.get_put_same]
  · rfl

theorem State.get_ringError_ne (h : r ≠ .ringStatus n) : (s.ringError n cause).get r = s.get r := by
  unfold State.ringError
  split
  · rw [State.get_fput_ne _ _ _ h, State.get_fput_ne _ _ _ h]
  · rfl

theorem State.get_raiseOffice_ne {e : Event} (h : r ≠ .officeEvq) : (s.raiseOffice e).get r = s.get r := (s.raiseOffice_frame e).2 r h

theorem State.ringErrors_frame (s : State) (cause : Nat) (l : List Nat) :
    ∃ regs : List (Reg × W64), s.ringErrors cause l = { s with regs := regs } := by
  refine List.foldlRecOn (motive := fun t => ∃ regs : List (Reg × W64), t = { s with regs := regs }) l _ ⟨s.regs, rfl⟩ ?_
  rintro _ ⟨regs, rfl⟩ n -
  unfold State.ringError
  split
  · exact ⟨_, rfl⟩
  · exact ⟨regs, rfl⟩

theorem State.get_ringErrors_ne (h : ∀ n, r ≠ .ringStatus n) (l : List Nat) : (s.ringErrors cause l).get r = s.get r :=
  State.get_foldl (fun _ n => State.get_ringError_ne (h n)) l s

/-- Of several rings each takes its error as if alone. -/
theorem State.get_ringErrors_same (hc : cause < 2 ^ 8) (n : Nat) (l : List Nat) (s : State) :
    (s.ringErrors cause l).get (.ringStatus n) = if n ∈ l then ringErrorWord cause (s.get (.ringStatus n)) else s.get (.ringStatus n) := by
  induction l generalizing s with
  | nil => rfl
  | cons a l ih =>
    change ((s.ringError a cause).ringErrors cause l).get (.ringStatus n) = _
    rw [ih]
    by_cases ha : n = a
    · subst ha
      rw [State.get_ringError_same, ringErrorWord_idem hc, ite_self, if_pos List.mem_cons_self]
    · have hne : Reg.ringStatus n ≠ .ringStatus a := fun h => ha (Reg.ringStatus.inj h)
      simp only [State.get_ringError_ne hne, List.mem_cons, ha, false_or]

/-- A lockstep halt (R501): the registrar is halted, and every ring that runs is in error with cause 4. -/
theorem exec_lockstepHalt_stops (hu : s.registrarUp = true) : ∃ t, exec .lockstepHalt s = .next t ∧
    t = { s with regs := t.regs, officeEvents := t.officeEvents, out := t.out } ∧ t.fget .hostStatus HOST_STATUS_REG_STATE = 2 ∧
    ∀ n < 64, if s.ringState n = 1 then t.ringState n = 4 ∧ t.fget (.ringStatus n) RING_STATUS_CAUSE = 4 else t.ringState n = s.ringState n := by
  obtain ⟨e, he⟩ := exec_lockstepHalt_of_up hu
  refine ⟨_, he, ?_, ?_, fun n hn => ?_⟩
  · obtain ⟨regs, hr⟩ := State.ringErrors_frame (s.fput .hostStatus HOST_STATUS_REG_STATE 2) 4 (List.range 64)
    rw [hr]
    exact (State.raiseOffice_frame _ e).1
  · rw [State.fget, State.get_raiseOffice_ne (r := .hostStatus) nofun, State.get_ringErrors_ne (r := .hostStatus) nofun]
    exact State.fget_fput_same _ _ _ _ (by decide)
  · have hw : (((s.fput .hostStatus HOST_STATUS_REG_STATE 2).ringErrors 4 (List.range 64)).raiseOffice e).get (.ringStatus n) =
        ringErrorWord 4 (s.get (.ringStatus n)) := by
      rw [State.get_raiseOffice_ne (r := .ringStatus n) nofun, State.get_ringErrors_same (by decide), if_pos (List.mem_range.mpr hn),
        State.get_fput_ne _ (r := .hostStatus) (q := .ringStatus n) _ _ nofun]
    simp only [State.ringState, State.fget, hw]
    split
    · next h => exact ringErrorWord_of_running h (by decide)
    · next h => rw [ringErrorWord_of_not_running h]

/-! ### Function-level resets -/

/-- The registers of a ring that a reset of its function writes (R500). -/
def Reg.ofRingState : Reg → Bool
  | .ringStatus _ | .ringCtl _ | .ringSeq _ => true
  | _ => false

/-- What a function-level reset does to a ring of the function (R500). -/
def State.resetRing (s : State) (n : Nat) : State :=
  let q := s.sq n
  let t := s.setSq n { q with descs := (q.descs.filter Desc.started).map (fun d => { d with discard := true }), held := [],
                              draining := q.draining || decide (s.ringState n ≠ 3) }
  let t := (t.fput (.ringStatus n) RING_STATUS_HELD 0).fput (.ringCtl n) RING_CTL_ENABLE 0
  (t.fput (.ringStatus n) RING_STATUS_STATE (if (t.sq n).draining then 2 else 0)).updateDone n

/-- The rings of a function that are not disabled, each reset. -/
def State.resetRings (s : State) (f : Nat) : State :=
  ((List.range 64).filter fun n => decide (s.ringFunc n = f) && decide (s.ringState n ≠ 0)).foldl State.resetRing s

/-- A ring that a function-level reset has emptied (R500): it is disabled or drains what its function started, whose completions are
discarded. -/
def State.ringIsReset (t : State) (n : Nat) : Prop :=
  (t.ringState n = 0 ∨ t.ringState n = 2) ∧ t.fget (.ringCtl n) RING_CTL_ENABLE = 0 ∧ (t.sq n).held = [] ∧
    ∀ d ∈ (t.sq n).descs, d.started = true ∧ d.discard = true

theorem State.get_updateDone_ne (h : r ≠ .ringSeq n) : (s.updateDone n).get r = s.get r := State.get_fput_ne _ _ _ h

/-- A ring keeps being reset where its registers and its queues stay. -/
theorem State.ringIsReset_congr {t u : State} (hs : u.get (.ringStatus n) = t.get (.ringStatus n)) (hc : u.get (.ringCtl n) = t.get (.ringCtl n))
    (hq : u.sq n = t.sq n) (h : t.ringIsReset n) : u.ringIsReset n := by
  unfold State.ringIsReset State.ringState State.fget at *
  rwa [hs, hc, hq]

theorem State.ringIsReset_updateDone {t : State} (m : Nat) (h : t.ringIsReset n) : (t.updateDone m).ringIsReset n :=
  State.ringIsReset_congr (State.get_updateDone_ne nofun) (State.get_updateDone_ne nofun) rfl h

theorem State.ringIsReset_resetRing_same (s : State) (n : Nat) : (s.resetRing n).ringIsReset n := by
  have hcs : Reg.ringCtl n ≠ .ringStatus n := nofun
  refine State.ringIsReset_updateDone n ⟨?_, ?_, ?_, ?_⟩
  · rw [State.ringState, State.fget_fput_same _ _ _ _ (by decide)]
    split
    · exact .inr rfl
    · exact .inl rfl
  · rw [State.fget_fput_ne _ _ _ _ hcs, State.fget_fput_same _ _ _ _ (by decide)]
    rfl
  · rw [State.sq_fput, State.sq_fput, State.sq_fput, State.sq_setSq_same]
  · rw [State.sq_fput, State.sq_fput, State.sq_fput, State.sq_setSq_same]
    intro d hd
    obtain ⟨x, hx, rfl⟩ := List.mem_map.mp hd
    exact ⟨(List.mem_filter.mp hx).2, rfl⟩

theorem State.get_resetRing_ne (hs : r ≠ .ringStatus n) (hc : r ≠ .ringCtl n) (hq : r ≠ .ringSeq n) : (s.resetRing n).get r = s.get r := by
  simp only [State.resetRing, State.get_updateDone_ne hq, State.get_fput_ne _ _ _ hs, State.get_fput_ne _ _ _ hc, State.get_setSq]

theorem State.ringIsReset_resetRing_ne {m : Nat} (hm : n ≠ m) (h : s.ringIsReset n) : (s.resetRing m).ringIsReset n :=
  State.ringIsReset_congr (State.get_resetRing_ne (fun h => hm (Reg.ringStatus.inj h)) nofun nofun)
    (State.get_resetRing_ne nofun (fun h => hm (Reg.ringCtl.inj h)) nofun) (State.sq_setSq_ne _ _ hm) h

/-- Every ring of a list is reset, in whatever order (R500). -/
theorem State.ringIsReset_foldl {l : List Nat} (hn : n ∈ l) (s : State) : (l.foldl State.resetRing s).ringIsReset n := by
  have hkeep : ∀ (l : List Nat) (s : State), s.ringIsReset n → (l.foldl State.resetRing s).ringIsReset n := fun l s h =>
    List.foldlRecOn (motive := fun t : State => t.ringIsReset n) l _ h fun t ht m _ => by
      by_cases hm : n = m
      · exact hm ▸ State.ringIsReset_resetRing_same t n
      · exact State.ringIsReset_resetRing_ne hm ht
  obtain ⟨l₁, l₂, rfl⟩ := List.append_of_mem hn
  rw [List.foldl_append, List.foldl_cons]
  exact hkeep l₂ _ (State.ringIsReset_resetRing_same _ n)

theorem State.get_resetRing (h : r.ofRingState = false) (n : Nat) : (s.resetRing n).get r = s.get r := by
  refine State.get_resetRing_ne ?_ ?_ ?_ <;> (rintro rfl; cases h)

theorem State.get_resetRings (h : r.ofRingState = false) (f : Nat) : (s.resetRings f).get r = s.get r :=
  State.get_foldl (fun _ n => State.get_resetRing h n) _ s

theorem State.resetRings_frame (s : State) (f : Nat) :
    ∃ (regs : List (Reg × W64)) (rings : SMap RingSt), s.resetRings f = { s with regs := regs, rings := rings } := by
  refine List.foldlRecOn (motive := fun t => ∃ (regs : List (Reg × W64)) (rings : SMap RingSt), t = { s with regs := regs, rings := rings })
    _ _ ⟨s.regs, s.rings, rfl⟩ ?_
  rintro _ ⟨regs, rings, rfl⟩ n -
  exact ⟨_, _, rfl⟩

/-- `DONE_BELOW` of each ring of a list. -/
def State.updateDones (s : State) (l : SMap RingSt) : State := l.foldl (fun s e => s.updateDone e.1) s

theorem State.updateDones_frame (s : State) (l : SMap RingSt) : ∃ regs : List (Reg × W64), s.updateDones l = { s with regs := regs } := by
  refine List.foldlRecOn (motive := fun t => ∃ regs : List (Reg × W64), t = { s with regs := regs }) l _ ⟨s.regs, rfl⟩ ?_
  rintro _ ⟨regs, rfl⟩ e -
  exact ⟨_, rfl⟩

theorem State.ringIsReset_updateDones (h : s.ringIsReset n) (l : SMap RingSt) : (s.updateDones l).ringIsReset n :=
  List.foldlRecOn (motive := fun t : State => t.ringIsReset n) l _ h fun _ ht e _ => State.ringIsReset_updateDone e.1 ht

/-- The cores of a homeroom that run a lesson or wait to launch one (R500). -/
def State.lessonCores (s : State) (hr : Nat) : List Nat :=
  (List.range 256).filter fun c => decide (s.coreHr c = hr) && ((s.core c).lesson.isSome || (s.core c).waitingLaunch.isSome)

theorem State.lessonCores_eq_nil {hr : Nat}
    (h : ∀ c < 256, s.coreHr c = hr → (s.core c).lesson = none ∧ (s.core c).waitingLaunch = none) : s.lessonCores hr = [] := by
  refine List.filter_eq_nil_iff.mpr fun c hc => ?_
  by_cases hh : s.coreHr c = hr
  · obtain ⟨hl, hw⟩ := h c (List.mem_range.mp hc) hh
    simp [hl, hw]
  · simp [hh]

/-- A descriptor that launched a lesson on one of these cores. -/
def Desc.launchedOn (d : Desc) (cores : List Nat) : Bool := d.started && (match d.core with | some c => cores.contains c | none => false)

theorem Desc.launchedOn_nil (d : Desc) : d.launchedOn [] = false := by
  unfold Desc.launchedOn
  cases d.core <;> simp

/-- The descriptors that launched lessons on these cores are gone, with their reservations (R500). -/
def State.dropLaunched (s : State) (cores : List Nat) : State :=
  let s := s.rings.foldl (fun (s : State) (e : Nat × RingSt) => (e.2.descs.filter fun d => d.launchedOn cores).foldl State.release s) s
  let t := { s with rings := s.rings.map fun (e : Nat × RingSt) => (e.1, { e.2 with descs := e.2.descs.filter fun d => !d.launchedOn cores }) }
  t.updateDones t.rings

theorem State.dropLaunched_nil (s : State) : s.dropLaunched [] = s.updateDones s.rings := by
  have hrel : s.rings.foldl (fun s e => (e.2.descs.filter fun d => d.launchedOn []).foldl State.release s) s = s :=
    List.foldl_fixed' (fun e => by simp [Desc.launchedOn_nil]) _
  have hmap : s.rings.map (fun (e : Nat × RingSt) => (e.1, { e.2 with descs := e.2.descs.filter fun d => !d.launchedOn [] })) = s.rings := by
    simp [Desc.launchedOn_nil]
  rw [State.dropLaunched, hrel, hmap]

/-- Ending the lessons of a homeroom that has none only writes `DONE_BELOW` again. -/
theorem State.endLessons_of_lessonCores_eq_nil {hr : Nat} (h : s.lessonCores hr = []) : s.endLessons hr = s.updateDones s.rings := by
  rw [← State.dropLaunched_nil]
  unfold State.lessonCores at h
  simp only [State.endLessons, h]
  rfl

theorem exec_functionLevelReset (hl : s.hostLink = true) (hf : f ≤ 16) : exec (.functionLevelReset f) s = .next (s.functionReset f) :=
  congrArg Host.Outcome.next (if_pos ⟨hl, hf⟩)

/-- The rest of a function-level reset (R500): MSI-X, the size of BAR4 and its OFFSET. -/
def State.functionCleared (s : State) (f : Nat) : State :=
  { s with msixUnmasked := s.msixUnmasked.filter (fun e => decide (e.1 ≠ f)), msixPending := s.msixPending.filter (fun e => decide (e.1 ≠ f)),
           bar4Size := smDel s.bar4Size f }.fput (.hostFunc f) HOST_FUNC_OFFSET 0

theorem State.functionReset_eq (s : State) (f : Nat) :
    s.functionReset f = ((s.resetRings f).endLessons ((s.resetRings f).funcHr f)).functionCleared f := rfl

/-- A function whose homeroom runs no lesson loses its rings, its MSI-X and its part of BAR4 alone. -/
theorem State.functionReset_of_no_lessons
    (h : ∀ c < 256, s.coreHr c = s.funcHr f → (s.core c).lesson = none ∧ (s.core c).waitingLaunch = none) :
    s.functionReset f = ((s.resetRings f).updateDones (s.resetRings f).rings).functionCleared f := by
  have hget : ∀ r : Reg, r.ofRingState = false → (s.resetRings f).get r = s.get r := fun _ h => State.get_resetRings h f
  have hcore : ∀ c, (s.resetRings f).core c = s.core c := by
    obtain ⟨regs, rings, hr⟩ := s.resetRings_frame f
    rw [hr]
    exact fun _ => rfl
  have hcoreHr : ∀ c, (s.resetRings f).coreHr c = s.coreHr c := fun c => by simp only [State.coreHr, hget (.secHrCores _ _) rfl]
  have hfuncHr : (s.resetRings f).funcHr f = s.funcHr f := by simp only [State.funcHr, State.fget, hget (.secHrCtl _) rfl]
  rw [State.functionReset_eq, State.endLessons_of_lessonCores_eq_nil]
  refine State.lessonCores_eq_nil fun c hc => ?_
  rw [hcore, hcoreHr, hfuncHr]
  exact h c hc

/-- A function-level reset where the function's homeroom runs no lesson (R500). -/
theorem exec_functionLevelReset_empties (hl : s.hostLink = true) (hf : f ≤ 16)
    (h : ∀ c < 256, s.coreHr c = s.funcHr f → (s.core c).lesson = none ∧ (s.core c).waitingLaunch = none) :
    ∃ t, exec (.functionLevelReset f) s = .next t ∧
      t = { s with regs := t.regs, rings := t.rings, msixUnmasked := t.msixUnmasked, msixPending := t.msixPending,
                   bar4Size := smDel s.bar4Size f } ∧
      t.fget (.hostFunc f) HOST_FUNC_OFFSET = 0 ∧ t.msixUnmasked = s.msixUnmasked.filter (·.1 ≠ f) ∧
      t.msixPending = s.msixPending.filter (·.1 ≠ f) ∧ ∀ n < 64, s.ringFunc n = f → s.ringState n ≠ 0 → t.ringIsReset n := by
  obtain ⟨regs, rings, hr⟩ := s.resetRings_frame f
  obtain ⟨regs', hu⟩ := (s.resetRings f).updateDones_frame (s.resetRings f).rings
  have hframe : (s.resetRings f).updateDones (s.resetRings f).rings = { s with regs := regs', rings := rings } := by rw [hu, hr]
  refine ⟨_, exec_functionLevelReset hl hf, ?_⟩
  rw [State.functionReset_of_no_lessons h]
  refine ⟨by rw [hframe]; rfl, State.fget_fput_same _ _ _ _ (by decide), by rw [hframe]; rfl, by rw [hframe]; rfl, fun n hn hfn hst => ?_⟩
  have hmem : n ∈ (List.range 64).filter fun n => decide (s.ringFunc n = f) && decide (s.ringState n ≠ 0) :=
    List.mem_filter.mpr ⟨List.mem_range.mpr hn, by simp [hfn, hst]⟩
  have hreset := State.ringIsReset_updateDones (State.ringIsReset_foldl hmem s) (s.resetRings f).rings
  exact State.ringIsReset_congr (State.get_fput_ne _ _ _ nofun) (State.get_fput_ne _ _ _ nofun) rfl hreset

end Sys2Proof.Machine
end

section
/-! PROOFS. The registrar's events and host accesses (R451 to R456, R483, R484, R486, R500, R501, R504, R559, R600, R731), put together. -/

namespace Sys2Proof.Proofs

open Sys2Proof Sys2Proof.Machine

variable {s : State} {f off : Nat}

/-- What a forecast message leaves (R484, R486, R559). -/
theorem forecastMessage_sets_allowances (hu : s.registrarUp = true) (msg : Forecast) :
    ∃ t, exec (.forecastMessage msg) s = .next t ∧ t = { s with regs := t.regs, registrar := s.registrarAt msg } ∧
      s.regsBut t (· = .ringAdmitStat) ∧ t.fget .ringAdmitStat RING_ADMIT_STAT_STALE = 0 :=
  ⟨_, exec_forecastMessage_of_up hu msg, rfl, fun _ hq => State.get_fput_ne _ _ _ hq, State.fget_fput_same _ _ _ _ (by decide)⟩

/-- What a stale forecast leaves (R486). -/
theorem forecastStale_ends_allowances (hu : s.registrarUp = true) :
    ∃ t, exec .forecastStale s = .next t ∧ t = { s with regs := t.regs, registrar := { s.registrar with fresh := false } } ∧
      s.regsBut t (· = .ringAdmitStat) ∧ t.fget .ringAdmitStat RING_ADMIT_STAT_STALE = 1 := by
  rw [exec_forecastStale, if_pos hu]
  exact ⟨_, rfl, rfl, fun _ hq => State.get_fput_ne _ _ _ hq, State.fget_fput_same _ _ _ _ (by decide)⟩

/-- A registrar that does not run does nothing of its own (R501, R673). -/
theorem registrarDown_does_nothing (hu : s.registrarUp = false) (msg : Forecast) :
    exec .admissionVisit s = .next s ∧ exec (.forecastMessage msg) s = .next s ∧ exec .forecastStale s = .next s ∧
      exec .lockstepHalt s = .next s := by
  have hn : (!s.registrarUp) = true := by rw [hu]; rfl
  refine ⟨if_pos hn, congrArg _ (if_pos hn), ?_, if_pos hn⟩
  rw [exec_forecastStale, if_neg (by simp [hu])]

section

variable (hl : s.hostLink = true) (hf : f ≤ 16) (hw : (s.hostWaits.any fun x => decide (x.f = f)) = false)

include hl hf hw

/-- An access of a function none of whose accesses waits is made at once. -/
theorem exec_bar4Access_of_free {acc : HostAccess} {t : State} (h : off + acc.length ≤ s.bar4 f) (hd : s.hostDo ⟨f, off, acc⟩ = t) :
    exec (.bar4Access f off acc) s = .next (t.hostEnds f) := by
  rw [exec_bar4Access_of_within hl hf h, State.hostServe_of_free hw, hd]

/-- A read that BAR4 may not make is logged and answered with Completer Abort (R455, R504). -/
theorem bar4Read_of_barFails {n cause : Nat} (h : off + n ≤ s.bar4 f) (hb : s.barFails f off n = some cause) (hc : cause < 8) :
    ∃ t : State, exec (.bar4Access f off (.read n)) s = .next (({ t with out := s.out ++ [.completerAbort f] } : State).hostEnds f) ∧
      s.hostErrLogged t f off cause :=
  ⟨_, exec_bar4Access_of_free hl hf hw h (State.hostDo_read_of_barFails hb), State.hostErrLogged_hostError hf hc⟩

/-- A write that BAR4 may not make is logged (R455, R504). -/
theorem bar4Write_of_barFails {bs : List Byte} {cause : Nat} (h : off + bs.length ≤ s.bar4 f) (hb : s.barFails f off bs.length = some cause)
    (hc : cause < 8) :
    ∃ t, exec (.bar4Access f off (.write bs false)) s = .next (t.hostEnds f) ∧ s.hostErrLogged t f off cause :=
  ⟨_, exec_bar4Access_of_free hl hf hw h (State.hostDo_write_of_barFails hb), State.hostErrLogged_hostError hf hc⟩

/-- A read that far memory fails is logged and answered with Completer Abort (R504, R634). -/
theorem bar4Read_of_error {u : State} {n : Nat} {e : AccErr} (h : off + n ≤ s.bar4 f) (hb : s.barFails f off n = none)
    (hr : s.readAt (.host f) (s.funcHr f) none allowFar (s.barAddr f off) n = (u, .error e)) (he : ∀ w, e ≠ .held w) :
    ∃ t : State, exec (.bar4Access f off (.read n)) s = .next (({ t with out := u.out ++ [.completerAbort f] } : State).hostEnds f) ∧
      u.hostErrLogged t f off (hostCause e) :=
  ⟨_, exec_bar4Access_of_free hl hf hw h (State.hostDo_read_of_error hb he hr), State.hostErrLogged_hostError hf (hostCause_lt e)⟩

/-- A write that far memory fails is logged (R504, R634). -/
theorem bar4Write_of_error {u : State} {bs : List Byte} {e : AccErr} (h : off + bs.length ≤ s.bar4 f) (hb : s.barFails f off bs.length = none)
    (hr : s.writeAt (.host f) (s.funcHr f) none allowFar (s.barAddr f off) bs = (u, .error e)) (he : ∀ w, e ≠ .held w) :
    ∃ t, exec (.bar4Access f off (.write bs false)) s = .next (t.hostEnds f) ∧ u.hostErrLogged t f off (hostCause e) :=
  ⟨_, exec_bar4Access_of_free hl hf hw h (State.hostDo_write_of_error hb he hr), State.hostErrLogged_hostError hf (hostCause_lt e)⟩

/-- A poisoned write is logged, and nothing is written (R634). -/
theorem bar4Write_of_poisoned {bs : List Byte} (h : off + bs.length ≤ s.bar4 f) :
    ∃ t, exec (.bar4Access f off (.write bs true)) s = .next (t.hostEnds f) ∧ s.hostErrLogged t f off 3 :=
  ⟨_, exec_bar4Access_of_free hl hf hw h State.hostDo_write_of_poisoned, State.hostErrLogged_hostError hf (by decide)⟩

section

variable {x pa : Nat} (hx : spaceOf (s.barAddr f off) = .far x) (ht : s.translate (s.funcHr f) x = .ok pa)
  (hp : pa % 256 = s.barAddr f off % 256) (hb : s.barCause (s.funcHr f) (s.barAddr f off) = none) (hs : s.lineSound (.host f) pa)

include hx ht hp hb hs

/-- A read of a part of a sound line answers its bytes (R455, R456). -/
theorem bar4Read_of_lineSound {n : Nat} (h : off + n ≤ s.bar4 f) (hn : 0 < n) (hg : pa % 256 + n ≤ 256) :
    ∃ t : State, exec (.bar4Access f off (.read n)) s = .next (({ t with
        out := s.out ++ [.hostData f (((s.lineData (pa / 256)).drop (pa % 256)).take n)] } : State).hostEnds f) ∧
      t = { s with lines := t.lines, lineAge := t.lineAge, turns := t.turns } := by
  obtain ⟨t, hr, hch⟩ := State.readAt_of_lineSound hx ht hp hs hn hg
  have hfree := exec_bar4Access_of_free hl hf hw h (State.hostDo_read_of_ok ((State.barFails_of_within_grain hn (hp ▸ hg)).trans hb) hr)
  have hout : t.out = s.out := by rw [hch]
  rw [State.emit, hout] at hfree
  exact ⟨t, hfree, by rw [hch]⟩

/-- A write of a part of a sound line is merged into it (R455, R456). -/
theorem bar4Write_of_lineSound {bs : List Byte} (h : off + bs.length ≤ s.bar4 f) (hn : 0 < bs.length) (hg : pa % 256 + bs.length ≤ 256) :
    ∃ t : State, exec (.bar4Access f off (.write bs false)) s = .next (t.hostEnds f) ∧
      t = { s with lines := t.lines, lineAge := t.lineAge, turns := t.turns } ∧
      t.lineData (pa / 256) = spliceBytes (s.lineData (pa / 256)) (pa % 256) bs := by
  obtain ⟨t, hr, hch⟩ := State.writeAt_of_lineSound hx ht hp hs hn hg
  exact ⟨t, exec_bar4Access_of_free hl hf hw h (State.hostDo_write_of_ok ((State.barFails_of_within_grain hn (hp ▸ hg)).trans hb) hr), hch⟩

end

end

/-- Settles O50: the registrar's events and the reset of a function each by its lemma; a BAR4 access beyond its size, one behind another of
its function, and of those that are made each by what keeps it from far memory (`State.barFails`) or by what far memory answers. -/
theorem registrarAndHostAccesses : Obligations.RegistrarAndHostAccesses := by
  intro s u f off len msg bs e r
  refine ⟨fun hu => ⟨exec_admissionVisit_of_no_descs hu, ?forecast, forecastStale_ends_allowances hu, exec_lockstepHalt_stops hu⟩,
    fun hu => registrarDown_does_nothing hu msg, exec_functionLevelReset_empties,
    fun hl hf => ⟨fun h => exec_bar4Access_of_beyond hl hf h,
      fun hw h => (exec_bar4Access_of_within hl hf h).trans (congrArg _ (State.hostServe_of_waiting hw)),
      fun hw => ⟨fun h => ?read, fun x pa hx ht hp hb hs => ?sound, fun x pa hx ht h0 h2 hk => ?encrypted, fun h => ?write⟩⟩⟩
  case forecast =>
    obtain ⟨t, ht, hframe, hregs, hstale⟩ := forecastMessage_sets_allowances hu msg
    have hreg : t.registrar = s.registrarAt msg := by rw [hframe]
    rw [← hreg] at hframe
    refine ⟨t, ht, hframe, hregs, hstale, ?_⟩
    rw [hreg]
    exact ⟨rfl, rfl, rfl, rfl, rfl, fun k hk => wordAt_map_range hk, rfl, rfl⟩
  case read =>
    exact ⟨fun cause hb hc => bar4Read_of_barFails hl hf hw h hb hc, fun hb =>
      ⟨fun hr => exec_bar4Access_of_free hl hf hw h (State.hostDo_read_of_ok hb hr),
       fun w hr => exec_bar4Access_of_free hl hf hw h (State.hostDo_read_of_held hb hr),
       fun hr he => bar4Read_of_error hl hf hw h hb hr he⟩⟩
  case sound =>
    exact ⟨bar4Read_of_lineSound hl hf hw hx ht hp hb hs,
      fun h hn => bar4Write_of_lineSound hl hf hw hx ht hp hb hs h (List.length_pos_iff.mpr hn)⟩
  case encrypted =>
    have hb := State.barCause_of_encrypted hx ht h0 h2 hk
    exact ⟨fun h hn => bar4Read_of_barFails hl hf hw h (State.barFails_of_barCause hn hb) (by decide),
      fun h hn => bar4Write_of_barFails hl hf hw h (State.barFails_of_barCause hn hb) (by decide)⟩
  case write =>
    exact ⟨bar4Write_of_poisoned hl hf hw h, fun cause hb hc => bar4Write_of_barFails hl hf hw h hb hc, fun hb =>
      ⟨fun hr => exec_bar4Access_of_free hl hf hw h (State.hostDo_write_of_ok hb hr),
       fun hr he => bar4Write_of_error hl hf hw h hb hr he⟩⟩

end Sys2Proof.Proofs
end

section
/-! PROOFS. GOODBYE: sending it changes the links' ends and what is sent, and nothing else (R398, R429). -/

namespace Sys2Proof.Machine

open Sys2Proof

variable {s t u : State} {d e m p : Nat}

/-- Only the ends of the die links and of the fabric ports, and what has been sent, differ. -/
def State.linksChanged (s t : State) : Prop := t = { s with modules := t.modules, fabPorts := t.fabPorts, out := t.out }

theorem State.linksChanged.refl (s : State) : s.linksChanged s := rfl

theorem State.linksChanged.trans (h : s.linksChanged t) (h' : t.linksChanged u) : s.linksChanged u := by
  unfold State.linksChanged at *
  rw [h', h]

/-- Operations that each change the links alone do so when they are done one after another. -/
theorem State.linksChanged_foldl {α : Type} {g : State → α → State} (hg : ∀ (t : State) a, t.linksChanged (g t a)) (l : List α) (s : State) :
    s.linksChanged (l.foldl g s) := by
  induction l generalizing s with
  | nil => exact .refl s
  | cons a l ih => exact (hg s a).trans (ih _)

theorem State.linksChanged_repeat {g : State → State} (hg : ∀ t : State, t.linksChanged (g t)) (n : Nat) (s : State) :
    s.linksChanged (Nat.repeat g n s) := by
  induction n with
  | zero => exact .refl s
  | succ n ih => exact ih.trans (hg _)

/-- A choice of which each branch changes the links alone does so. -/
theorem State.linksChanged_ite {c : Prop} [Decidable c] (ht : s.linksChanged t) (hu : s.linksChanged u) :
    s.linksChanged (if c then t else u) := by
  by_cases h : c
  · rwa [if_pos h]
  · rwa [if_neg h]

/-! ### Die links -/

theorem State.linksChanged_putDieFlit (s : State) (content : List Byte) (ends : List LinkPkt) :
    s.linksChanged (s.putDieFlit d e m content ends) := rfl

theorem State.linksChanged_sendStream (cs : List (List Byte × List LinkPkt)) (s : State) : s.linksChanged (s.sendStream d e m cs) := by
  induction cs generalizing s with
  | nil => exact .refl s
  | cons c cs ih =>
    have hpad : ∀ t : State, t.linksChanged (if 128 ≤ (t.module d e m).unacked.length then t else t.putDieFlit d e m [] []) :=
      fun t => linksChanged_ite (.refl t) (t.linksChanged_putDieFlit ..)
    exact ((s.linksChanged_putDieFlit ..).trans (linksChanged_repeat hpad _ _)).trans (ih _)

theorem State.linksChanged_pumpModule (s : State) : s.linksChanged (s.pumpModule d e m) := by
  have hset : ∀ x : ModuleSt, s.linksChanged (s.setModule d e m x) := fun _ => rfl
  exact linksChanged_ite (.refl s) ((hset _).trans (linksChanged_sendStream ..))

theorem State.linksChanged_linkControlSend (s : State) (k : LinkPkt) : s.linksChanged (s.linkControlSend d e m k) := by
  have hset : ∀ x : ModuleSt, s.linksChanged (s.setModule d e m x) := fun _ => rfl
  exact (hset _).trans (linksChanged_pumpModule _)

/-! ### Fabric ports -/

theorem State.linksChanged_sendFlit (s : State) (seq : Nat) (content : List Byte) : s.linksChanged (s.sendFlit d p seq content) :=
  linksChanged_ite (.refl s) rfl

theorem State.linksChanged_putFlit (s : State) (content : List Byte) (ends : List Packet) :
    s.linksChanged (s.putFlit d p content ends) := by
  have hset : ∀ x : FabPort, s.linksChanged (s.setFab d p x) := fun _ => rfl
  exact (hset _).trans (linksChanged_sendFlit ..)

theorem State.linksChanged_sendContent (cs : List (List Byte × List Packet)) (s : State) : s.linksChanged (s.sendContent d p cs) := by
  induction cs generalizing s with
  | nil => exact .refl s
  | cons c cs ih =>
    have hpad : ∀ t : State, t.linksChanged (if 1024 ≤ (t.fab d p).unacked.length then t else t.putFlit d p [] []) :=
      fun t => linksChanged_ite (.refl t) (t.linksChanged_putFlit ..)
    exact ((s.linksChanged_putFlit ..).trans (linksChanged_repeat hpad _ _)).trans (ih _)

/-- An I/O die that holds no request has none to answer before it goes (R429). -/
theorem State.fenceWaits_of_no_waits (h : s.fabWaits = []) (d : Nat) : s.fenceWaits d = s := by
  simp only [State.fenceWaits, h, List.filter_nil, List.foldl_nil]
  rw [← h]

/-- Where no fabric request waits, GOODBYE from a die changes the links alone. -/
theorem State.linksChanged_sendGoodbye (h : s.fabWaits = []) (cause d : Nat) : s.linksChanged (s.sendGoodbye cause d) := by
  unfold State.sendGoodbye
  extract_lets v
  have hv : s.linksChanged v := linksChanged_foldl (fun t e => by
    split
    · exact linksChanged_ite (linksChanged_linkControlSend ..) (.refl t)
    · exact .refl t) _ s
  have hw : v.fabWaits = [] := by rw [hv]; exact h
  rw [State.fenceWaits_of_no_waits hw]
  exact linksChanged_ite hv (hv.trans (linksChanged_foldl (fun t p => linksChanged_ite (linksChanged_sendContent ..) (.refl t)) _ v))

end Sys2Proof.Machine
end

section
/-! PROOFS. Reset domains: a write of `BOOT_DOMAIN`, the action that begins or waits, and the action that ends (R674 to R678, R686). -/

namespace Sys2Proof.Machine

open Sys2Proof

variable {s : State} {w : RegWrite} {cmd : Instr} {d act v : Nat} {a : DomainAct} {findings : List Finding} {r : Reg}

/-! ### STATE of a domain -/

theorem lt_of_diePresent {x : Variant} (h : diePresent x d = true) : d < 8 := by
  have hio : ioDies x ≤ 4 := by cases x <;> decide
  simp only [diePresent, Bool.or_eq_true, Bool.and_eq_true, decide_eq_true_eq] at h
  omega

theorem State.domainState_congr {t : State} (h : t.get .bootDomsum = s.get .bootDomsum) (d : Nat) : t.domainState d = s.domainState d := by
  rw [State.domainState, h, State.domainState]

theorem State.domainState_eq_fget (s : State) (d : Nat) : s.domainState d = s.fget .bootDomsum ⟨4 * d, 3⟩ := rfl

/-- STATE of a domain changes `BOOT_DOMSUM`, and where an event follows what raising one changes. -/
theorem State.setDomain_frame (s : State) (d v : Nat) :
    s.setDomain d v = { s with regs := (s.setDomain d v).regs, host := (s.setDomain d v).host, evqPhase := (s.setDomain d v).evqPhase,
                               msixPending := (s.setDomain d v).msixPending, officeEvents := (s.setDomain d v).officeEvents,
                               out := (s.setDomain d v).out } := by
  unfold State.setDomain
  dsimp only
  split
  · rw [((s.fput .bootDomsum ⟨4 * d, 3⟩ v).raise_frame .boot 0 0x038 .bootDomsum).1]
    rfl
  · rfl

/-- A domain whose STATE is put has it (R686). -/
theorem State.domainState_setDomain (s : State) (hd : d < 8) (hv : v < 8) : (s.setDomain d v).domainState d = v := by
  have hput : (s.fput .bootDomsum ⟨4 * d, 3⟩ v).domainState d = v := by
    rw [State.domainState_eq_fget, State.fget_fput_same _ _ _ _ (by dsimp only; omega)]
    exact Nat.mod_eq_of_lt hv
  unfold State.setDomain
  dsimp only
  split
  · rw [State.domainState_congr ((State.raise_frame ..).2 .bootDomsum nofun nofun), hput]
  · exact hput

theorem State.domains_setDomain (s : State) (d v : Nat) : (s.setDomain d v).domains = s.domains := by rw [State.setDomain_frame]

/-- What the stacks hold is the same: cores, far memory, slices and desks. -/
def State.stacksKept (s t : State) : Prop := t.cores = s.cores ∧ t.far = s.far ∧ t.slice = s.slice ∧ t.desk = s.desk

theorem State.stacksKept_setDomain (s : State) (d v : Nat) : s.stacksKept (s.setDomain d v) := by
  rw [State.setDomain_frame]
  exact ⟨rfl, rfl, rfl, rfl⟩

theorem State.stacksKept.trans {t u : State} (h : s.stacksKept t) (h' : t.stacksKept u) : s.stacksKept u :=
  ⟨h'.1.trans h.1, h'.2.1.trans h.2.1, h'.2.2.1.trans h.2.2.1, h'.2.2.2.trans h.2.2.2⟩

theorem State.linksChanged.stacksKept {t : State} (h : s.linksChanged t) : s.stacksKept t := by
  rw [h]
  exact ⟨rfl, rfl, rfl, rfl⟩

/-- What the other ends of a die's edges see is in registers alone. -/
theorem State.stacksKept_peersSee (s : State) (d v : Nat) : s.stacksKept (s.peersSee d v) := by
  refine List.foldlRecOn (motive := fun t : State => s.stacksKept t) _ _ ⟨rfl, rfl, rfl, rfl⟩ fun t ht e _ => ?_
  split
  · split
    · exact ht
    · exact ht
  · exact ht

/-! ### An action begins (R675, R676) -/

theorem State.beginAction_of_not_due (h1 : act = 1 → s.domainState d ≠ 0) (h2 : act = 2 → s.domainState d ≠ 2) : s.beginAction d act = s := by
  rw [State.beginAction, if_neg (fun h => h1 h.1 h.2), if_neg (fun h => h2 h.1 h.2)]

theorem State.beginAction_zero (s : State) (d : Nat) : s.beginAction d 0 = s := State.beginAction_of_not_due nofun nofun

/-- The domain after an action has begun: listed, and going down or coming up. -/
def State.domainBegun (s : State) (d act : Nat) : State :=
  { s with domains := smPut s.domains d ⟨act, 0⟩ }.setDomain d (if act = 1 then 1 else 3)

/-- A domain that is up begins to go down, after GOODBYE; one that is down begins to come up. -/
theorem State.exists_beginAction_eq_domainBegun (h : (act = 1 ∧ s.domainState d = 0) ∨ (act = 2 ∧ s.domainState d = 2)) :
    ∃ t, s.beginAction d act = { t with domains := s.domains }.domainBegun d act ∧ (s.fabWaits = [] → s.stacksKept t) := by
  rcases h with ⟨rfl, hst⟩ | ⟨rfl, hst⟩
  · refine ⟨(s.sendGoodbye 0 d).peersSee d 4, if_pos ⟨rfl, hst⟩, fun hw => ?_⟩
    exact (State.linksChanged_sendGoodbye hw 0 d).stacksKept.trans (State.stacksKept_peersSee _ d 4)
  · refine ⟨s, ?_, fun _ => ⟨rfl, rfl, rfl, rfl⟩⟩
    rw [State.beginAction, if_neg (fun h => nomatch h.1), if_pos ⟨rfl, hst⟩]
    rfl

/-! ### An action arrives (R677) -/

theorem State.domainAction_of_none (h : ¬ (act = 1 ∨ act = 2) ∨ diePresent s.variant d = false) : s.domainAction d act = s := by
  refine if_pos ?_
  rcases h with h | h
  · exact .inl (not_or.mp h)
  · exact .inr (by rw [h]; rfl)

section

variable (ha : act = 1 ∨ act = 2) (hp : diePresent s.variant d = true)

include ha hp

/-- An action on a domain that is present is not dropped. -/
theorem not_action_dropped : ¬ (act ≠ 1 ∧ act ≠ 2 ∨ (!diePresent s.variant d) = true) := by
  rw [hp]
  rintro (⟨h1, h2⟩ | h)
  · exact ha.elim h1 h2
  · cases h

theorem State.domainAction_of_free (hf : smFind s.domains d = none) : s.domainAction d act = s.beginAction d act := by
  rw [State.domainAction, if_neg (not_action_dropped ha hp), hf]

theorem State.domainAction_of_running (hf : smFind s.domains d = some a) :
    s.domainAction d act = { s with domains := smPut s.domains d { a with queued := act } }.setDomain d 4 := by
  rw [State.domainAction, if_neg (not_action_dropped ha hp), hf]

end

/-! ### A write of `BOOT_DOMAIN` (R678, R686) -/

/-- The domain that SEL names after a write. -/
def State.domainSel (s : State) (w : RegWrite) : Nat := (s.written (.bootDomain w.master.copy) w).field BOOT_DOMAIN_SEL

/-- The action that a write asks for. -/
def State.domainAct (s : State) (w : RegWrite) : Nat := fldGet (s.written (.bootDomain w.master.copy) w).ones BOOT_DOMAIN_ACTION

/-- The register takes a write. -/
def State.domainPut (s : State) (w : RegWrite) : State :=
  s.put (.bootDomain w.master.copy) (s.written (.bootDomain w.master.copy) w).new

theorem State.get_domainPut_ne (h : r ≠ .bootDomain w.master.copy) : (s.domainPut w).get r = s.get r := State.get_put_ne _ _ h

theorem State.domainState_domainPut (s : State) (w : RegWrite) (d : Nat) : (s.domainPut w).domainState d = s.domainState d :=
  State.domainState_congr (State.get_domainPut_ne nofun) d

theorem exec_domainCmd_of_admits (hc : cmd ∈ [Instr.domainDown w, .domainUp w])
    (h : s.admits w.master (.bootDomain w.master.copy) = true) : exec cmd s = .next (s.bootDomainWrite w) := by
  have hg : s.guarded w.master (.bootDomain w.master.copy) (fun s => s.bootDomainWrite w) = s.bootDomainWrite w := State.guarded_of_admits h
  simp only [List.mem_cons, List.not_mem_nil, or_false] at hc
  rcases hc with rfl | rfl <;> exact congrArg _ hg

/-- Domain 4 is the office's: another write of an action on it is counted, and nothing else is done (R678). -/
theorem State.bootDomainWrite_of_refused (ha : s.domainAct w = 1 ∨ s.domainAct w = 2) (h : ¬ (s.domainSel w = 4 → w.master = .office)) :
    s.bootDomainWrite w = s.fadd .officeCtl OFFICE_CTL_BLOCKED 1 :=
  if_pos ⟨(Classical.not_imp.mp h).1, ha, (Classical.not_imp.mp h).2⟩

theorem State.bootDomainWrite_of_taken (h : (s.domainAct w = 1 ∨ s.domainAct w = 2) → s.domainSel w = 4 → w.master = .office) :
    s.bootDomainWrite w = (s.domainPut w).domainAction (s.domainSel w) (s.domainAct w) :=
  if_neg fun hn => hn.2.2 (h hn.2.1 hn.1)

/-- A write with no action to begin or to queue only puts the register. -/
theorem State.bootDomainWrite_of_nothing_due
    (h : ¬ (s.domainAct w = 1 ∨ s.domainAct w = 2) ∨ ((s.domainSel w = 4 → w.master = .office) ∧ diePresent s.variant (s.domainSel w) = false) ∨
      ((s.domainSel w = 4 → w.master = .office) ∧ smFind s.domains (s.domainSel w) = none ∧
        (s.domainAct w = 1 → s.domainState (s.domainSel w) ≠ 0) ∧ (s.domainAct w = 2 → s.domainState (s.domainSel w) ≠ 2))) :
    s.bootDomainWrite w = s.domainPut w := by
  rcases h with hact | ⟨htaken, habsent⟩ | ⟨htaken, hfree, h1, h2⟩
  · rw [State.bootDomainWrite_of_taken fun ha => absurd ha hact, State.domainAction_of_none (s := s.domainPut w) (.inl hact)]
  · rw [State.bootDomainWrite_of_taken fun _ => htaken, State.domainAction_of_none (s := s.domainPut w) (.inr habsent)]
  · rw [State.bootDomainWrite_of_taken fun _ => htaken]
    by_cases hdue : (s.domainAct w = 1 ∨ s.domainAct w = 2) ∧ diePresent s.variant (s.domainSel w) = true
    · rw [State.domainAction_of_free (s := s.domainPut w) hdue.1 hdue.2 hfree]
      simp only [← s.domainState_domainPut w] at h1 h2
      exact State.beginAction_of_not_due h1 h2
    · rw [not_and_or, Bool.not_eq_true] at hdue
      exact State.domainAction_of_none hdue

section

variable (ha : s.domainAct w = 1 ∨ s.domainAct w = 2) (ht : s.domainSel w = 4 → w.master = .office)
  (hp : diePresent s.variant (s.domainSel w) = true)

include ha ht hp

/-- An action that is due begins at once (R675, R676). -/
theorem State.bootDomainWrite_begins (hf : smFind s.domains (s.domainSel w) = none)
    (hdue : (s.domainAct w = 1 ∧ s.domainState (s.domainSel w) = 0) ∨ (s.domainAct w = 2 ∧ s.domainState (s.domainSel w) = 2)) :
    (s.bootDomainWrite w).domainState (s.domainSel w) = (if s.domainAct w = 1 then 1 else 3) ∧
      (s.bootDomainWrite w).domains = smPut s.domains (s.domainSel w) ⟨s.domainAct w, 0⟩ ∧
      (s.fabWaits = [] → s.stacksKept (s.bootDomainWrite w)) := by
  simp only [← s.domainState_domainPut w] at hdue
  obtain ⟨t, hbegun, hkept⟩ := State.exists_beginAction_eq_domainBegun hdue
  rw [State.bootDomainWrite_of_taken fun _ => ht, State.domainAction_of_free (s := s.domainPut w) ha hp hf, hbegun]
  refine ⟨State.domainState_setDomain _ (lt_of_diePresent hp) (by split <;> decide), State.domains_setDomain .., fun hw => ?_⟩
  exact State.stacksKept.trans (hkept hw) (State.stacksKept_setDomain ..)

/-- An action behind one that runs is queued (R677). -/
theorem State.bootDomainWrite_queues (hf : smFind s.domains (s.domainSel w) = some a) :
    (s.bootDomainWrite w).domainState (s.domainSel w) = 4 ∧
      (s.bootDomainWrite w).domains = smPut s.domains (s.domainSel w) { a with queued := s.domainAct w } ∧
      s.stacksKept (s.bootDomainWrite w) := by
  rw [State.bootDomainWrite_of_taken fun _ => ht, State.domainAction_of_running (s := s.domainPut w) ha hp hf]
  exact ⟨State.domainState_setDomain _ (lt_of_diePresent hp) (by decide), State.domains_setDomain .., State.stacksKept_setDomain ..⟩

end

/-! ### An I/O die goes down (R33, R397) -/

/-- A surviving die counts a lost one (R405). -/
def State.noteLost (d : Nat) (s : State) (x : Nat) : State :=
  s.fput (.d2dStat x) D2D_STAT_DIES_LOST (s.fget (.d2dStat x) D2D_STAT_DIES_LOST ||| 2 ^ d)

/-- The die that reports a loss: I/O die 0, or a deputy where that is the one lost. -/
def State.lossReporter (s : State) : Nat := if s.dieUp 4 then 4 else s.actingDeputy

/-- The event of the die that reports a loss. -/
def State.reportLoss (s : State) : State :=
  if s.fget (.d2dCtl s.lossReporter) D2D_CTL_INT_EN = 1 then s.raise .d2d s.lossReporter 0x020 (.d2dStat s.lossReporter) else s

/-- Every surviving die counts the loss, and one reports it. -/
def State.tellLoss (s : State) (d : Nat) : State := (((List.range 8).filter s.dieUp).foldl (State.noteLost d) s).reportLoss

theorem State.dieDown_of_io (hd : 4 ≤ d) (hp : diePresent s.variant d = true) (hs : s.domainState d ≠ 2) (goodbye : Bool) :
    s.dieDown d goodbye = (((((s.setDomain d 2).dropIssued d).loseIo (d - 4) goodbye).loseTransport d).tellLoss d).rouse := by
  rw [State.dieDown, if_neg (by simp [hp, hs])]
  dsimp only
  rw [if_neg hd.not_gt]
  rfl

theorem State.get_tellLoss (hx : ∀ x, r ≠ .d2dStat x) (hh : r ≠ .ringEvqStatus) (ho : r ≠ .officeEvq) (d : Nat) :
    (s.tellLoss d).get r = s.get r := by
  have hcount : (((List.range 8).filter s.dieUp).foldl (State.noteLost d) s).get r = s.get r :=
    State.get_foldl (fun _ x => State.get_fput_ne _ _ _ (hx x)) _ s
  rw [State.tellLoss, State.reportLoss, ← hcount]
  split
  · exact (State.raise_frame ..).2 r hh ho
  · rfl

/-- Pail managers that copy nothing to a twin lose nothing with it (R312). -/
theorem State.twinLoss_of_no_syncs (h : ∀ k < 4, (s.pail k).syncs = [] ∧ (s.pail k).parts = []) : s.twinLoss = s := by
  refine List.foldlRecOn (motive := fun t : State => t = s) _ _ rfl ?_
  rintro _ rfl k hk
  obtain ⟨hsyncs, hparts⟩ := h k (List.mem_range.mp hk)
  simp [hsyncs, hparts]

/-- With no request outstanding and nothing on its way to a twin, the loss of an I/O die writes no register. -/
theorem State.get_loseIo_of_no_reqs (hr : s.fabReqs = []) (h : ∀ k < 4, (s.pail k).syncs = [] ∧ (s.pail k).parts = []) (d : Nat)
    (goodbye : Bool) : (s.loseIo d goodbye).get r = s.get r := by
  unfold State.loseIo
  extract_lets ports rest
  have hreqs : rest.fabReqs = [] := by
    dsimp only [rest]
    split <;> simp [ports, hr]
  have hpails : ∀ k, rest.pail k = s.pail k := fun k => by
    dsimp only [rest]
    split <;> rfl
  rw [hreqs, List.filter_nil, List.foldl_nil, State.twinLoss_of_no_syncs (by simpa only [hpails] using h)]
  dsimp only [rest]
  split <;> rfl

theorem State.get_loseTransport (s : State) (d : Nat) : (s.loseTransport d).get r = s.get r := rfl

theorem State.get_dropIssued (s : State) (d : Nat) : (s.dropIssued d).get r = s.get r := rfl

/-- An I/O die of which nothing is outstanding is down once it has gone down, before what waited is tried again. -/
theorem State.dieDown_of_io_is_down (hd : 4 ≤ d) (hd' : d < 8) (hp : diePresent s.variant d = true) (hs : s.domainState d ≠ 2)
    (hr : s.fabReqs = []) (h : ∀ k < 4, (s.pail k).syncs = [] ∧ (s.pail k).parts = []) (goodbye : Bool) :
    ∃ t : State, s.dieDown d goodbye = t.rouse ∧ t.domainState d = 2 := by
  refine ⟨_, State.dieDown_of_io hd hp hs goodbye, ?_⟩
  have hreqs : ((s.setDomain d 2).dropIssued d).fabReqs = [] := by rw [State.setDomain_frame]; exact hr
  have hpails : ∀ k < 4, (((s.setDomain d 2).dropIssued d).pail k).syncs = [] ∧ (((s.setDomain d 2).dropIssued d).pail k).parts = [] := by
    rw [State.setDomain_frame]
    exact h
  have hget : (((((s.setDomain d 2).dropIssued d).loseIo (d - 4) goodbye).loseTransport d).tellLoss d).get .bootDomsum =
      (s.setDomain d 2).get .bootDomsum := by
    refine (State.get_tellLoss (r := .bootDomsum) nofun nofun nofun d).trans ?_
    rw [State.get_loseTransport, State.get_loseIo_of_no_reqs hreqs hpails, State.get_dropIssued]
  rw [State.domainState_congr hget, State.domainState_setDomain s hd' (by decide)]

/-! ### A domain comes up (R676) -/

/-- A domain before its action ends: trained, its findings merged and counted. -/
def State.rolledUp (s : State) (d : Nat) (findings : List Finding) : State :=
  let s := (if d < 4 then s.resetStack d else s.resetIo d).trainDie d
  let found := foundDefects s.variant findings
  let new := (coresOf found).filter fun c => !(coresOf s.defects).contains c
  ((found.foldl State.mergeOne (s.selfTests findings)).trainFindings found).fadd .bootRoll BOOT_ROLL_ROLL_CORES new.length

/-- No defect keeps an I/O die down: I/O die 0 waits for its image, another is up. -/
theorem State.bringUp_of_io (hd : 4 ≤ d) : s.bringUp d findings =
    if d = 4 then { s.rolledUp d findings with boot := { (s.rolledUp d findings).boot with awaiting := true } }
    else (s.rolledUp d findings).endAction d 0 := by
  have hany : ∀ t : State, ¬ (t.defects.any fun x => decide (x.kind = 3) && decide (x.unit % 4 = d) && decide (d < 4)) = true := by
    simp [hd.not_gt]
  unfold State.bringUp
  extract_lets t found new u
  rw [if_neg (hany u), if_neg hd.not_gt]
  rfl

theorem State.awaiting_bringUp (s : State) (findings : List Finding) : (s.bringUp 4 findings).boot.awaiting = true := by
  rw [State.bringUp_of_io (le_refl 4), if_pos rfl]

theorem State.domainState_bringUp (hd : 4 < d) (hd' : d < 8) : (s.bringUp d findings).domainState d = 0 := by
  rw [State.bringUp_of_io hd.le, if_neg hd.ne']
  exact State.domainState_setDomain _ hd' (by decide)

/-! ### DOMAIN_ACTION_COMPLETE (R675 to R677) -/

theorem exec_domainActionComplete_of_free (h : smFind s.domains d = none) : exec (.domainActionComplete d findings) s = .next s := by
  change execDomainActionComplete d findings s = _
  rw [execDomainActionComplete, h]

/-- The action of I/O die 0 does not end while that waits for its image. -/
theorem exec_domainActionComplete_of_awaiting (h : smFind s.domains 4 = some a) (hw : s.boot.awaiting = true) :
    exec (.domainActionComplete 4 findings) s = .next s := by
  change execDomainActionComplete 4 findings s = _
  rw [execDomainActionComplete, h]
  exact if_pos ⟨rfl, hw⟩

section

variable (hf : smFind s.domains d = some a) (hq : a.queued = 0) (hw : d ≠ 4 ∨ s.boot.awaiting = false)

include hf hq hw

/-- With nothing queued behind it, the action that runs ends and none begins. -/
theorem exec_domainActionComplete_of_unqueued : exec (.domainActionComplete d findings) s =
    .next (if a.running = 1 then { s.dieDown d true with domains := smDel s.domains d } else s.bringUp d findings) := by
  have hn : ¬ (d = 4 ∧ s.boot.awaiting = true) := fun h => by simp [h.1, h.2] at hw
  change execDomainActionComplete d findings s = _
  rw [execDomainActionComplete, hf]
  dsimp only
  rw [if_neg hn, hq, State.beginAction_zero, ite_self]

theorem exec_domainActionComplete_down (h : a.running = 1) :
    exec (.domainActionComplete d findings) s = .next { s.dieDown d true with domains := smDel s.domains d } := by
  rw [exec_domainActionComplete_of_unqueued hf hq hw, if_pos h]

theorem exec_domainActionComplete_up (h : a.running = 2) : exec (.domainActionComplete d findings) s = .next (s.bringUp d findings) := by
  rw [exec_domainActionComplete_of_unqueued hf hq hw, if_neg (by omega)]

end

end Sys2Proof.Machine

namespace Sys2Proof.Proofs

open Sys2Proof Sys2Proof.Machine

/-- Settles O60: a write of `BOOT_DOMAIN` by whether its action is refused, not due, due at once or queued; the end of an action by what
runs. -/
theorem domainsGoDownAndComeUp : Obligations.DomainsGoDownAndComeUp := by
  intro s w findings cmd d hc r x sel act acts taken
  refine ⟨fun hadm => ?write, exec_domainActionComplete_of_free, fun a hf hq => ⟨?awaits, fun hw => ⟨fun h => ?down, fun h => ?up⟩⟩⟩
  case write =>
    rw [exec_domainCmd_of_admits hc hadm]
    refine ⟨fun ha hn => ?_, fun h => ?_, fun ha ht hp => ⟨fun hf hdue => ⟨_, rfl, State.bootDomainWrite_begins ha ht hp hf hdue⟩,
      fun a hf => ⟨_, rfl, State.bootDomainWrite_queues ha ht hp hf⟩⟩⟩
    · obtain ⟨hframe, hregs, hcount, -⟩ := countBlocked_changes (State.bootDomainWrite_of_refused ha hn)
      exact ⟨_, rfl, hframe, hregs, hcount⟩
    · rw [State.bootDomainWrite_of_nothing_due h]
      exact ⟨_, rfl, rfl, fun _ hq => State.get_put_ne _ _ hq, State.get_put_same ..⟩
  case awaits =>
    rintro rfl hw
    exact exec_domainActionComplete_of_awaiting hf hw
  case down =>
    exact ⟨exec_domainActionComplete_down hf hq hw h, fun hd hd' hp hs hr hk => State.dieDown_of_io_is_down hd hd' hp hs hr hk true⟩
  case up =>
    exact ⟨exec_domainActionComplete_up hf hq hw h, fun hd => hd ▸ State.awaiting_bringUp s findings, State.domainState_bringUp⟩

end Sys2Proof.Proofs
end
